-- ==== Sys2Proof/Word.lean ====
section
/-! DEFINITION. The words, numbers and names of the deck's parts that every other file uses: the 32-bit register word (chapter 00), the legs, switches, spans, engines, converters, inputs, ports and channels by their numbers (R23, R24, Table 01-1). -/
namespace Sys2Proof

/-- A 32-bit register of BAR0 (chapter 00, Conventions). -/
abbrev Word := BitVec 32
/-- One byte. -/
abbrev Byte := BitVec 8
/-- The 16-bit address word of R26. -/
abbrev AddrWord := BitVec 16
/-- A 64-byte block: a descriptor (R330) or the host part of the doorbell page (R327). Byte k is bits 8k+7..8k. -/
abbrev Block64 := BitVec 512
/-- Leg number L00 to L39 (R24). -/
abbrev Leg := Fin 40
/-- Girder engine G00 to G63 (R91). -/
abbrev EngineId := Fin 64
/-- Converter AD00 to AD15 (R64). -/
abbrev Conv := Fin 16
/-- Converter input AI00 to AI95 (R65). -/
abbrev Input := Fin 96
/-- Plausibility pair 0 to 7 (R65). -/
abbrev Pair := Fin 8
/-- Actuator A0 to A3. -/
abbrev Act := Fin 4
/-- Traction span T0 or T1. -/
abbrev Trac := Fin 2
/-- Field port F00 to F47. -/
abbrev Port := Fin 48
/-- Trestle channel 0 to 63. -/
abbrev Chan := Fin 64
/-- An instant or a duration in units of 1/3072 ns: one Truss step (R108) is 75 units, one ns is 3072, one edge of the
192 MHz converter clock (R64) is 16000, so that every instant the spec names is a whole number. -/
abbrev Instant := Nat
/-- A tick number (R43). -/
abbrev Tick := Nat

/-- The nine spans of a deck (Table 01-1). -/
inductive Span where
  | t0 | t1 | c | q | b | a0 | a1 | a2 | a3
  deriving DecidableEq, Repr

/-- The two switches of a leg (chapter 01, Four levels). -/
inductive Switch where
  | hs | ls
  deriving DecidableEq, Repr

/-- The span codes of Table 01-1. -/
def Span.code : Span → Nat
  | .t0 => 0 | .t1 => 1 | .c => 2 | .q => 3 | .b => 4 | .a0 => 5 | .a1 => 6 | .a2 => 7 | .a3 => 8

/-- The span a code names; codes 9 and up name none. -/
def Span.ofCode? : Nat → Option Span
  | 0 => some .t0 | 1 => some .t1 | 2 => some .c | 3 => some .q | 4 => some .b
  | 5 => some .a0 | 6 => some .a1 | 7 => some .a2 | 8 => some .a3 | _ => none

/-- All nine spans in code order. -/
def Span.all : List Span := [.t0, .t1, .c, .q, .b, .a0, .a1, .a2, .a3]

/-- The span of actuator m. -/
def Span.ofAct (m : Act) : Span :=
  if m.val = 0 then .a0 else if m.val = 1 then .a1 else if m.val = 2 then .a2 else .a3

/-- The span of traction machine m. -/
def Span.ofTrac (m : Trac) : Span := if m.val = 0 then .t0 else .t1

/-- First leg and number of legs of a span (Table 01-1). -/
def Span.legRange : Span → Nat × Nat
  | .t0 => (0, 6) | .t1 => (6, 6) | .c => (12, 8) | .q => (20, 7) | .b => (27, 1)
  | .a0 => (28, 3) | .a1 => (31, 3) | .a2 => (34, 3) | .a3 => (37, 3)

/-- The legs of a span as numbers, ascending (Table 01-1). -/
def Span.legs (x : Span) : List Nat := (List.range x.legRange.2).map (· + x.legRange.1)

/-- The span a leg number belongs to (R23, Table 01-1). -/
def Span.ofLeg (l : Nat) : Span :=
  if l < 6 then .t0 else if l < 12 then .t1 else if l < 20 then .c else if l < 27 then .q
  else if l < 28 then .b else if l < 31 then .a0 else if l < 34 then .a1 else if l < 37 then .a2 else .a3

/-- L00 to L27 are HV legs (R1). -/
def isHvLeg (l : Nat) : Bool := l < 28

end Sys2Proof
end

