-- ==== Sys2Proof/Syntax.lean ====
section
/-! DEFINITION. The commands of the deck: one constructor per row of spec/opcode_table.json, with the operands that the row's rule gives it. The deck is a block: its commands are the steps of spec/95_what_each_step_holds.md. A timed command carries `ofs`, its offset in units of 1/3072 ns from the boundary that opened the tick in progress. -/
namespace Sys2Proof

/-- Completion statuses (R355, Table 15-1). -/
inductive Status where
  | success | tooLate | aborted | timeout
  | invalidAddress | invalidParameter | unknownOpcode | descriptorCrc | sequence | horizon | hostLost | faultLine
  | spanActive | spanUnavailable | causeActive | busy | notOwner | linkAbsent | supplyAbsent | pairImplausible
  | positionInvalid | tableInvalid | senseFault | outOfRange | notReady | pilotInvalid | cableInvalid | gridPresent
  | notHomed | tripActive | wrongState
  | referenceNotSettled | calibrationOutOfRange | selfTestFailed
  | boundaryFull
  | charterValidation | charterFrozen | signatureInvalid | memoryFault
  deriving DecidableEq, Repr

/-- The status codes of Table 15-1. -/
def Status.code : Status → Nat
  | .success => 0x0 | .tooLate => 0x1 | .aborted => 0x2 | .timeout => 0x3
  | .invalidAddress => 0x10 | .invalidParameter => 0x11 | .unknownOpcode => 0x12 | .descriptorCrc => 0x13
  | .sequence => 0x14 | .horizon => 0x15 | .hostLost => 0x16 | .faultLine => 0x17
  | .spanActive => 0x20 | .spanUnavailable => 0x21 | .causeActive => 0x22 | .busy => 0x23 | .notOwner => 0x24
  | .linkAbsent => 0x25 | .supplyAbsent => 0x26 | .pairImplausible => 0x27 | .positionInvalid => 0x28
  | .tableInvalid => 0x29 | .senseFault => 0x2A | .outOfRange => 0x2B | .notReady => 0x2C | .pilotInvalid => 0x2D
  | .cableInvalid => 0x2E | .gridPresent => 0x2F | .notHomed => 0x30 | .tripActive => 0x31 | .wrongState => 0x32
  | .referenceNotSettled => 0x40 | .calibrationOutOfRange => 0x41 | .selfTestFailed => 0x42
  | .boundaryFull => 0x50
  | .charterValidation => 0x60 | .charterFrozen => 0x61 | .signatureInvalid => 0x62 | .memoryFault => 0x63

/-- A descriptor that was fetched and bound (R330, R332). -/
structure Staged where
  /-- The 64 bytes of the descriptor. -/
  desc : Block64
  /-- Its running index. -/
  seq : Nat
  /-- The boundary it is bound to. -/
  bound : Tick
  /-- LATE and LATE_CAUSE (Table 14-5). -/
  late : Bool
  lateCause : Nat
  /-- The status of a check it failed at fetch or staging; it then completes at its boundary and is not applied. -/
  fail : Option Status
  deriving DecidableEq, Repr

/-- The registers of a leg's write set (chapter 05). -/
inductive WReg where
  | per | cmpa | cmpb | phase | mode
  deriving DecidableEq, Repr

/-- What the position sensor of a traction span shows at a boundary (R164, Table 07-5). -/
structure PosIn where
  /-- θr of a resolver or θmech of an encoder, as the tracking loop gives it at that instant. -/
  angle : BitVec 32
  /-- isqrt(sin² + cos²) in 2^−12 of nominal. -/
  amp : Nat
  /-- Tracking-loop error, an angle. -/
  trkErr : BitVec 32
  /-- Resolver excitation current outside its band. -/
  excBad : Bool
  deriving DecidableEq, Repr

/-- What the world shows at a tick boundary (R51). -/
structure BoundaryIn where
  /-- Spans whose compute still runs (R59). -/
  unfinished : List Span
  /-- Timers out by more than one count, and the first timer that got no marker (R123). -/
  syncOut : List Leg
  markerLost : Option Leg
  /-- Copies of dead-time registers upset since the last boundary: leg, copy, value (R132). -/
  dtUpset : List (Leg × Fin 3 × BitVec 9)
  /-- The sensors of T0 and T1. -/
  pos0 : PosIn
  pos1 : PosIn
  /-- Coding resistance of the cable in Ω (R214), and the contactor's auxiliary K_AC_FB (R201). -/
  ppRes : Nat
  kAcFb : Bool
  deriving DecidableEq, Repr

/-- A comparator of the Parapet that a test names (R145): comparator k of a leg in the order of PIER_Lxx_TEST.FAIL, or a
deck unit in the order of PIER_OV_STAT. -/
inductive Comparator where
  | leg (l : Leg) (k : Fin 10)
  | deck (u : Fin 4)
  deriving DecidableEq, Repr

/-- A clock whose loss the monitor detects (R125), or a debug halt. -/
inductive ClockId where
  | counter | fabric | halt
  deriving DecidableEq, Repr

/-- One cycle of the control pilot as the pilot unit measures it (R212). -/
structure PilotIn where
  /-- Frequency in Hz. -/
  freq : Nat
  /-- Duty in 0.1 %. -/
  duty : Nat
  /-- High and low plateau in mV; none where the cycle has no such plateau. -/
  high : Option Int
  low : Option Int
  deriving DecidableEq, Repr

/-- A gPTP Sync as the time port measured it (R297, R301). -/
structure SyncIn where
  domain : BitVec 7
  /-- Identity of the grandmaster. -/
  gm : BitVec 64
  /-- Local instant of receipt minus the origin time and the correction of the message, ns; the deck takes its path delay off. -/
  offset : Int
  /-- The frequency correction that the discipline forms from it, 0.001 ppm. -/
  adj : Int
  deriving DecidableEq, Repr

/-- A gPTP Announce (R301). -/
structure AnnounceIn where
  domain : BitVec 7
  prio1 : BitVec 8
  cls : BitVec 8
  acc : BitVec 8
  var : BitVec 16
  prio2 : BitVec 8
  id : BitVec 64
  deriving DecidableEq, Repr

/-- What a signed span image holds (start step 5). -/
structure ImageIn where
  /-- The bytes of the signed image, over which the digest is formed. -/
  bytes : List Byte
  /-- Its LK and RO register words, by BAR0 offset. -/
  regs : List (Nat × Word)
  /-- Configurations of message objects: port, object, CFG, ID, PUB, AUX. -/
  objs : List (Port × Fin 128 × Word × Word × Word × Word)
  /-- Partner records: number and the four words of Table 16-4. -/
  ptns : List (Fin 4096 × Word × Word × Word × Word)
  /-- Launch entries LT240 to LT255 (R307). -/
  lt : List (Fin 16 × BitVec 256)
  /-- The signals of the telemetry set and of the recorder set, by register offset. -/
  tlm : List Nat
  recs : List Nat
  tlmDigest : Word
  /-- The constants of R456, in the order of their names there, and the scale of the AC current. -/
  v300 : List (Nat × Int)
  v12 : Int
  v24 : Int
  pC : Int
  p3000 : Int
  i62 : Int
  i160 : Int
  cOvLess50 : Int
  acAmp : Int
  /-- The CRC-32C of the flux maps of T0 and T1 that the image names (R162). -/
  mapCrc0 : Word
  mapCrc1 : Word
  deriving DecidableEq, Repr

/-- What the start steps 1 to 5 find (Table 18-1): what the ROM loader, the memories and the signatures show. -/
structure StartIn where
  /-- What MRAM holds at the first start of the deck, where it holds no record yet: the factory charter and calibration
  set. -/
  factory : List (Nat × Word)
  factoryCal : List Word
  /-- Identity fuses readable, and the identity registers they give. -/
  fusesOk : Bool
  fuses : List (Nat × Word)
  /-- The signatures of firmware copies A and B verify; the verified copy fits the hardware; KST_FW_ID of each. -/
  fwA : Bool
  fwB : Bool
  fwFits : Bool
  fwIdA : Word
  fwIdB : Word
  /-- Keystone RAM test; difference patterns not caught (R252). -/
  ramOk : Bool
  missed : List (Fin 64)
  /-- The dead-time copies agree on readback. -/
  dtOk : Bool
  /-- The signatures of image copies A and B verify, and what they hold. -/
  imgA : Bool
  imgB : Bool
  image : ImageIn
  /-- The selected image was built for this firmware release; its topology, roles and masks agree with the charter. -/
  imgFw : Bool
  imgCharter : Bool
  /-- The step in which an MRAM read was uncorrectable, if any (R425). -/
  mramBad : Option (Fin 6)
  /-- Time from t_s to the end of step 5, in 1/3072 ns (R455). -/
  dur : Nat
  /-- The calendar stopped while unpowered (R321). -/
  calLost : Bool
  /-- Seconds since 1970 that the calendar shows otherwise are its own; VBAK kept the cause of the reset (R405). -/
  vbakOk : Bool
  deriving DecidableEq, Repr

/-- How a send attempt ends (R373, R388). -/
inductive AttemptEnd where
  /-- Sent; the transmitter delay measured in its data phase, kernel clocks (R371). -/
  | success (tdc : Option Nat)
  | lostArbitration
  /-- Arbitration won, then a bit error detected as transmitter in the control, data or CRC field. -/
  | bitError
  /-- Another error; a bare missing acknowledgement is told apart, since ISO 11898-1 leaves TEC of an error-passive node. -/
  | otherError
  | noAck
  /-- The measured delay is above 127 kernel clocks (R371). -/
  | delayError (delay : Nat)
  deriving DecidableEq, Repr

/-- A valid received frame (R377). -/
structure RxFrame where
  id : BitVec 29
  ide : Bool
  /-- 0 classical, 1 FD, 2 FD with bit-rate switching, 3 XL. -/
  fmt : Fin 4
  remote : Bool
  esi : Bool
  data : List Byte
  sdt : BitVec 8
  vcid : BitVec 8
  sec : Bool
  af : BitVec 32
  deriving DecidableEq, Repr

/-- A reading of a Trestle channel in a round (R393, R395). -/
inductive Reading where
  | value (v : Int)
  | opened
  | shorted
  deriving DecidableEq, Repr

/-- An edge of the filtered output of comparator unit A (0) or B (1) of a line, `ofs` into the tick (R137). -/
structure LineEdge where
  unit : Fin 2
  on : Bool
  ofs : Nat
  deriving DecidableEq, Repr

/-- A gate rail, in the order of PIER_Lxx_STAT [3:0], seen at a voltage in mV (R133). -/
structure RailLow where
  rail : Fin 4
  mv : Int
  deriving DecidableEq, Repr

/-- A leg and the voltage in mV of each of its four rails that lay nearest its threshold in the last 1 ms (R134). -/
structure RailReads where
  leg : Leg
  mv : List Int
  deriving DecidableEq, Repr

/-- The commands: one constructor per row of spec/opcode_table.json, in the table's order. -/
inductive Instr where
  /-- TICK_BOUNDARY (R51): At each tick boundary the deck lands due TL writes, applies bound commands and launch actions, and makes the states computed in the previous tick current. -/
  | tickBoundary (inp : BoundaryIn)
  /-- DOORBELL_FETCH (R328): In Φ1 the deck reads the doorbell page and the announced descriptors, checks and binds them, and judges host loss. -/
  | doorbellFetch (page : Option Block64) (descs : List Block64)
  /-- REGULAR_SEQUENCE_START (R69): Slot 0 of both converters of a pair starts together at the first free converter-clock edge at or after the boundary plus START. -/
  | regularSequenceStart (p : Pair)
  /-- REGULAR_SLOT_END (R68): A regular conversion ends, its result is formed by R67 and compared against its window, and the next slot starts. -/
  | regularSlotEnd (c : Conv) (code : BitVec 16)
  /-- INJECTED_TRIGGER (R72): A trigger enters its converter's priority queue, or is ignored while sequencing is off or the converter is calibrating. -/
  | injectedTrigger (c : Conv) (j : Fin 4) (ofs : Nat)
  /-- INJECTED_SEQUENCE_START (R73): The head of the queue starts its injected sequence when the converter is free. -/
  | injectedSequenceStart (c : Conv)
  /-- INJECTED_SEQUENCE_END (R75): An injected sequence ends, its results or carrier-synchronous group are formed, and the windows are compared. -/
  | injectedSequenceEnd (c : Conv) (codes : List (BitVec 16))
  /-- PHI0_SNAPSHOT (R71): At T0END the deck latches the snapshot of all 96 inputs and the other tick inputs, and judges the twin's frame. -/
  | phi0Snapshot (ov : List (Fin 4)) (inj : List (Conv × List (BitVec 16)))
  /-- PHI2_COMPUTE (R56): Once Φ0 and Φ1 have ended, the spans, Arch pipeline and girder engines compute the tick's outputs from its inputs. -/
  | phi2Compute (endAt : Nat) (tie : List (Fin 4))
  /-- PHI3_MIRROR (R268): After compute, the deck writes completions, events, telemetry and the recorder row, and sends the mirror frame on both lanes. -/
  | phi3Mirror
  /-- PERIOD_START (R113): A leg's carrier period begins, the shadow set is taken at a pending reload, and the interlock is evaluated. -/
  | periodStart (l : Leg)
  /-- DIRECT_WRITE (R114): A host write to a direct-mode write-set register is held and assigned to a tick by the cutover instant. -/
  | directWrite (l : Leg) (r : WReg) (v : Word) (ofs : Nat)
  /-- DIRECT_COMMIT (R115): A host write of COMMIT commits the direct-mode span in the tick to which it is assigned. -/
  | directCommit (l : Leg) (ofs : Nat)
  /-- OC_LINE_ASSERT (R119): An unblanked overcurrent line ends the on-pulse and blocks the switch to the period end, with the partner commanded on in COMP. -/
  | ocLineAssert (l : Leg) (e : LineEdge)
  /-- BLANK_WINDOW_END (R121): At the end of the overcurrent blanking window an overcurrent line that is still asserted acts under R119. -/
  | blankWindowEnd (l : Leg) (ofs : Nat)
  /-- SC_LINE_ASSERT (R141): The never-blanked short line ends the pulse by soft turn-off, counts a trip period and raises E001. -/
  | scLineAssert (l : Leg) (e : LineEdge)
  /-- DESAT_DETECT (R138): An asserted desaturation comparator starts soft turn-off of the switch, sets the latch and raises E000. -/
  | desatDetect (l : Leg) (x : Switch) (ofs : Nat)
  /-- DESAT_BLANK_END (R138): At the end of desaturation blanking the comparator is evaluated and may start soft turn-off. -/
  | desatBlankEnd (l : Leg) (x : Switch) (asserted : Bool) (ofs : Nat)
  /-- SOFT_OFF_PLATEAU_END (R139): At the end of the soft turn-off plateau the gate goes to VNEG and the partner's dead time starts. -/
  | softOffPlateauEnd (l : Leg) (x : Switch) (ofs : Nat)
  /-- UVLO_TRIP (R134): A gate-rail UVLO turns the switch and its partner off, makes the leg unusable and raises E007. -/
  | uvloTrip (l : Leg) (r : RailLow) (ofs : Nat)
  /-- UVLO_RECOVER (R134): After every rail has held its recovery level for 1 ms the leg becomes usable again at the next boundary. -/
  | uvloRecover (r : RailReads)
  /-- BOOTSTRAP_UVLO_TIMEOUT (R136): An LV bootstrap UVLO lasting longer than 1 ms makes the leg unusable and raises E007. -/
  | bootstrapUvloTimeout (l : Leg) (ofs : Nat)
  /-- LINK_OV_TRIP (R144): A link overvoltage drives T0, T1 and Q to their latched patterns within 1 µs and raises E012. -/
  | linkOvTrip (u : Fin 2) (ofs : Nat)
  /-- C_OV_TRIP (R193): A converter overvoltage latches the crowbar on C within 1 µs and raises E013. -/
  | cOvTrip (u : Fin 2) (ofs : Nat)
  /-- ZCD_DETECT (R190): A zero-current comparator ends the synchronous switch's pulse for the rest of the period. -/
  | zcdDetect (k : Fin 8) (ofs : Nat)
  /-- OVERSHOOT_TRUNCATE (R191): An overshoot comparator truncates the energising pulses of C, counts them and raises E059. -/
  | overshootTruncate (ofs : Nat)
  /-- COMPARATOR_TEST (R145): The scheduler injects a stimulus into a comparator and checks it, marking the leg unprotected on a failure. -/
  | comparatorTest (k : Comparator) (pass : Bool) (ofs : Nat)
  /-- TEST_ROUND_END (R146): At the end of each 4,096-tick round an untested comparator sets TEST_OVERDUE and raises E015. -/
  | testRoundEnd
  /-- TEST_AGE_OVERDUE (R257): A leg whose test age reaches 12,288 ticks while switching is marked unprotected with cause overdue. -/
  | testAgeOverdue (l : Leg)
  /-- HALL_STATE_CHANGE (R150): A filtered Hall state change updates commutation in three-pin mode and the actuator's position count. -/
  | hallStateChange (m : Act) (v : Fin 8) (ofs : Nat)
  /-- CLOCK_FAIL (R125): A stopped or out-of-band counter or fabric clock drives every leg to its latched safe pattern within 100 ns. -/
  | clockFail (k : ClockId) (ofs : Nat)
  /-- DEBUG_HALT (R125): A debug halt of the control fabric drives every leg to its latched safe pattern like a clock stop. -/
  | debugHalt (ofs : Nat)
  /-- CLOCKS_VALID (R125): When clocks are valid again or the halt ends, E006 is raised and the Keystone fault line is asserted. -/
  | clocksValid (ofs : Nat)
  /-- TORQUE_PEAK_EXHAUST (R172): The traction peak counter reaching 30 s / P holds the limits at TQ_CONT and raises E056. -/
  | torquePeakExhaust (t : Trac)
  /-- DIP_END (R171): When a torque dip's duration ends, dip returns to 1.0 and torque ramps up again. -/
  | dipEnd (t : Trac)
  /-- ASC_EXIT_NO_ANGLE (R175): In SAFE without an angle, 256 trusted ticks below ASC_I change the span to the OFF zone with E054. -/
  | ascExitNoAngle (t : Trac)
  /-- SENSE_FAULT_CLEAR (R199): A sense-line fault clears after 1,024 ticks without a cause, and C's availability returns. -/
  | senseFaultClear
  /-- PILOT_CYCLE (R212): The pilot unit measures a cycle's duty and levels, decodes the state and the current limit, and raises E061 on a change. -/
  | pilotCycle (p : PilotIn)
  /-- KAC_FB_TIMEOUT (R215): K_AC_FB differing from the command for more than 100 ms sends Q to SAFE with cause 10. -/
  | kacFbTimeout (ofs : Nat)
  /-- BRAKE_PEAK_EXHAUST (R220): The brake peak counter reaching 10 s / P holds the duty at dcont and raises E063. -/
  | brakePeakExhaust
  /-- SHIFT_TIMEOUT (R239): A shift that has run SHIFT_TMO ticks ends with outcome timeout. -/
  | shiftTimeout (m : Act)
  /-- HOME_TIMEOUT (R235): A home that reaches SHIFT_TMO ticks ends with outcome timeout and the span holds with HOMED 0. -/
  | homeTimeout (m : Act)
  /-- ACTUATOR_PEAK_EXHAUST (R238): The actuator peak counter reaching 2 s / P sets PEAK_EXH and raises E043. -/
  | actuatorPeakExhaust (m : Act)
  /-- LOCKSTEP_MISMATCH (R246): A difference between the two cores' transactions asserts the Keystone fault line and records the mismatch. -/
  | lockstepMismatch (addr : Word) (ofs : Nat)
  /-- WATCHDOG_SERVICE (R247): A firmware service of the window watchdog is accepted inside the window or asserts the fault line outside it. -/
  | watchdogService (ofs : Nat)
  /-- WATCHDOG_EXPIRY (R247): No service by P − 1 µs asserts the fault line and sets KST_FAULT.WDT. -/
  | watchdogExpiry
  /-- RAM_ECC_ERROR (R248): A single-bit RAM error is corrected and counted, and a double-bit error asserts the fault line. -/
  | ramEccError (trailing : Bool) (double : Bool) (ofs : Nat)
  /-- DEBUG_ATTACH (R254): A probe attach sets LS_BROKEN, disables the comparator, removes the HV pier enables and raises E020. -/
  | debugAttach (ofs : Nat)
  /-- LS_BROKEN_CLEAR (R254): LS_BROKEN clears when VSUP has stayed below 2.5 V for 1 s. -/
  | lsBrokenClear
  /-- HANDSHAKE_FRAME (R266): A received handshake frame is checked against the pairing checks, and pairing completes after 16 good ticks. -/
  | handshakeFrame (l0 : Option (List Byte)) (l1 : Option (List Byte)) (ofs : Nat)
  /-- PAIRING_TIMEOUT (R266): Pairing not complete within 1.5 s of the first handshake fails the start, or lets a SOLO deck go on alone. -/
  | pairingTimeout
  /-- MIRROR_FRAME (R274): A received mirror frame is checked and stored as the twin's input for the next tick. -/
  | mirrorFrame (l0 : Option (List Byte)) (l1 : Option (List Byte)) (ofs : Nat)
  /-- RELINQUISH_FRAME (R282): A received relinquish frame schedules takeover of every span that the twin gave up. -/
  | relinquishFrame (l0 : Option (List Byte)) (l1 : Option (List Byte)) (ofs : Nat)
  /-- SYNC_MESSAGE (R297): A valid gPTP Sync updates the offset, steps or steers the count, and moves the clock state. -/
  | syncMessage (m : SyncIn) (ofs : Nat)
  /-- SYNC_LOSS (R297): No valid Sync for three intervals puts the clock into HOLDOVER with E073. -/
  | syncLoss (ofs : Nat)
  /-- ANNOUNCE_MESSAGE (R301): A gPTP Announce is taken into the BMCA, which may make this deck grandmaster or slave. -/
  | announceMessage (m : AnnounceIn) (ofs : Nat)
  /-- PDELAY_EXCHANGE (R301): The peer-to-peer delay exchange measures the path delay on the time port. -/
  | pdelayExchange (t1 : Int) (t2 : Int) (t3 : Int) (t4 : Int)
  /-- GRANDMASTER_SYNC_SEND (R301): As grandmaster the deck sends two-step Sync and Announce messages at its configured intervals. -/
  | grandmasterSyncSend (ofs : Nat)
  /-- LAUNCH_MARKER_DRIVE (R302): The driver deck raises a 200 ns marker at every multiple of LINE_PER. -/
  | launchMarkerDrive
  /-- LAUNCH_MARKER (R303): A received marker is timestamped, gives the phase error, and steers the count or validates the line. -/
  | launchMarker (steps : Nat)
  /-- LAUNCH_MARKER_MISSING (R303): Three expected markers missing or out of window make the line invalid with E074. -/
  | launchMarkerMissing (ofs : Nat)
  /-- CENSUS_READY (R316): The census copy completes within 1 ms, READY is set, NEXT toggles and E078 is raised. -/
  | censusReady (ofs : Nat)
  /-- LEAP_SECOND_INSERT (R320): At the announced day end the calendar inserts a positive leap second and raises E079. -/
  | leapSecondInsert (ofs : Nat)
  /-- RTC_TRIM_UPDATE (R321): Every 64 s the calendar crystal is measured against Pylon time and CAL_RTC_TRIM is updated. -/
  | rtcTrimUpdate (trim : BitVec 16) (ofs : Nat)
  /-- VBAK_LOW (R321): VBAK below 2.0 V with VSUP present sets VBAK_LOW and raises E079 once. -/
  | vbakLow (ofs : Nat)
  /-- PROTECTION_EVENT_WRITE (R337): A protection event is queued, coalesced or written by the Causeway without the cores, as soon as a slot and the link are free. -/
  | protectionEventWrite
  /-- PCIE_LINK_CHANGE (R324): A PCIe link-down, link-up or change of speed or width raises E069 and never resets the deck. -/
  | pcieLinkChange (up : Bool) (speed : Fin 5) (width : Fin 5) (ofs : Nat)
  /-- PCIE_PERST (R324): PCIE_PERST_N or a hot reset resets the endpoint only and no span's state. -/
  | pciePerst (ofs : Nat)
  /-- FALLBACK_FRAME (R347): A fall-back frame on F00 is checked and bound, issues stop, hold, limp torque or park, and is answered with E068. -/
  | fallbackFrame
  /-- CAN_FRAME_RECEIVED (R377): A valid received frame is matched to a receive object and written into its ledger slot, or counted as unmatched. -/
  | canFrameReceived (p : Port) (f : RxFrame) (ofs : Nat)
  /-- FRAME_ATTEMPT_END (R373): A send attempt ends in success, lost arbitration or an error, updating the error counters and the choice of the next entry. -/
  | frameAttemptEnd (p : Port) (e : AttemptEnd) (ofs : Nat)
  /-- PORT_INTEGRATION (R368): After 11 recessive bits following deck ready an enabled port joins its bus as ERROR_ACTIVE. -/
  | portIntegration (p : Port) (ofs : Nat)
  /-- BUS_OFF_RECOVERY_START (R387): BO_HOLD ms after BUS_OFF with BO_AUTO, recovery starts and E089 is raised. -/
  | busOffRecoveryStart (p : Port) (ofs : Nat)
  /-- BUS_OFF_RECOVERED (R387): After 128 recessive sequences the port becomes ERROR_ACTIVE and offers its stranded objects again. -/
  | busOffRecovered (p : Port) (ofs : Nat)
  /-- REROUTE_TEST (R386): Every 1 ms stranded objects are tested and copied to the alternate port's re-route queue with E090. -/
  | rerouteTest (ofs : Nat)
  /-- PARTNER_AGE_TICK (R382): Every 1 ms each partner's AGE rises, and a partner reaching TMO becomes LOST with E093. -/
  | partnerAgeTick (ofs : Nat)
  /-- TXREQ (R375): A host write of TXREQ sets the selected host object pending for sending. -/
  | txreq (p : Port) (ofs : Nat)
  /-- OBJ_ABORT (R375): A host write of ABORT clears the selected object's PEND and STRAND. -/
  | objAbort (p : Port) (ofs : Nat)
  /-- RESUME (R389): A host write of RESUME returns a suspended object to arbitration. -/
  | resume (p : Port) (ofs : Nat)
  /-- BO_RECOVER (R387): A host write of BO_RECOVER starts recovery of a BUS_OFF port. -/
  | boRecover (p : Port) (ofs : Nat)
  /-- LDG_SEL (R379): A write of LDG_SEL copies a ledger slot into the read buffer and clears its UNREAD and OVR. -/
  | ldgSel (slot : Fin 16384) (ofs : Nat)
  /-- TRESTLE_ROUND_POST (R393): Each 1 ms round's results are posted, and warnings, throttle and coolant factors, shut-down and broken channels are evaluated. -/
  | trestleRoundPost (r : List (Chan × Reading))
  /-- BEARING_LINK_PRESENT (R400): A link at or above 300 V for 1 ms moves the Bearing supply from OFF to STARTING. -/
  | bearingLinkPresent (ofs : Nat)
  /-- BEARING_OUTPUT_IN_BAND (R400): An output in band for 2 ms moves the Bearing supply from STARTING to ON. -/
  | bearingOutputInBand (ofs : Nat)
  /-- BEARING_START_TIMEOUT (R400): An output not in band 20 ms after STARTING puts the Bearing supply into FAULT. -/
  | bearingStartTimeout
  /-- BEARING_LINK_LOSS (R400): A link below 300 V turns the Bearing supply OFF within 50 µs. -/
  | bearingLinkLoss (ofs : Nat)
  /-- BEARING_FAULT_HOLD_END (R400): After 100 ms in FAULT the supply returns to OFF, or latches after three faults in 10 s. -/
  | bearingFaultHoldEnd
  /-- VSUP_WARN (R402): VSUP below 7.2 V for 10 µs freezes MRAM writes and raises E105 and E112. -/
  | vsupWarn (cross : Nat) (ofs : Nat)
  /-- VSUP_DIP_END (R403): VSUP back at 7.6 V for 10 µs ends the dip, lifts the freeze and raises E106. -/
  | vsupDipEnd (cross : Nat) (ofs : Nat)
  /-- VSUP_LONG_DIP (R404): Still in WARN at 50 ms, the deck enters LONG, sends the HV spans to SAFE and raises E107. -/
  | vsupLongDip
  /-- DECK_RESET (R405): VSUP below 5.0 V for 4 ms or an internal rail out of band resets the deck with legs on their latched patterns. -/
  | deckReset (rail : Option (Fin 5)) (ofs : Nat)
  /-- START (R408): On release of reset the deck runs the start steps: firmware, RAM test and injection, charter, calibration, and image. -/
  | start (inp : StartIn)
  /-- GO (R408): A host write of GO ends host set-up, step 7 of the start. -/
  | go (ofs : Nat)
  /-- START_TIMEOUT (R408): Deck ready not reached by t_s + 2.0 s fails the start with the cause of the pending step. -/
  | startTimeout
  /-- AUTO_RESTART (R410): 100 ms after a failed start with a count below 3, the deck starts again. -/
  | autoRestart
  /-- ABUT (R414): A host write of ABUT enters abutment mode with cause 24 at the next boundary, where permitted. -/
  | abut (ofs : Nat)
  /-- ABUTMENT_SERVICE_TICK (R412): In abutment mode the Causeway fetches and applies NOP, DECK_RESTART and UPDATE on a free 1 ms service tick. -/
  | abutmentServiceTick (page : Option Block64) (descs : List Block64)
  /-- RECORD_CLOSE (R428): A record whose window has filled closes, and the next slot is armed or the recorder stops. -/
  | recordClose
  /-- REC_SLOT_RELEASE (R428): A host write of MRM_REC_CTRL releases a record slot, which is armed at the next boundary. -/
  | recSlotRelease (mask : BitVec 5)
  /-- MRAM_WRITE_DONE (R423): An MRAM write served in priority order is read back, and a failure sets WR_FAIL and raises E112. -/
  | mramWriteDone (ok : Bool)
  /-- CHARTER_CHANGE_LANDS (R417): After the copy and record readbacks the new charter lands at the next boundary, and CHARTER completes with E108. -/
  | charterChangeLands
  /-- CAL_SET_SWITCH (R419): After staging and readback the deck switches to the new calibration set, clears the old one and raises E110. -/
  | calSetSwitch
  /-- UPDATE_VERIFIED (R420): The written copy is verified and becomes pending with E111, or is left invalid. -/
  | updateVerified (ok : Bool)
  /-- ADC_CAL_END (R86): Converter self-calibration ends after 1.8 ms, and its factors are written or the failure raises E104. -/
  | adcCalEnd (c : Conv) (gain : Nat) (offset : Int)
  /-- REF_ENABLE (R83): Writing REF_EN 1 starts the reference buffer and the 500 µs settle timer. -/
  | refEnable (ofs : Nat)
  /-- REF_DISABLE (R83): Writing REF_EN 0 clears SETTLED at once. -/
  | refDisable
  /-- REF_SETTLED (R83): The settle timer expires and SETTLED becomes 1. -/
  | refSettled
  /-- SEQ_EN (R68): Writing SEQ_EN starts or stops the regular sequences and triggers from the next boundary. -/
  | seqEn (v : Bool)
  /-- CAUSEWAY_ENABLE (R325): Writing CWY_CTRL.EN starts page reads and ring writes from the next boundary. -/
  | causewayEnable (v : Bool)
  /-- STAT_RESET (R63): A host write of STAT_RESET returns TICK_SLACK_MIN to 0xFFFF. -/
  | statReset
  /-- CENSUS_RELEASE (R318): Writing RELk releases census bank k and clears READYk. -/
  | censusRelease (k : Fin 4)
  /-- TL_REGISTER_WRITE (R52): A host write to a tick-latched register is held for the next boundary, a later write in the same tick overwriting it. -/
  | tlRegisterWrite (off : Nat) (v : Word) (be : BitVec 4) (ofs : Nat)
  /-- HIGH_WORD_LATCH_READ (R435): A read of a _LO register latches its matching high word or calendar fields. -/
  | highWordLatchRead (off : Nat) (ofs : Nat)
  /-- DATA_WINDOW_ACCESS (R435): An access to a data-window register returns or writes a word and advances its address by 4. -/
  | dataWindowAccess (off : Nat) (wr : Option Word) (ecc : Fin 3)
  /-- REGISTER_WRITE (R20): A host write to any other register is applied by its access type. -/
  | registerWrite (off : Nat) (v : Word) (be : BitVec 4) (ofs : Nat)
  /-- NOP (R357): NOP does nothing and reports the Pylon instant of its boundary. -/
  | nop (d : Staged)
  /-- ABORT (R335): ABORT removes staged descriptors with the target tag, or hands a running operation to its span, or reports too-late. -/
  | abortCmd (d : Staged)
  /-- DECK_RESTART (R359): DECK_RESTART is completed by the Causeway in hardware, discards later staged descriptors and starts the deck. -/
  | deckRestart (d : Staged)
  /-- LT_WRITE (R306): LT_WRITE checks and arms a launch-table entry in a slot from its boundary. -/
  | ltWrite (d : Staged)
  /-- LT_CLEAR (R306): LT_CLEAR empties a launch-table slot at its boundary. -/
  | ltClear (d : Staged)
  /-- CAL_MAP (R320): CAL_MAP sets the calendar from a Pylon instant and a stamp, making it DISCIPLINED with E079. -/
  | calMap (d : Staged)
  /-- HANDOVER (R286): HANDOVER moves a span's lead or ownership, or the Causeway lead, to the twin at its boundary. -/
  | handover (d : Staged)
  /-- TL_SET (R360): TL_SET writes up to four tick-latched registers as one checked set at its boundary. -/
  | tlSet (d : Staged)
  /-- ENG_COEF (R361): ENG_COEF puts a complete coefficient set into force for an engine, with rebase. -/
  | engCoef (d : Staged)
  /-- ENG_LIMIT (R361): ENG_LIMIT puts a new output limit set into force for an engine. -/
  | engLimit (d : Staged)
  /-- ADC_CAL (R85): ADC_CAL starts self-calibration of the named converters once the reference has settled and their spans are off. -/
  | adcCal (d : Staged)
  /-- PAIR_REARM (R82): PAIR_REARM clears the implausible verdicts and mismatch runs of the named pairs. -/
  | pairRearm (d : Staged)
  /-- ADC_TRIG (R357): ADC_TRIG delivers a host trigger to the type 4 sources of the named converters at boundary plus OFFSET. -/
  | adcTrig (d : Staged)
  /-- SELF_TEST (R147): SELF_TEST tests every comparator of the named legs, or the four deck comparators, and reports failures. -/
  | selfTest (fails : List (Leg × Fin 10)) (units : List (Fin 4))
  /-- TRIP_CLEAR (R120): TRIP_CLEAR clears the trip latch and empties the trip window of the named legs unless a trip line is still asserted. -/
  | tripClear (d : Staged)
  /-- PIER_CLEAR (R140): PIER_CLEAR clears the desaturation latches of the named legs when they are off. -/
  | pierClear (d : Staged)
  /-- CHARTER (R416): CHARTER reads and validates a new charter block by DMA and starts the charter change. -/
  | charter (block : List Byte) (imageFits : Bool)
  /-- CAL_WRITE (R419): CAL_WRITE reads a new calibration set by DMA and starts its staged overwrite. -/
  | calWrite (block : List Byte)
  /-- UPDATE (R420): UPDATE writes new firmware or span image into the inactive copy. -/
  | update (block : List Byte) (proper : Nat)
  /-- REC_TRIG (R427): REC_TRIG triggers a record at its boundary and reports the record number. -/
  | recTrig (d : Staged)
  /-- MODE (R362): MODE requests a span state change that the span's transition table checks, with an optional target value. -/
  | mode (d : Staged)
  /-- TQ_TARGET (R170): TQ_TARGET replaces a traction span's torque target at its boundary. -/
  | tqTarget (d : Staged)
  /-- SPD_TARGET (R363): SPD_TARGET replaces a traction span's speed target at its boundary. -/
  | spdTarget (d : Staged)
  /-- T_POS_REARM (R165): T_POS_REARM clears a latched position-sensor fault when no cause is present. -/
  | tPosRearm (d : Staged)
  /-- C_VTGT (R184): C_VTGT replaces span C's voltage target, and the slew continues toward it. -/
  | cVtgt (d : Staged)
  /-- C_ITGT (R185): C_ITGT sets span C's current demand, clipped to its limits. -/
  | cItgt (d : Staged)
  /-- C_PHASES (R189): C_PHASES fixes the phase count of span C or returns it to automatic add and shed. -/
  | cPhases (d : Staged)
  /-- C_CROWBAR_CLR (R195): C_CROWBAR_CLR releases the crowbar latch when the overvoltage has cleared and the senses agree. -/
  | cCrowbarClr (d : Staged)
  /-- Q_POWER (R207): Q_POWER sets the charger's active and reactive power targets. -/
  | qPower (d : Staged)
  /-- A_HOLD (R229): A_HOLD puts an actuator into HOLD at its present or a given position. -/
  | aHold (d : Staged)
  /-- A_SHIFT (R239): A_SHIFT starts a shift of an actuator to a gear slot, and completes when the shift ends. -/
  | aShift (d : Staged)
  /-- A_PARK (R242): A_PARK starts a shift of the park lock to slot 1, ending in PARK when done. -/
  | aPark (d : Staged)
  /-- A_RELEASE (R242): A_RELEASE starts a shift of the park lock to slot 0, ending in HOLD when done. -/
  | aRelease (d : Staged)
  /-- A_CURRENT (R229): A_CURRENT puts an actuator into CURRENT with a target clamped to its limit. -/
  | aCurrent (d : Staged)
  /-- A_HOME (R235): A_HOME drives an actuator against its end stop and completes when the home ends. -/
  | aHome (d : Staged)
  /-- A_POS_REARM (R236): A_POS_REARM clears a latched actuator position fault when no cause is present. -/
  | aPosRearm (d : Staged)
  /-- SWITCHING_EDGE (R110): Within a carrier period a leg's counter reaches a compare position, and the HS or LS command of the leg changes. -/
  | switchingEdge (l : Leg) (tau : Nat)
  /-- GATE_ON_EDGE (R130): The pier's dead-time delay expires and the delayed turn-on raises the switch's gate. -/
  | gateOnEdge (l : Leg) (x : Switch)
  /-- CARRIER_CENTRE (R164): At the carrier centre of the set-a U leg the position unit captures θe, paired with the current group of that period. -/
  | carrierCentre (t : Trac) (angle : BitVec 32)
  /-- K_AC_OUT_FAULT (R450): A short or overheating of K_AC_OUT turns the output off and holds it off until K_AC is next commanded open. -/
  | kAcOutFault
  /-- ERROR_FRAME (R366): A port detects a bus error while receiving or sees an error frame, updating REC and the error-frame count and possibly entering ERROR_PASSIVE. -/
  | errorFrame (p : Port) (eight : Bool) (ofs : Nat)
  deriving DecidableEq, Repr

end Sys2Proof
end

