-- ==== Sys2Proof/Machine/Digest.lean ====
section
/-! DEFINITION. The checks the spec names over bytes: CRC-32C (R132, R328, R331 and others), CRC-64 (R279) and SHA-256 (R416). Bytes are numbers below 256, in ascending address order. -/
namespace Sys2Proof.Machine

/-- One bit step of a reflected CRC-32C register (Castagnoli polynomial, reflected 0x82F63B78). -/
def crc32cBit (r : BitVec 32) : BitVec 32 :=
  if r.getLsbD 0 then (r >>> 1) ^^^ 0x82F63B78#32 else r >>> 1

/-- One byte into the CRC-32C register. -/
def crc32cByte (r : BitVec 32) (b : Nat) : BitVec 32 :=
  let x := r ^^^ BitVec.ofNat 32 (b % 256)
  crc32cBit (crc32cBit (crc32cBit (crc32cBit (crc32cBit (crc32cBit (crc32cBit (crc32cBit x)))))))

/-- CRC-32C of a byte string: initial value and final XOR all ones. -/
def crc32c (bytes : List Nat) : BitVec 32 := ~~~ (bytes.foldl crc32cByte 0xFFFFFFFF#32)

/-- One bit step of a CRC-64 register with polynomial 0x42F0E1EBA9EA3693, most significant bit first (R279). -/
def crc64Bit (r : BitVec 64) : BitVec 64 :=
  if r.getLsbD 63 then (r <<< 1) ^^^ 0x42F0E1EBA9EA3693#64 else r <<< 1

/-- One byte into the CRC-64 register. -/
def crc64Byte (r : BitVec 64) (b : Nat) : BitVec 64 :=
  let x := r ^^^ (BitVec.ofNat 64 (b % 256) <<< 56)
  crc64Bit (crc64Bit (crc64Bit (crc64Bit (crc64Bit (crc64Bit (crc64Bit (crc64Bit x)))))))

/-- CRC-64 of a byte string with initial value and final XOR all ones (R279). -/
def crc64 (bytes : List Nat) : BitVec 64 := ~~~ (bytes.foldl crc64Byte 0xFFFFFFFFFFFFFFFF#64)

/-- The n bytes of a number, least significant first. -/
def leBytes (n : Nat) : Nat → List Nat
  | 0 => []
  | k + 1 => n % 256 :: leBytes (n / 256) k

/-- The number of a little-endian byte string. -/
def ofLe : List Nat → Nat
  | [] => 0
  | b :: t => b % 256 + 256 * ofLe t

/-- Bytes lo to lo+len−1 of a 64-byte block as a little-endian number. -/
def blk (b : BitVec 512) (lo len : Nat) : Nat := (b.toNat >>> (8 * lo)) % 2 ^ (8 * len)

/-- The first n bytes of a 64-byte block. -/
def blkBytes (b : BitVec 512) (n : Nat) : List Nat := leBytes b.toNat n

/-! ### SHA-256 (R416)

The constants are computed from what defines them, the fractions of roots of the first primes; the eight working words are
a list, the first of them in front. -/

/-- The first 32 bits of the fraction of the k-th root of p: the root of p × 2^(32k), bit by bit from the top. -/
def rootFraction (k p : Nat) : BitVec 32 :=
  BitVec.ofNat 32 ((List.range 37).foldl (fun x i => if (x + 2 ^ (36 - i)) ^ k ≤ p * 2 ^ (32 * k) then x + 2 ^ (36 - i) else x) 0)

/-- The primes below 312, of which there are 64. -/
def firstPrimes : List Nat :=
  (List.range 312).filter (fun p => decide (2 ≤ p) && (List.range 18).all (fun d => decide (d < 2) || decide (p ≤ d) || decide (p % d ≠ 0)))

/-- One constant for each of the 64 rounds. -/
def roundConstants : List (BitVec 32) := firstPrimes.map (rootFraction 3)

/-- The working words before the first block. -/
def startWords : List (BitVec 32) := (firstPrimes.take 8).map (rootFraction 2)

/-- The exclusive or of several rotations of a word. -/
def spun (x : BitVec 32) (turns : List Nat) : BitVec 32 := turns.foldl (fun acc n => acc ^^^ x.rotateRight n) 0#32

/-- Lengthen a message schedule that is kept newest first by one word. -/
def nextWord (ws : List (BitVec 32)) : List (BitVec 32) :=
  let near := ws.getD 1 0#32
  let far := ws.getD 14 0#32
  ((spun near [17, 19] ^^^ near >>> 10) + ws.getD 6 0#32 + (spun far [7, 18] ^^^ far >>> 3) + ws.getD 15 0#32) :: ws

/-- The schedule of a block of 16 words. -/
def schedule (block : List (BitVec 32)) : List (BitVec 32) := ((List.replicate 48 ()).foldl (fun ws _ => nextWord ws) block.reverse).reverse

/-- One round with the sum of its constant and its word of the schedule: the words move down by one place, and a new one
enters in the first and in the fifth place. -/
def roundStep (v : List (BitVec 32)) (input : BitVec 32) : List (BitVec 32) :=
  let at' := fun i => v.getD i 0#32
  let lower := at' 7 + spun (at' 4) [6, 11, 25] + (at' 6 ^^^ (at' 4 &&& (at' 5 ^^^ at' 6))) + input
  let upper := spun (at' 0) [2, 13, 22] + ((at' 0 &&& at' 1) ||| (at' 2 &&& (at' 0 ||| at' 1)))
  match v with
  | [p, q, r, s, t, x, y, _] => [lower + upper, p, q, r, s + lower, t, x, y]
  | _ => v

/-- The working words after a block. -/
def digestBlock (v block : List (BitVec 32)) : List (BitVec 32) :=
  List.zipWith (· + ·) v ((List.zipWith (· + ·) roundConstants (schedule block)).foldl roundStep v)

/-- n big-endian words from the front of a byte string. -/
def beWords (bytes : List Nat) : Nat → List (BitVec 32)
  | 0 => []
  | n + 1 => BitVec.ofNat 32 ((bytes.take 4).foldl (fun x b => 256 * x + b % 256) 0) :: beWords (bytes.drop 4) n

/-- Fold n blocks of 64 bytes into the working words. -/
def digestBlocks (bytes : List Nat) (v : List (BitVec 32)) : Nat → List (BitVec 32)
  | 0 => v
  | n + 1 => digestBlocks (bytes.drop 64) (digestBlock v (beWords bytes 16)) n

/-- A message with its end mark and its length in bits, in whole blocks. -/
def padded (bytes : List Nat) : List Nat :=
  bytes ++ (0x80 :: List.replicate ((119 - bytes.length % 64) % 64) 0) ++ (leBytes (8 * bytes.length) 8).reverse

/-- SHA-256 of a byte string, as a 256-bit number, first byte most significant. -/
def sha256 (bytes : List Nat) : BitVec 256 :=
  BitVec.ofNat 256 ((digestBlocks (padded bytes) startWords ((padded bytes).length / 64)).foldl (fun x w => 2 ^ 32 * x + w.toNat) 0)

end Sys2Proof.Machine
end

