-- ==== Sys2Proof/Config.lean ====
section
/-! DEFINITION. The free values of the model: values the spec leaves open while the deck goes on. None has a body, so that a claim holds whatever they are. Each is applied to the model's own counter of free values or to the operands it depends on. -/
namespace Sys2Proof.Config

/-- dcont where v is 0 (R218 divides by v², log 30), by ir: a value of 0 to 2^24. -/
opaque freeDcont : Int → BitVec 24
/-- p where RES reads 0 (R218 divides by RES; only an image that was never loaded holds 0, log 30). -/
opaque freePower : Int → Int → Int
/-- The quotient of R160 where vdc is at or below 0 (R208 divides by v_bus without the floor of R160, log 31), by vp − z and
vdc. -/
opaque freeModulation : Int → Int → Int
/-- i_sec* where v_link is 0 (R209 divides by v_link, log 31), by the power. -/
opaque freeIsec : Int → Int
/-- The power feed-forward of the isolated stage (Table 09-3, Meas 2), which the spec names and does not define (log 32): some
function of the tick's inputs of span Q and of its state (R7). -/
opaque freeDabPower : List Int → Int
/-- This deck's clock as gPTP announces it (R301): clockAccuracy, offsetScaledLogVariance and clockIdentity, which the spec
leaves to the deck (log 61). -/
opaque clockAccuracy : BitVec 8
opaque clockVariance : BitVec 16
opaque clockIdentity : BitVec 64
/-- REC after a valid frame received at a count above 127: 119 to 127 by ISO 11898-1, which R366 follows (log 62). -/
opaque freeRec : Nat → Fin 9
/-- A byte of the ledger beyond the data that a frame stored (R378, log 63): slot, offset, draw. -/
opaque freeLedgerByte : Nat → Nat → BitVec 8
/-- DETAIL of an event as a word: cause and value have no bit layout in the spec (log 33). -/
opaque detailWord : Nat → Nat → Int → BitVec 32
/-- A word of an MRAM partition whose inner layout the spec does not give (log 64). -/
opaque freeMramWord : Nat → Nat → BitVec 32
/-- The back-off count of R389, 1 to 8, from the generator whose polynomial the spec does not give (log 60). -/
opaque freeBackoff : Nat → Fin 8
/-- f of R397 where SHUT equals THROT (the quotient has no divisor, log 34): a value of 0 to 2^24 − 1. -/
opaque freeThrottle : Int → Int → BitVec 24
/-- The quotient of a number and 0, where a rule divides by an image value that may read 0 and names no result (R37, R218,
R221, R207; log 66). -/
opaque freeQuotient : Int → Int
/-- The frequency correction to which a marker's phase error steers the count, by the error and the correction in force (R303
names no law of the discipline, log 132). -/
opaque freeLineAdj : Int → Int → Int
/-- The applied tick in the answer to a fall-back frame that was not applied (R347, log 65). -/
opaque freeReplyTick : Nat → BitVec 64

end Sys2Proof.Config
end

