-- ==== Sys2Proof/Machine/Arith.lean ====
section
/-! DEFINITION. The exact integer arithmetic the spec's pseudocode is written in (R67, R92): rounding half to even, saturation, clamps, square roots, and the bit fields of registers. -/
namespace Sys2Proof.Machine

/-- x / d rounded to the nearest integer, ties to even (R67); d above 0. A divisor of 0 never reaches it. -/
def rheDiv (x : Int) (d : Nat) : Int :=
  let q := x / (d : Int)
  let r := x % (d : Int)
  if 2 * r < d then q else if 2 * r > d then q + 1 else if q % 2 = 0 then q else q + 1

/-- round_half_even(x / d) for a divisor of either sign; the quotient by 0, which no rule states, is a free value (log 66). -/
def rheQ (x d : Int) : Int :=
  if d = 0 then Config.freeQuotient x else if d < 0 then rheDiv (-x) d.natAbs else rheDiv x d.natAbs

/-- round_half_even(x / 2^m) (R67). -/
def rhe (x : Int) (m : Nat) : Int := rheDiv x (2 ^ m)

/-- clamp(x, a, b): a when x is below a, b when x is above b, and x otherwise (R92). -/
def clampI (x a b : Int) : Int := if x < a then a else if b < x then b else x

/-- 2^31 − 1 and −2^31, the ends of S32. -/
def s32max : Int := 2147483647
/-- −2^31. -/
def s32min : Int := -2147483648

/-- Clamp to the signed 32-bit range (R67). -/
def sat32 (x : Int) : Int := clampI x s32min s32max
/-- Clamp to the signed 16-bit range (R67). -/
def sat16 (x : Int) : Int := clampI x (-32768) 32767

/-- 1.0 in the signal format (24 fractional bits, R92). -/
def one24 : Int := 16777216

/-- The product of two signals in the signal format, rounded: round_half_even(a × b / 2^24). -/
def mul24 (a b : Int) : Int := rhe (a * b) 24

/-- Integer square root by bisection on the bits of the result, from bit `n` − 1 down. -/
def isqrtAux (x : Nat) : Nat → Nat → Nat
  | 0, r => r
  | n + 1, r => if (r + 2 ^ n) * (r + 2 ^ n) ≤ x then isqrtAux x n (r + 2 ^ n) else isqrtAux x n r

/-- floor(sqrt(x)) for x below 2^160; 0 for a negative argument. -/
def isqrt (x : Int) : Int := (isqrtAux x.toNat 80 0 : Nat)

/-- Bits lo to lo+len−1 of a word, as a number. -/
def fld (w : Word) (lo len : Nat) : Nat := (w.toNat >>> lo) % 2 ^ len

/-- The same bits as a signed number. -/
def sfld (w : Word) (lo len : Nat) : Int :=
  let v := fld w lo len
  if v < 2 ^ (len - 1) then (v : Int) else (v : Int) - 2 ^ len

/-- One bit of a word. -/
def bitOf (w : Word) (i : Nat) : Bool := w.toNat.testBit i

/-- A register as a signal (two's complement, R92). -/
def sig (w : Word) : Int := w.toInt

/-- The register word of a number, its low 32 bits. -/
def wd (n : Nat) : Word := BitVec.ofNat 32 n

/-- The register word of a signed number, its low 32 bits. -/
def wdI (x : Int) : Word := BitVec.ofInt 32 x

/-- A bit as a number. -/
def b2n (b : Bool) : Nat := if b then 1 else 0

/-- Count up to a ceiling. -/
def satInc (n max : Nat) : Nat := if n < max then n + 1 else n

/-- Count up by k, to a ceiling. -/
def satAdd (n k max : Nat) : Nat := if n + k < max then n + k else max

/-- The ceiling of a 32-bit saturating counter. -/
def max32 : Nat := 4294967295
/-- The ceiling of a 16-bit saturating counter. -/
def max16 : Nat := 65535

/-- The number of set bits among the first n. -/
def popcount (v n : Nat) : Nat := ((List.range n).filter (fun i => v.testBit i)).length

/-- The bitmap whose bit k is set for each k of the list that lies below n. -/
def bitmap (n : Nat) (p : Nat → Bool) : Nat :=
  (List.range n).foldl (fun acc k => if p k then acc + 2 ^ k else acc) 0

/-- Units of 1/3072 ns in one ns. -/
def uNs : Nat := 3072
/-- Units in one Truss step (R108). -/
def uStep : Nat := 75
/-- Units in one edge of the converter clock (R64). -/
def uEdge : Nat := 16000
/-- Units in 25 ns, the step of the tick period (R42). -/
def u25 : Nat := 76800

/-- The least multiple of m at or above x. -/
def ceilTo (x m : Nat) : Nat := (x + m - 1) / m * m

/-- Linear interpolation with one rounding: a + round_half_even((b − a) × f / 2^m). -/
def lerp (a b f : Int) (m : Nat) : Int := a + rhe ((b - a) * f) m

/-- The smaller of two integers. -/
def minI (a b : Int) : Int := if a ≤ b then a else b
/-- The larger of two integers. -/
def maxI (a b : Int) : Int := if a ≤ b then b else a
/-- The magnitude of an integer. -/
def absI (a : Int) : Int := if a < 0 then -a else a
/-- −1, 0 or 1. -/
def signI (a : Int) : Int := if a < 0 then -1 else if a = 0 then 0 else 1

end Sys2Proof.Machine
end

