-- ==== Sys2Proof/Machine/Store.lean ====
section
/-! DEFINITION. Sparse data by key: a list of (key, value) pairs in one canonical form (keys strictly rising, no entry equal to what an unlisted key reads as). Used for the register map of BAR0, for the MRAM and for every numbered family of parts. -/
namespace Sys2Proof.Machine

/-- Sparse data by key. -/
abbrev Store (α : Type) := List (Nat × α)

/-- What key `k` reads as: its entry, or the default `d k` where none is listed. -/
def Store.get {α : Type} (d : Nat → α) : Store α → Nat → α
  | [], k => d k
  | (a, v) :: t, k => if a = k then v else if k < a then d k else Store.get d t k

/-- Write `v` at key `k`, keeping the canonical form: a value equal to the default removes the entry. -/
def Store.put {α : Type} [DecidableEq α] (d : Nat → α) : Store α → Nat → α → Store α
  | [], k, v => if v = d k then [] else [(k, v)]
  | (a, w) :: t, k, v =>
    if a = k then (if v = d k then t else (k, v) :: t)
    else if k < a then (if v = d k then (a, w) :: t else (k, v) :: (a, w) :: t)
    else (a, w) :: Store.put d t k v

/-- The canonical form: keys strictly rising from `lo`, no entry equal to its default. -/
def Store.wfFrom {α : Type} [DecidableEq α] (d : Nat → α) : Nat → Store α → Bool
  | _, [] => true
  | lo, (a, v) :: t => decide (lo ≤ a) && decide (v ≠ d a) && Store.wfFrom d (a + 1) t

/-- The canonical form of a whole store. -/
def Store.wf {α : Type} [DecidableEq α] (d : Nat → α) (m : Store α) : Bool := Store.wfFrom d 0 m

/-- Change the value at one key. -/
def Store.upd {α : Type} [DecidableEq α] (d : Nat → α) (m : Store α) (k : Nat) (f : α → α) : Store α :=
  Store.put d m k (f (Store.get d m k))

end Sys2Proof.Machine
end

