-- ==== Sys2Proof/Machine/State.lean ====
section
/-! DEFINITION. The state of the deck as plain data: every register, latch, queue, counter and buffer the spec gives it, the queue of waiting commands, the reasons a step can stop, and State.reset. Registers whose only behaviour is to hold what was written or signed (access LK, CH, TL and plain RW) live in the one store `bar` by their BAR0 offset; status registers live in the fields they are made of. -/
namespace Sys2Proof.Machine

/-! ### Events and completions (chapters 14 and 15) -/

/-- An event entry (R336): what the rule that raises it names, before it is written to the ring. DETAIL and DETAIL2 are
kept as cause and values, since the spec gives them no bit layout of their own. -/
structure Event where
  /-- CODE 0–127 (Table 14-9). -/
  code : Nat
  /-- ADDR, the part concerned (R26). -/
  addr : AddrWord
  /-- DETAIL: cause. -/
  cause : Nat
  /-- DETAIL: value. -/
  val : Int
  /-- DETAIL2: second value; for a coalesced entry, ticks from the first to the last occurrence. -/
  val2 : Int
  /-- PYLON: Pylon instant of the first occurrence, in ns. -/
  pylon : Nat
  /-- CAL: calendar stamp (Table 13-8). -/
  cal : Nat
  /-- COUNT: occurrences represented. -/
  count : Nat
  /-- FLAGS [0]. -/
  coalesced : Bool
  /-- FLAGS [1]. -/
  queued : Bool
  deriving DecidableEq, Repr

/-- A completion entry (R334, Table 14-5). WRITER and PASS are formed when the slot is written. -/
structure Completion where
  tag : Nat
  /-- Running index of the descriptor: it names the slot (R326). -/
  seq : Nat
  /-- SEQ, from the descriptor (Table 14-5). -/
  dseq : Nat
  /-- APPLIED_TICK. -/
  applied : Tick
  opcode : Nat
  addr : AddrWord
  status : Status
  late : Bool
  clip : Bool
  superseded : Bool
  /-- LATE_CAUSE 0–4. -/
  lateCause : Nat
  /-- RESULT, bytes 24–31 as a little-endian number. -/
  result : Nat
  deriving DecidableEq, Repr

/-- A write to a tick-latched register that is held for a boundary (R20, R52). -/
structure HeldWrite where
  off : Nat
  value : Word
  /-- Boundary at which it lands. -/
  lands : Tick
  deriving DecidableEq, Repr

/-- The tick unit: the current tick and the status of Tables 02-5 and 02-7. -/
structure TickS where
  /-- TICK_COUNT: the tick in progress (R43). -/
  count : Tick
  /-- The instant reached within it, in units of 1/3072 ns of Pylon time. -/
  now : Instant
  /-- TICK_STATUS.OVR_LAST, OVR_LATCH, OVR_SAFE, FETCH_SLIP, MIRROR_SLIP. -/
  ovrLast : Bool
  ovrLatch : Bool
  ovrSafe : Bool
  fetchSlip : Bool
  mirrorSlip : Bool
  /-- TICK_STATUS.OVR_SPANS, by span code. -/
  ovrSpans : List Span
  /-- TICK_OVR_COUNT. -/
  ovrCount : Nat
  /-- TICK_OVR_LAST; none before the first overrun. -/
  ovrTick : Option Tick
  /-- TICK_FETCH_SLIP. -/
  fetchSlips : Nat
  /-- TICK_MIRROR_SLIP. -/
  mirrorSlips : Nat
  /-- TICK_TL_LAST. -/
  tlLast : Tick
  /-- TICK_TL_OVERRIDE. -/
  tlOverride : Nat
  /-- TICK_SLACK_MIN, 5 ns units. -/
  slackMin : Nat
  /-- TICK_CTRL.STAT_RESET, until the next boundary. -/
  statReset : Bool
  /-- TICK_TL_OVERWRITE. -/
  tlOverwrite : Nat
  /-- The held TL writes (R20, R21, R52), oldest first. -/
  held : List HeldWrite
  /-- Φ0 and Φ1 of the tick have ended (R46): the snapshot was taken, the page was fetched or given up. -/
  phi0Done : Bool
  phi1Done : Bool
  /-- Φ2 has computed this tick. -/
  phi2Done : Bool
  /-- Φ2 of the tick ended after P − TRES (R48). -/
  mirLate : Bool
  /-- The causes of SAFE and the ends of operations of this tick have been judged (R352); Φ3 of the tick is done. -/
  scanned : Bool
  phi3Done : Bool
  deriving DecidableEq, Repr

/-! ### Sensing (chapter 03) -/

/-- A trigger waiting in a converter's queue (R72). -/
structure Trigger where
  /-- Source ISRCj. -/
  src : Fin 4
  /-- PRIO 0–3. -/
  prio : Nat
  /-- Arrival, in 1/3072 ns. -/
  arrived : Instant
  /-- Of a type 1 source: the start of the carrier period whose point it is, which names its group (R76, R77). -/
  period : Instant
  /-- The start of the period of the set-a U leg at the arrival: the capture of that period goes with the group (R159). -/
  uPeriod : Instant
  deriving DecidableEq, Repr

/-- What a converter is doing. -/
inductive ConvBusy where
  /-- Free. -/
  | idle
  /-- Regular slot s, started at the instant. -/
  | regular (slot : Nat) (start : Instant)
  /-- A regular slot that runs on after T0END; its result is discarded (R71). -/
  | late (slot : Nat) (start : Instant)
  /-- An injected sequence of a trigger, started at the instant; the first `done` of its slots have been delivered, since they
  had ended when a snapshot was taken (R75, R78). -/
  | injected (trig : Trigger) (start : Instant) (done : Nat)
  deriving DecidableEq, Repr

/-- One converter ADcc (Tables 03-6, 03-8). -/
structure ConvS where
  /-- GAIN, unsigned with 15 fractional bits. -/
  gain : Nat
  /-- OFFSET, signed LSB. -/
  offset : Int
  calDone : Bool
  calFail : Bool
  calRun : Bool
  /-- STAT.NOT_SETTLED (R84). -/
  notSettled : Bool
  /-- STAT.REG_LATE. -/
  regLate : Bool
  /-- The trigger queue, head first; QDEPTH is its length (R72, R74). -/
  queue : List Trigger
  busy : ConvBusy
  /-- The regular slot due next, while the sequence of the tick runs. -/
  nextSlot : Option Nat
  /-- The regular sequence of the tick has started (R68). -/
  ran : Bool
  /-- End of the last conversion. -/
  freeAt : Instant
  /-- Corrected code of slot 0 in this tick (R80). -/
  slot0 : Option Int
  dropCount : Nat
  lateCount : Nat
  /-- ILAT_MAX, 5 ns units. -/
  ilatMax : Nat
  deriving DecidableEq, Repr

/-- A new converter: gain 1.0, offset 0 (Table 03-6). -/
def ConvS.init : ConvS :=
  { gain := 32768, offset := 0, calDone := false, calFail := false, calRun := false, notSettled := false,
    regLate := false, queue := [], busy := .idle, nextSlot := none, ran := false, freeAt := 0, slot0 := none,
    dropCount := 0, lateCount := 0, ilatMax := 0 }

/-- A result delivered for an input (R67). -/
structure Sample where
  /-- Corrected code c. -/
  code : Int
  /-- Signal s. -/
  s : Int
  /-- End of its (last) conversion. -/
  ended : Instant
  /-- From a carrier-synchronous group (R77). -/
  sync : Bool
  /-- From the regular sequence. -/
  regular : Bool
  /-- The carrier-centre capture that goes with the group (R159); none for every other result. -/
  ang : Option Nat
  deriving DecidableEq, Repr

/-- One input AIii: the latest result, the group under formation, the snapshot and its status (Tables 03-6, 03-8). -/
structure InputS where
  /-- The latest result that has ended and no snapshot has passed. -/
  latest : Option Sample
  /-- Raw codes of the group under formation, and the start of the carrier period they belong to (R77). -/
  group : List Int
  groupOf : Instant
  /-- RESULT. -/
  result : Int
  /-- RSTAT.CODE. -/
  code : Int
  fresh : Bool
  untrusted : Bool
  pairBad : Bool
  notSettled : Bool
  sync : Bool
  winReject : Bool
  /-- Instant at which the snapshot value was formed, none before the first; AGE counts from it. -/
  formed : Option Instant
  /-- The snapshot value came from a regular slot. -/
  regular : Bool
  /-- The capture that goes with the snapshot's group (R159). -/
  ang : Nat
  /-- RSTAT.AGE. -/
  age : Nat
  /-- ADC_WIN_OUT, _EXIT, _REENTRY, _DIR. -/
  winOut : Bool
  winExit : Bool
  winReentry : Bool
  winDir : Bool
  deriving DecidableEq, Repr

/-- A new input: no value yet, RESULT 0 (Table 03-6). -/
def InputS.init : InputS :=
  { latest := none, group := [], groupOf := 0, ang := 0, result := 0, code := 0, fresh := false,
    untrusted := false, pairBad := false, notSettled := false, sync := false, winReject := false, formed := none, regular := false, age := 0,
    winOut := false, winExit := false, winReentry := false, winDir := false }

/-- A plausibility pair (R80). -/
structure PairS where
  implausible : Bool
  mismatch : Bool
  run : Nat
  lastDiff : Nat
  deriving DecidableEq, Repr

/-- A pair at reset. -/
def PairS.init : PairS := { implausible := false, mismatch := false, run := 0, lastDiff := 0 }

/-- A calibrate command in progress (R85). -/
structure CalRun where
  /-- The converters still calibrating, those that passed and those that failed. -/
  running : List Conv
  passed : List Conv
  failed : List Conv
  /-- The command it completes; none for the calibration of a start. -/
  cmd : Option Staged
  deriving DecidableEq, Repr

/-- The sensing block. -/
structure AdcS where
  /-- ADC_CTRL.SEQ_EN as written, and as in force from the last boundary. -/
  seqEn : Bool
  seqRun : Bool
  /-- ADC_REF_CTRL.REF_EN, ADC_REF_STAT.SETTLED. -/
  refEn : Bool
  settled : Bool
  /-- End of the settle timer; the instant at which SETTLED last fell (R84). -/
  settleAt : Instant
  fellAt : Instant
  /-- ADC_PAIR_STAT.EVAL. -/
  eval : Bool
  /-- ADC_NOTSET_COUNT. -/
  notSetCount : Nat
  conv : Store ConvS
  inp : Store InputS
  pair : Store PairS
  /-- Triggers of ADC_TRIG that have not arrived yet: converter, source, instant. -/
  hostTrig : List (Conv × Fin 4 × Instant)
  /-- The calibrations in progress (R85). -/
  cal : List CalRun
  deriving DecidableEq, Repr

/-! ### Girder engines (chapter 04) -/

/-- The three modes of an engine (R97, R99, R100). -/
inductive EngMode where
  | idle | run | track
  deriving DecidableEq, Repr

/-- A coefficient set (R92, R93). -/
structure Coef where
  kp : Int
  ki : Int
  kd : Int
  kff : Int
  am : Int
  kpsh : Nat
  kish : Nat
  kdsh : Nat
  kffsh : Nat
  alsh : Nat
  ash : Nat
  deriving DecidableEq, Repr

/-- The set of all zeros. -/
def Coef.zero : Coef :=
  { kp := 0, ki := 0, kd := 0, kff := 0, am := 0, kpsh := 0, kish := 0, kdsh := 0, kffsh := 0, alsh := 0, ash := 0 }

/-- The state words of one engine (R106, Table 04-4) and what its last completed computation left. -/
structure EngS where
  /-- Integrator i, S80. -/
  i : Int
  mode : EngMode
  clampHi : Bool
  clampLo : Bool
  held : Bool
  first : Bool
  limConflict : Bool
  rebased : Bool
  /-- Filter state d, S32. -/
  d : Int
  /-- y_prev, S32. -/
  yPrev : Int
  /-- Output u, S32. -/
  u : Int
  /-- GDRgg_LIM_EFF_HI, _LO. -/
  effHi : Int
  effLo : Int
  /-- The set used by the last completed computation (suffix 0 of R97). -/
  set0 : Coef
  /-- How many sets had landed when it was used. -/
  set0n : Nat
  /-- GDRgg_REBASE_COUNT. -/
  rebases : Nat
  deriving DecidableEq, Repr

/-- An engine at reset: IDLE, state words 0, limits open (Table 04-5). -/
def EngS.init : EngS :=
  { i := 0, mode := .idle, clampHi := false, clampLo := false, held := false, first := false, limConflict := false,
    rebased := false, d := 0, yPrev := 0, u := 0, effHi := 2147483647, effLo := -2147483648, set0 := Coef.zero,
    set0n := 0, rebases := 0 }

/-- The rejection status of an engine's sets (Table 04-6). -/
structure RejS where
  coefReject : Bool
  limReject : Bool
  coefCount : Nat
  /-- Valid coefficient sets landed since start (R102). -/
  landed : Nat
  limCount : Nat
  deriving DecidableEq, Repr

/-- No rejection. -/
def RejS.init : RejS := { coefReject := false, limReject := false, coefCount := 0, landed := 0, limCount := 0 }

/-! ### Truss legs, piers and Parapet (chapters 05 and 06) -/

/-- A set of PER, CMPA, CMPB, PHASE and MODE (chapter 05, Write set, shadow set and active set). -/
structure PSet where
  per : Nat
  cmpa : Nat
  cmpb : Nat
  phase : Nat
  /-- MODE [1:0], F_HS [2], F_LS [3]. -/
  mode : Nat
  deriving DecidableEq, Repr

/-- A set of zeros: MODE 0 is OFF (Table 05-2). -/
def PSet.zero : PSet := { per := 0, cmpa := 0, cmpb := 0, phase := 0, mode := 0 }


/-- The pier of one switch (R128, R130, R138, R139). -/
structure PierS where
  /-- The command of the Truss. -/
  cmd : Bool
  /-- Instant of the delayed turn-on still to come (R130). -/
  onAt : Option Instant
  /-- The gate. -/
  gate : Bool
  /-- Desaturation blanking runs (R138), until the instant. -/
  desatBlank : Bool
  desatEnd : Instant
  /-- A soft turn-off is under way, and the end of its plateau (R139). -/
  soft : Bool
  softEnd : Instant
  /-- Instant at which the last turn-off was done (R130). -/
  offDone : Instant
  deriving DecidableEq, Repr

/-- A switch that is off. -/
def PierS.off : PierS :=
  { cmd := false, onAt := none, gate := false, desatBlank := false, desatEnd := 0, soft := false, softEnd := 0, offDone := 0 }

/-- One leg: its timer (Table 05-6) and its piers (Table 06-6). -/
structure LegS where
  ws : PSet
  sh : PSet
  act : PSet
  /-- A write-set register was written in this tick (R112). -/
  wsWritten : Bool
  /-- Host writes that belong to the next tick (R114). -/
  late : List (WReg × Nat)
  /-- TRS_Lxx_PLEN, start of the period in progress, and its number in the tick. -/
  plen : Nat
  pstart : Instant
  pidx : Nat
  pending : Bool
  stBlock : Bool
  /-- The active set's shoot-through request was counted (R117). -/
  stCounted : Bool
  tripLatch : Bool
  /-- STAT.SAFE: the leg drives its safe pattern now. -/
  safe : Bool
  /-- A Parapet reaction holds the pattern until the boundary at which the span is in its safe state (R143, R144). -/
  parEnd : Option Tick
  clkSafe : Bool
  uncommitted : Bool
  cutover : Bool
  syncErr : Bool
  blankClamp : Bool
  stTrip : Bool
  wrTick : Nat
  cut : Bool
  /-- PSEQ.CUR and PSEQ.XFER, modulo 65,536. -/
  cur : Nat
  xfer : Nat
  stCount : Nat
  tripTotal : Nat
  /-- Ticks of the trip periods inside the window (R120), newest first. -/
  tripTicks : List Tick
  uncCount : Nat
  syncCount : Nat
  /-- Failed sync checks in a row (R123). -/
  syncRun : Nat
  /-- Realignment due at the next period start (R123). -/
  realign : Bool
  /-- SAFE_PAT: 3 until the first latch (R124). -/
  safePat : Nat
  /-- Switches blocked to the end of the period in progress (R119, R190, R191), and switches that a trip of a COMP leg
  commanded on to its end (R119). -/
  blkHs : Bool
  blkLs : Bool
  fwHs : Bool
  fwLs : Bool
  /-- The period counted as a trip period (R120). -/
  tripCounted : Bool
  /-- E001 was raised in this period (R141). -/
  scRaised : Bool
  /-- The overcurrent line is blanked (R121), until the instant. -/
  blanking : Bool
  blankEnd : Instant
  /-- The OC and SC comparators of units A and B now (R119, R137). -/
  ocA : Bool
  ocB : Bool
  scA : Bool
  scB : Bool
  /-- The carrier centre of the period in progress was captured (R109, R164). -/
  centred : Bool
  /-- Last carrier realignment (R55, R314). -/
  realigned : Tick
  /-- PIER_Lxx_DT: the three copies, and DT_VOTE. -/
  dt0 : Nat
  dt1 : Nat
  dt2 : Nat
  voted : Nat
  c0Bad : Bool
  c1Bad : Bool
  c2Bad : Bool
  noMaj : Bool
  repairs : Nat
  hs : PierS
  ls : PierS
  /-- PIER_Lxx_STAT [3:0]: UV_HS_POS, UV_HS_NEG, UV_LS_POS, UV_LS_NEG. -/
  uvHsPos : Bool
  uvHsNeg : Bool
  uvLsPos : Bool
  uvLsNeg : Bool
  /-- Instant of the bootstrap UVLO, and that it lasted over 1 ms (R136). -/
  bootAt : Instant
  bootLong : Bool
  /-- The UV_ bits stand for the Bearing supply out of regulation, no rail having tripped by itself (R135). -/
  brgLost : Bool
  /-- Every rail has recovered for 1 ms; usable from the next boundary (R134). -/
  uvClear : Bool
  desatHs : Bool
  desatLs : Bool
  unprot : Bool
  testOverdue : Bool
  scTrip : Bool
  dtRepair : Bool
  swallow : Bool
  softOff : Bool
  /-- PIER_Lxx_TEST.FAIL, by comparator number. -/
  testFail : List Nat
  /-- Comparators tested in this round (R145), and the tick of each one's last test (R146). -/
  tested : List Nat
  testTicks : Store Nat
  /-- AGE exceeded its bound (R257). -/
  ageBad : Bool
  desatCount : Nat
  swallowCount : Nat
  /-- The leg reported a short in this tick (R143). -/
  shortNow : Bool
  deriving DecidableEq, Repr

/-- A leg at reset: sets 0, off, SAFE_PAT 3, UVLO bits as Table 06-6 has them for the class. -/
def LegS.init (l : Nat) : LegS :=
  { ws := PSet.zero, sh := PSet.zero, act := PSet.zero, wsWritten := false, late := [], plen := 0, pstart := 0, pidx := 0,
    pending := false, stBlock := false, stCounted := false, tripLatch := false, safe := false, parEnd := none,
    clkSafe := false, uncommitted := false, cutover := false, syncErr := false, blankClamp := false, stTrip := false,
    wrTick := 0, cut := false, cur := 0, xfer := 0, stCount := 0, tripTotal := 0, tripTicks := [], uncCount := 0,
    syncCount := 0, syncRun := 0, realign := false, safePat := 3, blkHs := false, blkLs := false, fwHs := false, fwLs := false,
    tripCounted := false, scRaised := false, blanking := false, blankEnd := 0,
    ocA := false, ocB := false, scA := false, scB := false, centred := false,
    realigned := 0, dt0 := 0, dt1 := 0, dt2 := 0, voted := 0, c0Bad := false, c1Bad := false, c2Bad := false,
    noMaj := false, repairs := 0, hs := PierS.off, ls := PierS.off, uvHsPos := true, uvHsNeg := isHvLeg l,
    uvLsPos := true, uvLsNeg := isHvLeg l, bootAt := 0, bootLong := false, brgLost := isHvLeg l, uvClear := false, desatHs := false, desatLs := false,
    unprot := false, testOverdue := false, scTrip := false, dtRepair := false, swallow := false, softOff := false,
    testFail := [], tested := [], testTicks := [], ageBad := false, desatCount := 0, swallowCount := 0,
    shortNow := false }

/-- The deck-wide Parapet registers (Table 06-5). -/
structure ParS where
  /-- The capacity of each span by code as last reported (R31), and the legs and spans that the last boundary found usable
  (Table 01-4). -/
  caps : List Nat
  /-- Spans whose capacity fell at the last boundary. -/
  capFell : List Span
  availLegs : List Nat
  availSpans : List Span
  /-- PIER_OV_STAT [3:0]: outputs of LINK_OV_A, LINK_OV_B, C_OV_A, C_OV_B now. -/
  ovNow : List (Fin 4)
  linkOvLatch : Bool
  cOvLatch : Bool
  /-- TEST_FAIL by unit. -/
  testFail : List (Fin 4)
  /-- PIER_SPAN_SC. -/
  spanSc : List Span
  /-- The windows of shoot-through requests per span (R118: ticks, newest first). -/
  stWindow : Store (List Tick)
  /-- Spans whose sync error is persistent (R123). -/
  syncSpans : List Span
  /-- PIER_HALL_STAT.STATE per actuator, and INVALID. -/
  hall : Store Nat
  hallInvalid : List Act
  /-- Deck comparators tested in this round (R145). -/
  ovTested : List (Fin 4)
  /-- Start of the test round in progress (R145), and the tick from which the ages of untested comparators count (R146). -/
  roundStart : Tick
  testBase : Tick
  /-- The dead-time digest fixed at the last charter change (R132). -/
  dtDigest : Word
  /-- Clocks lost now (R125): cause 1 counter clock, 2 fabric clock, 3 debug halt; 0 none. The legs keep the safe pattern
  from the loss until the next start. -/
  clockLost : Nat
  clkHold : Bool
  /-- Spans whose direct-mode commit was requested in this tick, and in the next (R114, R115). -/
  directCommit : List Span
  directLate : List Span
  deriving DecidableEq, Repr

/-! ### Traction spans (chapter 07) -/

/-- Table 07-1. -/
inductive TracMode where
  | disabled | standby | torque | speed | safe
  deriving DecidableEq, Repr

/-- The position unit of one traction span: captures and sensor faults (R164, R165). -/
structure PosS where
  /-- Boundary captures of θe of this tick and the one before. -/
  cap : Nat
  capPrev : Nat
  /-- Captures at the carrier centres of the set-a U leg, latest first, each with the start of its carrier period (R159). -/
  caps : List (Instant × Nat)
  /-- POS_STAT.AMP. -/
  amp : Nat
  /-- Boundaries in a row with amplitude, tracking or excitation out (Table 07-5), judged now. -/
  ampRun : Nat
  trkRun : Nat
  excRun : Nat
  /-- Latched causes, POS_STAT.CAUSE: bit 0 amplitude, 1 tracking, 2 excitation. -/
  causeAmp : Bool
  causeTrk : Bool
  causeExc : Bool
  deriving DecidableEq, Repr

/-- A position unit at reset. -/
def PosS.init : PosS :=
  { cap := 0, capPrev := 0, caps := [], amp := 0, ampRun := 0,
    trkRun := 0, excRun := 0, causeAmp := false, causeTrk := false, causeExc := false }

/-- One traction span as its state machine holds it (Tables 07-8, 07-9). -/
structure TracS where
  st : TracMode
  /-- STATE.SAFE_A, SAFE_B: 0 not in SAFE, 1 OFF, 2 LS on, 3 HS on. -/
  safeA : Nat
  safeB : Nat
  /-- STATE.SETS: bit 0 set a, bit 1 set b. -/
  sets : Nat
  /-- STATE.ANG_SRC: 0 none, 1 sensor, 2 observer. -/
  angSrc : Nat
  obsValid : Bool
  ascZone : Bool
  vlimA : Bool
  vlimB : Bool
  tqClip : Bool
  ramp : Bool
  safeCause : Nat
  angle : Nat
  speed : Int
  /-- TQ_REF: the T applied, T_prev of the next tick. -/
  tq : Int
  /-- T_V of a viaduct (R263, R288), formed in the tick before it is applied. -/
  tv : Int
  tm : Int
  tg : Int
  peak : Nat
  peakExh : Bool
  target : Int
  spdTarget : Int
  /-- The dip factor and its end (R171); 1.0 without one. -/
  dip : Int
  dipEnd : Option Tick
  marginA : Int
  marginB : Int
  /-- The kept voltages of R160 and the observer (R168). -/
  valPrev : Int
  vbePrev : Int
  psa : Int
  psb : Int
  thobs : Nat
  /-- Ticks the PLL has been in RUN with |err| and |u| in bounds, up to 64. -/
  pllRun : Nat
  errRun : Nat
  disRun : Nat
  disagree : Bool
  /-- Consecutive ticks above OVSPD (Table 07-6 code 9). -/
  ovRun : Nat
  /-- Consecutive ticks below ASC_I (R175). -/
  ascRun : Nat
  /-- A change to STANDBY still ramps to 0 (Table 07-2), and T = 0 was computed, so that the legs go OFF next. -/
  winding : Bool
  offDue : Bool
  /-- Sets dropped under R177 until the next STANDBY to TORQUE or SPEED. -/
  dropped : Nat
  deriving DecidableEq, Repr

/-- A traction span at reset: DISABLED, everything 0, dip 1.0. -/
def TracS.init : TracS :=
  { st := .disabled, safeA := 0, safeB := 0, sets := 0, angSrc := 0, obsValid := false, ascZone := false, vlimA := false,
    vlimB := false, tqClip := false, ramp := false, safeCause := 0, angle := 0, speed := 0, tq := 0, tv := 0, tm := 0, tg := 0,
    peak := 0, peakExh := false, target := 0, spdTarget := 0, dip := 16777216, dipEnd := none, marginA := 0, marginB := 0,
    valPrev := 0, vbePrev := 0, psa := 0, psb := 0, thobs := 0, pllRun := 0, errRun := 0, disRun := 0, disagree := false,
    ovRun := 0, ascRun := 0, winding := false, offDue := false, dropped := 0 }

/-! ### Converter, charger, brake and actuator spans (chapters 08 to 10) -/

/-- Table 08-1. -/
inductive CMode where
  | disabled | standby | link | batt | current | bypass | safe
  deriving DecidableEq, Repr

/-- One phase Ck of span C as the span state machine holds it (R186, R189). -/
structure CPhase where
  active : Bool
  /-- Weight ws_k. -/
  ws : Nat
  bal : Int
  /-- d_k of the previous tick. -/
  d : Int
  deriving DecidableEq, Repr

/-- A phase that is not active. -/
def CPhase.init : CPhase := { active := false, ws := 0, bal := 0, d := 0 }

/-- Span C (Tables 08-6, 08-7). -/
structure CSpanS where
  st : CMode
  cot : Bool
  de : Bool
  /-- Direction of diode emulation: the synchronous switch is HS. -/
  deHs : Bool
  slewing : Bool
  ph : Store CPhase
  /-- SHED_PH; none is 0xF. -/
  shed : Option Nat
  /-- STATE.SAFE_PAT: 0 not in SAFE, 1 OFF, 2 crowbar. -/
  safePat : Nat
  auto : Bool
  nFix : Nat
  clip : Bool
  safeCause : Nat
  vref : Int
  vtgt : Int
  itgt : Int
  /-- i_dem applied, and i_dem of the previous tick. -/
  idem : Int
  adds : Nat
  sheds : Nat
  cancels : Nat
  modChg : Nat
  /-- dc of the previous tick. -/
  dc : Int
  shedCount : Nat
  deRun : Nat
  /-- v_link and v_bat of tick n−1 (Meas 19); none before the first tick. -/
  vPrev : Option (Int × Int)
  /-- The span entered its running state at the boundary that opened this tick. -/
  fresh : Bool
  /-- Sense-line fault: run of disagreement (R198), causes now, run without a cause, latch. -/
  disRun : Nat
  senseFault : Bool
  senseAi32 : Bool
  senseAi33 : Bool
  senseDis : Bool
  clearRun : Nat
  ai33Run : Nat
  ai33Blind : Bool
  deriving DecidableEq, Repr

/-- Span C at reset: DISABLED, SHED_PH 0xF (Table 08-6). -/
def CSpanS.init : CSpanS :=
  { st := .disabled, cot := false, de := false, deHs := true, slewing := false, ph := [], shed := none, safePat := 0,
    auto := false, nFix := 0, clip := false, safeCause := 0, vref := 0, vtgt := 0, itgt := 0, idem := 0, adds := 0,
    sheds := 0, cancels := 0, modChg := 0, dc := 0, shedCount := 0, deRun := 0, vPrev := none, fresh := false,
    disRun := 0, senseFault := false, senseAi32 := false, senseAi33 := false, senseDis := false, clearRun := 0,
    ai33Run := 0, ai33Blind := false }

/-- The part of span C that acts between boundaries: comparators and the crowbar latch (R190, R191, R193). -/
structure CHwS where
  /-- Crowbar latch, held without a clock. -/
  crowbar : Bool
  crowTick : Nat
  truncCount : Nat
  /-- E059 was raised in this tick. -/
  truncRaised : Bool
  /-- A zero-current ending occurred in this tick, and in the tick before it (STAT.ZCD, R190). -/
  zcdNow : Bool
  zcd : Bool
  /-- Threshold of the overshoot comparator, loaded at every boundary (R191). -/
  ovsLevel : Int
  deriving DecidableEq, Repr

/-- Table 09-1. -/
inductive QMode where
  | disabled | standby | charge | exportGf | exportIs | safe
  deriving DecidableEq, Repr

/-- Span Q (Tables 09-7, 09-8). -/
structure QSpanS where
  st : QMode
  locked : Bool
  busReady : Bool
  kAc : Bool
  s2 : Bool
  clip : Bool
  ceil : Bool
  safeCause : Nat
  freq : Int
  pAc : Int
  ilim : Int
  /-- θg. -/
  thg : Nat
  lockRun : Nat
  unlockRun : Nat
  busRun : Nat
  failRun : Nat
  deadRun : Nat
  vbusRun : Nat
  pTgt : Int
  qTgt : Int
  /-- The pilot limit in force, ramped (R212). -/
  pilotLim : Int
  /-- The PFC legs run (Table 09-2). -/
  pfc : Bool
  /-- The pilot has been in state C or D since CHARGE was entered (Table 09-2). -/
  cdSeen : Bool
  /-- iq* of the last completed tick, and the power that id* stands for. -/
  iqRef : Int
  power : Int
  deriving DecidableEq, Repr

/-- Span Q at reset. -/
def QSpanS.init : QSpanS :=
  { st := .disabled, locked := false, busReady := false, kAc := false, s2 := false, clip := false, ceil := false,
    safeCause := 0, freq := 0, pAc := 0, ilim := 0, thg := 0, lockRun := 0, unlockRun := 0, busRun := 0, failRun := 0,
    deadRun := 0, vbusRun := 0, pTgt := 0, qTgt := 0, pilotLim := 0, pfc := false, cdSeen := false, iqRef := 0, power := 0 }

/-- The pilot states of R212. -/
inductive PilotSt where
  | a | b | c | d | e | f | invalid | unused
  deriving DecidableEq, Repr

/-- The pilot unit, the cable decoder and the contactor's auxiliary (R212, R214, R215, R450). -/
structure PilotS where
  st : PilotSt
  /-- Candidate state and cycles in a row in it. -/
  cand : PilotSt
  candRun : Nat
  /-- Cycles in a row in E, F or invalid (R213). -/
  badRun : Nat
  /-- Last duties of valid cycles, 0.1 %, newest first, at most 8. -/
  duties : List Nat
  /-- SPN_Q_PILOT.DUTY, HLC, and the decoded limit in 0.1 A. -/
  duty : Nat
  hlc : Bool
  limit : Nat
  /-- SPN_Q_PP: CODE and RES. -/
  ppCode : Nat
  ppRes : Nat
  /-- K_AC_FB, and since when it has differed from the command. -/
  kAcFb : Bool
  diffSince : Option Instant
  fbFault : Bool
  /-- K_AC_OUT is off by a fault (R450). -/
  outFault : Bool
  deriving DecidableEq, Repr

/-- Table 09 brake states (R217). -/
inductive BMode where
  | disabled | armed | safe
  deriving DecidableEq, Repr

/-- Span B (Tables 09-7, 09-8). -/
structure BSpanS where
  st : BMode
  active : Bool
  thermal : Bool
  peakExh : Bool
  fallback : Bool
  safeCause : Nat
  duty : Int
  power : Int
  /-- θ, S64 with 48 fractional bits (R219). -/
  theta : Int
  peak : Nat
  mismatchRun : Nat
  deriving DecidableEq, Repr

/-- Span B at reset. -/
def BSpanS.init : BSpanS :=
  { st := .disabled, active := false, thermal := false, peakExh := false, fallback := false, safeCause := 0, duty := 0,
    power := 0, theta := 0, peak := 0, mismatchRun := 0 }

/-- Table 10-1. -/
inductive AMode where
  | disabled | standby | hold | shifting | current | homing | park | safe
  deriving DecidableEq, Repr

/-- Outcome of a shift or home (SHIFT_INFO.OUTCOME). -/
inductive ShiftOut where
  | running | done | aborted | timeout | safe
  deriving DecidableEq, Repr

/-- What a running shift was started by and is. -/
inductive ShiftKind where
  | shift | park | release | home
  deriving DecidableEq, Repr

/-- One actuator span Am (Tables 10-7, 10-8). -/
structure ActS where
  st : AMode
  /-- STATE.SAFE_PAT: 0 not in SAFE, 1 OFF, 2 HOLD. -/
  safePat : Nat
  homed : Bool
  owner : Bool
  /-- The committed DIR (R234), and the DIR waiting for it. -/
  dir : Bool
  peakExh : Bool
  busLim : Bool
  dbgLim : Bool
  posFault : Bool
  causeSkip : Bool
  causeInv : Bool
  causeAna : Bool
  safeCause : Nat
  speed : Int
  target : Int
  /-- Current target (CURRENT). -/
  itgt : Int
  ilim : Int
  peak : Nat
  tag : Nat
  elapsed : Nat
  slot : Nat
  out : ShiftOut
  settle : Nat
  kind : ShiftKind
  /-- Position at the start of the shift. -/
  startPos : Int
  /-- The descriptor whose completion waits for the end; none for a gear-step or profile action. -/
  cmd : Option Staged
  /-- An abort was applied at the boundary that started the shift, or is staged for the next boundary. -/
  abortNow : Bool
  stallRun : Nat
  anaRun : Nat
  vRun : Nat
  posLast : Int
  nLast : Tick
  step : Int
  off : Int
  tha : Nat
  /-- The last tick committed d := 0 for a change of DIR (R234). -/
  dirZero : Bool
  /-- The angle state is set anew at the boundary that enters STANDBY (R232). -/
  initAng : Bool
  /-- ω of the last completed tick is `speed`; the request granted on ACT_BUS in 2^24 (R39). -/
  fbus : Int
  /-- A value the span loads into POS (R235), applied to the running count at the boundary. -/
  posLoad : Option Int
  /-- Shifts that ended done: tag and slot, newest first (R240). -/
  past : List (Nat × Nat)
  deriving DecidableEq, Repr

/-- An actuator at reset: DISABLED (Table 10-7); GEAR is read from the position. -/
def ActS.init : ActS :=
  { st := .disabled, safePat := 0, homed := false, owner := false, dir := false, peakExh := false,
    busLim := false, dbgLim := false, posFault := false, causeSkip := false, causeInv := false, causeAna := false,
    safeCause := 0, speed := 0, target := 0, itgt := 0, ilim := 0, peak := 0, tag := 0, elapsed := 0, slot := 0,
    out := .running, settle := 0, kind := .shift, startPos := 0, cmd := none, abortNow := false, stallRun := 0,
    anaRun := 0, vRun := 0, posLast := 0, nLast := 0, step := 0, off := 0, tha := 0, dirZero := false,
    initAng := false, fbus := 16777216, posLoad := none, past := [] }

/-- The position counter of an actuator, which runs in hardware (R231). -/
structure HallS where
  /-- The running count and the boundary capture (POS). -/
  count : Int
  pos : Int
  /-- POS at the boundary before (R287). -/
  posPrev : Int
  /-- Last valid Hall state, 0 before the first. -/
  lastValid : Nat
  /-- A skip since the last boundary capture; it and the captured Hall state at that capture. -/
  skipNow : Bool
  skipCap : Bool
  capState : Nat
  /-- Boundary captures in a row with state 0 or 7 (R236). -/
  invRun : Nat
  /-- DIR of the active set in three-pin mode (R234). -/
  dirAct : Bool
  deriving DecidableEq, Repr

/-- A counter at reset. -/
def HallS.init : HallS :=
  { count := 0, pos := 0, posPrev := 0, lastValid := 0, skipNow := false, skipCap := false, capState := 0, invRun := 0, dirAct := false }

/-- Sticky W1C flags of the spans, set by the state machines (STAT registers of chapters 07 to 10). -/
inductive Sticky where
  | tPosFault (t : Trac) | tDisagree (t : Trac) | tSetLost (t : Trac)
  | cTrunc | cShedCancel | qAiTrip
  | safeEntry (x : Span)
  deriving DecidableEq, Repr

/-- What the compute of a tick leaves to be done when it takes effect at the boundary. -/
inductive Note where
  /-- Raise an event. -/
  | ev (code : Nat) (addr : AddrWord) (cause : Nat) (val val2 : Int)
  /-- Set a sticky flag. -/
  | stick (f : Sticky)
  /-- Clear the latched causes of a sensor (R165). -/
  | posRearm (t : Trac)
  /-- Release the crowbar (R195). -/
  | crowbarClear
  /-- Answer a fall-back frame on F00 (R347): OP, status, COUNTER. -/
  | fbReply (op status counter : Nat)
  deriving DecidableEq, Repr

/-- The controlled state of the deck: what Φ2 computes and a boundary makes current (R50, R51 step 4). -/
structure Ctl where
  eng : Store EngS
  tr0 : TracS
  tr1 : TracS
  cs : CSpanS
  qs : QSpanS
  bs : BSpanS
  act : Store ActS
  /-- The link-support factor (R37). -/
  flink : Int
  /-- The write sets and safe patterns the spans posted, by leg, and the spans that set their commit bit. -/
  sets : Store PSet
  pats : Store Nat
  commit : List Span
  /-- Spans that have changed state at the boundary being formed (R353), and those whose compute took them into SAFE. -/
  changed : List Span
  safed : List Span
  /-- Commands bound to that boundary that set a quantity: index, quantity (R333). -/
  quants : List (Nat × Nat)
  /-- Completions formed, effects left for the boundary, and the descriptors dealt with. -/
  cmpl : List Completion
  notes : List Note
  handled : List Nat
  /-- Launch actions of that boundary that the compute applied: slot, 0 or the status that refused it, span codes refused
  (R311). -/
  ltOut : List (Nat × Nat × Nat)
  /-- Deck-level descriptors of that boundary that failed a boundary check: SEQ and status (R352). -/
  refused : List (Nat × Status)
  /-- Spans of a viaduct that a handover moves at the boundary being formed (R286). -/
  handing : List Span
  deriving DecidableEq, Repr

/-- Everything at reset. -/
def Ctl.init : Ctl :=
  { eng := [], tr0 := TracS.init, tr1 := TracS.init, cs := CSpanS.init, qs := QSpanS.init, bs := BSpanS.init, act := [],
    flink := 16777216, sets := [], pats := [], commit := [], changed := [], safed := [], quants := [], cmpl := [], notes := [],
    handled := [], ltOut := [], refused := [], handing := [] }

/-! ### The Causeway (chapter 14) -/

/-- A telemetry entry written in Φ3 (R340). -/
structure TlmEntry where
  /-- Instant of the boundary that opens the tick, in ns. -/
  pylon : Nat
  gap : Nat
  signals : List Int
  deriving DecidableEq, Repr

/-- A running command that ends after its boundary (R334, R358). -/
structure Job where
  cmd : Staged
  deriving DecidableEq, Repr

/-- A command of the host-loss profile (R344). -/
structure ProfileCmd where
  span : Span
  /-- 0 STANDBY, 1 hold, 2 park. -/
  what : Nat
  bound : Tick
  deriving DecidableEq, Repr

/-- The Causeway (Tables 14-3, 14-8, 14-11). -/
structure CwyS where
  accViol : Bool
  pageCrc : Bool
  cmdFull : Bool
  evtRsv : Bool
  storm : Bool
  hostLost : Bool
  fbActive : Bool
  tlmGap : Bool
  linkUp : Bool
  /-- CWY_CTRL.EN in force from the last boundary (R325). -/
  run : Bool
  avAddr : Nat
  cmdFetched : Nat
  lateCount : Nat
  dcrcCount : Nat
  seqCount : Nat
  pageErr : Nat
  evtDrop : Nat
  stormCount : Nat
  pqMax : Nat
  tlmGaps : Nat
  hlTick : Nat
  /-- The host part of the last page fetched: CMD_PROD, CMPL_CONS, EVT_CONS and TLM_CONS of this deck, HOST_BEAT. -/
  cmdProd : Nat
  cmplCons : Nat
  evtCons : Nat
  tlmCons : Nat
  beat : Option Nat
  /-- Successful fetches in a row that showed the same beat, and ticks in a row without a successful fetch. -/
  beatSame : Nat
  noFetch : Nat
  /-- FETCH_TICK: tick of the last successful fetch. -/
  fetchTick : Tick
  /-- The CMD_FULL and EVT_RSV episodes that have been signalled or reported (R326, R341). -/
  fullRaised : Bool
  /-- Staged descriptors, in ring order (R332). -/
  staged : List Staged
  /-- Completions formed and not yet written, and indices written beyond CMPL_PROD. -/
  cmplDue : List Completion
  cmplDone : List Nat
  cmplProd : Nat
  /-- Slots dealt with here that the twin writes (R291, R292). -/
  twinSlots : List Nat
  /-- TAGs of the last 2^CMD_LOG2 completions, newest first (R335). -/
  doneTags : List Nat
  pq : List Event
  evs : List Event
  evtProd : Nat
  tlmProd : Nat
  /-- Skipped ticks since the last telemetry entry. -/
  gapRun : Nat
  /-- The storm in progress: events formed, entries written, ticks, ticks in a row without the condition. -/
  stormEvents : Nat
  stormWritten : Nat
  stormTicks : Nat
  stormQuiet : Nat
  /-- What the deck has written into the rings of host memory, by slot. -/
  cmplRing : Store (Option Completion)
  evtRing : Store (Option Event)
  tlmRing : Store (Option TlmEntry)
  /-- DECK_TICK of the deck's block of the page. -/
  deckTick : Tick
  /-- Vectors signalled in this tick (R341). -/
  vectors : List Nat
  /-- MSI-X pending bits (R323). -/
  pba : List Nat
  profile : List ProfileCmd
  /-- Last accepted fall-back counter (R346), and frames bound to a boundary (R347). -/
  fbCounter : Option Nat
  fbStaged : List (List Nat × Tick)
  /-- CHARTER, CAL_WRITE or UPDATE in progress (R358); SELF_TEST commands in their tick (R147). -/
  job : Option Job
  tests : List Staged
  deriving DecidableEq, Repr

/-! ### Calendar (chapter 13) -/

/-- The calendar clock (R319 to R321). -/
structure CalS where
  /-- STATE: 0 INVALID, 1 FREE, 2 DISCIPLINED. -/
  st : Nat
  /-- The calendar reads `base` (2^−24 s) at the instant `at0`, and runs from there. -/
  at0 : Instant
  base : Nat
  /-- SEC at which a positive leap second is inserted. -/
  leapSec : Option Nat
  /-- The insertion has been reported (R320). -/
  leapDone : Bool
  vbakLow : Bool
  lost : Bool
  trimmed : Bool
  trim : Int
  /-- The measurement of the crystal in progress began at this instant (R321). -/
  trimAt : Instant
  /-- CAL_MAP_PYL, CAL_MAP_CAL. -/
  mapPyl : Nat
  mapCal : Nat
  deriving DecidableEq, Repr

/-- The calendar at reset: FREE (Table 13-10). -/
def CalS.reset : CalS :=
  { st := 1, at0 := 0, base := 0, leapSec := none, leapDone := false, vbakLow := false, lost := false, trimmed := false, trim := 0,
    trimAt := 0, mapPyl := 0, mapCal := 0 }

/-- Keystone (chapter 11; Tables 11-7, 11-8). -/
structure KstS where
  /-- KST_STATUS.LOCKSTEP_OK, LS_BROKEN (held over a reset), INJ_PASS, FAULT_LINE. -/
  lockstepOk : Bool
  lsBroken : Bool
  injPass : Bool
  faultLine : Bool
  /-- KST_FAULT.MISMATCH, WDT, ECC, DT_DIGEST; they survive a start. -/
  mismatch : Bool
  wdt : Bool
  ecc : Bool
  dtDigest : Bool
  /-- Tick of the assertion of the fault line, and the index of the first open descriptor then (R249). -/
  faultTick : Tick
  firstOpen : Nat
  /-- The first mismatch since the last start was recorded (R246). -/
  mmRecorded : Bool
  mmAddr : Nat
  mmTick : Tick
  /-- Difference patterns caught at the last start (R252). -/
  caught : List (Fin 64)
  ecc0 : Nat
  ecc1 : Nat
  /-- KST_WDT.LAST, and the service accepted in the tick in progress, 25 ns units. -/
  wdtLast : Nat
  served : Option Nat
  attaches : Nat
  /-- KST_FW_ID. -/
  fwId : Word
  deriving DecidableEq, Repr

/-- Keystone at reset (Table 11-8). LS_BROKEN is Held: 0 where no probe was attached (DESIGN CHOICE, log 1). -/
def KstS.reset : KstS :=
  { lockstepOk := false, lsBroken := false, injPass := false, faultLine := false, mismatch := false, wdt := false,
    ecc := false, dtDigest := false, faultTick := 0, firstOpen := 0, mmRecorded := false, mmAddr := 0, mmTick := 0,
    caught := [], ecc0 := 0, ecc1 := 0, wdtLast := 0, served := none, attaches := 0, fwId := 0#32 }

/-- The viaduct tie (chapter 12; Tables 12-9, 12-10). -/
structure VdtS where
  /-- VDT_STATE.PAIR: 0 single, 1 pairing, 2 paired, 3 alone, 4 relinquished. -/
  pair : Nat
  /-- Paired with a running twin: both decks drive the shared spans but those of `alone`. -/
  paired : Bool
  leads : List Span
  cwyLead : Bool
  /-- Spans this deck drives alone with share 2^16 (R264, R267). -/
  alone : List Span
  /-- VDT_STAT [9:0]. -/
  miss : Bool
  late : Bool
  shdMm : Bool
  diverge : Bool
  laneDown : Bool
  overlap : Bool
  staging : Bool
  carrier : Bool
  speed : Bool
  posDiff : Bool
  pairFail : Nat
  /-- VDT_LANE: lanes up, self-check of transmitters and receivers. -/
  lane0Up : Bool
  lane1Up : Bool
  selfTx : Bool
  selfRx : Bool
  /-- VDT_LANE_ERR, error ticks in a row and valid frames in a row of each lane (R271). -/
  err0 : Nat
  err1 : Nat
  bad0 : Nat
  bad1 : Nat
  good0 : Nat
  good1 : Nat
  /-- Lanes whose frame of the tick arrived valid. -/
  got0 : Bool
  got1 : Bool
  missCount : Nat
  lateCount : Nat
  shadowCount : Nat
  divergeCount : Nat
  /-- VDT_RELINQ and VDT_TAKEOVER. -/
  relSpans : List Span
  relCause : Nat
  relTick : Nat
  takSpans : List Span
  takCause : Nat
  takTick : Nat
  /-- VDT_RX_TICK and VDT_DIGEST. -/
  rxTick : Tick
  digest : BitVec 64
  /-- Bytes of the last valid mirror frame, and of the frame received in this tick that Φ0 fixes (R268). -/
  frame : List Byte
  frameNew : Option (List Byte)
  /-- A valid frame is the input of the tick in progress (R270), and missing frames in a row (R283). -/
  held : Bool
  missRun : Nat
  /-- Takeovers due: boundary, spans, Causeway lead, cause. -/
  takeovers : List (Tick × List Span × Bool × Nat)
  /-- Spans this deck gives up at the boundary ending the tick (R281), with the cause. -/
  giveUp : List (Span × Nat)
  /-- RELQ and RCAUSE of the frame to be sent. -/
  relqNext : List Span
  rcauseNext : Nat
  /-- Handshake (R266): good ticks in a row, S (0 until set), first frame sent, any valid one seen; good in this tick. -/
  shakeRun : Nat
  startTick : Tick
  shakeAt : Option Instant
  shakeSeen : Bool
  shakeOk : Bool
  /-- Mirror frames are sent (from S); a handshake of the twin came since this deck runs alone. -/
  mirror : Bool
  reShake : Bool
  /-- The twin was already running alone when this deck paired (R267). -/
  joins : Bool
  /-- Shared spans whose half here runs again only from a handover (R267), and spans whose legs the tie unit holds in the
  latched pattern or OFF until they have been given up (R284). -/
  out : List Span
  hold : List Span
  /-- The tie unit has relinquished every span on a stale acknowledgement; E082 follows in the next tick (R284). -/
  staleAck : Bool
  /-- Ticks with a mismatch, by span code, newest first (R277), and runs of the warnings (R276). -/
  mmTicks : Store (List Tick)
  mmNow : Bool
  spdRun : Nat
  carRun : Nat
  selfBad : Nat
  /-- Tick whose frame gives the shadow states in place of a comparison (R267, R280). -/
  adopt : Option Tick
  /-- δ of each actuator at the last valid frame (R287), and actuators whose HOMED is cleared in the copy. -/
  delta : Store (Option Int)
  noHome : List Nat
  /-- Bytes of the last frame this deck sent. -/
  sent : List Byte
  /-- The inputs and limits that each outer engine of a led span used in the last compute (S3): engine, six words. -/
  s3 : List (Nat × List Int)
  /-- Completions formed here for slots that the twin writes (R291, R292). -/
  twinDue : List Completion
  /-- Commands that the twin alone carries out, until a frame shows their slot posted (R292). -/
  openA : List Staged
  /-- The deck has been paired since its start, so that a frame of the twin is due in every tick (R270). -/
  met : Bool
  /-- Spans whose half the twin has given up (R281). -/
  twinOut : List Span
  /-- The last completion slot formed here (S6, CMPL_FORMED). -/
  formedLast : Nat
  deriving DecidableEq, Repr

/-- The tie at reset. -/
def VdtS.reset : VdtS :=
  { pair := 0, paired := false, leads := [], cwyLead := false, alone := [], miss := false, late := false, shdMm := false,
    diverge := false, laneDown := false, overlap := false, staging := false, carrier := false, speed := false,
    posDiff := false, pairFail := 0, lane0Up := false, lane1Up := false, selfTx := false, selfRx := false, err0 := 0,
    err1 := 0, bad0 := 0, bad1 := 0, good0 := 0, good1 := 0, got0 := false, got1 := false, missCount := 0, lateCount := 0,
    shadowCount := 0, divergeCount := 0, relSpans := [], relCause := 0, relTick := 0, takSpans := [], takCause := 0,
    takTick := 0, rxTick := 0, digest := 0#64, frame := [], frameNew := none, held := false,
    missRun := 0, takeovers := [], giveUp := [], relqNext := [], rcauseNext := 0, shakeRun := 0, startTick := 0,
    shakeAt := none, shakeSeen := false, shakeOk := false, mirror := false, reShake := false, joins := false, out := [],
    hold := [], staleAck := false, mmTicks := [], mmNow := false, spdRun := 0, carRun := 0, selfBad := 0, adopt := none,
    delta := [], noHome := [], sent := [], s3 := [], twinDue := [], openA := [], met := false, twinOut := [], formedLast := 0 }

/-- Table 17-5, TRL_STATE.VSUP. -/
inductive VsupSt where
  | normal | warn | long
  deriving DecidableEq, Repr

/-- R400, TRL_STATE.BRG. -/
inductive BrgSt where
  | off | starting | on | fault | latched
  deriving DecidableEq, Repr

/-- One channel of the Trestle round (R395 to R399). -/
structure ChanS where
  /-- VALUE of the last posted round. -/
  value : Int
  warn : Bool
  throt : Bool
  shut : Bool
  brokenOpen : Bool
  brokenShort : Bool
  /-- ve of R397; none before the first round. -/
  ve : Option Int
  /-- f of R397. -/
  f : Int
  deriving DecidableEq, Repr

/-- A channel at reset: value 0, no state, factor 1.0 (Table 17-4). -/
def ChanS.init : ChanS :=
  { value := 0, warn := false, throt := false, shut := false, brokenOpen := false, brokenShort := false, ve := none,
    f := 16777216 }

/-- The Trestle and the supplies (Tables 17-4, 17-5). -/
structure TrlS where
  vsup : VsupSt
  brg : BrgSt
  frozen : Bool
  /-- TRL_STAT: DIP, LONG_DIP, BRG_FAULT, BROKEN_SEEN, SHUT_SEEN. -/
  dip : Bool
  longDip : Bool
  brgFault : Bool
  brokenSeen : Bool
  shutSeen : Bool
  /-- Round last posted, and that one was posted. -/
  round : Nat
  posted : Bool
  chan : Store ChanS
  /-- fc and the coolant derates fq, ft, fcc; the span throttles by span code. -/
  fc : Int
  fq : Int
  ft : Int
  fcc : Int
  ftr : Store Int
  /-- Spans with a shut-down present, as last posted. -/
  shutSpans : List Span
  /-- Crossing of 7.2 V, in ns (R402); durations of dips in µs and their number. -/
  tw : Nat
  dipLast : Nat
  dipMax : Nat
  dipCount : Nat
  /-- RST_CAUSE and RAIL. -/
  rstCause : Nat
  rstRail : Nat
  /-- Entry into the present state of the Bearing supply, entries into FAULT (instants, newest first), and their number. -/
  brgAt : Instant
  brgFaults : List Instant
  brgCount : Nat
  /-- Rounds in a row with the output out of band while ON. -/
  brgOut : Nat
  /-- The limits as they stood at the boundary that opened the tick (R393, Table 02-3). -/
  inFtr : Store Int
  inQ : Int
  inT : Int
  inC : Int
  inShut : List Span
  /-- The long dip was present at that boundary (R404). -/
  inLong : Bool
  deriving DecidableEq, Repr

/-- The Trestle at reset (Table 17-4); RST_CAUSE is Held: power-on (log 1). -/
def TrlS.reset : TrlS :=
  { vsup := .normal, brg := .off, frozen := false, dip := false, longDip := false, brgFault := false, brokenSeen := false,
    shutSeen := false, round := 0, posted := false, chan := [], fc := 16777216, fq := 16777216, ft := 16777216,
    fcc := 16777216, ftr := [], shutSpans := [], tw := 0, dipLast := 0, dipMax := 0, dipCount := 0, rstCause := 0,
    rstRail := 0, brgAt := 0, brgFaults := [], brgCount := 0, brgOut := 0, inFtr := [], inQ := 16777216, inT := 16777216,
    inC := 16777216, inShut := [], inLong := false }

/-- The Bearing supply is in regulation (R401). -/
def TrlS.brgRun (t : TrlS) : Bool := decide (t.brg = .on)

/-- Start-up and abutment mode (chapter 18, Tables 18-8, 18-9). -/
structure StartS where
  /-- DKID_START_STAT.STEP. -/
  step : Nat
  ready : Bool
  abut : Bool
  abutCause : Nat
  /-- Reset is released and START may run (R407). -/
  released : Bool
  /-- A start is in progress, from t_s. -/
  running : Bool
  ts : Instant
  /-- Ticks run: from the end of step 5 (R42, R44). -/
  ticking : Bool
  /-- GO was written; step 6 has ended; the instant at which step 9 began (R455). -/
  go : Bool
  clockOk : Bool
  step9 : Instant
  /-- DKID_START_FAIL, held in MRAM. -/
  failCount : Nat
  lastCause : Nat
  lastStep : Nat
  /-- Instant of a failed start after which an automatic restart is due (R410). -/
  failedAt : Option Instant
  /-- A reset ended a start: cause 20 is recorded at the next one (R408). -/
  resetDuring : Bool
  /-- DKID_START_TIME, µs. -/
  dur : Nat
  /-- Abutment mode was requested for the next boundary (R414). -/
  abutDue : Bool
  /-- The deck has started before since power-on, and the start in progress is its first (R299). -/
  before : Bool
  first : Bool
  /-- DKID_IMG_DIGEST. -/
  digest : BitVec 64
  /-- DKID_COPIES, held. -/
  fwAct : Nat
  fwPend : Bool
  fwRej : Bool
  imgAct : Nat
  imgPend : Bool
  imgRej : Bool
  /-- The firmware and image copies this start runs. -/
  fwUse : Nat
  imgUse : Nat
  /-- Service ticks of abutment mode counted (R412). -/
  service : Nat
  deriving DecidableEq, Repr

/-- The deck at the release of reset: no start has run. Held values are 0 (log 1). -/
def StartS.reset : StartS :=
  { step := 0, ready := false, abut := false, abutCause := 0, released := true, running := false, ts := 0,
    ticking := false, go := false, clockOk := false, step9 := 0, failCount := 0, lastCause := 0, lastStep := 0,
    failedAt := none, resetDuring := false, dur := 0, abutDue := false, before := false, first := false, digest := 0#64,
    fwAct := 0, fwPend := false, fwRej := false, imgAct := 0, imgPend := false, imgRej := false, fwUse := 0, imgUse := 0,
    service := 0 }

/-! ### Charter, calibration set, MRAM, event log and recorder (chapter 18) -/

/-- A charter ledger record (Table 18-3). -/
structure LedgerRec where
  kind : Nat
  fwId : Word
  cal : Nat
  pylon : Nat
  oldDigest : BitVec 256
  newDigest : BitVec 256
  hostId : Nat
  tick : Tick
  copy : Nat
  /-- Its CRC holds; a void slot stays used. -/
  valid : Bool
  deriving DecidableEq, Repr

/-- One recorder slot (Table 18-7). -/
structure RecSlot where
  /-- STATE: 0 free, 1 armed, 2 filling, 3 closed. -/
  st : Nat
  protect : Bool
  record : Nat
  tick : Tick
  pylon : Nat
  cal : Nat
  code : Nat
  addr : AddrWord
  cause : Nat
  /-- Ring row that holds tick t − PRE. -/
  first : Nat
  gap : Nat
  extra : Nat
  more : List Nat
  /-- DETAIL of the trigger: value. -/
  val : Int
  /-- Rows still to come of an open record, and ticks whose row was not written, newest first, within the last 4,096. -/
  left : Nat
  missed : List Tick
  deriving DecidableEq, Repr

/-- A free slot. -/
def RecSlot.free : RecSlot :=
  { st := 0, protect := false, record := 0, tick := 0, pylon := 0, cal := 0, code := 0, addr := 0#16, cause := 0, first := 0,
    gap := 0, extra := 0, more := [], val := 0, left := 0, missed := [] }

/-- A trigger of the recorder that waits for the Φ3 of its tick (R427). -/
structure RecTrig where
  /-- Event code, or 0xFF for REC_TRIG. -/
  code : Nat
  addr : AddrWord
  cause : Nat
  val : Int
  tick : Tick
  /-- The REC_TRIG that waits for the record number. -/
  cmd : Option Staged
  deriving DecidableEq, Repr

/-- A write to the MRAM that is not done yet (R423). -/
inductive MramWrite where
  | event (e : Event)
  | header (slot : Nat)
  | row (slot : Nat) (tick : Tick) (words : List Word)
  /-- The new charter to the copy that is not in force; the record to the next slot. -/
  | charter (copy : Nat) (values : List (Nat × Word))
  | record (r : LedgerRec)
  /-- The calibration set to the staging area; the switch; the clearing of the old set. -/
  | calStage (words : List Word)
  | calSwitch
  | calClear
  /-- A block to a copy of the firmware (0) or of the span image (1). -/
  | block (target copy : Nat) (bytes : List Byte) (proper : Nat)
  deriving DecidableEq, Repr

/-- The MRAM and what it keeps (Tables 18-6 to 18-9). -/
structure MrmS where
  /-- Bytes of the partitions whose layout the spec gives, and of the image copies and flux banks. -/
  mem : List Host.Cell
  wrFail : Bool
  rdErr : Bool
  holdDrop : Bool
  corr : Nat
  uncorr : Nat
  writes : List MramWrite
  /-- Non-protection events held on die, and dropped in the freeze (R424). -/
  heldOther : Nat
  dropped : Nat
  /-- MRM_EVLOG_HEAD and the entries, by index mod 129,024. -/
  head : Nat
  log : Store (Option Event)
  /-- Recorder: slots, the slot whose ring is written, record number, misses, releases due. -/
  slots : Store RecSlot
  /-- The headers as written in the record directory (Table 18-7), by slot. -/
  hdrs : Store RecSlot
  open_ : Option Nat
  records : Nat
  miss : Nat
  release : List Nat
  trigs : List RecTrig
  /-- Charter copies A and B by BAR0 offset, and the ledger, oldest first. -/
  copyA : Store Word
  copyB : Store Word
  ledger : List LedgerRec
  /-- A change that has passed its readbacks and lands at the next boundary (R417): the boundary. -/
  lands : Option Tick
  /-- The calibration set in force and the staging area, origin, count, stamp; a switch that lands (R418, R419). -/
  calSet : List Word
  calStaged : List Word
  calUser : Bool
  calCount : Nat
  calStamp : Nat
  calLands : Option Tick
  /-- The block of an UPDATE has been written (R420). -/
  blockDone : Bool
  deriving DecidableEq, Repr

/-- The MRAM at reset: nothing listed, no record, no charter (Held and Charter values, log 1). -/
def MrmS.reset : MrmS :=
  { mem := [], wrFail := false, rdErr := false, holdDrop := false, corr := 0, uncorr := 0, writes := [], heldOther := 0,
    dropped := 0, head := 0, log := [], slots := [], hdrs := [], open_ := none, records := 0, miss := 0, release := [], trigs := [],
    copyA := [], copyB := [], ledger := [], lands := none, calSet := [], calStaged := [], calUser := false, calCount := 0,
    calStamp := 0, calLands := none, blockDone := false }

/-! ### Field ports and the identifier ledger (chapter 16) -/

/-- A message object (R372, Table 16-7). -/
structure ObjS where
  cfg : Word
  id : Word
  pub : Word
  aux : Word
  pend : Bool
  strand : Bool
  susp : Bool
  rerouted : Bool
  stale : Bool
  collRun : Nat
  backoff : Nat
  count : Nat
  /-- Data buffer by byte offset. -/
  buf : Store Byte
  deriving DecidableEq, Repr

/-- An object not configured. -/
def ObjS.init : ObjS :=
  { cfg := 0#32, id := 0#32, pub := 0#32, aux := 0#32, pend := false, strand := false, susp := false, rerouted := false,
    stale := false, collRun := 0, backoff := 0, count := 0, buf := [] }

/-- An entry of a re-route queue (R386): the original object and the copied data. -/
structure RrEntry where
  port : Nat
  obj : Nat
  data : List Byte
  deriving DecidableEq, Repr

/-- The attempt in progress on a port: an object of the port, or a queue entry (R373, R375). -/
structure TxNow where
  port : Nat
  obj : Nat
  /-- Its data as the buffer stood when its arbitration began. -/
  data : List Byte
  queued : Bool
  /-- A TXREQ came while it ran; an ABORT came while it ran. -/
  again : Bool
  aborted : Bool
  deriving DecidableEq, Repr

/-- Table 16-5. -/
inductive PortSt where
  | off | active | passive | busOff | recovering
  deriving DecidableEq, Repr

/-- One field port (Tables 16-6, 16-7). -/
structure PortS where
  st : PortSt
  passiveSeen : Bool
  busoffSeen : Bool
  collSeen : Bool
  txErr : Nat
  rxErr : Nat
  tdc : Nat
  txCount : Nat
  rxCount : Nat
  errCount : Nat
  busoffs : Nat
  collCount : Nat
  noMatch : Nat
  queue : List RrEntry
  rrSent : Nat
  obj : Store ObjS
  tx : Option TxNow
  /-- Entry into BUS_OFF. -/
  offAt : Instant
  /-- The last frame sent: identifier word and data. -/
  sent : Option (Word × List Byte)
  deriving DecidableEq, Repr

/-- A port at reset: OFF. -/
def PortS.init : PortS :=
  { st := .off, passiveSeen := false, busoffSeen := false, collSeen := false, txErr := 0, rxErr := 0, tdc := 0, txCount := 0,
    rxCount := 0, errCount := 0, busoffs := 0, collCount := 0, noMatch := 0, queue := [], rrSent := 0, obj := [], tx := none,
    offAt := 0, sent := none }

/-- A ledger slot (Table 16-3). -/
structure LdgSlot where
  id : Nat
  ide : Bool
  /-- FMT: 0 classical, 1 FD, 2 XL, 3 never written. -/
  fmt : Nat
  len : Nat
  unread : Bool
  lost : Bool
  trunc : Bool
  brs : Bool
  esi : Bool
  port : Nat
  obj : Nat
  pylon : Nat
  sdt : Nat
  vcid : Nat
  sec : Bool
  ovr : Nat
  af : Nat
  /-- Slots of its range, and the data bytes of this slot that were written. -/
  k : Nat
  data : List Byte
  deriving DecidableEq, Repr

/-- A slot never written. -/
def LdgSlot.empty : LdgSlot :=
  { id := 0, ide := false, fmt := 3, len := 0, unread := false, lost := false, trunc := false, brs := false, esi := false,
    port := 0, obj := 0, pylon := 0, sdt := 0, vcid := 0, sec := false, ovr := 0, af := 0, k := 1, data := [] }

/-- A partner (Table 16-4). -/
structure PtnS where
  addr : Nat
  port : Nat
  alt : Nat
  /-- STATE: 0 unused, 1 UNKNOWN, 2 ALIVE, 3 LOST. -/
  st : Nat
  hbId : Nat
  ide : Bool
  tmo : Nat
  age : Nat
  hbCount : Nat
  losses : Nat
  deriving DecidableEq, Repr

/-- A record not used. -/
def PtnS.init : PtnS :=
  { addr := 0, port := 0, alt := 0, st := 0, hbId := 0, ide := false, tmo := 0, age := 0, hbCount := 0, losses := 0 }

/-- A fall-back frame that waits for Φ1 (R346, R390). -/
structure FbFrame where
  data : List Byte
  /-- It is a CAN FD frame. -/
  fd : Bool
  /-- The tick whose Φ1 reads it: the one in which it came up to T1END, else the next. -/
  due : Tick
  deriving DecidableEq, Repr

/-- The ports, the ledger and the partners. -/
structure FpS where
  port : Store PortS
  slot : Store LdgSlot
  lostCount : Nat
  /-- The read buffer (R379): header and data. -/
  rdHdr : LdgSlot
  rdData : List Byte
  ptn : Store PtnS
  /-- Milliseconds of Pylon time at which ages rose and re-routes were tested last. -/
  ageMs : Nat
  rrMs : Nat
  /-- Heartbeat fills made (bytes 2–3 of SRC 2), by port × 128 + object. -/
  hbSent : Store Nat
  /-- Fall-back frames received and not yet read. -/
  fbIn : List FbFrame
  deriving DecidableEq, Repr

/-- The field ports at reset. -/
def FpS.reset : FpS :=
  { port := [], slot := [], lostCount := 0, rdHdr := LdgSlot.empty, rdData := [], ptn := [], ageMs := 0, rrMs := 0,
    hbSent := [], fbIn := [] }

/-- What the signed image carries beside the registers (R456, R161). -/
structure ImageS where
  /-- The constants of R456: 300 V by link sense (AI06, AI18, AI35, AI46, AI49); 12 V and 24 V of AI56; P_C; 3,000 W;
  62.5 A and 160 A of AI57; 50 V and 400 kW as the rules need them. -/
  v300 : Store Int
  v12 : Int
  v24 : Int
  pC : Int
  p3000 : Int
  i62 : Int
  i160 : Int
  /-- The C_OV threshold less 50 V in the scale of AI33 (R195). -/
  cOvLess50 : Int
  /-- 1 A in the AC current scale, in 2^−16 of the signal format (R207, R212, R214). -/
  acAmp : Int
  /-- The flux maps of T0 and T1 on the die, by word index (R161, R162). -/
  map0 : Store Word
  map1 : Store Word
  mapLoaded : List Trac
  /-- The telemetry set and the recorder set, by the offsets of the signal registers (R340, R427). -/
  tlmSig : List Nat
  recSig : List Nat
  /-- Its launch entries, by slot (R307). -/
  lt : List (Nat × BitVec 256)
  /-- The telemetry-set digest, low word (R340). -/
  tlmDigest : Word
  deriving DecidableEq, Repr

/-- No image. -/
def ImageS.reset : ImageS :=
  { v300 := [], v12 := 0, v24 := 0, pC := 0, p3000 := 0, i62 := 0, i160 := 0, cOvLess50 := 0, acAmp := 0, map0 := [], map1 := [], mapLoaded := [], tlmSig := [], recSig := [], lt := [],
    tlmDigest := 0#32 }

/-! ### The tick's inputs beside the converters (R56, Table 02-3) -/

/-- Status bits as sampled at the end of Φ0, and the Trestle limits as they stood at the boundary that opened the tick. -/
structure SnapS where
  /-- Usable legs (R30); legs usable but for the Bearing supply (R217). -/
  usable : List Nat
  usableNoBrg : List Nat
  /-- Legs with a trip latch, with a desaturation latch, with OC or SC line asserted. -/
  trip : List Nat
  desat : List Nat
  lines : List Nat
  /-- Legs whose HS, whose LS can be gated: no desaturation latch, not below UVLO (R174). -/
  gateHs : List Nat
  gateLs : List Nat
  /-- Spans with a two-leg short, a shoot-through trip, a persistent sync error; link overvoltage; C_OV (R35). -/
  shortSpans : List Span
  stTrips : List Span
  syncSpans : List Span
  linkOv : Bool
  cOv : Bool
  /-- Implausible pairs (R80). -/
  implausible : List Nat
  /-- Spans under a safe-state order of Keystone. -/
  orders : List Span
  /-- Trestle limits: per-span throttle and the coolant derates (R38, R397, R398). -/
  ftr : Store Int
  fcoolQ : Int
  fcoolT : Int
  fcoolC : Int
  deriving DecidableEq, Repr

/-- Nothing sampled yet. -/
def SnapS.reset : SnapS :=
  { usable := [], usableNoBrg := [], trip := [], desat := [], lines := [], gateHs := [], gateLs := [], shortSpans := [],
    stTrips := [], syncSpans := [], linkOv := false, cOv := false, implausible := [], orders := [], ftr := [],
    fcoolQ := 16777216, fcoolT := 16777216, fcoolC := 16777216 }


/-! ### Pylon time, launch table and census (chapter 13) -/

/-- Table 13-1. -/
inductive PylSt where
  | free | acquire | locked | holdover | grandmaster
  deriving DecidableEq, Repr

/-- One slot of the launch table (R305, Table 13-10). -/
structure LtSlot where
  /-- The 32 bytes of the entry. -/
  bytes : BitVec 256
  /-- PYL_LT_STAT.STATE: 0 empty, 1 armed, 2 done. -/
  st : Nat
  /-- Placed by the image. -/
  img : Bool
  /-- Boundary of the next execution of an armed entry. -/
  next : Tick
  /-- OUTCOME and LAST_TICK. -/
  outcome : Nat
  last : Nat
  deriving DecidableEq, Repr

/-- An empty slot. -/
def LtSlot.empty : LtSlot := { bytes := 0#256, st := 0, img := false, next := 0, outcome := 0, last := 0 }

/-- An action that is to execute at a later boundary than its own (R309, R310): its slot, its entry, its own boundary, and
why: 3 late, 4 deferred. -/
structure LtDue where
  slot : Nat
  bytes : BitVec 256
  own : Tick
  why : Nat
  deriving DecidableEq, Repr

/-- A census bank (R316). -/
structure CensusBank where
  /-- 0 released, 1 latched and copying, 2 ready and held. -/
  st : Nat
  inst : Nat
  id : Nat
  /-- The words of the bank that are not 0, by offset. -/
  words : Store Word
  deriving DecidableEq, Repr

/-- A released bank. -/
def CensusBank.empty : CensusBank := { st := 0, inst := 0, id := 0, words := [] }

/-- The Pylon unit (Tables 13-9, 13-10). -/
structure PylS where
  st : PylSt
  /-- HOLDOVER was entered in a way that Syncs end (R297). -/
  mayRejoin : Bool
  syncLost : Bool
  ofsFault : Bool
  lineLost : Bool
  lineDisagree : Bool
  ltDefer : Bool
  cnsMiss : Bool
  /-- PYL_OFFSET, PYL_LINE_ERR, PYL_FREQ_ADJ, PYL_GM_ID, PYL_HOLD_COUNT. -/
  offset : Int
  lineErr : Int
  freqAdj : Int
  gmId : Nat
  holdCount : Nat
  /-- Consecutive Syncs within 100 ns, within 10 µs and above 10 µs. -/
  goodSyncs : Nat
  nearSyncs : Nat
  farSyncs : Nat
  /-- The instant of the last valid Sync (R297). -/
  lastSync : Instant
  /-- The path delay measured last, in ns (R301). -/
  pathDelay : Int
  /-- Two-step Syncs and Announces sent as grandmaster, and when. -/
  syncSent : Nat
  syncAt : Instant
  annSent : Nat
  annAt : Instant
  /-- LINE_VALID, and it was valid before in this start. -/
  lineValid : Bool
  lineOnce : Bool
  goodMarks : Nat
  badMarks : Nat
  disMarks : Nat
  /-- Rising edge of the last marker driven, 0 before the first (R302). -/
  markAt : Instant
  /-- The launch table, executions, and actions put off to a later boundary. -/
  lt : Store LtSlot
  ltExec : Nat
  due : List LtDue
  /-- Census banks 0 and 1, NEXT, MISS. -/
  bank0 : CensusBank
  bank1 : CensusBank
  bankNext : Nat
  cnsMisses : Nat
  deriving DecidableEq, Repr

/-- The Pylon unit at reset: FREE, table empty, both banks released (Tables 13-9, 13-10). -/
def PylS.reset : PylS :=
  { st := .free, mayRejoin := false, syncLost := false, ofsFault := false, lineLost := false, lineDisagree := false,
    ltDefer := false, cnsMiss := false, offset := 0, lineErr := 0, freqAdj := 0, gmId := 0, holdCount := 0, goodSyncs := 0,
    nearSyncs := 0, farSyncs := 0, lastSync := 0, pathDelay := 0, syncSent := 0, syncAt := 0, annSent := 0, annAt := 0,
    lineValid := false, lineOnce := false, goodMarks := 0, badMarks := 0, disMarks := 0, markAt := 0, lt := [], ltExec := 0,
    due := [], bank0 := CensusBank.empty, bank1 := CensusBank.empty, bankNext := 0, cnsMisses := 0 }

/-! ### The deck -/

/-- Why a step stops with a fault: the spec gives every command an effect, so nothing raises one. -/
inductive Fault where
  deriving DecidableEq, Repr

/-- Why a step refuses a command. -/
inductive Refusal where
  /-- Raised by Dispatch for a command that has no meaning yet. Safe: nothing is claimed of it. -/
  | notModelled (mnemonic : String)
  deriving DecidableEq, Repr

/-- The state of the deck. -/
structure State where
  /-- The commands that wait, first in, first out. -/
  pending : List Instr
  /-- The model's own counter of free values drawn (notes/assumptions). -/
  freeCtr : Nat
  tk : TickS
  /-- The held registers of BAR0, by offset. -/
  bar : Store Word
  adc : AdcS
  /-- Rejections of the engines' sets. -/
  rej : Store RejS
  /-- The controlled state in force, and as it will stand at the next boundary. -/
  cur : Ctl
  stage : Ctl
  legs : Store LegS
  par : ParS
  pos0 : PosS
  pos1 : PosS
  cHw : CHwS
  pilot : PilotS
  hall : Store HallS
  sticky : List Sticky
  cwy : CwyS
  cal : CalS
  kst : KstS
  vdt : VdtS
  trl : TrlS
  start : StartS
  image : ImageS
  snap : SnapS
  /-- The status bits as they stood when the tick opened (R35). -/
  opened : SnapS
  pyl : PylS
  /-- High words and calendar fields latched by reads of their low words (R435), by offset. -/
  hiLatch : Store Word
  /-- The data of the last register read that the model keeps (the read completion on the link). -/
  lastRead : Word
  mrm : MrmS
  fp : FpS
  deriving DecidableEq, Repr

/-- Reset values of held registers: the spec's (Tables 03-6, 04-5, 05-5, 07-8 and the like); Image, Charter, Fuse,
Firmware, Held and Calibration values are 0 (DESIGN CHOICE, log 1). -/
def barReset (off : Nat) : Word :=
  if 0x4400 ≤ off ∧ off < 0x5400 then
    let r := (off - 0x4400) % 0x100
    if r = 0x0C then 1#32 else if 0x10 ≤ r ∧ r < 0x60 then 0x7F#32 else 0#32
  else if 0x5400 ≤ off ∧ off < 0x6000 then
    let r := (off - 0x5400) % 0x20
    if r = 0x0C then 0x7FFFFFFF#32 else if r = 0x10 then 0x80000000#32 else 0#32
  else if off = 0x2018 then 0x4008#32
  else if off = 0x2030 then 0x204008#32
  else if off = 0x203C then 0x104#32
  else if off = 0 then 0x48400000#32
  else if 0x3000 ≤ off ∧ off < 0x3080 ∧ off % 16 = 12 then 1#32
  else 0#32

/-- The tick unit at reset (Tables 02-5, 02-7). -/
def TickS.reset : TickS :=
  { count := 0, now := 0, ovrLast := false, ovrLatch := false, ovrSafe := false, fetchSlip := false, mirrorSlip := false,
    ovrSpans := [], ovrCount := 0, ovrTick := none, fetchSlips := 0, mirrorSlips := 0, tlLast := 0, tlOverride := 0,
    slackMin := 65535, statReset := false, tlOverwrite := 0, held := [], phi0Done := false, phi1Done := false,
    phi2Done := false, mirLate := false, scanned := false, phi3Done := false }

/-- The sensing block at reset (Table 03-6). -/
def AdcS.reset : AdcS :=
  { seqEn := false, seqRun := false, refEn := false, settled := false, settleAt := 0, fellAt := 0, eval := false, notSetCount := 0,
    conv := [], inp := [], pair := [], hostTrig := [], cal := [] }

/-- The Parapet at reset (Table 06-5). -/
def ParS.reset : ParS :=
  { caps := [], capFell := [], availLegs := [], availSpans := [], ovNow := [], linkOvLatch := false, cOvLatch := false, testFail := [], spanSc := [], stWindow := [], syncSpans := [], hall := [], hallInvalid := [], ovTested := [],
    roundStart := 0, testBase := 0, dtDigest := 0#32, clockLost := 0, clkHold := false, directCommit := [], directLate := [] }

/-- The comparator part of span C at reset. -/
def CHwS.reset : CHwS :=
  { crowbar := false, crowTick := 0, truncCount := 0, truncRaised := false, zcdNow := false, zcd := false, ovsLevel := 0 }

/-- The pilot unit at reset (Table 09-8). -/
def PilotS.reset : PilotS :=
  { st := .a, cand := .a, candRun := 0, badRun := 0, duties := [], duty := 0, hlc := false, limit := 0, ppCode := 0,
    ppRes := 0, kAcFb := false, diffSince := none, fbFault := false, outFault := false }

/-- The Causeway at reset (Table 14-8). -/
def CwyS.reset : CwyS :=
  { accViol := false, pageCrc := false, cmdFull := false, evtRsv := false, storm := false, hostLost := false,
    fbActive := false, tlmGap := false, linkUp := false, run := false, avAddr := 0, cmdFetched := 0, lateCount := 0, dcrcCount := 0,
    seqCount := 0, pageErr := 0, evtDrop := 0, stormCount := 0, pqMax := 0, tlmGaps := 0, hlTick := 0, cmdProd := 0,
    cmplCons := 0, evtCons := 0, tlmCons := 0, beat := none, beatSame := 0, noFetch := 0, fetchTick := 0,
    fullRaised := false, staged := [], cmplDue := [], cmplDone := [], cmplProd := 0, twinSlots := [], doneTags := [], pq := [], evs := [],
    evtProd := 0, tlmProd := 0, gapRun := 0, stormEvents := 0, stormWritten := 0, stormTicks := 0, stormQuiet := 0,
    cmplRing := [], evtRing := [], tlmRing := [], deckTick := 0, vectors := [], pba := [], profile := [],
    fbCounter := none, fbStaged := [], job := none, tests := [] }

/-- The deck right after reset. -/
def State.reset : State :=
  { pending := [], freeCtr := 0, tk := TickS.reset, bar := [], adc := AdcS.reset, rej := [], cur := Ctl.init,
    stage := Ctl.init, legs := [], par := ParS.reset, pos0 := PosS.init, pos1 := PosS.init, cHw := CHwS.reset,
    pilot := PilotS.reset, hall := [], sticky := [], cwy := CwyS.reset,
    cal := CalS.reset, kst := KstS.reset, vdt := VdtS.reset, trl := TrlS.reset, start := StartS.reset, image := ImageS.reset, snap := SnapS.reset, opened := SnapS.reset, pyl := PylS.reset, hiLatch := [], lastRead := 0#32,
    mrm := MrmS.reset, fp := FpS.reset }

end Sys2Proof.Machine
end

