-- ==== Sys2Proof/Machine/Ops.lean ====
section
/-! DEFINITION. The named operations over State: the held registers of BAR0, the numbered parts, time in the tick, addresses of parts, events and access violations. -/
namespace Sys2Proof.Machine

/-! ### Held registers -/

/-- The word a held register of BAR0 holds. -/
def State.reg (s : State) (off : Nat) : Word := Store.get barReset s.bar off
/-- Store a word into a held register. -/
def State.setReg (s : State) (off : Nat) (v : Word) : State := { s with bar := Store.put barReset s.bar off v }

/-! ### The numbered parts -/

/-- Leg l. -/
def State.leg (s : State) (l : Nat) : LegS := Store.get LegS.init s.legs l
/-- Change leg l. -/
def State.updLeg (s : State) (l : Nat) (f : LegS → LegS) : State := { s with legs := Store.upd LegS.init s.legs l f }
/-- Change each leg of a list. -/
def State.updLegs (s : State) (ls : List Nat) (f : Nat → LegS → LegS) : State :=
  ls.foldl (fun t l => t.updLeg l (f l)) s
/-- Converter c. -/
def State.conv (s : State) (c : Nat) : ConvS := Store.get (fun _ => ConvS.init) s.adc.conv c
/-- Change converter c. -/
def State.updConv (s : State) (c : Nat) (f : ConvS → ConvS) : State :=
  { s with adc := { s.adc with conv := Store.upd (fun _ => ConvS.init) s.adc.conv c f } }
/-- Input i. -/
def State.inp (s : State) (i : Nat) : InputS := Store.get (fun _ => InputS.init) s.adc.inp i
/-- Change input i. -/
def State.updInp (s : State) (i : Nat) (f : InputS → InputS) : State :=
  { s with adc := { s.adc with inp := Store.upd (fun _ => InputS.init) s.adc.inp i f } }
/-- Pair k. -/
def State.pairS (s : State) (k : Nat) : PairS := Store.get (fun _ => PairS.init) s.adc.pair k
/-- Change pair k. -/
def State.updPair (s : State) (k : Nat) (f : PairS → PairS) : State :=
  { s with adc := { s.adc with pair := Store.upd (fun _ => PairS.init) s.adc.pair k f } }
/-- Rejections of engine g. -/
def State.rejS (s : State) (g : Nat) : RejS := Store.get (fun _ => RejS.init) s.rej g
/-- Change the rejections of engine g. -/
def State.updRej (s : State) (g : Nat) (f : RejS → RejS) : State :=
  { s with rej := Store.upd (fun _ => RejS.init) s.rej g f }
/-- The Hall counter of actuator m. -/
def State.hallS (s : State) (m : Nat) : HallS := Store.get (fun _ => HallS.init) s.hall m
/-- Change the Hall counter of actuator m. -/
def State.updHall (s : State) (m : Nat) (f : HallS → HallS) : State :=
  { s with hall := Store.upd (fun _ => HallS.init) s.hall m f }
/-- Port p. -/
def State.port (s : State) (p : Nat) : PortS := Store.get (fun _ => PortS.init) s.fp.port p
/-- Change port p. -/
def State.updPort (s : State) (p : Nat) (f : PortS → PortS) : State :=
  { s with fp := { s.fp with port := Store.upd (fun _ => PortS.init) s.fp.port p f } }
/-- Engine g of a controlled state. -/
def Ctl.engS (c : Ctl) (g : Nat) : EngS := Store.get (fun _ => EngS.init) c.eng g
/-- Put engine g. -/
def Ctl.putEng (c : Ctl) (g : Nat) (e : EngS) : Ctl := { c with eng := Store.put (fun _ => EngS.init) c.eng g e }
/-- Actuator m of a controlled state. -/
def Ctl.actS (c : Ctl) (m : Nat) : ActS := Store.get (fun _ => ActS.init) c.act m
/-- Put actuator m. -/
def Ctl.putAct (c : Ctl) (m : Nat) (a : ActS) : Ctl := { c with act := Store.put (fun _ => ActS.init) c.act m a }
/-- Traction span t of a controlled state. -/
def Ctl.trac (c : Ctl) (t : Trac) : TracS := if t.val = 0 then c.tr0 else c.tr1
/-- Put traction span t. -/
def Ctl.putTrac (c : Ctl) (t : Trac) (x : TracS) : Ctl := if t.val = 0 then { c with tr0 := x } else { c with tr1 := x }
/-- The position unit of traction span t. -/
def State.pos (s : State) (t : Trac) : PosS := if t.val = 0 then s.pos0 else s.pos1
/-- Change the position unit of traction span t. -/
def State.updPos (s : State) (t : Trac) (f : PosS → PosS) : State :=
  if t.val = 0 then { s with pos0 := f s.pos0 } else { s with pos1 := f s.pos1 }
/-- Add one element to a list that is a set. -/
def addSet {α : Type} [DecidableEq α] (x : α) (l : List α) : List α := if x ∈ l then l else x :: l
/-- Remove one element from a list that is a set. -/
def delSet {α : Type} [DecidableEq α] (x : α) (l : List α) : List α := l.filter (fun y => decide (y ≠ x))
/-- Set a sticky flag of a span. -/
def State.stick (s : State) (f : Sticky) : State := { s with sticky := addSet f s.sticky }

/-! ### Time -/

/-- P in 25 ns units, TICK_PERIOD.PERIOD (R42). -/
def State.period (s : State) : Nat := fld (s.reg 0x1000) 0 13
/-- P in units of 1/3072 ns. -/
def State.pu (s : State) : Nat := s.period * u25
/-- P in Truss steps: 1,024 steps per 25 ns (R54). -/
def State.psteps (s : State) : Nat := s.period * 1024
/-- The instant of boundary n (R295). -/
def State.boundary (s : State) (n : Tick) : Instant := n * s.pu
/-- T0END and T1END as offsets in the tick (R46). -/
def State.t0end (s : State) : Nat := fld (s.reg 0x1004) 0 9 * u25
/-- T1END. -/
def State.t1end (s : State) : Nat := fld (s.reg 0x1004) 16 9 * u25
/-- TRES (R46). -/
def State.tres (s : State) : Nat := fld (s.reg 0x1008) 0 8 * u25
/-- Go to an offset within the tick in progress; time never runs back. -/
def State.at (s : State) (ofs : Nat) : State :=
  { s with tk := { s.tk with now := max s.tk.now (s.boundary s.tk.count + ofs) } }
/-- An instant lies in the tick in progress, or no tick runs. -/
def State.reaches (s : State) (t : Instant) : Bool := !s.start.ticking || decide (t < s.boundary (s.tk.count + 1))
/-- A time that the tick's clock has to reach has passed; while no tick runs, the command itself says so (log 8). -/
def State.passed (s : State) (t : Instant) : Bool := !s.start.ticking || decide (t ≤ s.tk.now)
/-- Go to an instant. -/
def State.goto (s : State) (t : Instant) : State := { s with tk := { s.tk with now := max s.tk.now t } }
/-- The carrier centre of the period in progress of leg l: the instant at which q of R109 is floor(per / 2) (R76, R109). -/
def State.carrierCentre (s : State) (l : Nat) : Instant :=
  let g := s.leg l
  g.pstart + (g.plen / 2 + g.plen - g.act.phase % g.plen) % g.plen * uStep
/-- A count of ticks has reached a time in ms: count × P is at or above it (R172, R220, R238). -/
def State.reached (s : State) (count ms : Nat) : Bool := decide (ms * 40000 ≤ count * s.period)

/-! ### Calendar stamps (R319, R320, Table 13-8) -/

/-- The calendar in 2^−24 s at an instant, before a leap second. -/
def State.calRaw (s : State) (t : Instant) : Nat :=
  s.cal.base + (t - s.cal.at0) * 2 ^ 24 / (1000000000 * uNs)
/-- The calendar with an announced leap second inserted (R320). -/
def State.calVal (s : State) (t : Instant) : Nat :=
  let v := s.calRaw t
  match s.cal.leapSec with
  | none => v
  | some k => if v < k * 2 ^ 24 then v else if v < (k + 1) * 2 ^ 24 then k * 2 ^ 24 - 1 else v - 2 ^ 24
/-- The calendar stamp of Table 13-8 at an instant. -/
def State.calStamp (s : State) (t : Instant) : Nat := s.cal.st * 2 ^ 62 + s.calVal t % 2 ^ 62

/-! ### Addresses of parts (R26) -/

/-- The role bit of this deck's address words: 1 for role B (Table 01-6 ROLE 2). -/
def State.roleBit (s : State) : Nat := if fld (s.reg 0x40) 14 2 = 2 then 0x8000 else 0
/-- The whole deck. -/
def State.deckAddr (s : State) : AddrWord := BitVec.ofNat 16 (s.roleBit + 0x0F3F)
/-- A span. -/
def State.spanAddr (s : State) (x : Span) : AddrWord := BitVec.ofNat 16 (s.roleBit + x.code * 256 + 0x3F)
/-- A leg. -/
def State.legAddr (s : State) (l : Nat) : AddrWord := BitVec.ofNat 16 (s.roleBit + (Span.ofLeg l).code * 256 + l)
/-- A switch of a leg. -/
def State.switchAddr (s : State) (l : Nat) (x : Switch) : AddrWord :=
  BitVec.ofNat 16 (s.roleBit + (Span.ofLeg l).code * 256 + 0x80 + (match x with | .hs => 0 | .ls => 0x40) + l)

/-! ### Events (R336, R337) -/

/-- A later occurrence of an event joins its entry (Table 14-6): COUNT rises by 1, the entry is COALESCED, and DETAIL2 holds the
ticks from the first to the last occurrence. -/
def Event.join (pu : Nat) (x e : Event) : Event :=
  { x with count := x.count + 1, coalesced := true, val2 := ((e.pylon * uNs / pu : Nat) : Int) - ((x.pylon * uNs / pu : Nat) : Int) }

/-- Put a protection event into the queue: it joins an unwritten entry of the same code and address (R337). -/
def pqPush (pu : Nat) (e : Event) : List Event → List Event
  | [] => [e]
  | x :: t => if x.code = e.code ∧ x.addr = e.addr then x.join pu e :: t else x :: pqPush pu e t

/-- Write an event into the queue of MRAM writes (R426). While the MRAM is frozen a protection event raises the entry held
for its code and address, and other events beyond 1,024 held ones are dropped (R424). -/
def State.logEvent (s : State) (e : Event) : State :=
  let m := s.mrm
  if !s.trl.frozen then { s with mrm := { m with writes := m.writes ++ [.event e] } }
  else if e.code < 32 then
    let same := fun (w : MramWrite) => match w with | .event x => decide (x.code = e.code ∧ x.addr = e.addr) | _ => false
    if m.writes.any same then
      { s with mrm := { m with writes := m.writes.map (fun w => match w with
          | .event x => if x.code = e.code ∧ x.addr = e.addr then .event (x.join s.pu e) else w
          | _ => w) } }
    else { s with mrm := { m with writes := m.writes ++ [.event e] } }
  else if m.heldOther < 1024 then
    { s with mrm := { m with writes := m.writes ++ [.event e], heldOther := m.heldOther + 1 } }
  else { s with mrm := { m with holdDrop := true, dropped := m.dropped + 1 } }

/-- The event triggers the recorder (R427): a protection event, or one whose bit of MRM_REC_TRIGw is set. -/
def State.triggers (s : State) (code : Nat) : Bool :=
  decide (code < 32) || bitOf (s.reg (0x33304 + 4 * (code / 32))) (code % 32)

/-- Note a trigger for the recorder, which acts in Φ3 from deck ready (R427). -/
def State.noteTrigger (s : State) (e : Event) : State :=
  if s.start.ready && s.triggers e.code then
    { s with mrm := { s.mrm with
        trigs := s.mrm.trigs ++ [{ code := e.code, addr := e.addr, cause := e.cause, val := e.val, tick := e.pylon * uNs / s.pu, cmd := none }] } }
  else s

/-- Raise an event at the instant reached (R336): it goes to the event log and the recorder; protection events go to the
protection queue, the others to the list of the tick. -/
def State.raise (s : State) (code : Nat) (addr : AddrWord) (cause : Nat) (val val2 : Int) : State :=
  let e : Event := { code := code, addr := addr, cause := cause, val := val, val2 := val2, pylon := s.tk.now / uNs,
                     cal := s.calStamp s.tk.now, count := 1, coalesced := false, queued := false }
  let s := (s.logEvent e).noteTrigger e
  if code < 32 then
    let pq := pqPush s.pu e s.cwy.pq
    { s with cwy := { s.cwy with pq := pq, pqMax := max s.cwy.pqMax pq.length } }
  else { s with cwy := { s.cwy with evs := s.cwy.evs ++ [e] } }

/-- An access violation (R20, R349): the register is unchanged, ACC_VIOL and CWY_AV_ADDR are set, E070 is raised. -/
def State.accessViolation (s : State) (off : Nat) : State :=
  ({ s with cwy := { s.cwy with accViol := true, avAddr := off } }).raise 70 s.deckAddr 0 off 0

/-- Signal an MSI-X vector, at most once per tick except vector 0 (R341); a masked vector becomes pending (R323). -/
def State.signal (s : State) (v : Nat) : State :=
  if bitOf (s.reg (0x300C + 0x10 * v)) 0 then { s with cwy := { s.cwy with pba := addSet v s.cwy.pba } }
  else { s with cwy := { s.cwy with vectors := if v = 0 then v :: s.cwy.vectors else addSet v s.cwy.vectors } }

/-! ### Configuration of the organisation (chapter 01) -/

/-- DKID_TOPOLOGY wiring of a traction span: 0 six-phase, 1 three-phase, 3 not fitted. -/
def State.wiring (s : State) (t : Trac) : Nat := fld (s.reg 0x40) (2 * t.val) 2
/-- C_PHASES: most phases ever active. -/
def State.cPhases (s : State) : Nat := fld (s.reg 0x40) 4 4
/-- A span is fitted (Table 01-6). -/
def State.fitted (s : State) : Span → Bool
  | .t0 => decide (s.wiring 0 < 2)
  | .t1 => decide (s.wiring 1 < 2)
  | .c => decide (2 ≤ s.cPhases ∧ s.cPhases ≤ 8)
  | .q => bitOf (s.reg 0x40) 8
  | .b => bitOf (s.reg 0x40) 9
  | .a0 => bitOf (s.reg 0x40) 10
  | .a1 => bitOf (s.reg 0x40) 11
  | .a2 => bitOf (s.reg 0x40) 12
  | .a3 => bitOf (s.reg 0x40) 13
/-- The leg's bit of the leg enable mask (Table 01-4). -/
def State.legEnabled (s : State) (l : Nat) : Bool := if l < 32 then bitOf (s.reg 0x44) l else bitOf (s.reg 0x48) (l - 32)
/-- The deck is part of a viaduct (ROLE 1 or 2). -/
def State.inViaduct (s : State) : Bool := fld (s.reg 0x40) 14 2 = 1 || fld (s.reg 0x40) 14 2 = 2

/-- The base of a span's registers in BAR0. -/
def spanBase : Span → Nat
  | .t0 => 0x18000 | .t1 => 0x19000 | .c => 0x1A000 | .q => 0x1B000 | .b => 0x1C000
  | .a0 => 0x1D000 | .a1 => 0x1D800 | .a2 => 0x1E000 | .a3 => 0x1E800

/-- A register of a span as a signal. -/
def State.spn (s : State) (x : Span) (o : Nat) : Int := sig (s.reg (spanBase x + o))
/-- A register of a span as a word. -/
def State.spnW (s : State) (x : Span) (o : Nat) : Word := s.reg (spanBase x + o)

/-- R456: a quotient constant × 2^24 / v, and 2^31 − 1 while v is at or below 0. -/
def quot456 (k v : Int) : Int := if 0 < v then rheQ (k * one24) v else s32max

/-- The image constant for 300 V of a link sense (R2, R456). -/
def State.v300 (s : State) (i : Nat) : Int := Store.get (fun _ => 0) s.image.v300 i

/-- The snapshot signal of an input (R71). -/
def State.ai (s : State) (i : Nat) : Int := (s.inp i).result

/-- Bank of an input is distrusted: UNTRUSTED or PAIR_BAD in the snapshot (R81). -/
def State.distrusted (s : State) (i : Nat) : Bool := (s.inp i).untrusted || (s.inp i).pairBad

/-! ### Commands to spans (R352, R353) -/

/-- The verdict of a command's boundary checks: it acts, it names the state the span is in and changes nothing, or it fails
with a status (R353). -/
inductive Verdict where
  | go
  | same
  | no (st : Status)
  deriving DecidableEq, Repr

/-- A change of state is open: at most one per boundary (R353). -/
def State.mayChange (s : State) (x : Span) : Verdict := if x ∈ s.stage.changed then .no .busy else .go

/-- Write an edited controlled state as the one that stands at the next boundary. -/
def State.withStage (s : State) (c : Ctl) : State := { s with stage := c }

/-- Note that a span changes its state at the boundary (R353). -/
def Ctl.changes (c : Ctl) (x : Span) : Ctl := { c with changed := addSet x c.changed }

/-- Add what is to happen when the compute takes effect. -/
def Ctl.note (c : Ctl) (l : List Note) : Ctl := { c with notes := c.notes ++ l }

/-- The boundary a command or action of this tick's compute acts at. -/
def State.nextBoundary (s : State) : Tick := s.tk.count + 1

/-- Cause 1 of a span's cause table stays active until boundary n_o + 17, n_o the tick of the most recent overrun (R61). -/
def State.overrunActive (s : State) (safeCause : Nat) : Bool :=
  decide (safeCause = 1) && (match s.tk.ovrTick with | some n => decide (s.nextBoundary ≤ n + 16) | none => false)

/-- The HV pier enables are removed while the deck is lockstep-broken, every pier enable in abutment mode (R255, R412). -/
def State.hvDisabled (s : State) : Bool := s.kst.lsBroken || s.start.abut

/-! ### The viaduct: the frame's layout and the shares (R274, R264) -/

/-- The mirrored engines, ascending (VDT_MIRROR). -/
def State.mirrorEng (s : State) : List Nat :=
  (List.range 64).filter (fun g => bitOf (s.reg (if g < 32 then 0x3100C else 0x31010)) (g % 32))
/-- The outer engines in the order named (VDT_OUTER). -/
def State.outerEng (s : State) : List Nat :=
  ((List.range 8).map (fun k => fld (s.reg (if k < 4 then 0x31014 else 0x31018)) (8 * (k % 4)) 7)).filter (fun g => decide (g < 64))
/-- Places of sections S3 to S8. -/
def State.s3At (s : State) : Nat := 320 + 24 * s.mirrorEng.length
/-- S4. -/
def State.s4At (s : State) : Nat := s.s3At + 24 * s.outerEng.length
/-- LEN of a mirror frame. -/
def State.frameLen (s : State) : Nat := s.s4At + 420
/-- This deck takes a span over at the boundary that ends this tick (R282). After silence the twin's halves of the spans that
this deck leads are gone too, so this deck drives every shared span alone (DEDUCED, log 127). -/
def State.takingOver (s : State) (x : Span) : Bool :=
  s.vdt.takeovers.any (fun t => decide (t.1 = s.tk.count + 1) && (t.2.1.contains x || (decide (t.2.2.2 = 3) && decide (x.code ≤ 4))))

/-- This deck leads or owns a span from the boundary that ends this tick, and not before (R282, R286). -/
def State.gaining (s : State) (x : Span) : Bool := !s.vdt.leads.contains x && (s.takingOver x || s.stage.handing.contains x)

/-- The shared quantities of a viaduct: this deck's share of a span in 2^−16 at the boundary that the tick computes for (R264,
R282, R286). -/
def State.share (s : State) (x : Span) : Nat :=
  if s.vdt.paired && (!(s.vdt.alone.contains x) || s.stage.handing.contains x) && !s.takingOver x then
    let a := match x with
      | .t0 => fld (s.reg 0x31004) 0 16 | .t1 => fld (s.reg 0x31004) 16 16
      | .c => fld (s.reg 0x31008) 0 16 | .q => fld (s.reg 0x31008) 16 16 | _ => 65536
    if a = 65536 then 65536 else if s.roleBit = 0 then a else 65536 - a
  else 65536

/-- A quantity scaled by the share (Table 12-1). -/
def State.shared (s : State) (x : Span) (v : Int) : Int := rhe (v * (s.share x : Int)) 16
/-- A limit of the lead's outer laws: its own limit × 2^16 / share (R264). -/
def State.unshared (s : State) (x : Span) (v : Int) : Int :=
  let d := s.share x
  if d = 65536 then v else rheQ (v * 65536) d

end Sys2Proof.Machine
end

