-- ==== Sys2Proof/Machine/Operands.lean ====
section
/-! DEFINITION. The operand forms of the commands: the fields of a descriptor (Table 14-4), its payload (R350), the address word and its classes (R26, R27, R351), and the completion it forms (Table 14-5). -/
namespace Sys2Proof.Machine

/-! ### Descriptor fields (Table 14-4) -/

/-- OPCODE. -/
def dOp (d : Staged) : Nat := blk d.desc 0 2
/-- ADDR as a number. -/
def dAddr (d : Staged) : Nat := blk d.desc 2 2
/-- TAG. -/
def dTag (d : Staged) : Nat := blk d.desc 4 4
/-- EFF_TICK. -/
def dEff (d : Staged) : Nat := blk d.desc 8 8
/-- The SEQ field. -/
def dSeq (d : Staged) : Nat := blk d.desc 16 4
/-- Bytes 20–23, which must be 0. -/
def dZero (d : Staged) : Nat := blk d.desc 20 4
/-- Payload bytes Pk to Pk+n−1, little-endian (R350). -/
def dP (d : Staged) (k n : Nat) : Nat := blk d.desc (24 + k) n
/-- A payload word as a signed value. -/
def dS (d : Staged) (k : Nat) : Int := (BitVec.ofNat 32 (dP d k 4)).toInt
/-- A signed 32-bit reading of the word at Pk as a register word. -/
def dW (d : Staged) (k : Nat) : Word := BitVec.ofNat 32 (dP d k 4)
/-- The CRC of a descriptor matches (R331 check 1). -/
def dCrcOk (b : Block64) : Bool := decide (blk b 60 4 = (crc32c (blkBytes b 60)).toNat)

/-! ### Address words (Table 01-2, R27) -/

/-- ROLE. -/
def aRole (a : Nat) : Nat := a / 32768 % 2
/-- VSPAN. -/
def aVspan (a : Nat) : Nat := a / 16384 % 2
/-- Bits [13:12]. -/
def aZero (a : Nat) : Nat := a / 4096 % 4
/-- SPAN. -/
def aSpan (a : Nat) : Nat := a / 256 % 16
/-- SW_VALID. -/
def aSwValid (a : Nat) : Nat := a / 128 % 2
/-- SW. -/
def aSw (a : Nat) : Nat := a / 64 % 2
/-- LEG. -/
def aLeg (a : Nat) : Nat := a % 64

/-- R27, with Table 01-2. -/
def addrValid (viaduct : Bool) (a : Nat) : Bool :=
  let sp := aSpan a
  let leg := aLeg a
  let legOk := if leg = 63 then true else match Span.ofCode? sp with
    | some x => x.legs.contains leg
    | none => false
  decide (aZero a = 0) && (decide (sp ≤ 8) || decide (sp = 15)) && legOk &&
  (if aSwValid a = 1 then decide (leg ≠ 63) else decide (aSw a = 0)) &&
  (if sp = 15 then decide (leg = 63) && decide (aSwValid a = 0) else true) &&
  (if aVspan a = 1 then decide (aRole a = 0) && decide (sp ≤ 8) && decide (leg = 63) && decide (aSwValid a = 0) else true) &&
  (decide (aRole a = 0) || viaduct)

/-- The address classes of R351. -/
inductive AddrClass where
  | deck | span | leg
  deriving DecidableEq, Repr

/-- ADDR satisfies a class (R351). -/
def classOk (c : AddrClass) (a : Nat) : Bool :=
  match c with
  | .deck => decide (aSpan a = 15) && decide (aLeg a = 63) && decide (aSwValid a = 0)
  | .span => decide (aSpan a ≤ 8) && decide (aLeg a = 63) && decide (aSwValid a = 0)
  | .leg => decide (aSpan a ≤ 8) && decide (aSwValid a = 0)

/-- The span a descriptor names; T0 for a deck address, which no caller uses. -/
def dSpan (d : Staged) : Span := (Span.ofCode? (aSpan (dAddr d))).getD .t0
/-- The legs an L address names: one leg, or every leg of the span (R351). -/
def dLegs (d : Staged) : List Nat :=
  if aLeg (dAddr d) = 63 then (dSpan d).legs else [aLeg (dAddr d)]
/-- ADDR names the whole deck. -/
def dIsDeck (d : Staged) : Bool := decide (aSpan (dAddr d) = 15)

/-! ### Completions (Table 14-5, R334) -/

/-- The completion of a descriptor with a status, applied at a boundary. A failed ADDR reads 0x0F3F of the writer. -/
def completionOf (s : State) (d : Staged) (st : Status) (result : Nat) (applied : Tick) : Completion :=
  { tag := dTag d, seq := d.seq, dseq := dSeq d, applied := applied, opcode := dOp d,
    addr := if addrValid s.inViaduct (dAddr d) then BitVec.ofNat 16 (dAddr d) else s.deckAddr,
    status := st, late := d.late, clip := false, superseded := false, lateCause := d.lateCause, result := result }

/-- Two result words, RESULT 0–3 and 4–7. -/
def res2 (a b : Int) : Nat := (wdI a).toNat + 2 ^ 32 * (wdI b).toNat

/-- Note a completion that the compute formed, and its descriptor as dealt with. -/
def State.stageDone (s : State) (d : Staged) (st : Status) (result : Nat) : State :=
  { s with stage := { s.stage with
      cmpl := s.stage.cmpl ++ [completionOf s d st result d.bound], handled := d.seq :: s.stage.handled } }

/-- Form the completion of a command of the deck at once: it is written in Φ3 (R334), and its descriptor is no longer
staged. -/
def State.deckDone (s : State) (d : Staged) (st : Status) (result : Nat) : State :=
  { s with cwy := { s.cwy with
      cmplDue := s.cwy.cmplDue ++ [completionOf s d st result d.bound],
      staged := s.cwy.staged.filter (fun x => decide (x.seq ≠ d.seq)) } }

/-- A command that sets a quantity supersedes an earlier one at the same boundary (R333, R308). -/
def Ctl.quantity (c : Ctl) (seq : Option Nat) (q : Nat) : Ctl :=
  let hit := fun (k : Nat) => c.quants.contains (k, q)
  { c with cmpl := c.cmpl.map (fun x => if hit x.seq && decide (some x.seq ≠ seq) then { x with superseded := true } else x),
           quants := (match seq with | some k => [(k, q)] | none => []) ++ c.quants }

/-! ### The command and completion rings (R326, R335) -/

/-- Entries of the command and completion rings. -/
def State.cmdEntries (s : State) : Nat := 2 ^ fld (s.reg 0x2018) 0 4
/-- The distance of two running indices. -/
def idxSub (a b : Nat) : Nat := (a + 2 ^ 32 - b) % 2 ^ 32
/-- The next running index. -/
def idxNext (a : Nat) : Nat := (a + 1) % 2 ^ 32
/-- The TAG that an abort may find completed (R335 row 3): none, written 2^32, for a command that an abort cannot name
(R335 row 4, R358). -/
def Completion.doneTag (c : Completion) : Nat :=
  if c.opcode = 1 ∨ c.opcode = 2 ∨ c.opcode = 0x40 ∨ c.opcode = 0x60 ∨ c.opcode = 0x61 ∨ c.opcode = 0x62 ∨ c.opcode = 0x155
  then 2 ^ 32 else c.tag

end Sys2Proof.Machine
end

