-- ==== Sys2Proof/Machine/Engines.lean ====
section
/-! DEFINITION. Girder engines (chapter 04): coefficient and limit sets, the per-tick law in RUN, TRACK and IDLE, sources, ranks and rebase. -/
namespace Sys2Proof.Machine

/-- Offset of an engine's registers. -/
def engBase (g : Nat) : Nat := 0x8000 + 0x100 * g

/-- The coefficient set in force (Table 04-6). -/
def State.coef (s : State) (g : Nat) : Coef :=
  let b := engBase g
  let a := s.reg (b + 0x24)
  let h := s.reg (b + 0x28)
  { kp := sig (s.reg (b + 0x10)), ki := sig (s.reg (b + 0x14)), kd := sig (s.reg (b + 0x18)), kff := sig (s.reg (b + 0x1C)),
    am := sig (s.reg (b + 0x20)), kpsh := fld a 0 6, kish := fld a 8 6, kdsh := fld a 16 6, kffsh := fld a 24 6,
    alsh := fld h 0 5, ash := fld h 8 6 }

/-- A mantissa's shift is in range for the accumulator shift (R93). -/
def shiftOk (m : Int) (sh ash : Nat) : Bool := decide (m = 0) || (decide (ash ≤ sh + 13) && decide (sh ≤ ash))

/-- A coefficient set is valid (R93, Table 04-6). -/
def Coef.valid (c : Coef) : Bool :=
  decide (c.ash ≤ 47) && decide (c.alsh ≤ 31) &&
  decide (c.kpsh ≤ 47) && decide (c.kish ≤ 47) && decide (c.kdsh ≤ 47) && decide (c.kffsh ≤ 47) &&
  shiftOk c.kp c.kpsh c.ash && shiftOk c.ki c.kish c.ash && shiftOk c.kd c.kdsh c.ash && shiftOk c.kff c.kffsh c.ash &&
  decide (0 ≤ c.am) && decide (c.am < 2 ^ c.alsh)

/-- GDRgg_CFG fields. -/
def State.engEnabled (s : State) (g : Nat) : Bool := bitOf (s.reg (engBase g)) 0
/-- SPAN. -/
def State.engSpan (s : State) (g : Nat) : Nat := fld (s.reg (engBase g)) 1 4
/-- RANK. -/
def State.engRank (s : State) (g : Nat) : Nat := fld (s.reg (engBase g)) 5 2

/-- What a span posts for its engines in a tick: reference and measurement channels, the mode and limits of each engine. -/
structure SpanPost where
  refs : List Int
  meas : List Int
  /-- Engine, mode, span_lo, span_hi. -/
  eng : List (Nat × EngMode × Int × Int)
  deriving DecidableEq, Repr

/-- Nothing posted. -/
def SpanPost.none : SpanPost := { refs := [], meas := [], eng := [] }

/-- The four signals an engine takes. -/
structure EngIn where
  r : Int
  y : Int
  f : Int
  t : Int
  deriving DecidableEq, Repr

/-- One source (R95, Table 04-2). A valid channel that the span does not post reads 0 (DESIGN CHOICE, log 122). `prev` holds the engine states current at boundary n, `now` those computed in this tick. -/
def State.source (s : State) (p : SpanPost) (prev now : Ctl) (g ty sel : Nat) : Int :=
  if ty = 1 then p.refs.getD sel 0
  else if ty = 2 then (if sel < 96 then s.ai sel else 0)
  else if ty = 3 then p.meas.getD sel 0
  else if ty = 4 then (if s.engEnabled sel then (now.engS sel).u else 0)
  else if ty = 5 then (if s.engEnabled sel then (prev.engS sel).u else 0)
  else if ty = 6 then sig (s.reg (engBase g + 0x0C))
  else 0

/-- The four signals of engine g (R95). -/
def State.engInputs (s : State) (p : SpanPost) (prev now : Ctl) (g : Nat) : EngIn :=
  let a := s.reg (engBase g + 0x04)
  let b := s.reg (engBase g + 0x08)
  { r := s.source p prev now g (fld a 0 3) (fld a 3 7), y := s.source p prev now g (fld a 16 3) (fld a 19 7),
    f := s.source p prev now g (fld b 0 3) (fld b 3 7), t := s.source p prev now g (fld b 16 3) (fld b 19 7) }

/-- The terms common to RUN and TRACK (R97): filtered derivative and the products at the accumulator scale. -/
structure EngTerms where
  lo : Int
  hi : Int
  conflict : Bool
  e : Int
  d : Int
  pt : Int
  dt : Int
  ft : Int
  deriving DecidableEq, Repr

/-- lo, hi, e, d, pt, dt and ft of R97 (and R99). -/
def engTerms (c : Coef) (x : EngS) (i : EngIn) (lo0 hi : Int) : EngTerms :=
  let dy := if x.first then 0 else x.yPrev - i.y
  let d := sat32 (rhe (c.am * x.d + ((2 ^ c.alsh : Int) - c.am) * dy) c.alsh)
  let e := i.r - i.y
  { lo := if hi < lo0 then hi else lo0, hi := hi, conflict := decide (hi < lo0), e := e, d := d,
    pt := c.kp * e * 2 ^ (c.ash - c.kpsh), dt := c.kd * d * 2 ^ (c.ash - c.kdsh), ft := c.kff * i.f * 2 ^ (c.ash - c.kffsh) }

/-- The integrator that leaves the unrounded accumulator unchanged under a new set (R97 rebase, R102). -/
def rebased (c c0 : Coef) (x : EngS) (i : EngIn) (t : EngTerms) : Int :=
  let old := c0.kp * t.e * 2 ^ (c0.ash - c0.kpsh) + c0.kd * t.d * 2 ^ (c0.ash - c0.kdsh) + c0.kff * i.f * 2 ^ (c0.ash - c0.kffsh)
  let v := if c0.ash ≤ c.ash then (x.i + old) * 2 ^ (c.ash - c0.ash) else rhe (x.i + old) (c0.ash - c.ash)
  v - (t.pt + t.dt + t.ft)

/-- RUN (R97, R98). `n` counts the sets landed: rebase is 1 when a set landed since the engine's last completed
computation and both are in RUN (R102). -/
def engRun (n : Nat) (c : Coef) (x : EngS) (i : EngIn) (lo0 hi : Int) : EngS :=
  let t := engTerms c x i lo0 hi
  let rb := decide (x.mode = .run) && decide (n ≠ x.set0n)
  let it := c.ki * t.e * 2 ^ (c.ash - c.kish)
  let ilo := t.lo * 2 ^ c.ash
  let ihi := t.hi * 2 ^ c.ash
  let i1 := clampI (if rb then rebased c x.set0 x i t else x.i) ilo ihi
  let ic := clampI (i1 + it) ilo ihi
  let s3 := t.pt + t.dt + t.ft
  let u1 := sat32 (rhe (s3 + ic) c.ash)
  let held := (decide (t.hi < u1) && decide (0 < it)) || (decide (u1 < t.lo) && decide (it < 0))
  let ic2 := if held then i1 else ic
  let u2 := if held then sat32 (rhe (s3 + ic2) c.ash) else u1
  { i := ic2, mode := .run, clampHi := decide (t.hi < u2), clampLo := decide (u2 < t.lo), held := held, first := false,
    limConflict := t.conflict, rebased := rb, d := t.d, yPrev := i.y, u := clampI u2 t.lo t.hi, effHi := t.hi, effLo := t.lo,
    set0 := c, set0n := n, rebases := if rb then satInc x.rebases max32 else x.rebases }

/-- TRACK (R99). -/
def engTrack (n : Nat) (c : Coef) (x : EngS) (i : EngIn) (lo0 hi : Int) : EngS :=
  let t := engTerms c x i lo0 hi
  let u := clampI i.t t.lo t.hi
  { i := clampI (u * 2 ^ c.ash - (t.pt + t.dt + t.ft)) (t.lo * 2 ^ c.ash) (t.hi * 2 ^ c.ash), mode := .track,
    clampHi := decide (t.hi < i.t), clampLo := decide (i.t < t.lo), held := false, first := false,
    limConflict := t.conflict, rebased := false, d := t.d, yPrev := i.y, u := u, effHi := t.hi, effLo := t.lo, set0 := c,
    set0n := n, rebases := x.rebases }

/-- IDLE (R100); the effective limits are formed as in every tick (R96). -/
def engIdle (n : Nat) (c : Coef) (x : EngS) (lo0 hi : Int) : EngS :=
  { x with i := 0, mode := .idle, clampHi := false, clampLo := false, held := false, first := true, limConflict := false,
           rebased := false, d := 0, yPrev := 0, u := 0, effHi := hi, effLo := if hi < lo0 then hi else lo0, set0 := c, set0n := n }

/-- The effective limits before the conflict rule: max(UMIN, span_lo), min(UMAX, span_hi) (R96). -/
def State.engLimits (s : State) (g : Nat) (lo hi : Int) : Int × Int :=
  (maxI (sig (s.reg (engBase g + 0x30))) lo, minI (sig (s.reg (engBase g + 0x2C))) hi)

/-- One engine of a span in one tick (R91, R96, R97). The event's address is the whole deck's, and its value the engine
(DESIGN CHOICE, log 121). -/
def State.engStep (s : State) (p : SpanPost) (prev : Ctl) (now : Ctl) (q : Nat × EngMode × Int × Int) : Ctl :=
  let g := q.1
  if s.engEnabled g then
    let c := s.coef g
    let n := (s.rejS g).landed
    let x := prev.engS g
    let i := s.engInputs p prev now g
    let l := s.engLimits g q.2.2.1 q.2.2.2
    let y := match q.2.1 with
      | .run => engRun n c x i l.1 l.2
      | .track => engTrack n c x i l.1 l.2
      | .idle => engIdle n c x l.1 l.2
    let now := now.putEng g y
    if y.limConflict && !x.limConflict then { now with notes := now.notes ++ [.ev 49 s.deckAddr 1 g 0] } else now
  else now

/-- The engines of a span in a tick, each once (R91): the enabled ones that GDRgg_CFG gives to it, with the mode and limits that
the span posts for them; one that the span names in no role is IDLE with open limits. -/
def State.spanEngines (s : State) (x : Span) (p : SpanPost) : SpanPost :=
  { p with eng := ((List.range 64).filter (fun g => s.engEnabled g && decide (s.engSpan g = x.code))).map (fun g =>
      (p.eng.find? (fun q => decide (q.1 = g))).getD (g, .idle, s32min, s32max)) }

/-- All engines of a span, rank by rank (R105). `prev` is the state current at boundary n. -/
def State.runEngines (s : State) (p : SpanPost) (prev : Ctl) (now : Ctl) : Ctl :=
  (List.range 4).foldl (fun acc r => (p.eng.filter (fun q => s.engRank q.1 = r)).foldl (fun a q => s.engStep p prev a q) acc) now

/-- No engine named: ENG fields hold 0x7F for none. -/
def engRef (n : Nat) : Option Nat := if n < 64 then some n else none

/-- A mode and limits for a role, where the role names an engine. -/
def postEng (n : Nat) (m : EngMode) (lo hi : Int) : List (Nat × EngMode × Int × Int) :=
  match engRef n with
  | some g => [(g, m, lo, hi)]
  | none => []

/-- The output of a role's engine in a controlled state; 0 where the role names none or a disabled one (R91). -/
def State.roleOut (s : State) (c : Ctl) (n : Nat) : Int :=
  match engRef n with
  | some g => if s.engEnabled g then (c.engS g).u else 0
  | none => 0

/-- The register offsets of a coefficient set and of a limit set. -/
def coefOffsets (g : Nat) : List Nat :=
  [engBase g + 0x10, engBase g + 0x14, engBase g + 0x18, engBase g + 0x1C, engBase g + 0x20, engBase g + 0x24, engBase g + 0x28]
/-- UMAX, UMIN. -/
def limitOffsets (g : Nat) : List Nat := [engBase g + 0x2C, engBase g + 0x30]

end Sys2Proof.Machine
end

