-- ==== Sys2Proof/Machine/Vector.lean ====
section
/-! DEFINITION. The arithmetic the spans share: angles and their sines (R154, R155), Clarke and Park transforms (R159), voltage limit and modulation (R160), and the timing figures of a span's legs. -/
namespace Sys2Proof.Machine

/-- mulc(x, k) := sat32(round_half_even(x × k / 2^24)) (R154). -/
def mulc (x k : Int) : Int := sat32 (rhe (x * k) 24)
/-- half(x) := round_half_even(x / 2) (R154). -/
def half (x : Int) : Int := rhe x 1
/-- 1/3, 1/√3 and √3/2 rounded to 24 fractional bits (R154). -/
def oneThird : Int := 5592405
/-- INV_SQRT3. -/
def invSqrt3 : Int := 9686330
/-- SQ3H. -/
def sq3h : Int := 14529495

/-- k / 4,096 of a revolution in radian at scale 2^60: 2π × 2^60 / 4,096 is 1,768,559,438,007,109.6. -/
def angleRad60 (k : Nat) : Int := (k : Int) * 1768559438007109

/-- Terms of the sine series at scale 2^60: x^(2i+1)/(2i+1)! with alternating signs, i from 0. -/
def sinTerms (x2 : Int) : Nat → Nat → Int → Int
  | 0, _, _ => 0
  | n + 1, i, term =>
    let next := -(term * x2 / 2 ^ 60) / (((2 * i + 2) * (2 * i + 3) : Nat) : Int)
    term + sinTerms x2 n (i + 1) next

/-- The first quadrant of stab: the integer nearest to 2^24 × sin(2πk / 4,096), k from 0 to 1,024 (R155). -/
def stabQuadrant (k : Nat) : Int :=
  let x := angleRad60 k
  (sinTerms (x * x / 2 ^ 60) 16 0 x + 2 ^ 35) / 2 ^ 36

/-- stab(k) for k from 0 to 4,095 (R155). -/
def stab (k : Nat) : Int :=
  if k < 1024 then stabQuadrant k
  else if k < 2048 then stabQuadrant (2048 - k)
  else if k < 3072 then -stabQuadrant (k - 2048)
  else -stabQuadrant (4096 - k)

/-- sin(θ) of an angle word (R155). -/
def sinA (theta : Nat) : Int :=
  let idx := theta / 2 ^ 20
  let fr : Int := (theta % 2 ^ 20 : Nat)
  stab (idx % 4096) + rhe ((stab ((idx + 1) % 4096) - stab (idx % 4096)) * fr) 20

/-- cos(θ) := sin(θ + 2^30) (R155). -/
def cosA (theta : Nat) : Int := sinA ((theta + 2 ^ 30) % 2 ^ 32)

/-- An angle from an integer, modulo one revolution. -/
def angMod (x : Int) : Nat := (x % 2 ^ 32).toNat

/-- The signed 32-bit reading of a difference of angles. -/
def angDiff (a b : Nat) : Int :=
  let d := ((a : Int) - b) % 2 ^ 32
  if d < 2 ^ 31 then d else d - 2 ^ 32

/-- The Clarke values ial, ibe (R159). -/
def clarke (ia ib ic : Int) : Int × Int := (mulc (2 * ia - ib - ic) oneThird, mulc (ib - ic) invSqrt3)

/-- The d and q values at an angle (R159). -/
def park (al be : Int) (th : Nat) : Int × Int :=
  (mulc al (cosA th) + mulc be (sinA th), mulc be (cosA th) - mulc al (sinA th))

/-- What the modulator of R160 gives for one set: the three compare values, vlim, the margin and the kept val, vbe. -/
structure ModOut where
  a : Int
  b : Int
  c : Int
  vlim : Bool
  margin : Int
  val : Int
  vbe : Int
  deriving DecidableEq, Repr

/-- vmax of R160. -/
def vmaxOf (vdc modmax : Int) : Int := rhe (vdc * invSqrt3 * modmax) 40

/-- One phase's dead-time compensation (R160). -/
def dtComp (en : Bool) (steps band i : Int) : Int :=
  if en then rheQ (steps * clampI i (-band) band) band else 0

/-- dp × per, clamped, for one phase (R160); a vdc at or below 0, which only the substitution of R208 allows, leaves the
quotient to a free value (log 31). -/
def cmpOf (vp z vdc per comp : Int) : Int :=
  let dp := 8388608 + (if 0 < vdc then rheQ ((vp - z) * one24) vdc else Config.freeModulation (vp - z) vdc)
  clampI (rhe (dp * per) 24 + comp) 0 per

/-- The limiter and modulator of R160. `comp` gives each phase's compensation. -/
def modulate (vd vq vdc modmax : Int) (thm : Nat) (per : Int) (ca cb cc : Int) : ModOut :=
  let vmax := vmaxOf vdc modmax
  let m := isqrt (vd * vd + vq * vq)
  let lim := decide (vmax < m)
  let vd := if lim then rheQ (vd * vmax) m else vd
  let vq := if lim then rheQ (vq * vmax) m else vq
  let val := mulc vd (cosA thm) - mulc vq (sinA thm)
  let vbe := mulc vd (sinA thm) + mulc vq (cosA thm)
  let va := val
  let vb := mulc vbe sq3h - half val
  let vc := 0 - half val - mulc vbe sq3h
  let z := half (maxI (maxI va vb) vc + minI (minI va vb) vc)
  { a := cmpOf va z vdc per ca, b := cmpOf vb z vdc per cb, c := cmpOf vc z vdc per cc, vlim := lim, margin := vmax - minI m vmax,
    val := val, vbe := vbe }

/-- RATIO_K of a leg (Table 05-6): 1, 2, 3, 4 or 6. -/
def State.ratioK (s : State) (l : Nat) : Nat :=
  match fld (s.reg (0xC000 + 0x200 * l)) 1 3 with
  | 0 => 1 | 1 => 2 | 2 => 3 | 3 => 4 | _ => 6
/-- RATIO_DIR: the period is P × k. -/
def State.ratioMul (s : State) (l : Nat) : Bool := bitOf (s.reg (0xC000 + 0x200 * l)) 4
/-- The nominal period of a leg (R111). -/
def State.nominal (s : State) (l : Nat) : Nat :=
  if s.ratioMul l then s.psteps * s.ratioK l else s.psteps / s.ratioK l
/-- The age above which a current is stale: k + 2 at P × k, 2 at P / k (Tables 07-6, 08-4, 09-4, 10-5). -/
def State.ageLimit (s : State) (l : Nat) : Nat := if s.ratioMul l then s.ratioK l + 2 else 2

/-- A current input of a leg is stale. -/
def State.stale (s : State) (i l : Nat) : Bool := decide (s.ageLimit l < (s.inp i).age)

/-- The Trestle throttle of a span's own sensors in this tick (R397). -/
def State.ftr (s : State) (x : Span) : Int := Store.get (fun _ => one24) s.snap.ftr x.code

/-- PHASE of a leg that the choreography places (R313). -/
def State.choPhase (s : State) (l : Nat) : Nat := fld (s.reg (0x1200 + 4 * l)) 0 16 * s.nominal l / 65536

/-- A set in MODE OFF with the nominal period and the PHASE of the choreography. -/
def State.offSet (s : State) (l : Nat) : PSet := { PSet.zero with per := s.nominal l, phase := s.choPhase l }

/-- Post a leg's write set and safe pattern. -/
def Ctl.post (c : Ctl) (l : Nat) (w : PSet) (pat : Nat) : Ctl :=
  { c with sets := Store.put (fun _ => PSet.zero) c.sets l w, pats := Store.put (fun _ => 0) c.pats l pat }

/-- Minimum of a list of signals. -/
def minL (x : Int) (l : List Int) : Int := l.foldl minI x

end Sys2Proof.Machine
end

