-- ==== Sys2Proof/Machine/Actuator.lean ====
section
/-! DEFINITION. Actuator spans A0 to A3 (chapter 10): position and angle, bus share and current limits, shifts and homing, engines and drive modes, causes of SAFE and commands. -/
namespace Sys2Proof.Machine

/-! ### Configuration and measurements -/

/-- The span of actuator m as a number. -/
def aSp (m : Nat) : Span := Span.ofAct (Fin.ofNat 4 m)
/-- A register of actuator m as a signal. -/
def State.an (s : State) (m o : Nat) : Int := s.spn (aSp m) o
/-- The same as a word. -/
def State.aw (s : State) (m o : Nat) : Word := s.spnW (aSp m) o
/-- A bit of SPN_Am_CFG: 2 DRIVE, 3 SAFE_SEL, 4 PAI_EN, 5 ABORT_RET. -/
def State.aCfg (s : State) (m i : Nat) : Bool := bitOf (s.aw m 0) i
/-- ROLE is park lock. -/
def State.aParkLock (s : State) (m : Nat) : Bool := decide (fld (s.aw m 0) 0 2 = 2)
/-- PRIO. -/
def State.aPrio (s : State) (m : Nat) : Nat := fld (s.aw m 0) 6 2
/-- Engines: 0 POS, 1 SPD, 2 ID, 3 IQ. -/
def State.aRole (s : State) (m r : Nat) : Nat := fld (s.aw m 0x04) (8 * r) 7
/-- First leg. -/
def aLegOf (m : Nat) : Nat := 28 + 3 * m
/-- First phase-current input (R227). -/
def aInp (m : Nat) : Nat := if m = 0 then 50 else if m = 1 then 53 else if m = 2 then 60 else 63
/-- The pair of the actuator's current bank. -/
def aPair (m : Nat) : Nat := if m < 2 then 4 else 5
/-- v_act. -/
def State.vAct (s : State) : Int := s.ai 56
/-- HOLD, SHIFTING, CURRENT, HOMING: legs driven, bus current requested. -/
def AMode.driven : AMode → Bool
  | .hold => true | .shifting => true | .current => true | .homing => true | _ => false
/-- SPN_Am_STATE.STATE. -/
def AMode.code : AMode → Nat
  | .disabled => 0 | .standby => 1 | .hold => 2 | .shifting => 3 | .current => 4 | .homing => 5 | .park => 6 | .safe => 7
/-- SHIFT_INFO.OUTCOME. -/
def ShiftOut.code : ShiftOut → Nat
  | .running => 0 | .done => 1 | .aborted => 2 | .timeout => 3 | .safe => 4
/-- Position of slot g. -/
def State.aGear (s : State) (m g : Nat) : Int := s.an m (0x60 + 4 * g)
/-- SETTLE, SHIFT_TMO, HOME_TICKS. -/
def State.aSettle (s : State) (m : Nat) : Nat := fld (s.aw m 0x44) 0 8
/-- SHIFT_TMO. -/
def State.aTmo (s : State) (m : Nat) : Nat := fld (s.aw m 0x44) 8 16
/-- HOME_TICKS. -/
def State.aHomeTicks (s : State) (m : Nat) : Nat := fld (s.aw m 0x44) 24 8
/-- The captured POS. -/
def State.aPos (s : State) (m : Nat) : Int := (s.hallS m).pos
/-- POS as it stands for the state being computed: a loaded value, else the capture (R235). -/
def State.aPosNow (s : State) (m : Nat) (x : ActS) : Int := x.posLoad.getD (s.aPos m)
/-- A position lies within POS_MIN to POS_MAX. -/
def State.aInRange (s : State) (m : Nat) (p : Int) : Bool := decide (s.an m 0x54 ≤ p) && decide (p ≤ s.an m 0x58)
/-- The absolute position of the input PAI names (R235). -/
def State.aPai (s : State) (m : Nat) : Int := mulc (s.ai (fld (s.aw m 0x10) 0 7) - s.an m 0x14) (s.an m 0x18)

/-! ### Angle (R231, R232) -/

/-- The place of a Hall state in SEQ. -/
def State.hallPlace (s : State) (m st : Nat) : Option Nat :=
  ((List.range 6).filter (fun k => decide (fld (s.aw m 0x08) (3 * k) 3 = st))).head?

/-- The pseudocode of R232 at boundary n; nothing while the captured state is 0 or 7. -/
def State.aAngle (s : State) (m : Nat) (x0 : ActS) : ActS :=
  let pos := s.aPos m
  let n := s.tk.count
  let h := (s.hallS m).capState
  let x := if x0.initAng then { x0 with posLast := pos, nLast := n, step := 0, off := 357913941, initAng := false } else x0
  if h = 0 ∨ h = 7 then x
  else
    let sec := (s.hallPlace m h).getD 0
    let edge : Int := ((s.aw m 0x0C).toNat : Int) + (sec * 2 ^ 32 / 6 : Nat) - 357913941
    let y :=
      if pos ≠ x.posLast then
        let st := rheDiv ((pos - x.posLast) * 715827882) (max 1 (n - x.nLast))
        { x with step := st, posLast := pos, nLast := n, off := if 0 < st then 0 else 715827882 }
      else
        let st := if fld (s.aw m 0x08) 18 14 < n - x.nLast then 0 else x.step
        { x with step := st, off := clampI (x.off + st) 0 715827882 }
    { y with tha := angMod (edge + y.off) }

/-- ω (R232). -/
def State.aSpeed (s : State) (m : Nat) (x : ActS) : Int := mulc x.step (s.an m 0x20)

/-! ### Bus share (R39, R237) -/

/-- The bus current actuator m requests, on the states that became current at boundary n (R33). -/
def State.busRequest (s : State) (m : Nat) : Int :=
  let x := s.cur.actS m
  if x.owner && x.st.driven then minI (minI (s.an m 0x34) (quot456 s.image.p3000 s.vAct)) s.image.i62 else 0

/-- The order in which requests are reduced: ascending priority, the lower span code first. -/
def State.busOrder (s : State) : List Nat :=
  (List.range 4).flatMap (fun p => (List.range 4).filter (fun m => decide (s.aPrio m = p)))

/-- Reduce requests in order until no excess is left: the granted share by actuator. -/
def grantBus (req : Nat → Int) : List Nat → Int → List (Nat × Int)
  | [], _ => []
  | m :: t, ex =>
    let cut := clampI ex 0 (maxI 0 (req m))
    (m, req m - cut) :: grantBus req t (ex - cut)

/-- fbus of actuator m: the granted share divided by the request. -/
def State.fbus (s : State) (m : Nat) : Int :=
  let req := s.busRequest
  let ex := req 0 + req 1 + req 2 + req 3 - s.image.i160
  match ((grantBus req s.busOrder ex).filter (fun p => decide (p.1 = m))).head? with
  | some p => if 0 < req m then rheQ (p.2 * one24) (req m) else one24
  | none => one24

/-- 0.1 in the signal format. -/
def tenth24 : Int := 1677722
/-- fdbg (R237). -/
def State.fdbg (s : State) : Int := if s.kst.lsBroken then tenth24 else one24

/-- ilim (R237). -/
def State.aIlim (s : State) (m : Nat) (peakExh : Bool) : Int :=
  let lim := minI (s.an m 0x3C) (s.an m 0x30)
  let lim := if peakExh then minI lim (s.an m 0x2C) else lim
  mulc lim (minI (minI (s.ftr (aSp m)) (s.fbus m)) s.fdbg)

/-! ### Position faults (R236) -/

/-- The analog difference exceeds PAI_TOL in this tick. -/
def State.aAnalogBad (s : State) (m : Nat) : Bool :=
  s.aCfg m 4 && decide (((s.aw m 0x1C).toNat : Int) < absI (s.aPai m - s.aPos m))

/-- Latch the causes of the tick; E042 cause 1 skip, 2 invalid, 3 analog. -/
def State.aFaults (s : State) (m : Nat) (x : ActS) : ActS × List Note :=
  let h := s.hallS m
  let bad := s.aAnalogBad m
  let run := if bad then min (x.anaRun + 1) 3 else 0
  let ns := h.skipCap && !x.causeSkip
  let ni := decide (3 ≤ h.invRun) && !x.causeInv
  let na := decide (run = 3) && !x.causeAna
  let any := h.skipCap || decide (3 ≤ h.invRun) || decide (run = 3)
  let ev := fun (c : Nat) => Note.ev 42 (s.spanAddr (aSp m)) c 0 0
  ({ x with anaRun := run, causeSkip := x.causeSkip || ns, causeInv := x.causeInv || ni,
            causeAna := x.causeAna || na, posFault := x.posFault || any, homed := x.homed && !(ns || ni || na) },
   (if ns then [ev 1] else []) ++ (if ni then [ev 2] else []) ++ (if na then [ev 3] else []))

/-- A cause of R236 is present on tick b − 1 alone (A_POS_REARM). -/
def State.aCauseNow (s : State) (m : Nat) : Bool :=
  let h := s.hallS m
  h.skipCap || decide (h.capState = 0) || decide (h.capState = 7) || s.aAnalogBad m

/-! ### Shifts and homing (R235, R239, R240) -/

/-- The completion of a running shift or home, where a descriptor waits for it (R364): outcome and final POS; its clip is that of
the state it ends in (`finish`). -/
def State.aComplete (s : State) (_m : Nat) (x : ActS) (st : Status) (out : ShiftOut) (pos : Int) (c : Ctl) : Ctl :=
  match x.cmd with
  | none => c
  | some d =>
    { c with cmpl := c.cmpl ++ [completionOf s d st (out.code + 2 ^ 32 * (wdI pos).toNat) s.nextBoundary] }

/-- A shift that ended done is kept with its slot (R240). -/
def addPast (tag slot : Nat) (l : List (Nat × Nat)) : List (Nat × Nat) := (tag, slot) :: l.filter (fun q => decide (q.1 ≠ tag))

/-- A running shift or home ends with an outcome, in a state, at a target (R239, R242, E041). -/
def State.aEnd (s : State) (m : Nat) (x : ActS) (out : ShiftOut) (status : Status) (next : AMode) (target : Int) (c : Ctl) : Ctl :=
  let pos := s.aPosNow m x
  let y := { x with st := next, out := out, target := target, cmd := none, abortNow := false, stallRun := 0,
                    past := if out = .done ∧ x.kind ≠ .home then addPast x.tag x.slot x.past else x.past }
  (s.aComplete m x status out pos (c.putAct m y)).note [.ev 41 (s.spanAddr (aSp m)) out.code pos 0]

/-- An abort naming a tag is staged for the next boundary (R239 step 2). -/
def State.abortStaged (s : State) (tag : Nat) : Bool :=
  s.cwy.staged.any (fun d => decide (dOp d = 1) && d.fail.isNone && decide (d.bound = s.nextBoundary) && decide (dP d 0 4 = tag))

/-- The evaluation of a tick in SHIFTING (R239). -/
def State.aShiftTick (s : State) (m : Nat) (x0 : ActS) (c : Ctl) : Ctl :=
  let pos := s.aPos m
  let near := decide (absI (pos - x0.target) ≤ ((s.aw m 0x40).toNat : Int))
  let x := { x0 with elapsed := satInc x0.elapsed max16, settle := if near then x0.settle + 1 else 0 }
  let park := decide (x.kind = .park)
  if s.aSettle m ≤ x.settle then
    s.aEnd m x .done .success (if park then .park else .hold) x.target c
  else if x.abortNow || s.abortStaged x.tag then
    s.aEnd m x .aborted .aborted .hold (if s.aCfg m 5 && !park then x.startPos else pos) c
  else if s.aTmo m ≤ x.elapsed then s.aEnd m x .timeout .timeout .hold pos c
  else c.putAct m { x with abortNow := false }

/-- The evaluation of a tick in HOMING (R235). -/
def State.aHomeTick (s : State) (m : Nat) (x0 : ActS) (c : Ctl) : Ctl :=
  let still := decide (absI (s.aSpeed m x0) ≤ s.an m 0x50)
  let x := { x0 with elapsed := satInc x0.elapsed max16, stallRun := if still then x0.stallRun + 1 else 0 }
  if s.aHomeTicks m ≤ x.stallRun then
    let hp := s.an m 0x4C
    let y := { x with homed := true, posLoad := some hp, posLast := x.posLast + (hp - s.aPos m) }
    s.aEnd m y .done .success .hold hp c
  else if s.aTmo m ≤ x.elapsed then
    s.aEnd m { x with homed := false } .timeout .timeout .hold (s.aPos m) c
  else c.putAct m x

/-- SHIFT_TIMEOUT (R239): a shift that has run SHIFT_TMO ticks ends with outcome timeout and holds at the present POS, as
the compute evaluates it. -/
def execShiftTimeout (m : Act) (s : State) : Host.Outcome State Fault Refusal :=
  let x := s.stage.actS m.val
  if x.st = .shifting ∧ s.aTmo m.val ≤ x.elapsed then
    .next (s.withStage (s.aEnd m.val x .timeout .timeout .hold (s.aPos m.val) s.stage))
  else .next s

/-- HOME_TIMEOUT (R235): a home that has run SHIFT_TMO ticks ends with outcome timeout and HOMED 0. -/
def execHomeTimeout (m : Act) (s : State) : Host.Outcome State Fault Refusal :=
  let x := s.stage.actS m.val
  if x.st = .homing ∧ s.aTmo m.val ≤ x.elapsed then
    .next (s.withStage (s.aEnd m.val { x with homed := false } .timeout .timeout .hold (s.aPos m.val) s.stage))
  else .next s

/-! ### The compute of a tick -/

/-- Angle and position faults of the tick, before anything is judged; a non-owner's copy is the owner's state (R243). -/
def State.aScan (s : State) (m : Nat) : State :=
  let x := s.aAngle m (s.stage.actS m)
  if s.inViaduct && !x.owner then s.withStage (s.stage.putAct m x)
  else
  let f := s.aFaults m x
  let low := decide (s.vAct < s.image.v24) && decide ((s.cur.actS m).st ≠ .disabled)
  let y := { f.1 with speed := s.aSpeed m f.1, vRun := if low then min (f.1.vRun + 1) 3 else 0 }
  s.withStage ((s.stage.putAct m y).note f.2)

/-- Shifts and homes of the tick, before commands are checked (R239). -/
def State.aOps (s : State) (m : Nat) : State :=
  let x := s.stage.actS m
  if x.owner then
    match (s.cur.actS m).st, x.st with
    | .shifting, .shifting => s.withStage (s.aShiftTick m x s.stage)
    | .homing, .homing => s.withStage (s.aHomeTick m x s.stage)
    | _, _ => s
  else s

/-- The winding current (R238) and Meas 4 (R234). -/
def State.aMeas4 (s : State) (m : Nat) (dir : Bool) : Int :=
  let i := fun (k : Nat) => absI (s.ai (aInp m + k))
  let v := maxI (maxI (i 0) (i 1)) (i 2)
  if dir then -v else v

/-- id and iq at θa (R233). -/
def State.aDq (s : State) (m : Nat) (x : ActS) : Int × Int :=
  let c := clarke (s.ai (aInp m)) (s.ai (aInp m + 1)) (s.ai (aInp m + 2))
  park c.1 c.2 x.tha

/-- vdc of R233: v_act, raised to 12 V. -/
def State.aVdc (s : State) : Int := maxI s.vAct s.image.v12

/-- What the first part leaves for the second. -/
structure APre where
  x : ActS
  post : SpanPost
  deriving DecidableEq, Repr

/-- The first part: limits, peak budget, channels and engine modes (R230, R233 to R238). -/
def State.aPre (s : State) (prev : Ctl) (m : Nat) : APre :=
  let x := s.stage.actS m
  let three := s.aCfg m 2
  let dq := s.aDq m x
  let m4 := s.aMeas4 m x.dir
  let wind := if three then absI m4 else isqrt (dq.1 * dq.1 + dq.2 * dq.2)
  let above := decide (s.an m 0x2C < wind)
  let peak := if above then (if x.peakExh && s.reached x.peak 2000 then x.peak else x.peak + 1) else x.peak - 1
  let exh := if x.peakExh then decide (peak ≠ 0) else s.reached peak 2000 && decide (0 < peak)
  let fb := s.fbus m
  let ilim := s.aIlim m x.peakExh
  let pos := s.aPosNow m x
  let sc : Int := (s.aw m 0x24).toNat
  let tgt := match x.st with | .hold => x.target | .shifting => x.target | _ => pos
  let ref2 : Int := match x.st with | .current => x.itgt | .homing => s.an m 0x48 | _ => 0
  let refs := [sat32 (tgt * sc), 0, ref2]
  let meas := [sat32 (pos * sc), x.speed, dq.1, dq.2, m4]
  let run := x.owner
  let ps := if !run then EngMode.idle else match x.st with
    | .hold => .run | .shifting => .run | .standby => .track | .current => .track | .homing => .track | _ => .idle
  let iq := if !run then EngMode.idle else match x.st with
    | .standby => .track | st => if st.driven then .run else .idle
  let vmax := vmaxOf s.aVdc (fld (s.aw m 0x28) 0 17)
  let ud := s.roleOut prev (s.aRole m 2)
  let ql := if three then one24 else isqrt (maxI 0 (vmax * vmax - ud * ud))
  let eng := postEng (s.aRole m 0) ps (-(s.an m 0x38)) (s.an m 0x38) ++ postEng (s.aRole m 1) ps (-ilim) ilim ++
    postEng (s.aRole m 2) iq (-vmax) vmax ++ postEng (s.aRole m 3) iq (-ql) ql
  { x := { x with ilim := ilim, fbus := fb, busLim := decide (fb < one24), dbgLim := decide (s.fdbg < one24),
                  peak := peak, peakExh := exh },
    post := { refs := refs, meas := meas, eng := eng } }

/-- The pattern of R244: HOLD (LS on) where SAFE_SEL asks for it and all three LS can be gated. -/
def State.aHoldPattern (s : State) (m : Nat) : Bool :=
  s.aCfg m 3 && (List.range 3).all (fun k => s.snap.gateLs.contains (aLegOf m + k))

/-- The write sets of an actuator (R233, R234) with its DIR state: sets of U, V, W, DIR, zero tick. -/
def State.aSets (s : State) (m : Nat) (x : ActS) (now : Ctl) : (PSet × PSet × PSet) × Bool × Bool :=
  let l := aLegOf m
  let off := (s.offSet l, s.offSet (l + 1), s.offSet (l + 2))
  if !(x.owner && x.st.driven) then (off, x.dir, false)
  else if s.aCfg m 2 then
    let u := s.roleOut now (s.aRole m 3)
    let want := decide (u < 0)
    let zero := decide (want ≠ x.dir) && !x.dirZero
    let dir := if zero then x.dir else want
    let d := if zero then 0 else absI u
    let per := s.nominal l
    let w : PSet := { per := per, cmpa := (rhe (d * (per : Int)) 24).toNat, cmpb := 0, phase := s.choPhase l, mode := 2 }
    ((w, s.offSet (l + 1), s.offSet (l + 2)), dir, zero)
  else
    let mo := modulate (s.roleOut now (s.aRole m 2)) (s.roleOut now (s.aRole m 3)) s.aVdc (fld (s.aw m 0x28) 0 17) x.tha
      (s.nominal l) 0 0 0
    let w := fun (l : Nat) (v : Int) => ({ per := s.nominal l, cmpa := v.toNat, cmpb := 0, phase := s.choPhase l, mode := 1 } : PSet)
    ((w l mo.a, w (l + 1) mo.b, w (l + 2) mo.c), x.dir, false)

/-- A non-owner keeps its legs in MODE OFF and its copy as it is (R243, R270). -/
def State.aIdle (s : State) (m : Nat) (c : Ctl) : Ctl :=
  let l := aLegOf m
  let c := ((c.post l (s.offSet l) 0).post (l + 1) (s.offSet (l + 1)) 0).post (l + 2) (s.offSet (l + 2)) 0
  { c with commit := addSet (aSp m) c.commit }

/-- The second part: sets, pattern, notes of the peak budget and the bus share, commit. -/
def State.aPost (s : State) (m : Nat) (now : Ctl) (p : APre) (old : ActS) : Ctl :=
  let hold := s.aHoldPattern m && p.x.owner
  let w := s.aSets m p.x now
  let y := { p.x with dir := w.2.1, dirZero := w.2.2, safePat := if p.x.st = .safe then (if hold then 2 else 1) else 0 }
  let l := aLegOf m
  let pat := if hold then 1 else 0
  let c := (((now.putAct m y).post l w.1.1 pat).post (l + 1) w.1.2.1 pat).post (l + 2) w.1.2.2 pat
  let a := s.spanAddr (aSp m)
  let c := c.note ((if y.peakExh && !old.peakExh then [.ev 43 a 0 y.peak 0] else []) ++
    (if y.busLim && !old.busLim then [.ev 44 a 0 y.fbus 0] else []))
  { c with commit := addSet (aSp m) c.commit }

/-- ACTUATOR_PEAK_EXHAUST (R238): a counter that has reached 2 s / P sets PEAK_EXH and raises E043, as the compute does in
the tick in which it happens. -/
def execActuatorPeakExhaust (m : Act) (s : State) : Host.Outcome State Fault Refusal :=
  let x := s.stage.actS m.val
  if s.reached x.peak 2000 ∧ 0 < x.peak ∧ ¬ x.peakExh then
    .next ((s.raise 43 (s.spanAddr (aSp m.val)) 0 x.peak 0).withStage (s.stage.putAct m.val { x with peakExh := true }))
  else .next s

/-! ### SAFE (R244, Table 10-5) -/

/-- A leg is unusable or latched (code 8). -/
def State.aLegLost (s : State) (m : Nat) : Bool :=
  (List.range 3).any (fun k =>
    let l := aLegOf m + k
    !(s.snap.usable.contains l) || s.snap.trip.contains l || s.snap.desat.contains l)

/-- The causes of Table 10-5 in the tick's inputs, lowest code first; cause 1 is the boundary's own. -/
def State.aCauses (s : State) (m : Nat) : List Nat :=
  let sp := aSp m
  (if s.snap.shortSpans.contains sp then [2] else []) ++ (if s.snap.stTrips.contains sp then [3] else []) ++
  (if s.snap.syncSpans.contains sp then [4] else []) ++
  (if (List.range 3).any (fun k => (s.inp (aInp m + k)).untrusted) || (s.inp 56).pairBad then [5] else []) ++
  (if (List.range 3).any (fun k => s.stale (aInp m + k) (aLegOf m + k)) then [6] else []) ++
  (if (s.stage.actS m).posFault then [7] else []) ++ (if s.aLegLost m then [8] else []) ++
  (if (s.stage.actS m).vRun = 3 then [9] else []) ++ (if s.snap.orders.contains sp then [10] else [])

/-- The cause that takes the actuator into SAFE in this tick; a non-owner's copy is the owner's state (R243). -/
def State.aEntry (s : State) (m : Nat) : Option Nat :=
  let x := s.cur.actS m
  if x.owner then (match x.st with | .disabled => none | .safe => none | _ => (s.aCauses m).head?) else none

/-- Enter SAFE at the next boundary (R244); a running shift or home ends with outcome safe and cause-active (R239). After an
overrun the legs keep the pattern they have latched. -/
def State.aSafe (s : State) (m cause : Nat) : State :=
  let sp := aSp m
  let x := s.stage.actS m
  let c := match x.st with
    | .shifting => s.aEnd m x .safe .causeActive .safe x.target s.stage
    | .homing => s.aEnd m x .safe .causeActive .safe x.target s.stage
    | _ => s.stage
  let hold := if cause = 1 then decide ((s.leg (aLegOf m)).safePat = 1) else s.aHoldPattern m && x.owner
  let y := { c.actS m with st := .safe, safeCause := cause, safePat := if hold then 2 else 1 }
  s.withStage { (c.putAct m y).note [.ev 40 (s.spanAddr sp) cause 0 0, .stick (.safeEntry sp)] with safed := addSet sp c.safed }

/-! ### Commands (Tables 10-2, 15-4, 15-5) -/

/-- DISABLED to STANDBY, in the order of Table 10-2; a latched leg is still usable (Table 01-3). -/
def State.aStandbyCheck (s : State) (m : Nat) : Option Status :=
  if s.vAct < s.image.v24 then some .supplyAbsent
  else if s.snap.implausible.contains (aPair m) then some .pairImplausible
  else if (List.range 3).any (fun k => !s.snap.usable.contains (aLegOf m + k)) then some .spanUnavailable
  else none

/-- The verdict of a mode command: 0 DISABLED, 1 STANDBY (Table 10-2, R353). -/
def State.aVerdict (s : State) (m code : Nat) : Verdict :=
  let x := s.stage.actS m
  match x.st, code with
  | .disabled, 0 => .same
  | .standby, 1 => .same
  | .disabled, _ => (match s.aStandbyCheck m with | some st => .no st | none => s.mayChange (aSp m))
  | .standby, _ => s.mayChange (aSp m)
  | .park, _ => s.mayChange (aSp m)
  | .safe, 0 =>
    if !(s.aCauses m).isEmpty || s.overrunActive x.safeCause then .no .causeActive
    else s.mayChange (aSp m)
  | .safe, _ => .no .wrongState
  | _, 0 => .no .spanActive
  | _, _ => s.mayChange (aSp m)

/-- MODE on an actuator: STANDBY loads POS from the absolute input where there is one, and ends a running shift or home
with outcome aborted and cause-active (R235, R239). -/
def State.aMode (m code : Nat) (s : State) : Verdict × State :=
  match s.aVerdict m code with
  | .go =>
    let x := s.stage.actS m
    let c := if x.st = .shifting ∨ x.st = .homing then s.aEnd m x .aborted .causeActive .standby x.target s.stage else s.stage
    let y := c.actS m
    let y := if code = 0 then { y with st := .disabled }
      else if s.aCfg m 4 then { y with st := .standby, initAng := true, posLoad := some (s.aPai m), homed := true }
      else { y with st := .standby, initAng := true }
    (.go, s.withStage ((c.putAct m y).changes (aSp m)))
  | v => (v, s)

/-- Put the actuator into a state; a change counts under R353. -/
def State.aTo (s : State) (m : Nat) (y : ActS) : Verdict × State :=
  if (s.stage.actS m).st = y.st then (.go, s.withStage (s.stage.putAct m y))
  else match s.mayChange (aSp m) with
    | .go => (.go, s.withStage ((s.stage.putAct m y).changes (aSp m)))
    | v => (v, s)

/-- A_HOLD (R229). -/
def State.aHoldCmd (m : Nat) (usePos : Bool) (p : Int) (s : State) : Verdict × State :=
  let x := s.stage.actS m
  if x.st = .standby ∨ x.st = .hold ∨ x.st = .current then
    if usePos && !s.aInRange m p then (.no .invalidParameter, s)
    else if !x.homed then (.no .notHomed, s)
    else s.aTo m { x with st := .hold, target := if usePos then p else s.aPosNow m x }
  else (.no .wrongState, s)

/-- Hold at the present POS, as the host-loss profile and the fall-back path issue it (R344, R347): from HOMING the home
ends with it. -/
def State.aHoldHere (m : Nat) (s : State) : Verdict × State :=
  let x := s.stage.actS m
  if x.st = .homing then
    let c := s.aEnd m x .aborted .causeActive .hold (s.aPosNow m x) s.stage
    match s.mayChange (aSp m) with
    | .go => (.go, s.withStage (c.changes (aSp m)))
    | v => (v, s)
  else s.aHoldCmd m false 0

/-- Start a shift (R239); `cmd` is the descriptor whose completion waits for its end. -/
def State.aStart (m slot tag : Nat) (kind : ShiftKind) (cmd : Option Staged) (s : State) : Verdict × State :=
  let x := s.stage.actS m
  if !x.homed then (.no .notHomed, s)
  else if !s.aInRange m (s.aGear m slot) then (.no .invalidParameter, s)
  else s.aTo m { x with
    st := .shifting, target := s.aGear m slot, tag := tag, elapsed := 0, slot := slot, out := .running, settle := 0,
    kind := kind, startPos := s.aPosNow m x, cmd := cmd, abortNow := false }

/-- A_SHIFT, and the gear-step action (R239, Table 15-5). -/
def State.aShiftCmd (m slot tag : Nat) (cmd : Option Staged) (s : State) : Verdict × State :=
  match (s.stage.actS m).st with
  | .shifting => (.no .busy, s)
  | .homing => (.no .busy, s)
  | .standby => if s.aParkLock m then (.no .invalidParameter, s) else s.aStart m slot tag .shift cmd
  | .hold => if s.aParkLock m then (.no .invalidParameter, s) else s.aStart m slot tag .shift cmd
  | _ => (.no .wrongState, s)

/-- A_PARK (R242): a shift to slot 1 of a park lock. -/
def State.aParkCmd (m tag : Nat) (cmd : Option Staged) (s : State) : Verdict × State :=
  match (s.stage.actS m).st with
  | .shifting => (.no .busy, s)
  | .homing => (.no .busy, s)
  | .standby => if !s.aParkLock m then (.no .invalidParameter, s) else s.aStart m 1 tag .park cmd
  | .hold => if !s.aParkLock m then (.no .invalidParameter, s) else s.aStart m 1 tag .park cmd
  | _ => (.no .wrongState, s)

/-- A_RELEASE (R242): a shift to slot 0, accepted in PARK too. -/
def State.aReleaseCmd (m tag : Nat) (cmd : Option Staged) (s : State) : Verdict × State :=
  match (s.stage.actS m).st with
  | .shifting => (.no .busy, s)
  | .homing => (.no .busy, s)
  | .standby => if !s.aParkLock m then (.no .invalidParameter, s) else s.aStart m 0 tag .release cmd
  | .hold => if !s.aParkLock m then (.no .invalidParameter, s) else s.aStart m 0 tag .release cmd
  | .park => if !s.aParkLock m then (.no .invalidParameter, s) else s.aStart m 0 tag .release cmd
  | _ => (.no .wrongState, s)

/-- A_CURRENT (R229, R237): the target is clamped to ±ilim. -/
def State.aCurrentCmd (m : Nat) (v : Int) (s : State) : Verdict × State :=
  let x := s.stage.actS m
  let il := s.aIlim m x.peakExh
  if x.st = .hold ∨ x.st = .current then s.aTo m { x with st := .current, itgt := clampI v (-il) il } else (.no .wrongState, s)

/-- A_HOME (R235). -/
def State.aHomeCmd (m tag : Nat) (cmd : Option Staged) (s : State) : Verdict × State :=
  let x := s.stage.actS m
  match x.st with
  | .shifting => (.no .busy, s)
  | .homing => (.no .busy, s)
  | .standby =>
    if s.aCfg m 4 then (.no .invalidParameter, s)
    else s.aTo m { x with
      st := .homing, tag := tag, elapsed := 0, out := .running, settle := 0, kind := .home,
      startPos := s.aPosNow m x, cmd := cmd, abortNow := false, stallRun := 0 }
  | _ => (.no .wrongState, s)

/-- POS_CAUSE as a bit field. -/
def ActS.posCause (x : ActS) : Nat := b2n x.causeSkip + 2 * b2n x.causeInv + 4 * b2n x.causeAna

/-- A_POS_REARM (R236): judged on tick b − 1 alone; the latch clears at b. -/
def State.aRearmCmd (m : Nat) (s : State) : Verdict × State :=
  if s.aCauseNow m then (.no .causeActive, s)
  else
    let x := s.stage.actS m
    (.go, s.withStage (s.stage.putAct m { x with posFault := false, causeSkip := false, causeInv := false, causeAna := false }))

end Sys2Proof.Machine
end

