-- ==== Sys2Proof/Machine/Brake.lean ====
section
/-! DEFINITION. Brake span B (chapter 09): duty, thermal model, peak budget, resistor check, sense fallback, causes of SAFE and commands. -/
namespace Sys2Proof.Machine

/-- A register of span B as a signal. -/
def State.bn (s : State) (o : Nat) : Int := s.spn .b o
/-- CHK_EN (0), FB_EN (1). -/
def State.bCfg (s : State) (i : Nat) : Bool := bitOf (s.spnW .b 0) i
/-- SPN_B_STATE.STATE. -/
def BMode.code : BMode → Nat
  | .disabled => 0 | .armed => 1 | .safe => 2

/-! ### The link voltage (R222) -/

/-- AI49 is PAIR_BAD or AI48 UNTRUSTED. -/
def State.bOwnBad (s : State) : Bool := (s.inp 49).pairBad || (s.inp 48).untrusted
/-- Bank 2 carries a verdict. -/
def State.bank2Bad (s : State) : Bool := (List.range 12).any (fun i => s.distrusted (24 + i))
/-- B takes v from AI35. -/
def State.bFallback (s : State) : Bool := s.bOwnBad && s.bCfg 1 && !s.bank2Bad
/-- v of R218. -/
def State.bV (s : State) : Int := if s.bFallback then s.ai 35 else s.ai 49
/-- The image constant for 300 V of the selected sense (R2). -/
def State.bV300 (s : State) : Int := if s.bFallback then s.v300 35 else s.v300 49

/-! ### Duty and power (R218) -/

/-- One tick's result of R218. -/
structure BDuty where
  active : Bool
  thermal : Bool
  d : Int
  dcont : Int
  p : Int
  deriving DecidableEq, Repr

/-- dcont: a free value of 0 to 1.0 where v is 0. -/
def State.bDcont (s : State) (v : Int) : Int :=
  let ir := mulc (s.bn 0x14) (s.bn 0x10)
  if v = 0 then minI one24 ((Config.freeDcont ir).toNat : Int) else minI one24 (rheQ (ir * ir * one24) (v * v))

/-- The power of a duty: a free value where RES reads 0. -/
def State.bPower (s : State) (v d : Int) : Int :=
  if s.bn 0x10 = 0 then Config.freePower v d else rheQ (mulc v v * d) (s.bn 0x10)

/-- The pseudocode of R218. -/
def State.bDuty (s : State) (x : BSpanS) (v : Int) : BDuty :=
  let a1 := x.active || decide (s.bn 0x08 ≤ v)
  let act := a1 && !decide (v < s.bn 0x04)
  let d0 := if act then clampI (rheQ ((v - s.bn 0x04) * one24) (s.bn 0x0C - s.bn 0x04)) 0 one24 else 0
  let th := rhe x.theta 24
  let ft := clampI (rheQ ((s.bn 0x24 - th) * one24) (s.bn 0x24 - s.bn 0x20)) 0 one24
  let d1 := minI d0 ft
  let dcont := s.bDcont v
  let d := if x.peakExh then minI d1 dcont else d1
  { active := act, thermal := decide (ft < d0), d := d, dcont := dcont, p := s.bPower v d }

/-- θ after a tick (R219). -/
def State.bTheta (s : State) (theta p : Int) : Int :=
  theta + rhe (p * s.bn 0x18) 16 - rhe (theta * s.bn 0x1C) 32

/-- The check of R221 in this tick: none when it is not made, else the mismatch, 1 open and 2 low. The duty is that in
force. -/
def State.bCheck (s : State) : Option Nat :=
  let x := s.cur.bs
  if x.st = .armed ∧ s.bCfg 0 ∧ ¬ s.bOwnBad ∧ (fld (s.spnW .b 0) 8 8 : Int) * 65536 ≤ x.duty then
    let v := s.bV
    let i := s.ai 48
    let res := s.bn 0x10
    if i * res * 5 < v * one24 * 4 then some 1 else if v * one24 * 5 < i * res * 4 then some 2 else some 0
  else none

/-- The run of mismatches with this tick. -/
def State.bRun (s : State) : Nat :=
  match s.bCheck with
  | none => s.cur.bs.mismatchRun
  | some 0 => 0
  | some _ => min (s.cur.bs.mismatchRun + 1) 3

/-- E062 and E063 notes: E062 cause 1 to 6 the code of SAFE, 16 fallback; E063 cause 1 thermal, 2 peak. -/
def State.bNotes (s : State) (x y : BSpanS) (fb : Bool) : List Note :=
  let a := s.spanAddr .b
  (if fb && !x.fallback then [Note.ev 62 a 16 0 0] else []) ++
  (if y.thermal && !x.thermal then [Note.ev 63 a 1 0 0] else []) ++
  (if y.peakExh && !x.peakExh then [Note.ev 63 a 2 0 0] else [])

/-- A counter of R220 after a tick: its value, and the exhausted flag. -/
def State.bPeak (s : State) (x : BSpanS) (above : Bool) : Nat × Bool :=
  let n := if above then (if x.peakExh && s.reached x.peak 10000 then x.peak else x.peak + 1) else x.peak - 1
  (n, if x.peakExh then decide (n ≠ 0) else s.reached n 10000 && decide (0 < n))

/-- θ at a start (R219): TH_INIT. -/
def State.thetaInit (s : State) : State :=
  let set := fun (c : Ctl) => { c with bs := { c.bs with theta := s.bn 0x28 * one24 } }
  { s with cur := set s.cur, stage := set s.stage }

/-- The whole compute of B (R218 to R222): B uses no engine. While ARMED it posts its duty in every tick; a pier of L27 that
lost its supply holds the switch off until the boundary at which L27 is usable again (R217). -/
def State.bCompute (s : State) (now : Ctl) : Ctl :=
  let x := now.bs
  let armed := decide (x.st = .armed)
  let r := s.bDuty x s.bV
  let d := if armed then r.d else 0
  let p := if armed then r.p else 0
  let pk := s.bPeak x (armed && decide (r.dcont < d))
  let fb := s.bFallback
  let y := { x with
    active := armed && r.active, thermal := armed && r.thermal, duty := d, power := p, theta := s.bTheta x.theta p,
    peak := pk.1, peakExh := pk.2, fallback := fb, mismatchRun := if armed then s.bRun else 0 }
  let per := s.nominal 27
  let set : PSet := if armed
    then { per := per, cmpa := (rhe (d * (per : Int)) 24).toNat, cmpb := 0, phase := s.choPhase 27, mode := 2 }
    else s.offSet 27
  let c := { now with bs := y }.post 27 set 0
  { c with notes := c.notes ++ s.bNotes x y fb, commit := addSet .b c.commit }

/-- BRAKE_PEAK_EXHAUST (R220): a counter that has reached 10 s / P sets PEAK_EXH and raises E063, as the compute does in the
tick in which it happens. -/
def execBrakePeakExhaust (s : State) : Host.Outcome State Fault Refusal :=
  let x := s.stage.bs
  if s.reached x.peak 10000 ∧ 0 < x.peak ∧ ¬ x.peakExh then
    .next { (s.raise 63 (s.spanAddr .b) 2 0 0) with stage := { s.stage with bs := { x with peakExh := true } } }
  else .next s

/-! ### SAFE (R223, Table 09-5) -/

/-- The causes of Table 09-5 in the tick's inputs, lowest code first; cause 1 is the boundary's own. -/
def State.bCauses (s : State) : List Nat :=
  (if s.snap.syncSpans.contains .b then [2] else []) ++ (if s.bOwnBad && !s.bFallback then [3] else []) ++
  (if s.bRun = 3 && decide (s.cur.bs.st = .armed) then [4] else []) ++
  (if !(s.snap.usableNoBrg.contains 27) || s.snap.trip.contains 27 || s.snap.desat.contains 27 then [5] else []) ++
  (if s.snap.orders.contains .b then [6] else [])

/-- The cause that takes B into SAFE in this tick: from ARMED, as the other spans stay DISABLED (R217; DEDUCED, log 126). -/
def State.bEntry (s : State) : Option Nat :=
  match s.cur.bs.st with
  | .armed => s.bCauses.head?
  | _ => none

/-- Enter SAFE at the next boundary (R223); E062 carries the code and, for cause 4, "open" 1 or "low" 2. -/
def State.bSafe (s : State) (cause : Nat) : State :=
  let c := s.stage
  let v : Nat := if cause = 4 then s.bCheck.getD 0 else 0
  { s with stage := { c with
      bs := { c.bs with st := .safe, safeCause := cause }, safed := addSet .b c.safed,
      notes := c.notes ++ [Note.ev 62 (s.spanAddr .b) cause v 0, Note.stick (.safeEntry .b)] } }

/-! ### Commands (R217) -/

/-- The verdict of a mode command: 0 DISABLED, 1 ARMED. -/
def State.bVerdict (s : State) (code : Nat) : Verdict :=
  let x := s.stage.bs
  match x.st, code with
  | .disabled, 0 => .same
  | .armed, 1 => .same
  | .disabled, _ =>
    if s.kst.lsBroken then .no .spanUnavailable
    else if s.bV < s.bV300 then .no .linkAbsent else s.mayChange .b
  | .armed, _ => s.mayChange .b
  | .safe, 0 => if !s.bCauses.isEmpty || s.overrunActive x.safeCause then .no .causeActive else s.mayChange .b
  | .safe, _ => if s.kst.lsBroken then .no .spanUnavailable else .no .wrongState

/-- MODE on span B. -/
def State.bMode (code : Nat) (s : State) : Verdict × State :=
  match s.bVerdict code with
  | .go =>
    let m := if code = 0 then BMode.disabled else .armed
    (.go, s.withStage ({ s.stage with bs := { s.stage.bs with st := m, mismatchRun := 0 } }.changes .b))
  | v => (v, s)

end Sys2Proof.Machine
end

