-- ==== Sys2Proof/Machine/Charger.lean ====
section
/-! DEFINITION. Charger span Q (chapter 09): grid frame, limits and references, PFC and isolated stage, anti-islanding, pilot and proximity, contactor, causes of SAFE and commands. -/
namespace Sys2Proof.Machine

/-! ### Configuration (Table 09-7) -/

/-- A register of span Q as a signal. -/
def State.qn (s : State) (o : Nat) : Int := s.spn .q o
/-- SPN_Q_CFG bits: 0 PILOT_EN, 1 PP_EN, 2 EXP_EN, 3 ISL_EN, 4 AID_EN. -/
def State.qCfg (s : State) (i : Nat) : Bool := bitOf (s.spnW .q 0) i
/-- TRIP_TICKS. -/
def State.qTrip (s : State) : Nat := fld (s.spnW .q 0) 8 8
/-- LOCK_TICKS. -/
def State.qLock (s : State) : Nat := fld (s.spnW .q 0) 16 16
/-- Engines: 0 PLL, 1 VBUS, 2 DABI, 3 DABV, 4 ID, 5 IQ, 6 VD, 7 VQ (Table 09-7 order). -/
def State.qRole (s : State) (r : Nat) : Nat :=
  if r < 4 then fld (s.spnW .q 0x04) (8 * r) 7 else fld (s.spnW .q 0x08) (8 * (r - 4)) 7
/-- v_bus (R201). -/
def State.vBus (s : State) : Int := s.ai 47
/-- CHARGE, EXPORT_GF or EXPORT_IS. -/
def QMode.running : QMode → Bool
  | .charge => true | .exportGf => true | .exportIs => true | _ => false
/-- Contactor and S2 commanded open, the PFC legs off (R215, R249 item 4). -/
def QSpanS.opened (x : QSpanS) : QSpanS := { x with kAc := false, s2 := false, pfc := false }
/-- SPN_Q_STATE.STATE. -/
def QMode.code : QMode → Nat
  | .disabled => 0 | .standby => 1 | .charge => 2 | .exportGf => 3 | .exportIs => 4 | .safe => 5
/-- The state a mode code names. -/
def QMode.ofCode : Nat → QMode
  | 0 => .disabled | 1 => .standby | 2 => .charge | 3 => .exportGf | _ => .exportIs
/-- DISABLED and SAFE do not run R206. -/
def QMode.live : QMode → Bool
  | .disabled => false | .safe => false | _ => true

/-! ### The grid frame (R206) -/

/-- vd, vq, vmag and meas0 of R206. -/
structure QGrid where
  vd : Int
  vq : Int
  vmag : Int
  meas0 : Int
  deriving DecidableEq, Repr

/-- The grid frame at an angle. -/
def State.qGrid (s : State) (thg : Nat) : QGrid :=
  let val := mulc (s.ai 39 - s.ai 41) oneThird
  let vbe := mulc (s.ai 40) invSqrt3
  let v := park val vbe thg
  let m := isqrt (v.1 * v.1 + v.2 * v.2)
  { vd := v.1, vq := v.2, vmag := m, meas0 := if 0 < m then -(rheQ (v.2 * one24) m) else 0 }

/-- The tests of R210 and R211 that fail in this tick: the grid window and, but for EXPORT_IS, frequency and lock. The
outputs are those current at boundary n. -/
def State.qGridBad (s : State) : Bool :=
  let x := s.cur.qs
  let g := s.qGrid x.thg
  let u := s.roleOut s.cur (s.qRole 0)
  let win := decide (g.vmag < s.qn 0x20) || decide (s.qn 0x24 < g.vmag)
  match x.st with
  | .exportIs => win
  | .charge => win || decide (u < s.qn 0x28) || decide (s.qn 0x2C < u) || !x.locked
  | .exportGf => win || decide (u < s.qn 0x28) || decide (s.qn 0x2C < u) || !x.locked
  | _ => false

/-- The run of R210 with this tick. -/
def State.qFailRun (s : State) : Nat :=
  if s.cur.qs.st.running ∧ s.qGridBad then min (s.cur.qs.failRun + 1) 255 else 0

/-! ### Limits and references (R207, R209) -/

/-- An AC current of num / den A in the signal format of the image's scale. -/
def State.acSignal (s : State) (a : Int × Int) : Int := rheQ (a.1 * s.image.acAmp) (a.2 * 65536)

/-- Cable limit of a code in A (R214). -/
def cableLimit : Nat → Int
  | 1 => 13 | 2 => 20 | 3 => 32 | 4 => 63 | _ => 0

/-- The duties measured, in 0.1 %, whose mean D lies in 3 to 7 % (R212). -/
def PilotS.inHlc (u : PilotS) : Bool :=
  let n := u.duties.length
  let d := u.duties.foldl (· + ·) 0
  decide (0 < n) && decide (30 * n ≤ d) && decide (d ≤ 70 * n)

/-- The pilot current limit in A, as a quotient, from the exact mean of the duties (R212). -/
def PilotS.amps (u : PilotS) : Int × Int :=
  let n := u.duties.length
  let d := u.duties.foldl (· + ·) 0
  if n = 0 then (0, 1)
  else if 80 * n ≤ d ∧ d ≤ 100 * n then (6, 1)
  else if 100 * n < d ∧ d ≤ 850 * n then (6 * (d : Int), 100 * n)
  else if 850 * n < d ∧ d ≤ 960 * n then ((d : Int) - 640 * n, 4 * n)
  else if 960 * n < d ∧ d ≤ 970 * n then (80, 1) else (0, 1)

/-- The pilot limit in force, ramped toward the decoded one (R212). -/
def State.qPilotLim (s : State) (x : QSpanS) : Int :=
  let d := if s.pilot.inHlc then s.qn 0x64 else s.acSignal s.pilot.amps
  if d ≤ x.pilotLim then d else minI d (x.pilotLim + s.qn 0x54)

/-- ilim (R207). -/
def State.qIlim (s : State) (x : QSpanS) (g : QGrid) (pl flink : Int) : Int :=
  let pterm := if 0 < g.vmag then sat32 (rheQ (s.qn 0x60 * one24) g.vmag) else s32max
  let a := minI (s.qn 0x64) pterm
  let a := if s.qCfg 0 then minI a pl else a
  let a := if s.qCfg 1 then minI a (s.acSignal (cableLimit s.pilot.ppCode, 1)) else a
  let fx := match x.st with | .exportGf => flink | .exportIs => flink | _ => one24
  mulc a (minI s.snap.fcoolQ fx)

/-- The ceiling factor (R209). -/
def State.qCeil (s : State) : Int :=
  let v := s.ai 46
  if v ≤ s.qn 0x48 then one24
  else if s.qn 0x4C ≤ v then 0
  else clampI (rheQ ((s.qn 0x4C - v) * one24) (s.qn 0x4C - s.qn 0x48)) 0 one24

/-- x / vd, 0 while vd is at or below 0 (R207). -/
def overVd (x vd : Int) : Int := if 0 < vd then sat32 (rheQ (x * one24) vd) else 0

/-- What the first part of Q's compute leaves for the second. -/
structure QPre where
  x : QSpanS
  g : QGrid
  post : SpanPost
  deriving DecidableEq, Repr

/-- The first part: contactor, references, limits and engine modes (Table 09-1, R206 to R211). `outer` gives id*, iq* of
the lead where another deck leads the outer laws, `pIn` the power target that is applied (Table 12-1). -/
def State.qPre (s : State) (prev : Ctl) (flink : Int) (outer : Option (Int × Int)) (pIn : Int) : QPre :=
  let x0 := s.stage.qs
  let entering := decide (x0.st ≠ prev.qs.st)
  let thg := if entering && decide (x0.st = .exportIs) then 0 else x0.thg
  let g := s.qGrid thg
  let pl := s.qPilotLim x0
  let ilim := s.qIlim x0 g pl flink
  let cur := clarke (s.ai 36) (s.ai 37) (s.ai 38)
  let idq := park cur.1 cur.2 thg
  let p := s.shared .q pIn
  let inj := if s.qCfg 4 then clampI (mulc (s.roleOut prev (s.qRole 0) - one24) (s.qn 0x34)) (-(s.qn 0x38)) (s.qn 0x38) else 0
  let own : Int × Int := match x0.st with
    | .charge => (s.roleOut prev (s.qRole 1), s.shared .q x0.qTgt)
    | .exportGf => (overVd p g.vd, s.shared .q x0.qTgt + inj)
    | .exportIs => (match outer with
      | some r => (s.shared .q r.1, s.shared .q r.2)
      | none => (s.shared .q (s.roleOut prev (s.qRole 6)), s.shared .q (s.roleOut prev (s.qRole 7))))
    | _ => (0, 0)
  let m := isqrt (own.1 * own.1 + own.2 * own.2)
  let clip := x0.st.running && decide (ilim < m)
  let idr := if clip then rheQ (own.1 * ilim) m else own.1
  let iqr := if clip then rheQ (own.2 * ilim) m else own.2
  let vl := s.ai 46
  let ceil := s.qCeil
  let isec := if x0.st = .charge then mulc (if vl = 0 then Config.freeIsec p else rheQ (p * one24) vl) ceil else 0
  let vff := overVd (Config.freeDabPower
    [x0.st.code, p, s.ai 42, s.ai 43, vl, s.vBus, s.roleOut prev (s.qRole 2), s.roleOut prev (s.qRole 3)]) g.vd
  let vb := s.vBus
  let refs := [s.qn 0x14, idr, s.qn 0x3C, 0, iqr, isec, -(s.qn 0x14)]
  let meas := [g.meas0, vb, vff, g.vd, g.vq, idq.1, idq.2, s.ai 43, s.roleOut prev (s.qRole 3), -vb, s.roleOut prev (s.qRole 2)]
  let st := x0.st
  let rn := EngMode.run
  let md := fun (a b c d : EngMode) => match st with
    | .standby => a | .charge => b | .exportGf => c | .exportIs => d | _ => EngMode.idle
  let vm := vmaxOf vb (fld (s.spnW .q 0x0C) 0 17)
  let ph := s.qn 0x50
  let il := s.unshared .q ilim
  let eng :=
    postEng (s.qRole 0) (md rn rn rn .idle) (s.qn 0x28) (s.qn 0x2C) ++
    postEng (s.qRole 1) (md .idle rn .track .idle) (-ilim) ilim ++
    postEng (s.qRole 2) (md .track rn .track .track) (-ph) ph ++
    postEng (s.qRole 3) (md rn .track rn rn) (-ph) ph ++
    postEng (s.qRole 4) (md .track rn rn rn) (-vm) vm ++ postEng (s.qRole 5) (md .track rn rn rn) (-vm) vm ++
    postEng (s.qRole 6) (md .idle .idle .idle rn) (-il) il ++ postEng (s.qRole 7) (md .idle .idle .idle rn) (-il) il
  let pst := s.pilot.st
  let pen := s.qCfg 0
  let s2 := decide (st = .charge) && !(pen && (decide (pst = .a) || decide (pst = .e) || decide (pst = .f) || decide (pst = .invalid)))
  let kac := match st with
    | .charge => !pen || decide (pst = .c) || (x0.kAc && !entering && decide (pst = .d))
    | .exportGf => true
    | .exportIs => true
    | _ => false
  let cd := decide (st = .charge) && ((x0.cdSeen && !entering) || decide (pst = .c) || decide (pst = .d))
  let pfc := kac && (decide (st.running) && ((x0.pfc && !entering) || s.pilot.kAcFb))
  { x := { x0 with
      thg := thg, ilim := ilim, clip := clip, ceil := decide (st = .charge) && decide (ceil < one24), pilotLim := pl,
      iqRef := iqr, power := if st.running then mulc g.vd idr else 0, s2 := s2, kAc := kac, pfc := pfc, cdSeen := cd,
      pAc := if st.live then mulc g.vd idq.1 + mulc g.vq idq.2 else 0 },
    g := g, post := { refs := refs, meas := meas, eng := eng } }

/-- PHASE of L23 to L26 (R208). -/
def dabPhase (l per : Nat) (phi : Int) : Nat :=
  let sh := rhe (phi * (per : Int)) 24
  let m : Int := (max per 1 : Nat)
  if l = 23 then 0 else if l = 24 then per / 2
  else if l = 25 then ((0 - sh) % m).toNat else (((per / 2 : Nat) : Int) - sh) % m |>.toNat

/-- The second part: angle, lock, bus ready, write sets and commit (R203, R206, R208). -/
def State.qPost (s : State) (now : Ctl) (p : QPre) : Ctl :=
  let x := p.x
  let isl := decide (x.st = .exportIs)
  let u := if isl then s.qn 0x40 else s.roleOut now (s.qRole 0)
  let live := x.st.live
  let thg := if live then angMod ((x.thg : Int) + rhe (u * ((s.spnW .q 0x10).toNat : Int)) 24) else x.thg
  let pll := s.roleOut now (s.qRole 0)
  let ok := live && decide (absI p.g.meas0 ≤ s.qn 0x30) && decide (s.qn 0x28 ≤ pll) && decide (pll ≤ s.qn 0x2C)
  let lockRun := if ok then min (x.lockRun + 1) max16 else 0
  let unRun := if ok then 0 else min (x.unlockRun + 1) 255
  let locked := if x.locked then !decide (s.qTrip ≤ unRun) else ok && decide (s.qLock ≤ lockRun)
  let busOk := decide (absI (s.vBus - s.qn 0x14) * 32 ≤ s.qn 0x14)
  let busRun := if busOk then min (x.busRun + 1) max16 else 0
  let dead := (List.range 3).all (fun k => decide (absI (s.ai (39 + k)) < s.qn 0x44))
  let vOut := decide (s.vBus < s.qn 0x18) || decide (s.qn 0x1C < s.vBus)
  let y := { x with
    thg := thg, freq := if live then u else 0, lockRun := lockRun, unlockRun := unRun, locked := locked, busRun := busRun,
    busReady := busOk && decide (s.qLock ≤ busRun), deadRun := if dead then min (x.deadRun + 1) max16 else 0,
    failRun := s.qFailRun, vbusRun := if vOut && decide (x.st ≠ .disabled) then min (x.vbusRun + 1) 3 else 0 }
  let md := s.spnW .q 0x0C
  let adv := rhe (u * ((s.spnW .q 0x10).toNat : Int) * (fld md 17 10 : Nat)) 32
  let mo := modulate (s.roleOut now (s.qRole 4)) (s.roleOut now (s.qRole 5)) s.vBus (fld md 0 17)
    (angMod ((x.thg : Int) + adv)) (s.nominal 20) 0 0 0
  let pfcSet := fun (l : Nat) (v : Int) =>
    if x.pfc then { per := s.nominal l, cmpa := v.toNat, cmpb := 0, phase := s.choPhase l, mode := 1 } else s.offSet l
  let phi := if x.st = .charge then s.roleOut now (s.qRole 2) else s.roleOut now (s.qRole 3)
  let dab := fun (l : Nat) =>
    if live then { per := s.nominal l, cmpa := s.nominal l / 2, cmpb := 0, phase := dabPhase l (s.nominal l) phi, mode := 1 }
    else { PSet.zero with per := s.nominal l }
  let c := { now with qs := y }
  let c := ((c.post 20 (pfcSet 20 mo.a) 0).post 21 (pfcSet 21 mo.b) 0).post 22 (pfcSet 22 mo.c) 0
  let c := (((c.post 23 (dab 23) 0).post 24 (dab 24) 0).post 25 (dab 25) 0).post 26 (dab 26) 0
  { c with commit := addSet .q c.commit }

/-! ### SAFE (R215, Table 09-4) -/

/-- A grid or stage current is stale: AI36 to AI38 with L20 to L22, AI42 with L23, AI43 with L25. -/
def State.qStale (s : State) : Bool :=
  [(36, 20), (37, 21), (38, 22), (42, 23), (43, 25)].any (fun p => s.stale p.1 p.2)

/-- A leg of Q is unusable or latched (code 12). -/
def State.qLegLost (s : State) : Bool :=
  (List.range 7).any (fun k =>
    !(s.snap.usable.contains (20 + k)) || s.snap.trip.contains (20 + k) || s.snap.desat.contains (20 + k))

/-- Pilot or cable lost in CHARGE (R213, R214). -/
def State.qPilotLost (s : State) : Bool :=
  decide (s.cur.qs.st = .charge) &&
  ((s.qCfg 0 && decide (3 ≤ s.pilot.badRun)) || (s.qCfg 1 && (decide (s.pilot.ppCode = 0) || decide (s.pilot.ppCode = 5))))

/-- v_bus left its window in this tick, outside DISABLED (code 11). -/
def State.qBusOut (s : State) : Bool :=
  (decide (s.vBus < s.qn 0x18) || decide (s.qn 0x1C < s.vBus)) && decide (s.cur.qs.st ≠ .disabled)

/-- The causes of Table 09-4 in the tick's inputs, lowest code first; cause 1 is the boundary's own. -/
def State.qCauses (s : State) : List Nat :=
  let x := s.cur.qs
  (if s.snap.shortSpans.contains .q then [2] else []) ++ (if s.snap.linkOv then [3] else []) ++
  (if s.snap.stTrips.contains .q then [4] else []) ++ (if s.snap.syncSpans.contains .q then [5] else []) ++
  (if (List.range 12).any (fun i => s.distrusted (36 + i)) then [6] else []) ++ (if s.qStale then [7] else []) ++
  (if x.st.running && decide (s.qTrip ≤ s.qFailRun) && decide (0 < s.qFailRun) then [8] else []) ++
  (if s.qPilotLost then [9] else []) ++ (if s.pilot.fbFault then [10] else []) ++
  (if s.qBusOut && decide (2 ≤ x.vbusRun) then [11] else []) ++ (if s.qLegLost then [12] else []) ++
  (if s.snap.orders.contains .q then [13] else [])

/-- The cause that takes Q into SAFE in this tick. -/
def State.qEntry (s : State) : Option Nat :=
  match s.cur.qs.st with
  | .disabled => none
  | .safe => none
  | _ => s.qCauses.head?

/-- Enter SAFE at the next boundary (R215), with K_AC and S2 open from it. A grid loss of TRIP_TICKS in EXPORT_GF is an
anti-islanding trip with E017 whichever cause is recorded (R210). -/
def State.qSafe (s : State) (cause : Nat) : State :=
  let c := s.stage
  let ai := if cause ≠ 1 ∧ 8 ∈ s.qCauses ∧ s.cur.qs.st = .exportGf then [Note.ev 17 (s.spanAddr .q) 8 0 0, Note.stick .qAiTrip] else []
  { s with stage := { c with
      qs := { c.qs.opened with st := .safe, safeCause := cause }, safed := addSet .q c.safed,
      notes := c.notes ++ ai ++ [Note.ev 60 (s.spanAddr .q) cause 0 0, Note.stick (.safeEntry .q)] } }

/-- The pilot has left states C and D in CHARGE: to STANDBY at the next boundary, E061 (Table 09-2). States E, F and invalid
are cause 9 (R213). -/
def State.qPilotExit (s : State) : State :=
  if s.cur.qs.st = .charge ∧ .q ∉ s.stage.safed ∧ s.qCfg 0 ∧ s.cur.qs.cdSeen ∧ (s.pilot.st = .a ∨ s.pilot.st = .b) then
    s.withStage (({ s.stage with qs := { s.stage.qs with st := .standby } }.note [.ev 61 (s.spanAddr .q) 8 0 0]).changes .q)
  else s

/-! ### Commands (Table 09-2) -/

/-- DISABLED to STANDBY. -/
def State.qStandbyCheck (s : State) : Option Status :=
  if s.ai 46 < s.v300 46 then some .linkAbsent
  else if s.snap.implausible.contains 3 then some .pairImplausible
  else if !((List.range 7).all (fun k => s.snap.usable.contains (20 + k))) then some .spanUnavailable
  else none

/-- STANDBY to a running state. -/
def State.qRunCheck (s : State) (m : QMode) : Option Status :=
  let x := s.stage.qs
  match m with
  | .charge =>
    if !(x.busReady && x.locked) then some .notReady
    else if s.qCfg 0 && !(decide (6 * s.pilot.amps.2 ≤ s.pilot.amps.1) || s.pilot.inHlc) then some .pilotInvalid
    else if s.qCfg 1 && (decide (s.pilot.ppCode = 0) || decide (s.pilot.ppCode = 5)) then some .cableInvalid
    else none
  | .exportGf =>
    if !(s.qCfg 2 && x.busReady && x.locked) then some .notReady
    else if s.qCfg 0 && !s.pilot.inHlc then some .pilotInvalid
    else none
  | _ =>
    if !(s.qCfg 3 && !s.qCfg 0 && x.busReady) then some .notReady
    else if x.deadRun < s.qLock ∨ x.deadRun = 0 then some .gridPresent
    else none

/-- The verdict of a mode command (Table 09-2, R255, R353). -/
def State.qVerdict (s : State) (code : Nat) : Verdict :=
  let x := s.stage.qs
  let m := QMode.ofCode code
  if m = x.st then .same
  else if s.kst.lsBroken ∧ m ≠ .disabled ∧ (x.st = .disabled ∨ x.st = .safe) then .no .spanUnavailable
  else match x.st, m with
    | .disabled, .standby => (match s.qStandbyCheck with | some st => .no st | none => s.mayChange .q)
    | .standby, .disabled => s.mayChange .q
    | .standby, _ => (match s.qRunCheck m with | some st => .no st | none => s.mayChange .q)
    | .safe, .disabled => if !s.qCauses.isEmpty || s.overrunActive x.safeCause then .no .causeActive else s.mayChange .q
    | st, .standby => if st.running then s.mayChange .q else .no .wrongState
    | st, .disabled => if st.running then .no .spanActive else .no .wrongState
    | _, _ => .no .wrongState

/-- MODE on span Q. -/
def State.qMode (code : Nat) (p q : Int) (s : State) : Verdict × State :=
  match s.qVerdict code with
  | .go =>
    let m := QMode.ofCode code
    let x := { s.stage.qs with st := m }
    let y := match m with
      | .charge => { x with pTgt := p, qTgt := q }
      | .exportGf => { x with pTgt := p, qTgt := q }
      | _ => x
    (.go, s.withStage ({ s.stage with qs := y }.changes .q))
  | v => (v, s)

/-- Q_POWER (R207, Table 15-5): the sign must suit the state. -/
def State.qPowerCmd (p q : Int) (s : State) : Verdict × State :=
  let x := s.stage.qs
  let go : Verdict × State := (.go, s.withStage { s.stage with qs := { x with pTgt := p, qTgt := q } })
  match x.st with
  | .charge => if 0 ≤ p then go else (.no .invalidParameter, s)
  | .exportGf => if p ≤ 0 then go else (.no .invalidParameter, s)
  | _ => (.no .wrongState, s)

/-! ### Pilot, proximity and contactor (R212 to R215, R450) -/

/-- The state a cycle shows (R212), in mV. -/
def pilotDecode (p : PilotIn) : PilotSt :=
  if p.freq < 980 ∨ 1020 < p.freq then .invalid
  else match p.high with
    | some h =>
      if 11000 ≤ h ∧ h ≤ 13000 then .a else if 8000 ≤ h ∧ h ≤ 10000 then .b else if 5000 ≤ h ∧ h ≤ 7000 then .c
      else if 2000 ≤ h ∧ h ≤ 4000 then .d else if -1000 ≤ h ∧ h ≤ 1000 then .e else .invalid
    | none =>
      match p.low with
      | some l => if -13000 ≤ l ∧ l ≤ -11000 then .f else .invalid
      | none => .invalid

/-- SPN_Q_PILOT.STATE. -/
def PilotSt.code : PilotSt → Nat
  | .a => 0 | .b => 1 | .c => 2 | .d => 3 | .e => 4 | .f => 5 | .invalid => 6 | .unused => 7

/-- One cycle into the pilot unit (R212, R213). DUTY and ILIM of SPN_Q_PILOT are rounded to their units; the limit that R207 uses
is exact. -/
def PilotS.cycle (u : PilotS) (p : PilotIn) : PilotS :=
  let st := pilotDecode p
  let run := if st = u.cand then min (u.candRun + 1) 3 else 1
  let bad := decide (st = .e) || decide (st = .f) || decide (st = .invalid)
  let duties := if 980 ≤ p.freq ∧ p.freq ≤ 1020 then (p.duty :: u.duties).take 8 else u.duties
  let mean := if duties.isEmpty then 0 else (rheDiv ((duties.foldl (· + ·) 0 : Nat) : Int) duties.length).toNat
  let v := { u with
    st := if run = 3 then st else u.st, cand := st, candRun := run, badRun := if bad then min (u.badRun + 1) 3 else 0,
    duties := duties, duty := mean }
  { v with hlc := v.inHlc, limit := (rheQ (10 * v.amps.1) v.amps.2).toNat }

/-- PILOT_CYCLE (R212): a new state takes effect after 3 cycles in a row and raises E061 with it. -/
def execPilotCycle (p : PilotIn) (s : State) : Host.Outcome State Fault Refusal :=
  if s.qCfg 0 then
    let u := s.pilot.cycle p
    let t := { s with pilot := u }
    .next (if u.st ≠ s.pilot.st then t.raise 61 (s.spanAddr .q) u.st.code 0 0 else t)
  else .next s

/-- The cable code of a coding resistance (R214). -/
def cableCode (r : Nat) : Nat :=
  if 1200 ≤ r ∧ r ≤ 1800 then 1 else if 544 ≤ r ∧ r ≤ 816 then 2 else if 176 ≤ r ∧ r ≤ 264 then 3
  else if 80 ≤ r ∧ r ≤ 120 then 4 else if 10000 < r then 0 else 5

/-- Cable and auxiliary contact as sampled at a boundary (R214, R215, R450): the contact's difference from the command is
timed, and an output held off by a fault is released once K_AC is commanded open. -/
def State.sampleContactor (s : State) (res : Nat) (fb : Bool) : State :=
  let cmd := s.cur.qs.kAc
  let since := if fb = cmd then none else match s.pilot.diffSince with | some t => some t | none => some s.tk.now
  { s with pilot := { s.pilot with
      ppCode := if s.qCfg 1 then cableCode res else s.pilot.ppCode, ppRes := if s.qCfg 1 then min res max16 else s.pilot.ppRes,
      kAcFb := fb, diffSince := since, fbFault := s.pilot.fbFault && since.isSome, outFault := s.pilot.outFault && cmd } }

/-- 100 ms (Table 09-4 code 10). -/
def kAcLimit : Nat := 100000000 * uNs

/-- KAC_FB_TIMEOUT (R215): K_AC_FB has differed from the command for more than 100 ms; the next compute takes Q into SAFE
with cause 10. -/
def execKacFbTimeout (ofs : Nat) (s0 : State) : Host.Outcome State Fault Refusal :=
  let s := s0.at ofs
  match s.pilot.diffSince with
  | some t => if t + kAcLimit < s.tk.now then .next { s with pilot := { s.pilot with fbFault := true } } else .next s
  | none => .next s

/-- K_AC_OUT_FAULT (R450): the output turns off and stays off until K_AC is next commanded open. -/
def execKAcOutFault (s : State) : Host.Outcome State Fault Refusal :=
  .next (if s.cur.qs.kAc then { s with pilot := { s.pilot with outFault := true } } else s)

end Sys2Proof.Machine
end

