-- ==== Sys2Proof/Machine/Truss.lean ====
section
/-! DEFINITION. The Truss and the piers (chapters 05 and 06): carrier periods, the switch commands of a leg, the precedence of Table 05-3, dead time, soft turn-off, write sets and direct mode. -/
namespace Sys2Proof.Machine

/-! ### Spans and legs -/

/-- A span is in SAFE. -/
def Ctl.inSafe (c : Ctl) : Span → Bool
  | .t0 => decide (c.tr0.st = .safe)
  | .t1 => decide (c.tr1.st = .safe)
  | .c => decide (c.cs.st = .safe)
  | .q => decide (c.qs.st = .safe)
  | .b => decide (c.bs.st = .safe)
  | .a0 => decide ((c.actS 0).st = .safe)
  | .a1 => decide ((c.actS 1).st = .safe)
  | .a2 => decide ((c.actS 2).st = .safe)
  | .a3 => decide ((c.actS 3).st = .safe)

/-- A traction span is in OFF: DISABLED, or SAFE with both sets applying OFF (R156). -/
def TracS.inOff (x : TracS) : Bool :=
  decide (x.st = .disabled) || (decide (x.st = .safe) && decide (x.safeA ≤ 1) && decide (x.safeB ≤ 1))
/-- An actuator is in OFF: DISABLED, PARK, or SAFE with OFF (R228). -/
def ActS.inOff (x : ActS) : Bool :=
  decide (x.st = .disabled) || decide (x.st = .park) || (decide (x.st = .safe) && decide (x.safePat ≤ 1))

/-- A span is in OFF (R156, R181, R203, R217, R228). -/
def Ctl.inOff (c : Ctl) : Span → Bool
  | .t0 => c.tr0.inOff
  | .t1 => c.tr1.inOff
  | .c => decide (c.cs.st = .disabled) || (decide (c.cs.st = .safe) && decide (c.cs.safePat ≤ 1))
  | .q => decide (c.qs.st = .disabled) || decide (c.qs.st = .safe)
  | .b => decide (c.bs.st = .disabled) || decide (c.bs.st = .safe)
  | .a0 => (c.actS 0).inOff
  | .a1 => (c.actS 1).inOff
  | .a2 => (c.actS 2).inOff
  | .a3 => (c.actS 3).inOff

/-- The leg is one that its span uses: the span is fitted, a leg of set b only where the span is wired six-phase, a phase of C
only below C_PHASES (R23, R29, R32, R122). -/
def State.legUsed (s : State) (l : Nat) : Bool :=
  s.fitted (Span.ofLeg l) &&
  (match Span.ofLeg l with
    | .t0 => decide (l < 3) || decide (s.wiring 0 = 0)
    | .t1 => decide (l < 9) || decide (s.wiring 1 = 0)
    | .c => decide (l < 12 + s.cPhases)
    | _ => true)
/-- A gate supply of the leg is below UVLO so that the leg is not usable: any rail of an HV leg; on an LV leg the LS
supply, or a bootstrap that stayed low for over 1 ms (R134, R136). -/
def LegS.uvOut (g : LegS) (l : Nat) : Bool :=
  if isHvLeg l then g.uvHsPos || g.uvHsNeg || g.uvLsPos || g.uvLsNeg else g.uvLsPos || g.bootLong
/-- The pier enable of the leg is present (R30, R255, R412): from the release of reset to deck ready no pier has it (R407). -/
def State.pierEnabled (s : State) (l : Nat) : Bool :=
  !s.start.running && (if isHvLeg l then !s.hvDisabled else !s.start.abut)
/-- R30 but for the Bearing supply: what keeps an HV leg from use beside a rail that the loss of that supply took (R135,
R217). -/
def State.usableButBearing (s : State) (l : Nat) : Bool :=
  s.legUsed l && s.legEnabled l && !(s.leg l).unprot && s.pierEnabled l &&
  (!((s.leg l).uvOut l) || (isHvLeg l && (s.leg l).brgLost))
/-- R30, of a leg that its span uses. -/
def State.legUsable (s : State) (l : Nat) : Bool :=
  s.legUsed l && s.legEnabled l && !(s.leg l).unprot && !((s.leg l).uvOut l) && s.pierEnabled l
/-- The spans that a deck comparator protects and that are unavailable while its test has failed (R149): T0, T1 and Q for
LINK_OV, C for C_OV. -/
def State.unguarded (s : State) (x : Span) : Bool :=
  s.par.testFail.any (fun u => if u.val < 2 then decide (x = .t0) || decide (x = .t1) || decide (x = .q) else decide (x = .c))
/-- A leg that its span can use: usable, of a span whose deck comparators have passed (R30, R149). -/
def State.legServes (s : State) (l : Nat) : Bool := s.legUsable l && !s.unguarded (Span.ofLeg l)
/-- A lost gate supply holds the switch off: on an HV leg any rail, on an LV leg the LS supply, and for HS the bootstrap, which
leaves LS to its commands however long it lasts (R134, R136). -/
def LegS.uvHolds (g : LegS) (l : Nat) (x : Switch) : Bool :=
  if isHvLeg l then g.uvHsPos || g.uvHsNeg || g.uvLsPos || g.uvLsNeg else g.uvLsPos || (g.uvHsPos && decide (x = .hs))
/-- The piers hold a switch off against every command: a desaturation latch, a lost supply, no enable (R134, R136, R140). -/
def State.pierHeld (s : State) (l : Nat) (x : Switch) : Bool :=
  let g := s.leg l
  g.desatHs || g.desatLs || g.uvHolds l x || !(s.pierEnabled l)
/-- The gate supply of a switch of a leg in use is there, with its pier enable. -/
def State.hasSupply (s : State) (l : Nat) (x : Switch) : Bool :=
  let g := s.leg l
  s.legUsed l && s.legEnabled l && s.pierEnabled l &&
  (match x with | .hs => !g.uvHsPos && !g.uvHsNeg | .ls => !g.uvLsPos && !g.uvLsNeg)
/-- A switch can be gated (R174, R244): no desaturation latch holds it and it does not itself lie below UVLO. -/
def State.canGate (s : State) (l : Nat) (x : Switch) : Bool :=
  s.hasSupply l x && !(s.leg l).desatHs && !(s.leg l).desatLs
/-- A leg's host fills its write set (R115). -/
def State.legDirect (s : State) (l : Nat) : Bool := bitOf (s.reg (0xC000 + 0x200 * l)) 5

/-! ### Carrier periods (R53 to R55, R108) -/

/-- The period that begins next in the tick in progress: its start and its length; none where no period is due. -/
def State.periodDue (s : State) (l : Nat) : Option (Instant × Nat × Nat) :=
  let g := s.leg l
  let b := s.boundary s.tk.count
  let k := s.ratioK l
  if s.psteps = 0 then none
  else if s.ratioMul l then
    if ((s.tk.count : Int) - g.realigned) % (k : Int) = 0 ∧ (g.plen = 0 ∨ g.pstart < b) then some (b, s.psteps * k, 0) else none
  else
    let len := fun (i : Nat) => s.psteps / k + (if i < s.psteps % k then 1 else 0)
    if g.plen = 0 ∨ g.pstart < b then some (b, len 0, 0)
    else if g.pidx + 1 < k then some (g.pstart + g.plen * uStep, len (g.pidx + 1), g.pidx + 1)
    else none

/-! ### Switch commands (R109, R110, R116, R117) -/

/-- Numerator of the duty clamp: floor(f × per / 2^16). -/
def dutySteps (f per : Nat) : Nat := f * per / 65536

/-- c of R110: CMPA clamped to the duty limits. -/
def State.cmpClamped (s : State) (l per cmpa : Nat) : Nat :=
  let w := s.reg (0xC008 + 0x200 * l)
  max (dutySteps (fld w 17 15) per) (min cmpa (dutySteps (fld w 0 17) per))

/-- hs_start of R110. -/
def State.hsStart (s : State) (l per c : Nat) : Nat :=
  if bitOf (s.reg (0xC000 + 0x200 * l)) 0 then 0 else per / 2 - c / 2

/-- ls_len of R110. -/
def PSet.lsLen (a : PSet) (per c : Nat) : Nat := if a.mode % 4 = 1 then per - c else min a.cmpb per

/-- R110: the commanded HS and LS states at step tau of a period of `per` steps. -/
def State.compared (s : State) (l : Nat) (a : PSet) (per tau : Nat) : Bool × Bool :=
  if a.mode % 4 = 0 then (false, false)
  else if a.mode % 4 = 3 then (a.mode.testBit 2, a.mode.testBit 3)
  else
    let q := (tau + a.phase % per) % per
    let c := s.cmpClamped l per a.cmpa
    let h := s.hsStart l per c
    (decide ((q + per - h) % per < c), decide ((q + 2 * per - h - c) % per < a.lsLen per c))

/-- R117: the set would have both switches on at once. -/
def State.wouldShoot (s : State) (l : Nat) (a : PSet) (per : Nat) : Bool :=
  if a.mode % 4 = 2 then decide (per < s.cmpClamped l per a.cmpa + min a.cmpb per)
  else if a.mode % 4 = 3 then a.mode.testBit 2 && a.mode.testBit 3 else false

/-- Step in progress of a leg's period. -/
def State.tauOf (s : State) (l : Nat) : Nat := (s.tk.now - (s.leg l).pstart) / uStep

/-! ### Precedence on one leg (R125, R126, R148, R193, Table 05-3) -/

/-- The latched safe pattern as commands; 3, never latched, is both off (Table 05-6). -/
def patCmd (p : Nat) : Bool × Bool := (decide (p = 2), decide (p = 1))

/-- The actuator of an LV leg. -/
def legAct (l : Nat) : Nat := (l - 28) / 3

/-- The leg belongs to an actuator in three-pin mode (R150). -/
def State.threePin (s : State) (l : Nat) : Bool := !isHvLeg l && bitOf (s.reg 0x1400C) (legAct l)

/-- The commutation table in force names the HS of this leg in the Hall state in force (R150). -/
def State.hsNamed (s : State) (l : Nat) : Bool :=
  let m := legAct l
  let st := Store.get (fun _ => 0) s.par.hall m
  let w := s.reg (0x14010 + 8 * m + (if (s.hallS m).dirAct then 4 else 0))
  decide (st ≠ 0) && decide (st ≠ 7) && decide (fld w (4 * st - 4) 2 = l - (28 + 3 * m))

/-- Commutation of three-pin mode (R150, R151, R234): the leg's commands from the Hall state and the U-leg's timer. -/
def State.commutated (s : State) (l tau : Nat) : Bool × Bool :=
  let m := legAct l
  let u := 28 + 3 * m
  let st := Store.get (fun _ => 0) s.par.hall m
  let act := (s.leg u).act
  if st = 0 ∨ st = 7 ∨ act.mode % 4 = 0 then (false, false)
  else
    let w := s.reg (0x14010 + 8 * m + (if (s.hallS m).dirAct then 4 else 0))
    let me := l - u
    (decide (fld w (4 * st - 4) 2 = me) && (s.compared u act (s.leg u).plen tau).1, decide (fld w (4 * st - 2) 2 = me))

/-- The span drives its safe pattern, or a Parapet reaction or a lost clock makes the leg drive it. -/
def State.legSafe (s : State) (l : Nat) : Bool :=
  decide (s.par.clockLost ≠ 0) || s.par.clkHold || s.kst.faultLine || s.vdt.hold.contains (Span.ofLeg l) ||
  s.cur.inSafe (Span.ofLeg l) || decide ((s.leg l).parEnd ≠ none)

/-- A span is DISABLED. -/
def Ctl.disabled (c : Ctl) : Span → Bool
  | .t0 => decide (c.tr0.st = .disabled)
  | .t1 => decide (c.tr1.st = .disabled)
  | .c => decide (c.cs.st = .disabled)
  | .q => decide (c.qs.st = .disabled)
  | .b => decide (c.bs.st = .disabled)
  | .a0 => decide ((c.actS 0).st = .disabled)
  | .a1 => decide ((c.actS 1).st = .disabled)
  | .a2 => decide ((c.actS 2).st = .disabled)
  | .a3 => decide ((c.actS 3).st = .disabled)

/-- The leg is off whatever pattern is latched: a DISABLED span under the fault line (R249), a standby span that the tie
unit gives up (R284). -/
def State.legOffOrder (s : State) (l : Nat) : Bool :=
  (s.kst.faultLine && s.cur.disabled (Span.ofLeg l)) || (!isHvLeg l && s.vdt.hold.contains (Span.ofLeg l))

/-- The commands of the Truss to the piers of leg l at step tau: off on a leg that is not enabled or that its span does not use
(R23, R29, R32), then the crowbar of R193, then Table 05-3 from the top. -/
def State.legCommand (s : State) (l tau : Nat) : Bool × Bool :=
  let g := s.leg l
  if !s.legEnabled l || !s.legUsed l then (false, false)
  else if s.cHw.crowbar && decide (Span.ofLeg l = .c) then (false, s.legUsable l)
  else if s.legOffOrder l then (false, false)
  else if s.legSafe l then patCmd g.safePat
  else if g.unprot || g.tripLatch || g.stBlock then (false, false)
  else
    let a := if s.threePin l then s.commutated l tau else s.compared l g.act g.plen tau
    (!g.blkHs && (g.fwHs || a.1), !g.blkLs && (g.fwLs || a.2))

/-! ### The overcurrent blanking window (R121, R122) -/

/-- The window in ns × 3,072 and whether the clamp changed it. -/
def State.blankWindow (s : State) (l : Nat) : Nat × Bool :=
  let w := s.reg (0xC000 + 0x200 * l)
  if bitOf w 6 then
    let counts := ((s.leg (fld w 13 6)).act.cmpb + 127) / 128
    let win := counts * 128 * uStep
    let c := max (20 * uNs) (min win (1200 * uNs))
    (c, decide (c ≠ win))
  else (fld w 7 6 * 20 * uNs, false)

/-- A gate transition at an instant starts the window. -/
def State.blankFrom (s : State) (l : Nat) (t : Instant) : State :=
  let (win, clamped) := s.blankWindow l
  s.updLeg l (fun g => { g with blanking := true, blankEnd := max g.blankEnd (t + win),
                                blankClamp := g.blankClamp || clamped })

/-! ### Piers (R130, R138, R139) -/

/-- The pier of a switch. -/
def LegS.pier (g : LegS) : Switch → PierS
  | .hs => g.hs
  | .ls => g.ls
/-- Change the pier of a switch. -/
def LegS.updPier (g : LegS) (x : Switch) (f : PierS → PierS) : LegS :=
  match x with
  | .hs => { g with hs := f g.hs }
  | .ls => { g with ls := f g.ls }
/-- The other switch of a leg. -/
def Switch.other : Switch → Switch
  | .hs => .ls
  | .ls => .hs

/-- DT of a leg, the voted value (R130, R131). -/
def State.deadTime (s : State) (l : Nat) : Nat := (s.leg l).voted * 5 * uNs

/-- The blanking of the desaturation comparators of a leg, BLANK × 10 ns (R138), and the plateau of its soft turn-off,
SOFT_T × 50 ns (R139; 0 on an LV leg, whose register reads 0). -/
def State.desatBlanking (s : State) (l : Nat) : Nat := fld (s.reg (0x1100C + 0x100 * l)) 5 7 * 10 * uNs
/-- SOFT_T. -/
def State.softTime (s : State) (l : Nat) : Nat := fld (s.reg (0x1100C + 0x100 * l)) 16 5 * 50 * uNs
/-- SOFT_LVL in V: the level of the gate during the plateau (R139). -/
def State.softLevel (s : State) (l : Nat) : Nat := 7 + fld (s.reg (0x1100C + 0x100 * l)) 12 3

/-- The gate of a switch rises at an instant: desaturation blanking of an HV switch and the overcurrent window start. -/
def State.gateOn (s : State) (l : Nat) (x : Switch) (t : Instant) : State :=
  (s.updLeg l (fun g => g.updPier x (fun p => { p with
    gate := true, onAt := none, desatBlank := isHvLeg l, desatEnd := t + s.desatBlanking l }))).blankFrom l t

/-- The gate of a switch falls at an instant. -/
def State.gateOff (s : State) (l : Nat) (x : Switch) (t : Instant) : State :=
  (s.updLeg l (fun g => g.updPier x (fun p =>
    { p with gate := false, onAt := none, desatBlank := false, soft := false, offDone := t }))).blankFrom l t

/-- Start the delayed turn-on of a switch that is commanded on (R130): not while the piers hold it off or a soft
turn-off of the leg is under way. -/
def State.arm (s : State) (l : Nat) (x : Switch) : State :=
  let g := s.leg l
  let p := g.pier x
  let y := g.pier (Switch.other x)
  if p.cmd && !p.gate && decide (p.onAt = none) && !s.pierHeld l x && !y.gate then
    let t := max s.tk.now (y.offDone + s.deadTime l)
    if t ≤ s.tk.now then s.gateOn l x s.tk.now
    else s.updLeg l (fun g => g.updPier x (fun p => { p with onAt := some t }))
  else s

/-- The command of a switch falls: a gate that is on goes off without delay unless a soft turn-off is under way; a turn-on
still to come, by the dead time or behind the partner's soft turn-off, is a swallowed pulse. -/
def State.cmdOff (s : State) (l : Nat) (x : Switch) : State :=
  let p := (s.leg l).pier x
  let y := (s.leg l).pier (Switch.other x)
  if p.cmd then
    let s1 := s.updLeg l (fun g => g.updPier x (fun p => { p with cmd := false }))
    if p.gate then (if p.soft then s1 else s1.gateOff l x s.tk.now)
    else
      let s2 := if p.onAt = none && !(y.soft && !s.pierHeld l x) then s1 else s1.updLeg l (fun g => { g with swallow := true, swallowCount := satInc g.swallowCount max16 })
      s2.updLeg l (fun g => g.updPier x (fun p => { p with onAt := none, offDone := s.tk.now }))
  else s

/-- A switch that the piers hold off is off at once (R134, R140); a soft turn-off under way goes on. -/
def State.holdOff (s : State) (l : Nat) (x : Switch) : State :=
  let p := (s.leg l).pier x
  if s.pierHeld l x then
    let s1 := s.updLeg l (fun g => g.updPier x (fun p => { p with onAt := none }))
    if p.gate ∧ ¬ p.soft then s1.gateOff l x s.tk.now else s1
  else s

/-- Give a switch its command. -/
def State.command (s : State) (l : Nat) (x : Switch) (on : Bool) : State :=
  if on then (s.updLeg l (fun g => g.updPier x (fun p => { p with cmd := true }))).arm l x else s.cmdOff l x

/-- A delayed turn-on whose instant has passed has happened. -/
def State.settleGate (s : State) (l : Nat) (x : Switch) : State :=
  match ((s.leg l).pier x).onAt with
  | some t => if t < s.tk.now ∧ ¬ s.pierHeld l x then s.gateOn l x t else s
  | none => s

/-- Apply a leg's commands at the instant reached; falling commands first. -/
def State.driveLeg (s : State) (l : Nat) : State :=
  let (h, w) := s.legCommand l (s.tauOf l)
  let s := s.updLeg l (fun g => { g with safe := s.legSafe l })
  let s := (s.settleGate l .hs).settleGate l .ls
  let s := (s.holdOff l .hs).holdOff l .ls
  let s := if h then s else s.command l .hs false
  let s := if w then s else s.command l .ls false
  let s := if h then s.command l .hs true else s
  if w then s.command l .ls true else s

/-- Apply the commands of a leg, and of the legs whose commands follow its timer in three-pin mode (R150). -/
def State.drive (s : State) (l : Nat) : State :=
  if s.threePin l then
    let u := 28 + 3 * legAct l
    ((s.driveLeg u).driveLeg (u + 1)).driveLeg (u + 2)
  else s.driveLeg l

/-- Apply the commands of several legs. -/
def State.driveAll (s : State) (ls : List Nat) : State := ls.foldl State.driveLeg s

/-- Soft turn-off of a switch begins (R139): its gate stays at the intermediate level until the plateau ends, SOFT_T later. -/
def State.softOff (s : State) (l : Nat) (x : Switch) : State :=
  let p := (s.leg l).pier x
  if p.gate ∧ ¬ p.soft then
    s.updLeg l (fun g => { g.updPier x (fun p => { p with soft := true, softEnd := s.tk.now + s.softTime l }) with softOff := true })
  else s

/-- Soft turn-off of a switch that is gated and has lost its command. -/
def State.softIfOff (s : State) (l : Nat) (x : Switch) (on : Bool) : State := if on then s else s.softOff l x

/-- Apply the commands of a leg in a reaction of the Parapet: the turn-offs it starts are soft (R139). -/
def State.driveSoft (s : State) (l : Nat) : State :=
  let (h, w) := s.legCommand l (s.tauOf l)
  ((s.softIfOff l .hs h).softIfOff l .ls w).driveLeg l

/-- The instants of a leg after a step of the count (R298): its period is cut off, what the piers have in progress goes on. -/
def LegS.moved (mv : Instant → Instant) (g : LegS) : LegS :=
  let pier := fun (p : PierS) => { p with
    onAt := p.onAt.map mv, desatEnd := mv p.desatEnd, softEnd := mv p.softEnd, offDone := mv p.offDone }
  { (g.updPier .hs pier).updPier .ls pier with plen := 0, blanking := false, bootAt := mv g.bootAt }

/-- Every leg of the deck. -/
def allLegs : List Nat := List.range 40

/-! ### Trip lines (R119, R120, R137, R141, R143) -/

/-- The switch whose on-pulse begins next within the period under the active set, after step tau (R119). -/
def State.nextPulse (s : State) (l tau : Nat) : Option Switch :=
  let g := s.leg l
  let a := g.act
  let per := g.plen
  if a.mode % 4 = 0 ∨ a.mode % 4 = 3 ∨ per = 0 then none
  else
    let c := s.cmpClamped l per a.cmpa
    let h := s.hsStart l per c
    let start := fun (q : Nat) => (q + per - a.phase % per) % per
    let hs := start h
    let ls := start ((h + c) % per)
    let hsIn := decide (0 < c) && decide (tau < hs)
    let lsIn := decide (0 < a.lsLen per c) && decide (tau < ls)
    if hsIn && (!lsIn || decide (hs ≤ ls)) then some .hs else if lsIn then some .ls else none

/-- The switch that a trip acts on: the one that the Truss commands on at this instant, else the one whose pulse begins next
(R119). -/
def State.tripSwitch (s : State) (l : Nat) : Option Switch :=
  let (h, w) := s.legCommand l (s.tauOf l)
  if h then some .hs else if w then some .ls else s.nextPulse l (s.tauOf l)

/-- Count a trip period, and latch the leg at TRIP_N within WIN ticks (R120). -/
def State.countTrip (s : State) (l : Nat) : State :=
  let g := s.leg l
  if g.tripCounted then s
  else
    let n := s.tk.count
    let win := fld (s.reg (0xC004 + 0x200 * l)) 0 16
    let ticks := n :: g.tripTicks.filter (fun m => decide (n < m + win))
    let s1 := s.updLeg l (fun g => { g with tripCounted := true, tripTotal := satInc g.tripTotal max16, tripTicks := ticks })
    if fld (s.reg (0xC000 + 0x200 * l)) 20 8 ≤ ticks.length ∧ ¬ g.tripLatch then
      (s1.updLeg l (fun g => { g with tripLatch := true })).raise 5 (s.legAddr l) 0 ticks.length 0
    else s1

/-- Block a switch to the end of the period; in COMP the other one is commanded on (R119). -/
def LegS.block (g : LegS) (x : Switch) : LegS :=
  let comp := decide (g.act.mode % 4 = 1)
  match x with
  | .hs => { g with blkHs := true, fwHs := false, fwLs := g.fwLs || comp }
  | .ls => { g with blkLs := true, fwLs := false, fwHs := g.fwHs || comp }

/-- A trip line that is asserted and not blanked acts (R119, R120). The turn-off of an SC trip is soft (R141), of the switch
whose command falls: a cause of higher rank in Table 05-3 that holds the switch on keeps its gate, and the trip counts
(R126). Where no switch is on and no pulse is to begin the line still counts a trip period (DESIGN CHOICE, log 112). -/
def State.tripLeg (s : State) (l : Nat) (soft : Bool) : State :=
  let s1 := match s.tripSwitch l with
    | some x => s.updLeg l (fun g => g.block x)
    | none => s
  let s2 := s1.countTrip l
  if soft then s2.driveSoft l else s2.drive l

/-- A COMP period that a trip has turned into freewheeling: the other switch stays commanded on for the rest of the period,
and a standing line does not act again (R119, log 69). -/
def LegS.freewheels (g : LegS) : Bool := g.fwHs || g.fwLs
/-- The lines of a leg: either unit asserts them (R137). -/
def LegS.ocLine (g : LegS) : Bool := g.ocA || g.ocB
/-- The SC line. -/
def LegS.scLine (g : LegS) : Bool := g.scA || g.scB
/-- The overcurrent line is blanked at the instant reached (R121). -/
def State.ocBlanked (s : State) (l : Nat) : Bool := (s.leg l).blanking && decide (s.tk.now < (s.leg l).blankEnd)

/-- The OC line acts (R119). -/
def State.ocAct (s : State) (l : Nat) : State :=
  if (s.leg l).freewheels then s else s.tripLeg l false

/-- A leg reports a short: with a second leg of its span in the same tick every leg of the span drives its safe pattern
(R143). -/
def State.reportShort (s : State) (l : Nat) : State :=
  let x := Span.ofLeg l
  let s1 := s.updLeg l (fun g => { g with shortNow := true })
  let shorts := x.legs.filter (fun k => (s1.leg k).shortNow)
  let fresh := !(s.leg l).shortNow
  if fresh ∧ 2 ≤ shorts.length then
    let s2 := s1.updLegs x.legs (fun _ g => { g with parEnd := some (s.tk.count + 2) })
    let s3 := if shorts.length = 2 then
        { s2 with par := { s2.par with spanSc := addSet x s2.par.spanSc } }.raise 2 (s.spanAddr x) 0
          ((shorts.map (fun k => 2 ^ (k - x.legRange.1))).foldl (· + ·) 0 : Nat) 0
      else s2
    x.legs.foldl State.driveSoft s3
  else s1

/-- The SC line acts (R141): the pulse ends by soft turn-off, a trip period counts, E001 is raised at most once per period,
and the leg reports a short; while the crowbar is latched an SC trip on C causes no turn-off (R193). -/
def State.scAct (s : State) (l : Nat) : State :=
  let crow := s.cHw.crowbar && decide (Span.ofLeg l = .c)
  let first := !(s.leg l).scRaised
  let s1 := if crow || (s.leg l).freewheels then s.countTrip l else s.tripLeg l true
  let s2 := s1.updLeg l (fun g => { g with scTrip := true, scRaised := true })
  let s3 := if first then s2.raise 1 (s.legAddr l) 0 0 0 else s2
  s3.reportShort l

/-- The lines are level-sensitive (R119): one that stands when a period or a pulse begins acts then, the overcurrent line
where it is not blanked. -/
def State.lineAct (s : State) (l : Nat) : State :=
  let s1 := if (s.leg l).scLine then s.scAct l else s
  if (s.leg l).ocLine && !s1.ocBlanked l then s1.ocAct l else s1

/-! ### Rows -/

/-- The interlock at a period start (R117, R118). -/
def State.interlock (s : State) (l : Nat) : State :=
  let g := s.leg l
  let x := Span.ofLeg l
  let bad := s.wouldShoot l g.act g.plen
  if bad && !g.stCounted then
    let s1 := s.updLeg l (fun g => { g with stBlock := true, stCounted := true, stCount := satInc g.stCount max32 })
    let s2 := s1.raise 3 (s.legAddr l) 0 0 0
    if s.cur.inSafe x || x.legs.any (fun k => (s.leg k).stTrip) then s2
    else
      let n := s.tk.count
      let win := n :: ((Store.get (fun _ => []) s.par.stWindow x.code).filter (fun m => decide (n < m + 1000)))
      if win.length < 4 then { s2 with par := { s2.par with stWindow := Store.put (fun _ => []) s2.par.stWindow x.code win } }
      else
        let s3 := (s2.updLeg l (fun g => { g with stTrip := true })).raise 4 (s.spanAddr x) l 0 0
        { s3 with par := { s3.par with stWindow := Store.put (fun _ => []) s3.par.stWindow x.code [] } }
  else s.updLeg l (fun g => { g with stBlock := bad })

/-- PERIOD_START (R113, R117): the period of the leg that is due begins; at a pending reload the active set takes the
shadow set; a trip line that still stands acts in the new period (R119). The first period after a start has number 0 in
PSEQ.CUR (DESIGN CHOICE, log 113). No effect where no period of the leg is due in the tick in progress. -/
def execPeriodStart (l : Leg) (s0 : State) : Host.Outcome State Fault Refusal :=
  match s0.periodDue l.val with
  | none => .next s0
  | some (t, len, idx) =>
    let s := { s0 with tk := { s0.tk with now := max s0.tk.now t } }
    let s := s.updLeg l.val (fun g =>
      let cur := if g.plen = 0 then g.cur else (g.cur + 1) % 65536
      let take := g.pending
      { g with
        plen := len, pstart := t, pidx := idx, cur := cur, act := if take then g.sh else g.act, pending := false,
        xfer := if take then cur else g.xfer, stCounted := g.stCounted && !take, realign := false, blkHs := false,
        blkLs := false, fwHs := false, fwLs := false, tripCounted := false, scRaised := false, centred := false })
    let s := if s.threePin l.val ∧ (l.val - 28) % 3 = 0 ∧ (s0.leg l.val).pending then
        s.updHall (legAct l.val) (fun h => { h with dirAct := (s.cur.actS (legAct l.val)).dir })
      else s
    .next (((s.interlock l.val).lineAct l.val).drive l.val)

/-- SWITCHING_EDGE (R110): the counter of the leg reaches step tau of its period, and the commands of that step are
given; a trip line that stands ends a pulse that would begin (R119). -/
def execSwitchingEdge (l : Leg) (tau : Nat) (s : State) : Host.Outcome State Fault Refusal :=
  if tau < (s.leg l.val).plen then
    .next (((({ s with tk := { s.tk with now := max s.tk.now ((s.leg l.val).pstart + tau * uStep) } }).lineAct l.val)).drive l.val)
  else .next s

/-- GATE_ON_EDGE (R130): the dead-time delay of a switch that is to turn on expires. -/
def execGateOnEdge (l : Leg) (x : Switch) (s : State) : Host.Outcome State Fault Refusal :=
  match ((s.leg l.val).pier x).onAt with
  | some t =>
    let s := { s with tk := { s.tk with now := max s.tk.now t } }
    .next (if s.pierHeld l.val x then s.holdOff l.val x else s.gateOn l.val x t)
  | none => .next s

/-- SOFT_OFF_PLATEAU_END (R130, R139): SOFT_T after the soft turn-off began the gate goes to VNEG, and the partner's dead time
counts from then; sent before then it does nothing (log 8). -/
def execSoftOffPlateauEnd (l : Leg) (x : Switch) (ofs : Nat) (s0 : State) : Host.Outcome State Fault Refusal :=
  let p := (s0.leg l.val).pier x
  let s := s0.goto p.softEnd
  if p.soft && (s0.at ofs).passed p.softEnd then
    .next (((s.gateOff l.val x s.tk.now).arm l.val .hs).arm l.val .ls)
  else .next s0

/-! ### Write sets and direct mode (R111 to R115) -/

/-- The offset of a write-set register. -/
def WReg.offset : WReg → Nat
  | .per => 0x0C | .cmpa => 0x10 | .cmpb => 0x14 | .phase => 0x18 | .mode => 0x1C

/-- Put a value into a set; reserved bits are dropped. -/
def PSet.put (a : PSet) (r : WReg) (v : Nat) : PSet :=
  match r with
  | .per => { a with per := v % 2 ^ 27 }
  | .cmpa => { a with cmpa := v % 2 ^ 27 }
  | .cmpb => { a with cmpb := v % 2 ^ 27 }
  | .phase => { a with phase := v % 2 ^ 27 }
  | .mode => { a with mode := v % 16 }

/-- The write set as its registers show it: a write of the cutover window stands in the register at once, and belongs to the
tick that follows (R114, R115). -/
def LegS.shownSet (g : LegS) : PSet := g.late.foldl (fun a p => a.put p.1 p.2) g.ws

/-- The cutover instant of the boundary that ends the tick: 64 ns before it (R114). -/
def State.pastCutover (s : State) (ofs : Nat) : Bool := decide (s.pu ≤ ofs + 64 * uNs)

/-- Record the tick to which a host write was assigned (R114). -/
def State.assigned (s : State) (l : Nat) (late : Bool) : State :=
  s.updLeg l (fun g => { g with
    wrTick := (s.tk.count + b2n late) % 65536, cut := late, cutover := g.cutover || late })

/-- DIRECT_WRITE (R114, R115): before the cutover instant the write belongs to the tick in progress, at or after it to the
next; on a leg that is not in direct mode it is an access violation. -/
def execDirectWrite (l : Leg) (r : WReg) (v : Word) (ofs : Nat) (s0 : State) : Host.Outcome State Fault Refusal :=
  let s := s0.at ofs
  if s.start.abut || !s.legDirect l.val then .next (s.accessViolation (0xC000 + 0x200 * l.val + WReg.offset r))
  else
    let late := s.pastCutover ofs
    .next ((s.assigned l.val late).updLeg l.val (fun g =>
      if late then { g with late := g.late ++ [(r, v.toNat)] } else { g with ws := g.ws.put r v.toNat, wsWritten := true }))

/-- DIRECT_COMMIT (R115): COMMIT commits the leg's span in the tick to which the write is assigned. -/
def execDirectCommit (l : Leg) (ofs : Nat) (s0 : State) : Host.Outcome State Fault Refusal :=
  let s := s0.at ofs
  let x := Span.ofLeg l.val
  if s.start.abut || !s.legDirect l.val then .next (s.accessViolation (0xC044 + 0x200 * l.val))
  else
    let late := s.pastCutover ofs
    let s := s.assigned l.val late
    .next (if late then { s with par := { s.par with directLate := addSet x s.par.directLate } }
           else { s with par := { s.par with directCommit := addSet x s.par.directCommit } })

/-- Move the write set of one leg at a boundary (R112): its commit, its PER, the lone writes. The second part says what
E050 names: 0 nothing, 1 period, 2 uncommitted. -/
def LegS.moveSet (g : LegS) (commit : Bool) (nominal : Nat) : LegS × Nat :=
  if commit then
    if g.ws.per = nominal then ({ g with sh := g.ws, pending := true, wsWritten := false }, 0)
    else ({ g with ws := g.sh, uncommitted := true, uncCount := satInc g.uncCount max32, wsWritten := false }, 1)
  else if g.wsWritten then
    ({ g with ws := g.sh, uncommitted := true, uncCount := satInc g.uncCount max32, wsWritten := false }, 2)
  else (g, 0)

/-- The write set of a leg reverts: the tick it was written in overran or the fault line was asserted in it. No E050 is raised,
and UNCOMMITTED and UNC_COUNT are left (R60, R112, R249; DESIGN CHOICE, log 114). -/
def LegS.revert (g : LegS) : LegS := if g.wsWritten then { g with ws := g.sh, wsWritten := false } else g

/-- The write sets of a span at the boundary that makes `posted` current (R112, R115). -/
def State.moveSpan (s : State) (posted : Ctl) (x : Span) : State :=
  let step := fun (acc : State × List Nat × List Nat) (l : Nat) =>
    let (t, per, unc) := acc
    let direct := t.legDirect l
    let commit := if direct then t.par.directCommit.contains x else posted.commit.contains x
    let g0 := t.leg l
    let g1 := if !direct && commit then { g0 with ws := Store.get (fun _ => PSet.zero) posted.sets l } else g0
    let (g2, why) := LegS.moveSet g1 commit (t.nominal l)
    (t.updLeg l (fun _ => g2), if why = 1 then per ++ [l] else per, if why = 2 then unc ++ [l] else unc)
  let (t, per, unc) := x.legs.foldl step (s, [], [])
  let mask := fun (ls : List Nat) => ((ls.map (fun l => 2 ^ (l - x.legRange.1))).foldl (· + ·) 0 : Nat)
  if per ≠ [] then t.raise 50 (s.spanAddr x) 1 (mask per) (mask unc)
  else if unc ≠ [] then t.raise 50 (s.spanAddr x) 2 (mask unc) 0 else t

/-- Every write set moves, or reverts where no commit of the tick is taken, and the writes of the cutover window become writes
of the tick that opens (R60, R112, R114, R249). -/
def State.moveSets (s : State) (posted : Ctl) (revert : Bool) : State :=
  let t := if revert then s.updLegs allLegs (fun _ g => g.revert)
    else Span.all.foldl (fun t x => State.moveSpan t posted x) s
  let t := t.updLegs allLegs (fun _ g =>
    if g.late = [] then g
    else { g with ws := g.late.foldl (fun a p => a.put p.1 p.2) g.ws, late := [], wsWritten := true })
  { t with par := { t.par with directCommit := t.par.directLate, directLate := [] } }

/-- Latch the posted safe patterns of the spans that committed (R124). -/
def State.latchPatterns (s : State) (posted : Ctl) : State :=
  s.updLegs (allLegs.filter (fun l => posted.commit.contains (Span.ofLeg l)))
    (fun l g => { g with safePat := Store.get (fun _ => 0) posted.pats l })

/-- The sync chain at a boundary (R123): timers out by more than one count, and the first that got no marker. -/
def State.syncCheck (s : State) (out : List Nat) (lost : Option Nat) : State :=
  let fails := fun (l : Nat) => out.contains l || decide (lost = some l)
  let t := allLegs.foldl (fun t l =>
    if fails l then
      let run := (t.leg l).syncRun + 1
      (t.updLeg l (fun g => { g with syncErr := true, syncCount := satInc g.syncCount max32, realign := true, syncRun := run })).raise
        51 (s.legAddr l) (if run = 3 then 1 else 0) 0 0
    else if (t.leg l).syncRun = 0 then t else t.updLeg l (fun g => { g with syncRun := 0 })) s
  { t with par := { t.par with
      syncSpans := Span.all.filter (fun x => x.legs.any (fun l => decide (3 ≤ (t.leg l).syncRun))) } }

/-- The legs at a boundary, once the states are current: reactions that have handed over to the span's safe state end, the
legs whose period goes on or that are forced take their commands. -/
def State.boundaryLegs (s : State) (overrun : Bool) : State :=
  let n := s.tk.count
  let s := s.updLegs allLegs (fun _ g => { g with
    parEnd := (match g.parEnd with | some e => if e ≤ n ∧ ¬ overrun then none else some e | none => none),
    shortNow := false })
  s.driveAll (allLegs.filter (fun l => (s.periodDue l).isNone || s.legSafe l))

end Sys2Proof.Machine
end

