-- ==== Sys2Proof/Machine/Converter.lean ====
section
/-! DEFINITION. Converter span C (chapter 08): phases and their adding and shedding, voltage slew, demand limits, DPC and COT modulation, diode emulation, truncation, crowbar, sense-line faults, causes of SAFE and commands. -/
namespace Sys2Proof.Machine

/-! ### Configuration and measurements (Table 08-6, R179) -/

/-- A register of span C as a signal. -/
def State.cn (s : State) (o : Nat) : Int := s.spn .c o
/-- A bit field of SPN_C_CFG. -/
def State.cCfg (s : State) (lo len : Nat) : Nat := fld (s.spnW .c 0) lo len
/-- The engines of VLT (0), SLW (1) and I0 to I7 (2 to 9) (Table 08-3). -/
def State.cRole (s : State) (r : Nat) : Nat :=
  if r < 4 then fld (s.spnW .c 0x04) (8 * r) 7
  else if r < 8 then fld (s.spnW .c 0x08) (8 * (r - 4)) 7 else fld (s.spnW .c 0x0C) (8 * (r - 8)) 7
/-- i_k of phase k (R179). -/
def State.cI (s : State) (k : Nat) : Int := s.ai (24 + k)
/-- v_bat, the control sense. -/
def State.vBat (s : State) : Int := s.ai 32
/-- v_link at C. -/
def State.vLinkC (s : State) : Int := s.ai 35
/-- Phase k is usable: its leg is usable and carries no trip latch and no desaturation latch (R30, R189). -/
def State.cOk (s : State) (k : Nat) : Bool :=
  decide (k < s.cPhases) && s.snap.usable.contains (12 + k) && !s.snap.trip.contains (12 + k) && !s.snap.desat.contains (12 + k)
/-- Phase k of the span state. -/
def CSpanS.phase (x : CSpanS) (k : Nat) : CPhase := Store.get (fun _ => CPhase.init) x.ph k
/-- Change phase k. -/
def CSpanS.updPhase (x : CSpanS) (k : Nat) (f : CPhase → CPhase) : CSpanS :=
  { x with ph := Store.upd (fun _ => CPhase.init) x.ph k f }
/-- The active phases, ascending. -/
def CSpanS.active (x : CSpanS) : List Nat := (List.range 8).filter (fun k => (x.phase k).active)
/-- Phases that are active and not shedding: m of R189, n_cap of R185. -/
def CSpanS.held (x : CSpanS) : Nat := x.active.length - (match x.shed with | some _ => 1 | none => 0)
/-- LINK, BATT or CURRENT. -/
def CMode.running : CMode → Bool
  | .link => true | .batt => true | .current => true | _ => false
/-- A state whose legs are driven. -/
def CMode.driven : CMode → Bool
  | .bypass => true | m => m.running
/-- SPN_C_STATE.STATE. -/
def CMode.code : CMode → Nat
  | .disabled => 0 | .standby => 1 | .link => 2 | .batt => 3 | .current => 4 | .bypass => 5 | .safe => 6

/-- d_ff (R183): 0 while v_link is at or below 0. -/
def State.dff (s : State) : Int :=
  if 0 < s.vLinkC then clampI (one24 - rheQ (s.vBat * one24) s.vLinkC) 0 one24 else 0

/-- E058 causes, numbered by the model (notes/assumptions): 1 added, 2 shed, 3 shed cancelled, 4 phase lost, 5 bypass exit,
6 diode emulation entered, 7 left. -/
def State.e058 (s : State) (cause : Nat) (k : Int) : Note := .ev 58 (s.spanAddr .c) cause k 0

/-! ### Phases (R188, R189) -/

/-- The span with notes of what happened to its phases in the tick. -/
structure CStep where
  x : CSpanS
  notes : List Note
  deriving DecidableEq, Repr

/-- Add phase k at full weight with bal 0 and, for COT, d_ff as its previous duty. -/
def CStep.activate (c : CStep) (k ramp : Nat) (dff : Int) : CStep :=
  { c with x := c.x.updPhase k (fun _ => { active := true, ws := ramp, bal := 0, d := dff }) }

/-- No phase is active. -/
def CSpanS.clearPhases (x : CSpanS) : CSpanS := { x with ph := [], shed := none, shedCount := 0 }

/-- The phases on entry to a driven state: the lowest-numbered usable ones, N_INIT or n_fix of them (R188, Table 08-7). -/
def State.cEnter (s : State) (c : CStep) : CStep :=
  let n := if c.x.nFix = 0 then s.cCfg 8 4 else c.x.nFix
  let ks := ((List.range 8).filter (fun k => s.cOk k)).take n
  ks.foldl (fun c k => c.activate k (s.cCfg 12 4) s.dff) { c with x := c.x.clearPhases }

/-- A phase that is lost leaves at once (R189). -/
def State.cLose (s : State) (c : CStep) : CStep :=
  c.x.active.foldl (fun c k =>
    if s.cOk k then c
    else { x := { (c.x.updPhase k (fun _ => CPhase.init)) with shed := if c.x.shed = some k then none else c.x.shed },
           notes := c.notes ++ [s.e058 4 k] }) c

/-- Cancel a shed in progress (R189 step 1). -/
def State.cCancel (s : State) (c : CStep) : CStep :=
  match c.x.shed with
  | none => c
  | some k =>
    { x := { (c.x.updPhase k (fun p => { p with ws := s.cCfg 12 4 })) with
             shed := none, shedCount := 0, cancels := satInc c.x.cancels 255 },
      notes := c.notes ++ [s.e058 3 k, .stick .cShedCancel] }

/-- The lowest usable inactive phase. -/
def State.cFree (s : State) (x : CSpanS) : Option Nat :=
  ((List.range 8).filter (fun k => s.cOk k && !(x.phase k).active)).head?

/-- Add the lowest usable inactive phase (R189 step 2). -/
def State.cAdd (s : State) (c : CStep) : CStep :=
  match s.cFree c.x with
  | none => c
  | some k =>
    let c1 := c.activate k (s.cCfg 12 4) s.dff
    { x := { c1.x with adds := satInc c1.x.adds 255, shedCount := 0 }, notes := c1.notes ++ [s.e058 1 k] }

/-- Start shedding the highest active phase (R189 step 3). -/
def State.cShed (s : State) (c : CStep) : CStep :=
  match c.x.active.getLast? with
  | none => c
  | some k =>
    { x := { (c.x.updPhase k (fun p => { p with ws := s.cCfg 12 4 - 1 })) with shed := some k, shedCount := 0 },
      notes := c.notes ++ [s.e058 2 k] }

/-- Carry a shed on: the weight steps down, and after 0 the phase leaves (R189 step 3). -/
def State.cShedOn (s : State) (c : CStep) (k : Nat) : CStep :=
  if (c.x.phase k).ws = 0 then
    { x := { (c.x.updPhase k (fun _ => CPhase.init)) with shed := none, sheds := satInc c.x.sheds 255 },
      notes := c.notes ++ [s.e058 2 k] }
  else { c with x := c.x.updPhase k (fun p => { p with ws := p.ws - 1 }) }

/-- Add missing phases of a fixed count (R189). -/
def State.cFill (s : State) : Nat → CStep → CStep
  | 0, c => c
  | n + 1, c => if c.x.held < c.x.nFix then s.cFill n (s.cAdd c) else c

/-- Adding and shedding in LINK, BATT and CURRENT (R189). `idem` is the demand of the tick. -/
def State.cAddShed (s : State) (c : CStep) (idem : Int) : CStep :=
  let m := c.x.held
  let iph := s.cn 0x20
  let big := absI idem * 65536
  let add := c.x.auto && decide ((m : Int) * (fld (s.spnW .c 0x14) 0 16 : Nat) * iph < big) && decide (m < s.cPhases) &&
    (s.cFree c.x).isSome
  if add then (match c.x.shed with | some _ => s.cCancel c | none => s.cAdd c)
  else match c.x.shed with
    | some k => s.cShedOn c k
    | none =>
      if c.x.auto then
        let below := decide (big < ((m : Int) - 1) * (fld (s.spnW .c 0x14) 16 16 : Nat) * iph) && decide (s.cCfg 4 4 < m)
        let n := if below then c.x.shedCount + 1 else 0
        if below && decide (s.cCfg 16 8 ≤ n) then s.cShed c else { c with x := { c.x with shedCount := n } }
      else if 0 < c.x.nFix ∧ c.x.nFix < m then s.cShed c else c

/-- The phases of the tick. -/
def State.cPhaseStep (s : State) (was : CMode) (x : CSpanS) (idem : Int) : CStep :=
  let c : CStep := { x := x, notes := [] }
  if !x.st.driven then { c with x := x.clearPhases }
  else
    let c1 := if was.driven then s.cLose c else s.cEnter c
    let c2 := if !c1.x.auto && decide (0 < c1.x.nFix) then s.cFill 8 c1 else c1
    if x.st.running then s.cAddShed c2 idem else c2

/-! ### The tick before the engines -/

/-- What the first part of span C's compute leaves for the second. -/
structure CPre where
  x : CSpanS
  notes : List Note
  post : SpanPost
  dff : Int
  /-- Demand of the tick, sum of the active currents, share of each phase, limits. -/
  idem : Int
  isum : Int
  ihi : Int
  ilo : Int
  entry : Bool
  deriving DecidableEq, Repr

/-- The measured regulated voltage (R183, R184): v_link in LINK, v_bat in BATT. -/
def State.cV (s : State) (m : CMode) : Int := if m = .link then s.vLinkC else s.vBat

/-- Share of a phase (R186). -/
def State.cShare (s : State) (x : CSpanS) (idem : Int) (k : Nat) : Int :=
  let sum := x.active.foldl (fun a k => a + (x.phase k).ws) 0
  if (x.phase k).active && decide (0 < sum) then minI (rheQ (idem * ((x.phase k).ws : Int)) sum) (s.cn 0x20) else 0

/-- i_hi or i_lo (R185). -/
def State.cLimit (s : State) (o ncap : Nat) : Int :=
  mulc (minI (minI (s.cn o) ((ncap : Int) * s.cn 0x20)) (quot456 s.image.pC s.vBat)) s.snap.fcoolC

/-- Diode emulation (R190): entered after 32 ticks below DE_ENTER, left in the first tick at or above DE_EXIT. -/
def State.cDiode (s : State) (c : CStep) (idem : Int) : CStep :=
  let x := c.x
  let n : Int := (x.active.length : Nat)
  let big := absI idem * 65536
  let iph := s.cn 0x20
  let low := decide (big < n * (fld (s.spnW .c 0x18) 0 16 : Nat) * iph)
  let high := decide (n * (fld (s.spnW .c 0x18) 16 16 : Nat) * iph ≤ big)
  let run := if s.cCfg 0 1 = 1 && x.st.running && low then min (x.deRun + 1) 32 else 0
  let de := s.cCfg 0 1 = 1 && x.st.running && (if x.de then !high else decide (run = 32))
  { x := { x with deRun := run, de := de, deHs := decide (0 ≤ idem) },
    notes := c.notes ++ (if de && !x.de then [s.e058 6 0] else if x.de && !de then [s.e058 7 0] else []) }

/-- The first part of the compute (R183 to R186, R189, R190). `idem` is the demand in force at boundary n. -/
def State.cPre (s : State) (prev : Ctl) (idem : Int) : CPre :=
  let x0 := s.stage.cs
  let was := prev.cs.st
  let entry := x0.st.running && decide (x0.st ≠ was)
  let c1 := s.cPhaseStep was x0 idem
  let c2 := s.cDiode c1 idem
  let x1 := c2.x
  let dff := s.dff
  let v := s.cV x1.st
  let volt := decide (x1.st = .link) || decide (x1.st = .batt)
  let vprev := if entry then v else x1.vref
  let step := if volt then clampI (x1.vtgt - vprev) (-(s.cn 0x24)) (s.cn 0x24) else 0
  let vref := if volt then vprev + step else x1.vref
  let slew := volt && decide (vref ≠ x1.vtgt)
  let sig' : Int := if x1.st = .batt then -1 else 1
  let vold := match x1.vPrev with
    | some o => if x1.st = .link then o.1 else o.2
    | none => v
  let isum := x1.active.foldl (fun a k => a + s.cI k) 0
  let ihi := s.cLimit 0x2C x1.held
  let ilo := s.cLimit 0x28 x1.held
  let cot := decide (5 ≤ x1.active.length)
  let x2 := { x1 with vref := vref, slewing := slew, cot := cot, vPrev := some (s.vLinkC, s.vBat),
                      modChg := if x1.st.driven && was.driven && decide (cot ≠ x1.cot) then satInc x1.modChg 255 else x1.modChg }
  let track : Int := match x2.st with | .current => x2.itgt | .bypass => s.ai 34 | _ => 0
  let refs := [if volt then sat32 (sig' * vref) else 0] ++ (List.range 8).map (fun k => s.cShare x2 idem k) ++ [step]
  let dOld := fun (k : Nat) => if entry || !x2.st.running || !(x2.phase k).active then dff else (x2.phase k).d
  let meas := [if volt then sat32 (sig' * v + mulc (s.cn 0x44) (isum - idem)) else 0, mulc (s.cn 0x48) step] ++
    (List.range 8).map (fun k => s.cI k) ++ [dff] ++ (List.range 8).map dOld ++
    [if volt then sat32 (sig' * (v - vold)) else 0, track]
  let live := decide (x2.st ≠ .disabled) && decide (x2.st ≠ .safe)
  let hi := s.unshared .c ihi
  let lo := -(s.unshared .c ilo)
  let vlt := if volt then EngMode.run else if live then .track else .idle
  let slw := if volt && slew then EngMode.run else if live then .track else .idle
  let im := fun (k : Nat) =>
    if !live then EngMode.idle else if x2.st.running && (x2.phase k).active && !cot then .run else .track
  let eng := postEng (s.cRole 0) vlt lo hi ++ postEng (s.cRole 1) slw lo hi ++
    (List.range 8).flatMap (fun k => postEng (s.cRole (2 + k)) (im k) 0 one24)
  { x := x2, notes := c2.notes, post := { refs := refs, meas := meas, eng := eng }, dff := dff, idem := idem, isum := isum,
    ihi := hi, ilo := -lo, entry := entry }

/-! ### After the engines -/

/-- bal_k and d_k of the active phases, and dc (R186). -/
def State.cDuty (s : State) (now : Ctl) (p : CPre) : CSpanS :=
  let x := p.x
  let dc0 := if p.entry then p.dff else x.dc
  if !x.st.running then { x with dc := p.dff }
  else if x.cot then
    let dc := p.dff + mulc (p.idem - p.isum) (s.cn 0x38)
    let y := x.active.foldl (fun (y : CSpanS) k =>
      let ph := x.phase k
      let b0 := if p.entry then 0 else ph.bal
      let bal := clampI (b0 + mulc (s.cShare x p.idem k - s.cI k) (s.cn 0x3C)) (-(s.cn 0x40)) (s.cn 0x40)
      let d := p.dff + rheQ ((dc - p.dff) * (ph.ws : Int)) (max 1 (s.cCfg 12 4)) + bal
      y.updPhase k (fun q => { q with bal := bal, d := clampI d 0 one24 })) x
    { y with dc := dc }
  else
    let y := x.active.foldl (fun (y : CSpanS) k =>
      let d := s.roleOut now (s.cRole (2 + k))
      y.updPhase k (fun q => { q with bal := d - dc0, d := clampI d 0 one24 })) x
    { y with dc := dc0 }

/-- PHASE of the j-th of n active phases (R188). -/
def State.cPhaseOfs (s : State) (l j n : Nat) : Nat :=
  let per := s.nominal l
  if per = 0 ∨ n = 0 then 0 else (j * per / n + fld (s.spnW .c 0x10) 0 16 * per / (n * 65536)) % per

/-- The write set of phase k (R186, R187, R190). In diode emulation CMPB is what the limited on-time of HS leaves of the period, so
that R117 never blocks it. -/
def State.cSet (s : State) (x : CSpanS) (k : Nat) : PSet :=
  let l := 12 + k
  let per := s.nominal l
  let n := x.active.length
  let j := (x.active.filter (fun i => decide (i < k))).length
  if (x.phase k).active && x.st.driven then
    let ph := s.cPhaseOfs l j n
    if x.st = .bypass then { per := per, cmpa := per, cmpb := 0, phase := ph, mode := 1 }
    else
      let c := ((per : Int) - rhe ((x.phase k).d * (per : Int)) 24).toNat
      if x.de then { per := per, cmpa := c, cmpb := per - s.cmpClamped l per c, phase := ph, mode := 2 }
      else { per := per, cmpa := c, cmpb := 0, phase := ph, mode := 1 }
  else { PSet.zero with per := per }

/-- The second part: duties, write sets, safe pattern, CLIP and commit (R185 to R187, R192). `given` is set on a follower: whether
its own limits clamp the demand of the lead (R264). -/
def State.cPost (s : State) (now : Ctl) (p : CPre) (given : Option Bool) : Ctl :=
  let y := s.cDuty now p
  let u := s.roleOut now (s.cRole 0)
  let crow := s.cHw.crowbar
  let y := { y with
    clip := y.st.running && (match given with | some b => b | none => decide (p.ihi ≤ u) || decide (u ≤ -p.ilo)),
    idem := (match given with | some _ => p.idem | none => s.shared .c u),
    safePat := if y.st = .safe then (if crow then 2 else 1) else 0, fresh := p.entry }
  let c := (List.range 8).foldl (fun (c : Ctl) k => c.post (12 + k) (s.cSet y k) (if crow then 1 else 0)) { now with cs := y }
  { c with notes := c.notes ++ p.notes, commit := addSet .c c.commit }

/-! ### Sense-line faults (R197 to R199) -/

/-- The open lines and the disagreement of the tick (R198): AI32 open, AI33 open, run of disagreement. -/
def State.cSenseNow (s : State) (x : CSpanS) : Bool × Bool × Nat :=
  (decide (s.ai 32 < s.cn 0x5C), decide (s.ai 33 < s.cn 0x5C),
   if s.cn 0x58 < absI (s.ai 32 - s.ai 33) then min (x.disRun + 1) 3 else 0)

/-- A sense-line fault that has had no cause for 1,024 ticks clears (R199). -/
def CSpanS.clearSense (x : CSpanS) : CSpanS :=
  if x.senseFault ∧ 1024 ≤ x.clearRun then
    { x with senseFault := false, senseAi32 := false, senseAi33 := false, senseDis := false, clearRun := 0 }
  else x

/-- The sense lines in one tick (R198, R199). E016 carries the line: cause 1 AI32 open, 2 AI33 open, 3 disagreement. -/
def State.cSense (s : State) (x : CSpanS) : CSpanS × List Note :=
  let n := s.cSenseNow x
  let dis := decide (n.2.2 = 3)
  let any := n.1 || n.2.1 || dis
  let ok33 := if n.2.1 then 0 else min (x.ai33Run + 1) 1024
  let agree := decide (absI (s.ai 32 - s.ai 33) ≤ s.cn 0x58)
  let ev := fun (c : Nat) => Note.ev 16 (s.spanAddr .c) c 0 0
  let y := { x with
    disRun := n.2.2, senseFault := x.senseFault || any, senseAi32 := x.senseAi32 || n.1, senseAi33 := x.senseAi33 || n.2.1,
    senseDis := x.senseDis || dis, clearRun := if any then 0 else if x.senseFault then min (x.clearRun + 1) 1024 else 0,
    ai33Run := ok33, ai33Blind := if n.2.1 then true else x.ai33Blind && !(decide (ok33 = 1024) && agree) }
  (y.clearSense,
   (if n.1 && !x.senseAi32 then [ev 1] else []) ++ (if n.2.1 && !x.senseAi33 then [ev 2] else []) ++
   (if dis && !x.senseDis then [ev 3] else []))

/-- SENSE_FAULT_CLEAR (R199): a fault whose clear run is complete clears, as the compute does in the tick in which that
happens. -/
def execSenseFaultClear (s : State) : Host.Outcome State Fault Refusal :=
  .next { s with stage := { s.stage with cs := s.stage.cs.clearSense } }

/-! ### SAFE (R192, Table 08-4) -/

/-- The causes of Table 08-4 in the tick's inputs, lowest code first; cause 1 is the boundary's own. -/
def State.cCauses (s : State) : List Nat :=
  (if s.snap.shortSpans.contains .c then [2] else []) ++ (if s.snap.stTrips.contains .c then [3] else []) ++
  (if s.snap.syncSpans.contains .c then [4] else []) ++
  (if (List.range 12).any (fun i => s.distrusted (24 + i)) then [5] else []) ++
  (if (List.range 8).any (fun k => s.legUsed (12 + k) && s.legEnabled (12 + k) && s.stale (24 + k) (12 + k)) then [6] else []) ++
  (if s.stage.cs.senseFault then [7] else []) ++
  (if ((List.range 8).filter (fun k => s.cOk k)).length < 2 then [8] else []) ++
  (if s.snap.cOv then [9] else []) ++ (if s.snap.orders.contains .c then [10] else [])

/-- The cause that takes C into SAFE in this tick. -/
def State.cEntry (s : State) : Option Nat :=
  match s.cur.cs.st with
  | .disabled => none
  | .safe => none
  | _ => s.cCauses.head?

/-- Enter SAFE at the next boundary (R192), with the pattern that the legs have latched until a compute posts one. -/
def State.cSafe (s : State) (cause : Nat) : State :=
  let c := s.stage
  { s with stage := { c with
      cs := { c.cs with st := .safe, safeCause := cause, safePat := if (s.leg 12).safePat = 1 then 2 else 1 }, safed := addSet .c c.safed,
      notes := c.notes ++ [Note.ev 57 (s.spanAddr .c) cause 0 0, Note.stick (.safeEntry .c)] } }

/-- The exit from BYPASS by a phase current above IPH_MAX (Table 08-2). -/
def State.cBypassExit (s : State) : State :=
  if s.cur.cs.st = .bypass ∧ .c ∉ s.stage.safed ∧ (List.range 8).any (fun k => decide (s.cn 0x20 < absI (s.cI k))) then
    let c := s.stage
    { s with stage := ({ c with cs := { c.cs with st := .link, vtgt := s.vLinkC },
                                notes := c.notes ++ [s.e058 5 0] }).changes .c }
  else s

/-! ### Commands (Tables 08-2, 15-4, 15-5) -/

/-- DISABLED to STANDBY, in the order of Table 08-2. -/
def State.cStandbyCheck (s : State) : Option Status :=
  if s.vLinkC < s.v300 35 then some .linkAbsent
  else if s.snap.implausible.contains 2 then some .pairImplausible
  else if ((List.range 8).filter (fun k => decide (k < s.cPhases) && s.snap.usable.contains (12 + k))).length < 2 then some .spanUnavailable
  else if s.stage.cs.senseFault then some .senseFault
  else none

/-- The conditions of BYPASS (Table 08-2). -/
def State.cBypassOk (s : State) : Bool :=
  decide (s.cCfg 1 1 = 1) && decide (absI (s.vLinkC - s.vBat) ≤ s.cn 0x50) && decide (absI (s.ai 34) ≤ s.cn 0x54)

/-- The state a mode code names. -/
def CMode.ofCode : Nat → CMode
  | 0 => .disabled | 1 => .standby | 2 => .link | 3 => .batt | 4 => .current | _ => .bypass

/-- The verdict of a mode command (Table 08-2, R195, R255, R353). -/
def State.cVerdict (s : State) (code : Nat) : Verdict :=
  let x := s.stage.cs
  let m := CMode.ofCode code
  if s.cHw.crowbar then .no .causeActive
  else if m = x.st then .same
  else if s.kst.lsBroken ∧ m ≠ .disabled ∧ (x.st = .disabled ∨ x.st = .safe) then .no .spanUnavailable
  else match x.st, m with
    | .disabled, .standby => (match s.cStandbyCheck with | some st => .no st | none => s.mayChange .c)
    | .safe, .disabled =>
      if !s.cCauses.isEmpty || s.overrunActive x.safeCause then .no .causeActive else s.mayChange .c
    | .standby, .disabled => s.mayChange .c
    | .standby, .bypass => if s.cBypassOk then s.mayChange .c else .no .outOfRange
    | .link, .bypass => if s.cBypassOk then s.mayChange .c else .no .outOfRange
    | .bypass, .link => s.mayChange .c
    | st, .standby => if st.driven then s.mayChange .c else .no .wrongState
    | st, .disabled => if st.driven then .no .spanActive else .no .wrongState
    | st, m => if m.running && (st.running || decide (st = .standby)) then s.mayChange .c else .no .wrongState

/-- MODE on span C. -/
def State.cMode (code : Nat) (val : Int) (s : State) : Verdict × State :=
  match s.cVerdict code with
  | .go =>
    let m := CMode.ofCode code
    let x := { s.stage.cs with st := m }
    let y := match m with | .link => { x with vtgt := val } | .batt => { x with vtgt := val } | .current => { x with itgt := val } | _ => x
    (.go, s.withStage ({ s.stage with cs := y }.changes .c))
  | v => (v, s)

/-- C_VTGT (R184): accepted in LINK and BATT. -/
def State.cVtgtCmd (v : Int) (s : State) : Verdict × State :=
  let x := s.stage.cs
  if x.st = .link ∨ x.st = .batt then (.go, s.withStage { s.stage with cs := { x with vtgt := v } }) else (.no .wrongState, s)

/-- C_ITGT (R185): accepted in CURRENT; VLT's limits clip the demand. -/
def State.cItgtCmd (v : Int) (s : State) : Verdict × State :=
  let x := s.stage.cs
  if x.st = .current then (.go, s.withStage { s.stage with cs := { x with itgt := v } }) else (.no .wrongState, s)

/-- A fixed count or a return to AUTO_PH (R189). -/
def State.cSetPhases (n : Nat) (s : State) : State :=
  let x := s.stage.cs
  if n = 0 then s.withStage { s.stage with cs := { x with nFix := 0, auto := true } }
  else
    let c := s.cCancel { x := { x with nFix := n, auto := false }, notes := [] }
    s.withStage ({ s.stage with cs := c.x }.note c.notes)

/-- C_PHASES (R189, Table 15-5): accepted in STANDBY, LINK, BATT, CURRENT and BYPASS. -/
def State.cPhasesCmd (n : Nat) (s : State) : Verdict × State :=
  let x := s.stage.cs
  if x.st = .standby ∨ x.st.driven then (.go, s.cSetPhases n) else (.no .wrongState, s)

/-- The conditions of R195 for the release of the crowbar. -/
def State.cCrowbarOk (s : State) : Bool :=
  !(s.par.ovNow.contains 2) && !(s.par.ovNow.contains 3) &&
  decide (s.ai 33 ≤ s.image.cOvLess50) && decide (absI (s.ai 32 - s.ai 33) ≤ s.cn 0x58)

/-- C_CROWBAR_CLR (R195, R196). -/
def State.cCrowbarCmd (s : State) : Verdict × State :=
  if s.cHw.crowbar then (if s.cCrowbarOk then (.go, s.withStage (s.stage.note [.crowbarClear])) else (.no .causeActive, s))
  else (.same, s)

/-! ### What acts between boundaries (R190, R191, R193) -/

/-- The demand's energising switch (R191): LS in LINK, HS in BATT. -/
def cEnergising (m : CMode) : Switch := if m = .batt then .hs else .ls

end Sys2Proof.Machine
end

