-- ==== Sys2Proof/Machine/Parapet.lean ====
section
/-! DEFINITION. The Parapet (chapter 06) and the hardware paths of span C (chapter 08): trips, desaturation, undervoltage, overvoltage and the crowbar, comparator tests, dead-time readback, Hall inputs, the clock monitor. -/
namespace Sys2Proof.Machine

/-! ### Trip lines (R119, R121, R137, R141) -/

/-- Set the output of OC unit u of a leg. -/
def LegS.setOc (g : LegS) (u : Fin 2) (on : Bool) : LegS := if u.val = 0 then { g with ocA := on } else { g with ocB := on }
/-- Set the output of SC unit u of a leg. -/
def LegS.setSc (g : LegS) (u : Fin 2) (on : Bool) : LegS := if u.val = 0 then { g with scA := on } else { g with scB := on }

/-- OC_LINE_ASSERT (R119, R121, R137): the filtered output of unit A or B is asserted, and the line acts unless it is within
the blanking window; with `on` false the unit releases (log 55). -/
def execOcLineAssert (l : Leg) (e : LineEdge) (s0 : State) : Host.Outcome State Fault Refusal :=
  let s := (s0.at e.ofs).updLeg l.val (fun g => g.setOc e.unit e.on)
  .next (if e.on && !s.ocBlanked l.val then s.ocAct l.val else s)

/-- BLANK_WINDOW_END (R121): a line still asserted at the end of the window acts then; sent before the end it does
nothing (log 8). -/
def execBlankWindowEnd (l : Leg) (ofs : Nat) (s0 : State) : Host.Outcome State Fault Refusal :=
  let g := s0.leg l.val
  if g.blanking && (s0.at ofs).passed g.blankEnd then
    let s := (s0.goto g.blankEnd).updLeg l.val (fun g => { g with blanking := false })
    .next (if g.ocLine then s.ocAct l.val else s)
  else .next s0

/-- SC_LINE_ASSERT (R137, R141): the filtered output of unit A or B is asserted and the line, which is never blanked, acts;
with `on` false the unit releases (log 55). -/
def execScLineAssert (l : Leg) (e : LineEdge) (s0 : State) : Host.Outcome State Fault Refusal :=
  let s := (s0.at e.ofs).updLeg l.val (fun g => g.setSc e.unit e.on)
  .next (if e.on then s.scAct l.val else s)

/-! ### Desaturation (R138, R140, R142) -/

/-- A filtered desaturation output asserted after blanking, while the gate is on or a soft turn-off goes on. -/
def State.desat (s : State) (l : Nat) (x : Switch) : State :=
  let p := (s.leg l).pier x
  let was : Bool := match x with | .hs => (s.leg l).desatHs | .ls => (s.leg l).desatLs
  if isHvLeg l ∧ p.gate ∧ (¬ p.desatBlank ∨ p.desatEnd ≤ s.tk.now) ∧ ¬ was then
    let s1 := s.softOff l x
    let s2 := s1.updLeg l (fun g =>
      let g1 := { g with desatCount := satInc g.desatCount max16 }
      match x with | .hs => { g1 with desatHs := true } | .ls => { g1 with desatLs := true })
    ((s2.raise 0 (s.switchAddr l x) 0 0 0).drive l).reportShort l
  else s

/-- DESAT_DETECT (R138, R140, R142). -/
def execDesatDetect (l : Leg) (x : Switch) (ofs : Nat) (s : State) : Host.Outcome State Fault Refusal :=
  .next ((s.at ofs).desat l.val x)

/-- DESAT_BLANK_END (R138): BLANK × 10 ns after the gate-on edge the comparator is evaluated from then on; sent before
then it does nothing (log 8). -/
def execDesatBlankEnd (l : Leg) (x : Switch) (asserted : Bool) (ofs : Nat) (s0 : State) : Host.Outcome State Fault Refusal :=
  let p := (s0.leg l.val).pier x
  let s := s0.goto p.desatEnd
  if p.desatBlank && (s0.at ofs).passed p.desatEnd then
    let s1 := s.updLeg l.val (fun g => g.updPier x (fun p => { p with desatBlank := false }))
    .next (if asserted then s1.desat l.val x else s1)
  else .next s0

/-! ### Undervoltage lock-out (R134 to R136) -/

/-- The switch of a gate rail, in the order of PIER_Lxx_STAT [3:0]. -/
def railSwitch (rail : Nat) : Switch := if rail < 2 then .hs else .ls
/-- The UV_ bit of a rail. -/
def LegS.uv (g : LegS) (rail : Nat) : Bool :=
  match rail with | 0 => g.uvHsPos | 1 => g.uvHsNeg | 2 => g.uvLsPos | _ => g.uvLsNeg
/-- Set the UV_ bit of a rail. -/
def LegS.setUv (g : LegS) (rail : Nat) : LegS :=
  match rail with
  | 0 => { g with uvHsPos := true, uvClear := false }
  | 1 => { g with uvHsNeg := true, uvClear := false }
  | 2 => { g with uvLsPos := true, uvClear := false }
  | _ => { g with uvLsNeg := true, uvClear := false }

/-- VPOS and VNEG of a leg in mV (Table 06-6, PIER_Lxx_RAIL). -/
def State.vpos (s : State) (l : Nat) : Int := 15000 + 500 * (fld (s.reg (0x11008 + 0x100 * l)) 0 4 : Int)
/-- VNEG. -/
def State.vneg (s : State) (l : Nat) : Int := -2000 - 500 * (fld (s.reg (0x11008 + 0x100 * l)) 4 3 : Int)
/-- A rail of the leg is the negative one of an HV switch. -/
def railNeg (l rail : Nat) : Bool := isHvLeg l && decide (rail % 2 = 1)
/-- The level in mV at which the comparator of a rail trips (Table 06-2). -/
def State.uvTripAt (s : State) (l rail : Nat) : Int :=
  if railNeg l rail then s.vneg l + 1000
  else if isHvLeg l then s.vpos l - 3000
  else if rail < 2 then 8000 else 10000
/-- A rail at this voltage trips its comparator (Table 06-2). -/
def State.uvLow (s : State) (l rail : Nat) (mv : Int) : Bool :=
  if railNeg l rail then decide (s.uvTripAt l rail < mv) else decide (mv < s.uvTripAt l rail)
/-- A rail at this voltage is at or beyond its recovery threshold: 0.5 V of hysteresis (R133, Table 06-2). -/
def State.uvBack (s : State) (l rail : Nat) (mv : Int) : Bool :=
  if railNeg l rail then decide (mv ≤ s.uvTripAt l rail - 500) else decide (s.uvTripAt l rail + 500 ≤ mv)
/-- The rails of a leg that have a comparator (R133). -/
def legRails (l : Nat) : List Nat := if isHvLeg l then [0, 1, 2, 3] else [0, 2]

/-- UVLO_TRIP (R133, R134, R136): the rail is at `r.mv`. Beyond its threshold the switch goes off at once and its partner is held
off; the bootstrap of an LV leg blocks HS alone and raises no event yet. -/
def execUvloTrip (l : Leg) (r : RailLow) (ofs : Nat) (s0 : State) : Host.Outcome State Fault Refusal :=
  let s := s0.at ofs
  let hv := isHvLeg l.val
  let rail := r.rail.val
  if !(legRails l.val).contains rail || !s.uvLow l.val rail r.mv then .next s
  else if (s.leg l.val).uv rail then
    .next (s.updLeg l.val (fun g => { g with uvClear := false, brgLost := g.brgLost && !s.trl.brgRun }))
  else
    let s0 := s.updLeg l.val (fun g => { g with bootAt := if !hv && decide (rail = 0) then s.tk.now else g.bootAt })
    let s1 := (s0.updLeg l.val (fun g => g.setUv rail)).driveLeg l.val
    .next (if hv || decide (rail = 2) then s1.raise 7 (s.switchAddr l.val (railSwitch rail)) rail 0 0 else s1)

/-- UVLO_RECOVER (R133, R134): 1 ms has passed in which each rail of the leg came no nearer to its threshold than `r.mv`. Where
that is at or beyond every recovery threshold the leg follows at the next boundary. While the Bearing supply is out of
regulation no HV rail recovers (R135). -/
def execUvloRecover (r : RailReads) (s : State) : Host.Outcome State Fault Refusal :=
  if (isHvLeg r.leg.val && !s.trl.brgRun) || !(legRails r.leg.val).all (fun k => s.uvBack r.leg.val k (r.mv.getD k 0)) then .next s
  else .next (s.updLeg r.leg.val (fun g => { g with uvClear := true }))

/-- Clear the UV_ bits of the legs whose rails have recovered, at a boundary (R134). -/
def State.uvBoundary (s : State) : State :=
  s.updLegs (allLegs.filter (fun l => (s.leg l).uvClear)) (fun _ g => { g with
    uvHsPos := false, uvHsNeg := false, uvLsPos := false, uvLsNeg := false, bootLong := false, brgLost := false,
    uvClear := false })

/-- The Bearing supply leaves regulation: every HV UVLO bit is set and the HV piers turn off, with no E007 (R135). -/
def State.hvSupplyLost (s : State) : State :=
  let hv := List.range 28
  (s.updLegs hv (fun _ g => { g with
    uvHsPos := true, uvHsNeg := true, uvLsPos := true, uvLsNeg := true, uvClear := false,
    brgLost := g.brgLost || !(g.uvHsPos || g.uvHsNeg || g.uvLsPos || g.uvLsNeg) })).driveAll hv

/-- BOOTSTRAP_UVLO_TIMEOUT (R136): a bootstrap UVLO has lasted 1 ms from its trip; sent before then it does nothing (log 8). -/
def execBootstrapUvloTimeout (l : Leg) (ofs : Nat) (s0 : State) : Host.Outcome State Fault Refusal :=
  let g := s0.leg l.val
  let due := g.bootAt + 1000000 * uNs
  let s := s0.goto due
  if !isHvLeg l.val && g.uvHsPos && !g.bootLong && (s0.at ofs).passed due then
    .next (((s.updLeg l.val (fun g => { g with bootLong := true })).driveLeg l.val).raise 7 (s.switchAddr l.val .hs) 0 0 0)
  else .next s0

/-! ### Overvoltage (R144, R193) -/

/-- LINK_OV_TRIP (R144): every leg of T0, T1 and Q drives its latched safe pattern, with soft turn-off (R139). Either unit acts
(R137): a comparator test is one command here, so that no unit is under test when a trip arrives. -/
def execLinkOvTrip (u : Fin 2) (ofs : Nat) (s0 : State) : Host.Outcome State Fault Refusal :=
  let s := s0.at ofs
    let ls := Span.t0.legs ++ Span.t1.legs ++ Span.q.legs
    let s1 := s.updLegs ls (fun _ g => { g with parEnd := some (s.tk.count + 2) })
    let s2 := { s1 with par := { s1.par with
      ovNow := addSet (if u.val = 0 then 0 else 1) s1.par.ovNow, linkOvLatch := true } }
    .next (ls.foldl State.driveSoft (s2.raise 12 s.deckAddr u.val 0 0))

/-- C_OV_TRIP (R193): the crowbar latches and overrides the Truss on C, with soft turn-off (R139); E013 names the span (R17). -/
def execCOvTrip (u : Fin 2) (ofs : Nat) (s0 : State) : Host.Outcome State Fault Refusal :=
  let s := s0.at ofs
    let s1 := { s with
      cHw := { s.cHw with crowbar := true, crowTick := if s.cHw.crowbar then s.cHw.crowTick else s.tk.count },
      par := { s.par with ovNow := addSet (if u.val = 0 then 2 else 3) s.par.ovNow, cOvLatch := true } }
    .next (Span.c.legs.foldl State.driveSoft (s1.raise 13 (s.spanAddr .c) u.val 0 0))

/-- The legs of C that conduct under the crowbar (SPN_C_CROWBAR.LEGS). -/
def State.crowbarLegs (s : State) : List Nat :=
  if s.cHw.crowbar then Span.c.legs.filter (fun l => (s.leg l).ls.gate) else []

/-! ### Zero current and overshoot (R190, R191) -/

/-- The switch of a leg is blocked to the end of its period; the other keeps its commanded state. -/
def LegS.blockOnly (g : LegS) : Switch → LegS
  | .hs => { g with blkHs := true }
  | .ls => { g with blkLs := true }
/-- The switch is blocked in this period. -/
def LegS.isBlocked (g : LegS) : Switch → Bool
  | .hs => g.blkHs
  | .ls => g.blkLs

/-- ZCD_DETECT (R190): in diode emulation the comparator of an active phase ends the pulse of the synchronous switch. -/
def execZcdDetect (k : Fin 8) (ofs : Nat) (s0 : State) : Host.Outcome State Fault Refusal :=
  let s := s0.at ofs
  let x := s.cur.cs
  let l := 12 + k.val
  let w : Switch := if x.deHs then .hs else .ls
  if x.de && (x.phase k.val).active && ((s.leg l).pier w).cmd then
    let s1 := (s.updLeg l (fun g => g.blockOnly w)).drive l
    .next { s1 with cHw := { s1.cHw with zcdNow := true } }
  else .next s

/-- OVERSHOOT_TRUNCATE (R191): in LINK and BATT every active phase ends the pulse of its energising switch. -/
def execOvershootTruncate (ofs : Nat) (s0 : State) : Host.Outcome State Fault Refusal :=
  let s := s0.at ofs
  let x := s.cur.cs
  if decide (s.cCfg 2 1 = 1) && (decide (x.st = .link) || decide (x.st = .batt)) then
    let w := cEnergising x.st
    let ls := (x.active.map (· + 12)).filter (fun l => !((s.leg l).isBlocked w))
    let s1 := (s.updLegs ls (fun _ g => g.blockOnly w)).driveAll ls
    let s2 := { s1 with cHw := { s1.cHw with truncCount := satAdd s1.cHw.truncCount ls.length max32, truncRaised := true } }
    let s3 := s2.stick .cTrunc
    .next (if s.cHw.truncRaised then s3 else s3.raise 59 (s.spanAddr .c) 0 ls.length 0)
  else .next s

/-! ### Comparator tests (R145 to R149, R257) -/

/-- The comparators that a leg has (R145). -/
def legComparators (l : Nat) : List Nat := if isHvLeg l then List.range 10 else [2, 4, 6, 7, 8, 9]

/-- The switch that a DESAT or UV_ comparator watches; none for the duplicated current comparators. -/
def comparatorSwitch (k : Nat) : Option Switch :=
  if k = 0 ∨ k = 2 ∨ k = 3 then some .hs else if k = 1 ∨ k = 4 ∨ k = 5 then some .ls else none

/-- A step of the leg's own period, after tau, at which the active set places an on-edge of the switch; none where it places none in
the rest of the period and the next one. -/
def State.nextOnEdge (s : State) (l : Nat) (x : Switch) (tau : Nat) : Option Nat :=
  let g := s.leg l
  let per := g.plen
  let a := g.act
  if a.mode % 4 = 0 ∨ a.mode % 4 = 3 ∨ per = 0 then none
  else
    let c := s.cmpClamped l per a.cmpa
    let h := s.hsStart l per c
    let len := match x with | .hs => c | .ls => a.lsLen per c
    let q := match x with | .hs => h | .ls => (h + c) % per
    let e := (q + per - a.phase % per) % per
    if len = 0 ∨ per ≤ len then none else some (if tau < e then e else e + per)

/-- Steps from now to the next on-edge that an active set places on a switch. In three-pin mode the HS of the leg that the
Hall state names follows the HS of the U-leg's set, and every LS is held as the state says (R150). -/
def State.stepsToOn (s : State) (l : Nat) (x : Switch) : Option Nat :=
  if s.threePin l then
    if x = .hs ∧ s.hsNamed l then (s.nextOnEdge (28 + 3 * legAct l) .hs (s.tauOf (28 + 3 * legAct l))).map (· - s.tauOf (28 + 3 * legAct l))
    else none
  else (s.nextOnEdge l x (s.tauOf l)).map (· - s.tauOf l)

/-- An active set places at least one on-edge on a switch, and drives the leg (R257). -/
def State.switches (s : State) (l : Nat) (x : Switch) : Bool :=
  let g := s.leg l
  !s.legSafe l && !g.tripLatch && !g.stBlock && !g.unprot && (s.stepsToOn l x).isSome

/-- The off-state window of R145: the switch is commanded off, and its on-edge is over 1,000 ns away. -/
def State.offWindow (s : State) (l : Nat) (x : Switch) : Bool :=
  !((s.leg l).pier x).cmd &&
  (s.legSafe l || (match s.stepsToOn l x with
    | some e => decide (1000 * uNs < e * uStep)
    | none => true))

/-- A leg is marked unprotected (R148); cause: comparator number, 16 dead time, 17 overdue. -/
def State.markUnprotected (s : State) (l cause : Nat) : State :=
  ((s.updLeg l (fun g => { g with unprot := true })).raise 8 (s.legAddr l) cause 0 0).driveLeg l

/-- The result of one test of a comparator of a leg. -/
def State.testResult (s : State) (l k : Nat) (pass : Bool) : State :=
  let s1 := s.updLeg l (fun g => { g with
    tested := addSet k g.tested, testTicks := Store.put (fun _ => 0) g.testTicks k s.tk.count,
    testFail := if pass then delSet k g.testFail else addSet k g.testFail })
  if pass then s1 else s1.markUnprotected l k

/-- A comparator may be tested: from deck ready in its round; before it the current and the deck comparators in step 9, and
the others while the rails of their switch recover (R145, R409). -/
def State.testOpen (s : State) (k : Comparator) : Bool :=
  s.start.ready || (s.start.running && (match k with
    | .leg _ c => decide (c.val < 6) || decide (s.start.step = 9)
    | .deck _ => decide (s.start.step = 9)))

/-- COMPARATOR_TEST (R145, R148, R149, R409): a scheduled test in the window that the comparator needs. -/
def execComparatorTest (k : Comparator) (pass : Bool) (ofs : Nat) (s0 : State) : Host.Outcome State Fault Refusal :=
  let s := s0.at ofs
  if !s.testOpen k then .next s
  else
    match k with
    | .leg l c =>
      let ok := (legComparators l.val).contains c.val &&
        (match comparatorSwitch c.val with | some x => s.offWindow l.val x | none => true)
      .next (if ok then s.testResult l.val c.val pass else s)
    | .deck u =>
      let s1 := { s with par := { s.par with ovTested := addSet u s.par.ovTested } }
      if pass then .next s1
      else .next ({ s1 with par := { s1.par with testFail := addSet u s1.par.testFail } }.raise 8 s.deckAddr (32 + u.val) 0 0)

/-- The tick of the test of the comparator tested least recently (R146). -/
def State.oldestTest (s : State) (l : Nat) : Tick :=
  let g := s.leg l
  (legComparators l).foldl (fun m k => min m (max s.par.testBase (Store.get (fun _ => 0) g.testTicks k))) s.tk.count
/-- PIER_Lxx_TEST.AGE. -/
def State.testAge (s : State) (l : Nat) : Nat := if s.start.ready then min (s.tk.count - s.oldestTest l) max16 else 0

/-- TEST_ROUND_END (R145, R146): after 4,096 ticks the round ends. -/
def execTestRoundEnd (s : State) : Host.Outcome State Fault Refusal :=
  if s.start.ready ∧ s.par.roundStart + 4096 ≤ s.tk.count then
    let s1 := allLegs.foldl (fun t l =>
      let t1 := if (legComparators l).all (fun k => (t.leg l).tested.contains k) then t
        else (t.updLeg l (fun g => { g with testOverdue := true })).raise 15 (t.legAddr l) 0 0 0
      if (t1.leg l).tested = [] then t1 else t1.updLeg l (fun g => { g with tested := [] })) s
    .next { s1 with par := { s1.par with roundStart := s.par.roundStart + 4096, ovTested := [] } }
  else .next s

/-- TEST_AGE_OVERDUE (R257): the age has reached 12,288 ticks while the active set places an on-edge on the switch of an
untested comparator; a current comparator watches both switches. -/
def execTestAgeOverdue (l : Leg) (s : State) : Host.Outcome State Fault Refusal :=
  let g := s.leg l.val
  let untested := (legComparators l.val).filter (fun k =>
    decide (12288 ≤ s.tk.count - max s.par.testBase (Store.get (fun _ => 0) g.testTicks k)))
  let edge := untested.any (fun k => match comparatorSwitch k with
    | some x => s.switches l.val x
    | none => s.switches l.val .hs || s.switches l.val .ls)
  if s.start.ready ∧ 12288 ≤ s.testAge l.val ∧ edge ∧ ¬ g.ageBad then
    .next ((s.updLeg l.val (fun g => { g with ageBad := true })).markUnprotected l.val 17)
  else .next s

/-- A commanded test of the comparators of a leg, with what it found (R147, R148): UNPROT clears only where every
comparator passes and the dead-time copies agree. -/
def State.commandedTest (s : State) (l : Nat) (fails : List Nat) : State :=
  let ks := legComparators l
  let bad := ks.filter (fun k => fails.contains k)
  let g := s.leg l
  let agree := decide (g.dt0 = g.dt1) && decide (g.dt1 = g.dt2)
  let s1 := s.updLeg l (fun g => { g with
    tested := ks, testFail := bad,
    testTicks := ks.foldl (fun m k => Store.put (fun _ => 0) m k s.tk.count) g.testTicks,
    unprot := g.unprot && !(decide (bad = []) && agree), ageBad := g.ageBad && !(decide (bad = []) && agree) })
  match bad with
  | [] => s1
  | k :: _ => s1.markUnprotected l k

/-- A commanded test of the deck comparators (R149). -/
def State.commandedDeckTest (s : State) (fails : List (Fin 4)) : State :=
  let s1 := { s with par := { s.par with testFail := ([0, 1, 2, 3] : List (Fin 4)).filter (fun u => fails.contains u), ovTested := [0, 1, 2, 3] } }
  s1.par.testFail.foldl (fun t u => t.raise 8 s.deckAddr (32 + u.val) 0 0) s1

/-! ### Dead-time readback (R131, R132) -/

/-- The bitwise two-of-three vote. -/
def vote3 (a b c : Nat) : Nat := (a &&& b) ||| (a &&& c) ||| (b &&& c)

/-- The CRC-32C over the 40 voted values, each as two bytes in leg order (R132). -/
def State.dtDigestNow (s : State) : Word :=
  crc32c ((allLegs.map (fun l => leBytes (s.leg l).voted 2)).flatten)

/-- An upset of the copies of dead-time registers (R132). -/
def State.dtUpset (s : State) (u : List (Leg × Fin 3 × BitVec 9)) : State :=
  u.foldl (fun t e => t.updLeg e.1.val (fun g =>
    let v := e.2.2.toNat
    let g1 := match e.2.1 with | 0 => { g with dt0 := v } | 1 => { g with dt1 := v } | 2 => { g with dt2 := v }
    { g1 with voted := vote3 g1.dt0 g1.dt1 g1.dt2 })) s

/-- The readback of one leg at a boundary (R132). -/
def State.dtReadback (s : State) (l : Nat) : State :=
  let g := s.leg l
  let a := decide (g.dt0 = g.dt1)
  let b := decide (g.dt0 = g.dt2)
  let c := decide (g.dt1 = g.dt2)
  if a && b then
    if g.c0Bad || g.c1Bad || g.c2Bad || g.noMaj then
      s.updLeg l (fun g => { g with c0Bad := false, c1Bad := false, c2Bad := false, noMaj := false })
    else s
  else if a || b || c then
    let v := vote3 g.dt0 g.dt1 g.dt2
    (s.updLeg l (fun g => { g with
      c0Bad := c, c1Bad := b, c2Bad := a, noMaj := false, dt0 := v, dt1 := v, dt2 := v, voted := v,
      repairs := satInc g.repairs max16, dtRepair := true })).raise 11 (s.legAddr l) 1 v 0
  else
    let s1 := (s.updLeg l (fun g => { g with c0Bad := false, c1Bad := false, c2Bad := false, noMaj := true }))
    let s2 := s1.raise 11 (s.legAddr l) 2 0 0
    if g.unprot then s2 else s2.markUnprotected l 16

/-- The readback of every leg; the second part says that the digest differs where every leg has a majority (R132). -/
def State.dtBoundary (s : State) : State × Bool :=
  let s1 := allLegs.foldl State.dtReadback s
  (s1, !(allLegs.any (fun l => (s1.leg l).noMaj)) && decide (s1.dtDigestNow ≠ s1.par.dtDigest))

/-! ### Hall inputs (R150, R151, R231) -/

/-- The count of R231 on a filtered Hall transition into a valid state. -/
def State.hallCount (s : State) (m v : Nat) : State :=
  let h := s.hallS m
  match s.hallPlace m h.lastValid, s.hallPlace m v with
  | some a, some b =>
    s.updHall m (fun h =>
      if b = a then { h with lastValid := v }
      else if b = (a + 1) % 6 then { h with lastValid := v, count := h.count + 1 }
      else if (b + 1) % 6 = a then { h with lastValid := v, count := h.count - 1 }
      else { h with lastValid := v, skipNow := true })
  | _, _ => s.updHall m (fun h => { h with lastValid := v })

/-- HALL_STATE_CHANGE (R150, R151, R231): the position count follows; in three-pin mode the commutation pattern changes,
and states 0 and 7 turn the legs off. -/
def execHallStateChange (m : Act) (v : Fin 8) (ofs : Nat) (s0 : State) : Host.Outcome State Fault Refusal :=
  let s := s0.at ofs
  let bad := decide (v.val = 0 ∨ v.val = 7)
  let was := s.par.hallInvalid.contains m
  let s := { s with par := { s.par with
    hall := Store.put (fun _ => 0) s.par.hall m.val v.val,
    hallInvalid := if bad then addSet m s.par.hallInvalid else delSet m s.par.hallInvalid } }
  let s := if bad then s else s.hallCount m.val v.val
  let s := if bad && !was then s.raise 52 (s.spanAddr (Span.ofAct m)) v.val 0 0 else s
  .next (s.drive (28 + 3 * m.val))

/-- The captures of a boundary (R231, R236): position, Hall state, skips since the last one, invalid states in a row. -/
def State.hallBoundary (s : State) : State :=
  (List.range 4).foldl (fun t m =>
    let v := Store.get (fun _ => 0) t.par.hall m
    t.updHall m (fun h =>
      let cnt := match (t.cur.actS m).posLoad with | some p => p | none => h.count
      { h with count := cnt, pos := cnt, posPrev := h.pos, capState := v, skipCap := h.skipNow, skipNow := false,
               invRun := if v = 0 ∨ v = 7 then satInc h.invRun max16 else 0 })) s

/-! ### Clock monitor (R125) -/

/-- A clock is lost or the fabric is halted: every leg drives its latched safe pattern. -/
def State.loseClock (s : State) (cause : Nat) : State :=
  if s.par.clockLost ≠ 0 then s
  else
    let s1 := { s with par := { s.par with clockLost := cause, clkHold := true } }
    (s1.updLegs allLegs (fun _ g => { g with clkSafe := true })).driveAll allLegs

/-- CLOCK_FAIL (R125). -/
def execClockFail (k : ClockId) (ofs : Nat) (s : State) : Host.Outcome State Fault Refusal :=
  .next ((s.at ofs).loseClock (match k with | .counter => 1 | .fabric => 2 | .halt => 3))

/-- DEBUG_HALT (R125): a debug halt of the control fabric acts like a clock stop. -/
def execDebugHalt (ofs : Nat) (s : State) : Host.Outcome State Fault Refusal := .next ((s.at ofs).loseClock 3)

/-- The clocks run, so that ticks go on (R125). -/
def State.clocked (s : State) : Bool := decide (s.par.clockLost = 0)

end Sys2Proof.Machine
end

