-- ==== Sys2Proof/Machine/Memory.lean ====
section
/-! DEFINITION. The memory of the deck (chapter 18): MRAM writes and their order, the charter and its ledger, the calibration set, updates of firmware and image, the event log and the recorder. -/
namespace Sys2Proof.Machine

/-! ### Jobs: CHARTER, CAL_WRITE, UPDATE (R357, R358) -/

/-- The opcode of the command that runs; 0 where none does. -/
def State.jobOp (s : State) : Nat := match s.cwy.job with | some j => dOp j.cmd | none => 0

/-- A command of an opcode passed its checks at the boundary that comes: it counts as applied for the commands after it
(R333). -/
def State.ahead (s : State) (op : Nat) : Bool :=
  s.cwy.staged.any (fun d => s.stage.handled.contains d.seq && decide (dOp d = op))
/-- The opcode of the command that runs, or that starts to run at the boundary that comes. -/
def State.jobAhead (s : State) : Nat :=
  if s.jobOp ≠ 0 then s.jobOp else if s.ahead 0x60 then 0x60 else if s.ahead 0x61 then 0x61 else if s.ahead 0x62 then 0x62 else 0

/-- The running command ends: its completion names the boundary at which it ends. -/
def State.jobDone (s : State) (st : Status) (result : Nat) (applied : Tick) : State :=
  match s.cwy.job with
  | some j => { s with cwy := { s.cwy with
      cmplDue := s.cwy.cmplDue ++ [completionOf s j.cmd st result applied], job := none } }
  | none => s

/-- A write of a change, of the calibration set or of an update (R423, item 5). -/
def MramWrite.isChange : MramWrite → Bool
  | .event _ | .header _ | .row _ _ _ => false
  | _ => true

/-- The running command is interrupted by a failed write or a freeze: nothing more of it is written (R402, R417, R419,
R420). -/
def State.jobFault (s : State) : State :=
  { s with mrm := { s.mrm with writes := s.mrm.writes.filter (fun w => !w.isChange), blockDone := false } }.jobDone
    .memoryFault 0 s.tk.count

/-- The running command has been taken up: a write of it waits, or a change waits to land. -/
def State.jobBegun (s : State) : Bool :=
  s.mrm.writes.any MramWrite.isChange || s.mrm.lands.isSome || s.mrm.calLands.isSome || s.mrm.blockDone

/-- The block read from host memory has the length and the CRC that the descriptor names (R358). -/
def blockOk (d : Staged) (block : List Byte) : Bool :=
  decide (block.length = dP d 8 4) && decide ((crc32c (block.map BitVec.toNat)).toNat = dP d 12 4)

/-- Bytes lo to lo+n−1 of a block, as a little-endian number. -/
def blkNat (block : List Byte) (lo n : Nat) : Nat := ofLe (((block.drop lo).take n).map BitVec.toNat)

/-! ### The charter (R415 to R417) -/

/-- The offsets of the 93 charter-controlled registers, ascending. -/
def chOffsets : List Nat :=
  [0x40, 0x44, 0x48] ++ (List.range 8).map (fun k => 0x4040 + 4 * k) ++
  ((List.range 40).map (fun l => [0x11000 + 0x100 * l, 0x11008 + 0x100 * l])).flatten ++ [0x3200C, 0x32010]

/-- The digest of a charter: SHA-256 of its 93 values (The charter). -/
def charterDigest (get : Nat → Word) : BitVec 256 :=
  sha256 ((chOffsets.map (fun o => leBytes (get o).toNat 4)).flatten)

/-- The defined bits of a charter-controlled register; the others read 0 (Tables 01-6, 03-8, 06-6, 17-5). -/
def chMask (off : Nat) : Nat :=
  if off = 0x40 then 0xFFFF else if off = 0x44 then 0xFFFFFFFF else if off = 0x48 then 0xFF
  else if off < 0x11000 then 0xFFFF007F
  else if off = 0x3200C then 0xFFFFFFFF else if off = 0x32010 then 0xFFFF
  else if off % 0x100 = 0 then 0x1FF else 0x7F

/-- A charter in one copy, by offset. -/
def copyGet (m : Store Word) (off : Nat) : Word := Store.get (fun _ => 0#32) m off

/-- The values of a charter are valid as a whole: encodings, legs of unfitted spans, rails, dead times (R32, R129, R131). -/
def charterValid (get : Nat → Word) : Bool :=
  let t := get 0x40
  let c := fld t 4 4
  let topo := decide (fld t 0 2 ≠ 2) && decide (fld t 2 2 ≠ 2) && decide (c = 0 ∨ (2 ≤ c ∧ c ≤ 8)) && decide (fld t 14 2 ≠ 3)
  let fitted : Span → Bool
    | .t0 => decide (fld t 0 2 < 2)
    | .t1 => decide (fld t 2 2 < 2)
    | .c => decide (c ≠ 0)
    | .q => bitOf t 8
    | .b => bitOf t 9
    | .a0 => bitOf t 10
    | .a1 => bitOf t 11
    | .a2 => bitOf t 12
    | .a3 => bitOf t 13
  let en := fun (l : Nat) => if l < 32 then bitOf (get 0x44) l else bitOf (get 0x48) (l - 32)
  let legs := allLegs.all (fun l => !(en l) || fitted (Span.ofLeg l))
  let pairs := (List.range 8).all (fun k =>
    let i := fld (get (0x4040 + 4 * k)) 0 7
    decide (12 * k ≤ i) && decide (i < 12 * k + 12))
  let piers := allLegs.all (fun l =>
    let dt := fld (get (0x11000 + 0x100 * l)) 0 9
    let r := get (0x11008 + 0x100 * l)
    if isHvLeg l then decide (10 ≤ dt ∧ dt ≤ 200) && decide (fld r 0 4 ≤ 10) && decide (fld r 4 3 ≤ 6)
    else decide (20 ≤ dt ∧ dt ≤ 400) && decide (fld r 0 7 = 0))
  let types := (List.range 24).all (fun k =>
    decide (fld (if k < 16 then get 0x3200C else get 0x32010) (2 * (k % 16)) 2 ≠ 3))
  topo && legs && pairs && piers && types

/-- The entries of a charter block; none where its length or content is not as R416 lays down. -/
def charterEntries (block : List Byte) : Option (List (Nat × Word)) :=
  let es := (List.range 93).map (fun i => (blkNat block (16 + 8 * i) 4, BitVec.ofNat 32 (blkNat block (20 + 8 * i) 4)))
  if block.length = 760 ∧ blkNat block 0 4 = 0x54524843 ∧ blkNat block 4 2 = 1 ∧ blkNat block 6 2 = 93 ∧ blkNat block 8 8 = 0
      ∧ chOffsets.all (fun o => es.any (fun e => decide (e.1 = o))) then some es
  else none

/-- The values of a list of entries as a copy holds them. -/
def copyOf (es : List (Nat × Word)) : Store Word :=
  es.foldl (fun m e => Store.put (fun _ => 0#32) m e.1 (BitVec.ofNat 32 (e.2.toNat &&& chMask e.1))) []

/-- The 128 bytes of the ledger record in a slot (Table 18-3). -/
def LedgerRec.bytes (r : LedgerRec) (slot : Nat) : List Nat :=
  let b := leBytes 0xC4A7 2 ++ [slot, r.kind] ++ leBytes r.fwId.toNat 4 ++ leBytes r.cal 8 ++ leBytes r.pylon 8 ++
    leBytes r.oldDigest.toNat 32 ++ leBytes r.newDigest.toNat 32 ++ leBytes r.hostId 8 ++ leBytes r.tick 8 ++ leBytes r.copy 4 ++
    List.replicate 16 0
  b ++ leBytes (crc32c b).toNat 4

/-- The newest valid record (R415). -/
def State.newestRecord (s : State) : Option LedgerRec := (s.mrm.ledger.filter (fun r => r.valid)).getLast?
/-- The copy of the charter in force: 0 A, 1 B. -/
def State.charterCopy (s : State) : Nat := match s.newestRecord with | some r => r.copy | none => 0
/-- The charter copy of a letter. -/
def MrmS.copy (m : MrmS) (k : Nat) : Store Word := if k = 0 then m.copyA else m.copyB
/-- Slots 1 to 15 used. -/
def State.ledgerUsed (s : State) : Nat := s.mrm.ledger.length - 1
/-- No change remains. -/
def State.charterFrozen (s : State) : Bool := decide (15 ≤ s.ledgerUsed)

/-- Land the values of a charter in the CH registers and the dead-time copies, and fix the dead-time CRC (R131, R417). -/
def State.charterInForce (s : State) (vals : Store Word) : State :=
  let s1 := chOffsets.foldl (fun t o => t.setReg o (copyGet vals o)) s
  let s2 := s1.updLegs allLegs (fun l g =>
    let d := fld (copyGet vals (0x11000 + 0x100 * l)) 0 9
    { g with dt0 := d, dt1 := d, dt2 := d, voted := d })
  { s2 with par := { s2.par with dtDigest := s2.dtDigestNow } }

/-- CHARTER (R416, R417, R402): the block of the running command has been read. -/
def execCharter (block : List Byte) (imageFits : Bool) (s : State) : Host.Outcome State Fault Refusal :=
  match s.cwy.job with
  | none => .next s
  | some j =>
    if dOp j.cmd ≠ 0x60 ∨ s.jobBegun then .next s
    else if s.trl.frozen then .next s.jobFault
    else if !blockOk j.cmd block then .next (s.jobDone .invalidParameter 0 s.tk.count)
    else
      match charterEntries block with
      | none => .next (s.jobDone .invalidParameter 0 s.tk.count)
      | some es =>
        let vals := copyOf es
        if !charterValid (copyGet vals) || !imageFits then .next (s.jobDone .charterValidation 0 s.tk.count)
        else if s.charterFrozen then .next (s.jobDone .charterFrozen 0 s.tk.count)
        else
          let copy := 1 - s.charterCopy
          let r : LedgerRec := {
            kind := 1, fwId := s.kst.fwId, cal := s.calStamp s.tk.now, pylon := s.tk.now / uNs,
            oldDigest := charterDigest s.reg, newDigest := charterDigest (copyGet vals), hostId := dP j.cmd 16 8,
            tick := s.tk.count + 1, copy := copy, valid := true }
          .next { s with mrm := { s.mrm with writes := s.mrm.writes ++ [MramWrite.charter copy es, MramWrite.record r] } }

/-- CHARTER_CHANGE_LANDS (R417): at the first boundary after both readbacks the new values are in force. -/
def execCharterChangeLands (s : State) : Host.Outcome State Fault Refusal :=
  match s.mrm.lands with
  | none => .next s
  | some b =>
    if s.tk.count < b then .next s
    else
      let slot := s.ledgerUsed
      let s1 := (s.charterInForce (s.mrm.copy s.charterCopy)).raise 108 s.deckAddr 0 slot 0
      let s2 := if slot = 15 then s1.raise 109 s.deckAddr 0 slot 0 else s1
      .next ({ s2 with mrm := { s2.mrm with lands := none } }.jobDone .success slot b)

/-! ### The calibration set (R418, R419) -/

/-- The check of a calibration set: word 1,023 is the CRC-32C of words 0 to 1,022. -/
def calSetOk (ws : List Word) : Bool :=
  decide (ws.length = 1024) &&
  decide (ws.getD 1023 0#32 = crc32c (((ws.take 1023).map (fun w => leBytes w.toNat 4)).flatten))

/-- The trims of a calibration set land in their registers: the inputs' trims have registers (Table 18-4). -/
def State.landTrims (s : State) (ws : List Word) : State :=
  (List.range 96).foldl (fun t i => t.setReg (0x5408 + 0x20 * i) (ws.getD i 0#32)) s

/-- CAL_WRITE (R419, R402): the block of the running command has been read. -/
def execCalWrite (block : List Byte) (s : State) : Host.Outcome State Fault Refusal :=
  match s.cwy.job with
  | none => .next s
  | some j =>
    let ws := (List.range 1024).map (fun i => (BitVec.ofNat 32 (blkNat block (4 * i) 4) : Word))
    if dOp j.cmd ≠ 0x61 ∨ s.jobBegun then .next s
    else if s.trl.frozen then .next s.jobFault
    else if !blockOk j.cmd block || decide (block.length ≠ 4096) || !calSetOk ws then
      .next (s.jobDone .invalidParameter 0 s.tk.count)
    else .next { s with mrm := { s.mrm with writes := s.mrm.writes ++ [.calStage ws, .calSwitch, .calClear] } }

/-- The staged set becomes the user's set: origin, count and stamp (R419). -/
def State.calOverwritten (s : State) : State :=
  { s with mrm := { s.mrm with
      calUser := true, calCount := satInc s.mrm.calCount max16, calStamp := s.calStamp s.tk.now, calLands := none } }

/-- CAL_SET_SWITCH (R419): at the first boundary after the switch the new trims land. -/
def execCalSetSwitch (s : State) : Host.Outcome State Fault Refusal :=
  match s.mrm.calLands with
  | none => .next s
  | some b =>
    if s.tk.count < b then .next s
    else
      let s1 := (s.calOverwritten).landTrims s.mrm.calSet
      .next ((s1.raise 110 s.deckAddr 0 s1.mrm.calCount 0).jobDone .success s1.mrm.calCount b)

/-! ### Update of firmware and image (R420) -/

/-- The copy that an update writes: the one that is not active. -/
def State.updateCopy (s : State) (target : Nat) : Nat := 1 - (if target = 0 then s.start.fwAct else s.start.imgAct)

/-- Mark the other copy of a target as pending or not. -/
def StartS.pend (x : StartS) (target : Nat) (p : Bool) : StartS :=
  if target = 0 then { x with fwPend := p, fwRej := x.fwRej && !p } else { x with imgPend := p, imgRej := x.imgRej && !p }

/-- UPDATE (R420, R402): the block of the running command has been read; the image proper is its first `proper` bytes. -/
def execUpdate (block : List Byte) (proper : Nat) (s : State) : Host.Outcome State Fault Refusal :=
  match s.cwy.job with
  | none => .next s
  | some j =>
    let target := dP j.cmd 24 1
    let fits := if target = 0 then decide (block.length ≤ 8388608)
      else decide (proper ≤ 2097152) && decide (proper ≤ block.length) && decide (block.length - proper ≤ 8388608)
    if dOp j.cmd ≠ 0x62 ∨ s.jobBegun then .next s
    else if s.trl.frozen then .next s.jobFault
    else if !blockOk j.cmd block || !fits then .next (s.jobDone .invalidParameter 0 s.tk.count)
    else
      .next { s with
        start := s.start.pend target false,
        mrm := { s.mrm with writes := s.mrm.writes ++ [.block target (s.updateCopy target) block proper] } }

/-- UPDATE_VERIFIED (R420): the signature over the written copy has been checked. -/
def execUpdateVerified (ok : Bool) (s : State) : Host.Outcome State Fault Refusal :=
  match s.cwy.job with
  | none => .next s
  | some j =>
    if s.mrm.blockDone then
      let target := dP j.cmd 24 1
      let copy := s.updateCopy target
      let s := { s with mrm := { s.mrm with blockDone := false } }
      if ok then
        .next (({ s with start := s.start.pend target true }.raise 111 s.deckAddr 1 target copy).jobDone .success copy s.tk.count)
      else .next (s.jobDone .signatureInvalid 0 s.tk.count)
    else .next s

/-! ### MRAM writes (R422 to R425) -/

/-- The place of a write in the order of R423. -/
def MramWrite.rank : MramWrite → Nat
  | .event e => if e.code < 32 then 0 else 3
  | .header _ => 1
  | .row _ _ _ => 2
  | _ => 4

/-- Take the first write of the least rank out of a queue. -/
def takeWrite : List MramWrite → Option (MramWrite × List MramWrite)
  | [] => none
  | w :: t =>
    match takeWrite t with
    | none => some (w, t)
    | some (v, r) => if v.rank < w.rank then some (v, w :: r) else some (w, t)

/-- The bytes of MRAM stand in their one canonical form: offsets strictly rising, no byte of 00 listed (what an unlisted
offset reads as, log 20). -/
abbrev Memory.wf (m : List Host.Cell) : Bool := Store.wf (fun _ => (0#8 : Byte)) m
/-- Write bytes into the MRAM from an offset; an unlisted byte reads 0 (log 20). -/
def memWrite (m : List Host.Cell) (off : Nat) (bytes : List Byte) : List Host.Cell :=
  (bytes.foldl (fun (acc : List Host.Cell × Nat) b => (Store.put (fun _ => (0#8 : Byte)) acc.1 acc.2 b, acc.2 + 1)) (m, off)).1
/-- A byte of the MRAM. -/
def memByte (m : List Host.Cell) (off : Nat) : Byte := Store.get (fun _ => (0#8 : Byte)) m off

/-- The word at a byte offset of the MRAM. -/
def memWord (m : List Host.Cell) (off : Nat) : Word :=
  BitVec.ofNat 32 (ofLe ((List.range 4).map (fun i => (memByte m (off + i)).toNat)))

/-- Start of the flux and table area of copy A or B in the MRAM (R161, Table 18-6). -/
def fluxBank (copy : Nat) : Nat := 0x1400000 + 0x800000 * copy
/-- The bytes of the flux map of T0 or T1 (R161): 1 MiB. -/
def fluxBytes (m : List Host.Cell) (copy t : Nat) : List Nat :=
  (List.range 0x100000).map (fun i => (memByte m (fluxBank copy + 0x100000 * t + i)).toNat)
/-- The copy of a flux map on the die, by word index (R161, R162). -/
def fluxMap (m : List Host.Cell) (copy t : Nat) : Store Word :=
  (List.range 0x40000).foldl (fun (acc : Store Word) i =>
    Store.put (fun _ => 0#32) acc i (memWord m (fluxBank copy + 0x100000 * t + 4 * i))) []
/-- The CRC that a map's descriptor holds: its first word (R162 names no place in the 4 KiB; DESIGN CHOICE, log 124). -/
def fluxDescriptor (m : List Host.Cell) (copy t : Nat) : Word := memWord m (fluxBank copy + 0x200000 + 0x1000 * t)

/-- The slot of a record directory. -/
def State.recSlot (s : State) (k : Nat) : RecSlot := Store.get (fun _ => RecSlot.free) s.mrm.slots k
/-- Change a slot of the recorder. -/
def State.updSlot (s : State) (k : Nat) (f : RecSlot → RecSlot) : State :=
  { s with mrm := { s.mrm with slots := Store.upd (fun _ => RecSlot.free) s.mrm.slots k f } }

/-- NSIG and PRE of MRM_REC_CFG. -/
def State.nsig (s : State) : Nat := fld (s.reg 0x33300) 0 9
/-- PRE. -/
def State.recPre (s : State) : Nat := fld (s.reg 0x33300) 16 12

/-- A row of the recorder was not written: a gap where it lies in the window of the slot's record (R423, R424). -/
def State.rowMissed (s : State) (slot : Nat) (n : Tick) : State :=
  s.updSlot slot (fun r => { r with
    missed := n :: r.missed.filter (fun m => decide (n < m + 4096)),
    gap := if (r.st = 2 ∨ r.st = 3) ∧ r.tick ≤ n + s.recPre then satInc r.gap max32 else r.gap })

/-- What a write that passed its readback does. -/
def State.written (s : State) (w : MramWrite) : State :=
  let m := s.mrm
  match w with
  | .event e => { s with mrm := { m with
      log := Store.put (fun _ => none) m.log (m.head % 129024) (some e), head := (m.head + 1) % 2 ^ 32 } }
  | .header k => { s with mrm := { m with hdrs := Store.put (fun _ => RecSlot.free) m.hdrs k (s.recSlot k) } }
  | .row slot n ws => { s with mrm := { m with
      mem := memWrite m.mem (0x2A00000 + 0x400000 * slot + 4 * s.nsig * (n % 4096))
        ((ws.map (fun x => (leBytes x.toNat 4).map (BitVec.ofNat 8))).flatten) } }
  | .charter copy vals =>
    if copy = 0 then { s with mrm := { m with copyA := copyOf vals } } else { s with mrm := { m with copyB := copyOf vals } }
  | .record r => { s with mrm := { m with
      ledger := m.ledger ++ [{ r with tick := s.tk.count + 1 }], lands := some (s.tk.count + 1) } }
  | .calStage ws => { s with mrm := { m with calStaged := ws } }
  | .calSwitch => { s with mrm := { m with calSet := m.calStaged, calLands := some (s.tk.count + 1) } }
  | .calClear => { s with mrm := { m with calStaged := [] } }
  | .block target copy bytes proper => { s with mrm := { m with
      mem := if target = 0 then memWrite m.mem (0x800000 * copy) bytes
        else memWrite (memWrite m.mem (0x1000000 + 0x200000 * copy) (bytes.take proper)) (0x1400000 + 0x800000 * copy) (bytes.drop proper),
      blockDone := true } }

/-- What a write that failed leaves (R417, R419, R420, R423): a gap, an interrupted change, or an entry that is written
again. -/
def State.writeFailed (s : State) (w : MramWrite) : State :=
  match w with
  | .event _ | .header _ => { s with mrm := { s.mrm with writes := w :: s.mrm.writes } }
  | .row slot n _ => s.rowMissed slot n
  | .record r => { s with mrm := { s.mrm with ledger := s.mrm.ledger ++ [{ r with valid := false }] } }.jobFault
  | .calClear => s
  | _ => s.jobFault

/-- MRAM_WRITE_DONE (R423): the readback of the write served next. Nothing is written during a freeze (R402). -/
def execMramWriteDone (ok : Bool) (s : State) : Host.Outcome State Fault Refusal :=
  if s.trl.frozen then .next s
  else
    match takeWrite s.mrm.writes with
    | none => .next s
    | some (w, rest) =>
      let s1 := { s with mrm := { s.mrm with writes := rest } }
      if ok then .next (s1.written w)
      else
        .next (({ s1 with mrm := { s1.mrm with wrFail := true } }.writeFailed w).raise 112 s.deckAddr 3 w.rank 0)

/-! ### The recorder (R427, R428) -/

/-- The slot to arm next: a free one, else the closed one with the lowest record number whose PROTECT is 0. -/
def State.slotToArm (s : State) : Option Nat :=
  match (List.range 5).filter (fun k => decide ((s.recSlot k).st = 0)) with
  | k :: _ => some k
  | [] =>
    ((List.range 5).filter (fun k => decide ((s.recSlot k).st = 3) && !(s.recSlot k).protect)).foldl (fun acc k =>
      match acc with
      | none => some k
      | some b => if (s.recSlot k).record < (s.recSlot b).record then some k else some b) none

/-- Arm the next slot where one can be armed (R428). -/
def State.armSlot (s : State) : State :=
  match s.slotToArm with
  | some k => let s1 := s.updSlot k (fun _ => { RecSlot.free with st := 1 })
              { s1 with mrm := { s1.mrm with open_ := some k } }
  | none => { s with mrm := { s.mrm with open_ := none } }

/-- Close the open record once its last row is due no more, and arm the next slot (R428). -/
def State.closeRecord (s : State) : State :=
  match s.mrm.open_ with
  | some k =>
    if (s.recSlot k).st = 2 ∧ (s.recSlot k).left = 0 then
      let s1 := s.updSlot k (fun r => { r with st := 3 })
      { s1 with mrm := { s1.mrm with writes := s1.mrm.writes ++ [MramWrite.header k] } }.armSlot
    else s
  | none => s

/-- RECORD_CLOSE (R428). -/
def execRecordClose (s : State) : Host.Outcome State Fault Refusal := .next s.closeRecord

/-- Complete a REC_TRIG with its record number (R427, R428). -/
def State.recTrigDone (s : State) (cmd : Option Staged) (n : Nat) : State :=
  match cmd with
  | some d => s.deckDone d .success n
  | none => s

/-- One trigger of the recorder (R427, R428). -/
def State.recTrigger (s : State) (t : RecTrig) : State :=
  match s.mrm.open_ with
  | none =>
    (({ s with mrm := { s.mrm with miss := satInc s.mrm.miss max32 } }).raise 113 s.deckAddr 1 t.code 0).recTrigDone t.cmd 0xFFFFFFFF
  | some k =>
    let r := s.recSlot k
    if r.st = 2 then
      (s.updSlot k (fun r => { r with
        extra := satInc r.extra max32, more := if r.more.length < 16 then r.more ++ [t.tick - r.tick] else r.more })).recTrigDone
        t.cmd r.record
    else
      let n := s.mrm.records + 1
      let pre := s.recPre
      let s1 := s.updSlot k (fun r => { r with
        st := 2, protect := decide (t.code < 32), record := n, tick := t.tick, pylon := s.boundary t.tick / uNs,
        cal := s.calStamp (s.boundary t.tick), code := t.code, addr := t.addr, cause := t.cause, val := t.val,
        first := (t.tick + 4096 - pre) % 4096, extra := 0, more := [], left := 4095 - pre + (t.tick + 1 - s.tk.count),
        gap := (r.missed.filter (fun m => decide (t.tick ≤ m + pre))).length })
      let s2 := { s1 with mrm := { s1.mrm with records := n, writes := s1.mrm.writes ++ [MramWrite.header k] } }
      (s2.raise 113 s.deckAddr 0 n 0).recTrigDone t.cmd n

/-- The recorder in Φ3 from deck ready (R427): the triggers of the tick, then the row of the slot that is armed or open. -/
def State.recorder (s0 : State) (words : List Word) : State :=
  if s0.start.ready then
    let s := s0.closeRecord
    let s := (s.mrm.trigs).foldl State.recTrigger { s with mrm := { s.mrm with trigs := [] } }
    match s.mrm.open_ with
    | none => s
    | some k =>
      let n := s.tk.count
      let r := s.recSlot k
      if r.st = 2 ∧ r.left = 0 then s
      else
        let s1 := if s.trl.frozen then s.rowMissed k n
          else { s with mrm := { s.mrm with writes := s.mrm.writes ++ [.row k n words] } }
        if r.st = 2 then s1.updSlot k (fun r => { r with left := r.left - 1 }) else s1
  else s0

/-- REC_SLOT_RELEASE (R428): the named slots that hold a closed record are released at the next boundary. -/
def execRecSlotRelease (mask : BitVec 5) (s : State) : Host.Outcome State Fault Refusal :=
  .next { s with mrm := { s.mrm with
    release := (List.range 5).foldl (fun l k => if mask.toNat.testBit k then addSet k l else l) s.mrm.release } }

/-- Releases take effect at a boundary; a freed slot is armed where none is. -/
def State.releaseBoundary (s : State) : State :=
  if s.mrm.release = [] then s
  else
    let s1 := (s.mrm.release.filter (fun k => decide ((s.recSlot k).st = 3))).foldl (fun t k => t.updSlot k (fun _ => RecSlot.free)) s
    let s2 := { s1 with mrm := { s1.mrm with release := [] } }
    if s2.start.ready ∧ s2.mrm.open_ = none then s2.armSlot else s2

/-! ### Failed starts and abutment mode (R410, R412, R421) -/

/-- A pending copy is marked rejected when its start fails; E111 with cause 3 "reverted" (R421). -/
def State.rejectPending (s : State) : State :=
  let s := if s.start.fwPend then
    { s with start := { s.start with fwPend := false, fwRej := true } }.raise 111 s.deckAddr 3 0 (1 - s.start.fwAct : Nat) else s
  if s.start.imgPend then
    { s with start := { s.start with imgPend := false, imgRej := true } }.raise 111 s.deckAddr 3 1 (1 - s.start.imgAct : Nat) else s

/-- Enter abutment mode with a cause: E098; every pier enable is removed, so that every leg is off, and the launch table
and the ticks stop (R412). What was staged is applied on the service tick (log 134). -/
def State.abutment (s : State) (cause : Nat) : State :=
  let s1 := { s with
    start := { s.start with
      abut := true, abutCause := cause, step := 0, ready := false, running := false, ticking := false, go := false,
      abutDue := false, service := 0 }
    par := { s.par with availLegs := [], availSpans := [] }
    cwy := { s.cwy with staged := s.cwy.staged.map (fun d => { d with bound := 2, late := false, lateCause := 0 }) }
    vdt := VdtS.reset }
  let s2 := (List.range 48).foldl (fun (t : State) p => t.updPort p (fun x => { x with st := .off, tx := none })) s1
  (s2.raise 98 s.deckAddr cause 0 0).driveAll allLegs

/-- A start fails with a cause of Table 18-2 (R410). -/
def State.startFail (s : State) (cause : Nat) : State :=
  let count := min 3 (s.start.failCount + 1)
  let step := s.start.step
  let s1 := { s with start := { s.start with
    failCount := count, lastCause := cause, lastStep := step, running := false, ticking := false, ready := false, go := false,
    failedAt := if count < 3 then some s.tk.now else none } }
  let s2 := (s1.raise 97 s.deckAddr cause step 0).rejectPending
  if 3 ≤ count then s2.abutment cause else s2

/-! ### The readout (R425, Tables 14-6, 18-3, 18-6, 18-7) -/

/-- The 32 bytes of an event entry (Table 14-6). -/
def eventBytes (role : Nat) (e : Event) : List Nat :=
  [e.code % 256, b2n e.coalesced + 2 * b2n e.queued + 4 * role] ++ leBytes e.addr.toNat 2 ++
  leBytes (Config.detailWord e.code e.cause e.val).toNat 4 ++ leBytes e.pylon 8 ++ leBytes e.cal 8 ++
  leBytes (wdI e.val2).toNat 4 ++ leBytes e.count 4

/-- The 256 bytes of a record header (Table 18-7). -/
def State.headerBytes (s : State) (slot : Nat) (h : RecSlot) : List Nat :=
  let cause := if h.code = 0xFF then h.cause else (Config.detailWord h.code h.cause h.val).toNat
  let b := leBytes 0x5EC0 2 ++ [slot, h.st] ++ leBytes h.record 4 ++ leBytes h.tick 8 ++ leBytes h.pylon 8 ++ leBytes h.cal 8 ++
    [h.code, b2n h.protect + 2 * b2n (decide (h.gap ≠ 0))] ++ leBytes s.nsig 2 ++ leBytes s.recPre 2 ++ leBytes h.addr.toNat 2 ++
    leBytes cause 4 ++ leBytes h.first 4 ++ leBytes h.gap 4 ++ leBytes h.extra 4 ++
    ((List.range 16).map (fun i => leBytes (h.more.getD i 0) 4)).flatten ++ List.replicate 132 0
  b ++ leBytes (crc32c b).toNat 4

/-- Four bytes of a byte string as a word. -/
def wordAt (bytes : List Nat) (off : Nat) : Word := BitVec.ofNat 32 (ofLe ((bytes.drop off).take 4))

/-- The word at an MRAM byte offset, word-aligned (R425, Table 18-6). The inner layout of the calibration and charter
partitions is not given: their words are free values (log 64). -/
def State.mramWord (s : State) (off : Nat) : Word :=
  if off < 0x1000000 then 0#32
  else if off < 0x2400000 ∨ (0x2A00000 ≤ off ∧ off < 0x3E00000) then
    memWord s.mrm.mem off
  else if off < 0x2600000 then Config.freeMramWord off s.freeCtr
  else if off < 0x2610000 then
    let k := (off - 0x2600000) / 256
    let h := Store.get (fun _ => RecSlot.free) s.mrm.hdrs k
    if k < 5 ∧ h.record ≠ 0 then wordAt (s.headerBytes k h) (off % 256) else 0#32
  else if off < 0x2A00000 then
    match Store.get (fun _ => none) s.mrm.log ((off - 0x2610000) / 32) with
    | some e => wordAt (eventBytes (s.roleBit / 0x8000) e) (off % 32)
    | none => 0#32
  else 0#32

end Sys2Proof.Machine
end

