-- ==== Sys2Proof/Machine/Trestle.lean ====
section
/-! DEFINITION. The Trestle round, its thresholds and derates, the Bearing supply and the VSUP states (chapter 17). -/
namespace Sys2Proof.Machine

/-! ### Channels (R393 to R399) -/

/-- Channel c. -/
def TrlS.chanS (t : TrlS) (c : Nat) : ChanS := Store.get (fun _ => ChanS.init) t.chan c
/-- The temperature channels (Table 17-1). -/
def isTempChan (c : Nat) : Bool := decide (c ≤ 25) || (decide (27 ≤ c) && decide (c ≤ 47)) || decide (c = 57)
/-- TYPE of a TS input (R394). -/
def State.tsType (s : State) (c : Nat) : Nat :=
  if c < 16 then fld (s.reg 0x3200C) (2 * c) 2 else fld (s.reg 0x32010) (2 * (c - 16)) 2
/-- The channel is a TS input that is not used, or a reserved channel: it reads 0 and is never evaluated (R394). -/
def State.chanUnused (s : State) (c : Nat) : Bool :=
  (decide (c < 24) && decide (s.tsType c = 0)) || decide (58 ≤ c)
/-- SCOPE of a channel. -/
def State.chanScope (s : State) (c : Nat) : Nat := fld (s.reg (0x32400 + 0x20 * c)) 1 4
/-- The channel is evaluated (Table 17-5 EN). -/
def State.chanOn (s : State) (c : Nat) : Bool :=
  isTempChan c && bitOf (s.reg (0x32400 + 0x20 * c)) 0 && !s.chanUnused c
/-- LEVEL and HYST of the warning (0), throttle (1) or shut-down (2) threshold. -/
def State.chanLevel (s : State) (c k : Nat) : Int := sfld (s.reg (0x32408 + 0x20 * c + 4 * k)) 0 16
/-- HYST. -/
def State.chanHyst (s : State) (c k : Nat) : Int := fld (s.reg (0x32408 + 0x20 * c + 4 * k)) 16 8

/-- R397: the effective value and the factor of a channel from VALUE and the effective value before. With SHUT equal to
THROT, which no signed image holds, the quotient is not stated: a free value (log 34). -/
def throttleFactor (v ve throt shut hthr : Int) : Int × Int :=
  let e := if ve < v then v else if v + hthr < ve then v + hthr else ve
  (e, if shut - throt = 0 then (Config.freeThrottle shut e).toNat else clampI (rheQ ((shut - e) * one24) (shut - throt)) 0 one24)

/-- A reading as VALUE, and the way in which a temperature channel is broken (R395). -/
def readingOf (temp : Bool) (last : Int) : Reading → Int × Bool × Bool
  | .value v => (sat16 v, false, false)
  | .opened => if temp then (2500, true, false) else (last, false, false)
  | .shorted => if temp then (2500, false, true) else (last, false, false)

/-- An event of the Trestle; it names the channel and VALUE. -/
def State.chanEvent (s : State) (code cause c : Nat) (v : Int) : State := s.raise code s.deckAddr cause c v

/-- One channel of a round: broken, warning, throttle and shut-down states with their events (R395 to R399). -/
def State.postChannel (s : State) (c : Nat) (r : Reading) : State :=
  let old := s.trl.chanS c
  if s.chanUnused c then s
  else
    let (v, bo, bs) := readingOf (isTempChan c) old.value r
    if !s.chanOn c then
      { s with trl := { s.trl with chan := Store.put (fun _ => ChanS.init) s.trl.chan c { old with value := v } } }
    else
      let (e, f) := throttleFactor v (old.ve.getD v) (s.chanLevel c 1) (s.chanLevel c 2) (s.chanHyst c 1)
      let warn := if old.warn then decide (s.chanLevel c 0 - s.chanHyst c 0 ≤ v) else decide (s.chanLevel c 0 ≤ v)
      let shut := if old.shut then decide (s.chanLevel c 2 - s.chanHyst c 2 ≤ v) else decide (s.chanLevel c 2 ≤ v)
      let throt := decide (s.chanLevel c 1 ≤ e)
      let broke := (bo && !old.brokenOpen) || (bs && !old.brokenShort)
      let t := { s.trl with
        chan := Store.put (fun _ => ChanS.init) s.trl.chan c
          { value := v, warn := warn, throt := throt, shut := shut, brokenOpen := bo, brokenShort := bs, ve := some e, f := f },
        brokenSeen := s.trl.brokenSeen || broke, shutSeen := s.trl.shutSeen || (shut && !old.shut) }
      let s := { s with trl := t }
      let s := if broke then s.chanEvent 102 (if bo then 1 else 2) c v else s
      let s := if warn = old.warn then s else s.chanEvent 99 (if warn then 0 else 1) c v
      let s := if throt = old.throt then s else s.chanEvent 100 (if throt then 4 else 5) c v
      if shut && !old.shut then s.chanEvent 101 0 c v else s

/-- The lowest factor of the enabled channels of a scope; 1.0 where there are none (R398). -/
def State.scopeFactor (s : State) (scope : Nat) : Int :=
  ((List.range 58).filter (fun c => s.chanOn c && decide (s.chanScope c = scope))).foldl
    (fun m c => minI m (s.trl.chanS c).f) one24

/-- The coolant derates from fc: of Q, of T0 and T1, of C (R398). -/
def coolantDerates (fc : Int) : Int × Int × Int :=
  (clampI (3 * fc - 2 * one24) 0 one24, clampI (3 * fc - one24) 0 one24, clampI (3 * fc) 0 one24)

/-- E100 for a derate of a span (R398): cause 1 leaves 1.0, 2 reaches 0, 3 returns to 1.0. -/
def State.derateEvent (s : State) (old new : Int) (xs : List Span) : State :=
  xs.foldl (fun t x =>
    let t := if old = one24 ∧ new ≠ one24 then t.raise 100 (t.spanAddr x) 1 new 0 else t
    let t := if old ≠ 0 ∧ new = 0 then t.raise 100 (t.spanAddr x) 2 new 0 else t
    if old ≠ one24 ∧ new = one24 then t.raise 100 (t.spanAddr x) 3 new 0 else t) s

/-- The spans that a shut-down channel of a scope affects (R399). -/
def scopeSpans (scope : Nat) : List Span :=
  if scope = 14 then [.t0, .t1, .c, .q] else match Span.ofCode? scope with | some x => [x] | none => []

/-- The factors and the shut-down spans after the channels of a round (R398, R399). -/
def State.postFactors (s : State) : State :=
  let fc := s.scopeFactor 14
  let (fq, ft, fcc) := coolantDerates fc
  let shut := ((List.range 58).filter (fun c => s.chanOn c && (s.trl.chanS c).shut)).foldl
    (fun l c => (scopeSpans (s.chanScope c)).foldl (fun l x => addSet x l) l) []
  let ftr := (List.range 9).foldl (fun m k => Store.put (fun _ => one24) m k (s.scopeFactor k)) []
  let t := s.trl
  let s1 := { s with trl := { t with
    fc := fc, fq := fq, ft := ft, fcc := fcc, shutSpans := Span.all.filter (fun x => shut.contains x),
    ftr := ftr } }
  ((s1.derateEvent t.fq fq [.q]).derateEvent t.ft ft [.t0, .t1]).derateEvent t.fcc fcc [.c]

/-! ### Bearing supply (R400, R401) -/

/-- TRL_STATE.BRG. -/
def BrgSt.code : BrgSt → Nat
  | .off => 0 | .starting => 1 | .on => 2 | .fault => 3 | .latched => 4

/-- The Bearing supply changes its state: E103 with the new state and the cause, the row of R400's table that it follows
(1 link present, 2 in band, 3 start timeout, 4 output out of band, 5 link lost, 6 hold ended). Leaving ON it is out of
regulation (R135). -/
def State.brgTo (s : State) (st : BrgSt) (cause : Nat) : State :=
  let was := s.trl.brgRun
  let fault := decide (st = BrgSt.fault)
  let s1 := { s with trl := { s.trl with
    brg := st, brgAt := s.tk.now, brgOut := 0,
    brgFaults := if fault then s.tk.now :: s.trl.brgFaults else s.trl.brgFaults,
    brgCount := if fault then satInc s.trl.brgCount max16 else s.trl.brgCount,
    brgFault := s.trl.brgFault || fault } }
  let s2 := s1.raise 103 s.deckAddr cause st.code 0
  if was then s2.hvSupplyLost else s2

/-- Entries into FAULT within the last 10 s (R400). -/
def State.brgRecent (s : State) : Nat :=
  min 3 (s.trl.brgFaults.filter (fun t => decide (s.tk.now ≤ t + 10000000000 * uNs))).length

/-- BEARING_LINK_PRESENT (R400): the link has stood at or above 300 V for 1 ms, counted from the later of the entry into
OFF and its last rise. -/
def execBearingLinkPresent (ofs : Nat) (s0 : State) : Host.Outcome State Fault Refusal :=
  let s := s0.at ofs
  .next (if s.trl.brg = .off ∧ s.passed (s.trl.brgAt + 1000000 * uNs) then s.brgTo .starting 1 else s)

/-- BEARING_OUTPUT_IN_BAND (R400): the output has stood within 28.5 to 31.5 V for 2 ms. -/
def execBearingOutputInBand (ofs : Nat) (s0 : State) : Host.Outcome State Fault Refusal :=
  let s := s0.at ofs
  .next (if s.trl.brg = .starting then s.brgTo .on 2 else s)

/-- BEARING_START_TIMEOUT (R400): 20 ms after the entry into STARTING. -/
def execBearingStartTimeout (s : State) : Host.Outcome State Fault Refusal :=
  let t := s.trl.brgAt + 20000000 * uNs
  .next (if s.trl.brg = .starting ∧ s.reaches t then (s.goto t).brgTo .fault 3 else s)

/-- BEARING_LINK_LOSS (R400, R135): the link is below 300 V. -/
def execBearingLinkLoss (ofs : Nat) (s0 : State) : Host.Outcome State Fault Refusal :=
  let s := s0.at ofs
  .next (if s.trl.brg = .starting ∨ s.trl.brg = .on then s.brgTo .off 5 else s)

/-- BEARING_FAULT_HOLD_END (R400): 100 ms after the entry into FAULT; with 3 entries within 10 s the supply latches. -/
def execBearingFaultHoldEnd (s : State) : Host.Outcome State Fault Refusal :=
  let t := s.trl.brgAt + 100000000 * uNs
  if s.trl.brg = .fault ∧ s.reaches t then
    let s1 := s.goto t
    .next (if 3 ≤ s1.brgRecent then s1.brgTo .latched 6 else s1.brgTo .off 6)
  else .next s

/-- The output of the Bearing supply in a round: three rounds out of band while ON are a fault (R400). -/
def State.postBearing (s : State) : State :=
  let v := (s.trl.chanS 51).value
  if s.trl.brg = .on then
    let out := if 2850 ≤ v ∧ v ≤ 3150 then 0 else s.trl.brgOut + 1
    if 3 ≤ out then s.brgTo .fault 4 else { s with trl := { s.trl with brgOut := out } }
  else s

/-- TRESTLE_ROUND_POST (R393): round r is posted at (r + 1) ms + 20 µs: the round after the one posted last, or the latest
whose posting instant has come. A die channel in shut-down ends a start (R408). A channel that the command does not name reads as in the round before. -/
def execTrestleRoundPost (rs : List (Chan × Reading)) (s0 : State) : Host.Outcome State Fault Refusal :=
  let ms := 1000000 * uNs
  let late := (s0.tk.now - 20000 * uNs) / ms - 1
  let r := max (if s0.trl.posted then s0.trl.round + 1 else 0) late
  let t := (r + 1) * ms + 20000 * uNs
  if s0.reaches t then
    let s := s0.goto t
    let s := { s with trl := { s.trl with round := r, posted := true } }
    let s : State := (List.range 64).foldl (fun (t : State) c =>
      match rs.find? (fun p => decide (p.1.val = c)) with
      | some p => t.postChannel c p.2
      | none => if t.trl.posted && isTempChan c then t.postChannel c (match t.trl.chanS c with
          | x => if x.brokenOpen then .opened else if x.brokenShort then .shorted else .value x.value) else t) s
    let s : State := s.postBearing.postFactors
    let die : Bool := (List.range 4).any (fun k => (s.trl.chanS (42 + k)).shut)
    .next (if s.start.running ∧ die then s.startFail 19 else s)
  else .next s0

/-- The Trestle limits of the last round posted become the inputs of the tick that opens (R393, Table 02-3). -/
def State.trestleInputs (s : State) : State :=
  let t := s.trl
  { s with trl := { t with
      inFtr := t.ftr, inQ := t.fq, inT := t.ft, inC := t.fcc, inShut := t.shutSpans, inLong := decide (t.vsup = .long) } }

/-! ### VSUP (R402 to R404) -/

/-- A crossing, in ns, has stood for the 10 µs of the warning comparator's filter (R402, R403). -/
def State.filtered (s : State) (cross : Nat) : Bool := s.passed ((cross + 10000) * uNs)

/-- VSUP_WARN (R402): the crossing of 7.2 V, in ns, has been confirmed by the filter; MRAM writes freeze. A shorter fall is no
dip. -/
def execVsupWarn (cross : Nat) (ofs : Nat) (s0 : State) : Host.Outcome State Fault Refusal :=
  let s := s0.at ofs
  if s.trl.vsup = .normal ∧ s.filtered cross then
    let s := { s with trl := { s.trl with vsup := .warn, tw := min cross (s.tk.now / uNs) / 1000 * 1000, frozen := true } }
    let s := (s.raise 105 s.deckAddr 0 0 0).raise 112 s.deckAddr 1 0 0
    .next (if s.mrm.writes.any MramWrite.isChange then s.jobFault else s)
  else .next s

/-- The events dropped in a freeze are noted in the event log after it (R424). -/
def State.thaw (s : State) : State :=
  let m := s.mrm
  let s1 := { s with trl := { s.trl with frozen := false }, mrm := { m with heldOther := 0, dropped := 0 } }
  s1.raise 112 s.deckAddr 2 m.dropped 0

/-- VSUP_DIP_END (R403): the crossing of 7.6 V, in ns, has been confirmed by the filter. A shorter rise ends nothing. -/
def execVsupDipEnd (cross : Nat) (ofs : Nat) (s0 : State) : Host.Outcome State Fault Refusal :=
  let s := s0.at ofs
  if s.trl.vsup = .normal ∨ s.filtered cross = false then .next s
  else
    let d := min ((min cross (s.tk.now / uNs) / 1000 * 1000 - s.trl.tw) / 1000) max32
    let s := { s with trl := { s.trl with vsup := .normal } }
    let s := s.thaw.raise 106 s.deckAddr 0 d 0
    .next { s with trl := { s.trl with
      dipLast := d, dipMax := max s.trl.dipMax d, dipCount := satInc s.trl.dipCount max32, dip := true } }

/-- The instant of LONG: t_w + 50 ms (R404). -/
def State.longAt (s : State) : Instant := (s.trl.tw + 50000000) * uNs
/-- The orders of a snapshot with those of a long dip: T0, T1, C, Q and B (R404). -/
def SnapS.dipped (p : SnapS) : SnapS := { p with orders := Span.all.filter (fun x => p.orders.contains x || decide (x.code ≤ 4)) }

/-- VSUP_LONG_DIP (R404): the deck is still in WARN at t_w + 50 ms; the order holds from the tick in progress. -/
def execVsupLongDip (s : State) : Host.Outcome State Fault Refusal :=
  if s.trl.vsup = .warn ∧ s.reaches s.longAt then
    let s1 := s.goto s.longAt
    .next (({ s1 with
      trl := { s1.trl with vsup := .long, longDip := true, inLong := true }
      opened := s1.opened.dipped
      snap := s1.snap.dipped }).raise 107 s.deckAddr 0 0 0)
  else .next s

end Sys2Proof.Machine
end

