-- ==== Sys2Proof/Machine/Ports.lean ====
section
/-! DEFINITION. The field ports, the identifier ledger and the partners (chapter 16). -/
namespace Sys2Proof.Machine

/-! ### Ports and objects -/

/-- Message object o of a port. -/
def PortS.objS (x : PortS) (o : Nat) : ObjS := Store.get (fun _ => ObjS.init) x.obj o
/-- Object o of port p. -/
def State.obj (s : State) (p o : Nat) : ObjS := (s.port p).objS o
/-- Change object o of port p. -/
def State.updObj (s : State) (p o : Nat) (f : ObjS → ObjS) : State :=
  s.updPort p (fun x => { x with obj := Store.upd (fun _ => ObjS.init) x.obj o f })
/-- Change each object of port p that the image configures. -/
def State.mapObjs (s : State) (p : Nat) (f : ObjS → ObjS) : State :=
  (List.range 128).foldl (fun t o => if (t.obj p o) = ObjS.init then t else t.updObj p o f) s
/-- Partner record n. -/
def State.partner (s : State) (n : Nat) : PtnS := Store.get (fun _ => PtnS.init) s.fp.ptn n
/-- Change partner record n. -/
def State.updPartner (s : State) (n : Nat) (f : PtnS → PtnS) : State :=
  { s with fp := { s.fp with ptn := Store.upd (fun _ => PtnS.init) s.fp.ptn n f } }
/-- Ledger slot n. -/
def FpS.ldg (x : FpS) (n : Nat) : LdgSlot := Store.get (fun _ => LdgSlot.empty) x.slot n

/-- FPnn_CFG. -/
def State.fpCfg (s : State) (p : Nat) : Word := s.reg (0x20000 + 0x400 * p)
/-- The object that FPnn_OBJ_SEL names. -/
def State.objSel (s : State) (p : Nat) : Nat := fld (s.reg (0x20080 + 0x400 * p)) 0 7

/-- USED. -/
def ObjS.used (x : ObjS) : Bool := bitOf x.cfg 0
/-- DIR 1: send. -/
def ObjS.send (x : ObjS) : Bool := bitOf x.cfg 0 && bitOf x.cfg 1
/-- FMT. -/
def ObjS.fmt (x : ObjS) : Nat := fld x.cfg 2 2
/-- SRC. -/
def ObjS.src (x : ObjS) : Nat := fld x.cfg 4 2
/-- DLEN. -/
def ObjS.dlen (x : ObjS) : Nat := fld x.pub 0 12
/-- The bytes a send object gives to a frame: for XL the acceptance field first (R375). -/
def ObjS.data (x : ObjS) : List Byte :=
  (List.range (x.dlen + (if x.fmt = 3 then 4 else 0))).map (fun i => Store.get (fun _ => (0#8 : Byte)) x.buf i)
/-- A buffer that holds bytes from offset 0. -/
def bufOf (bytes : List Byte) : Store Byte :=
  (bytes.foldl (fun (acc : Store Byte × Nat) b => (Store.put (fun _ => (0#8 : Byte)) acc.1 acc.2 b, acc.2 + 1)) ([], 0)).1

/-- The order of entries on the bus: the identifier as the standard orders it (base identifier, base before extended, the
extension), then the format (R373). -/
def arbValue (id : Word) (fmt : Nat) : Nat :=
  let base := if bitOf id 29 then fld id 18 11 else fld id 0 11
  let ext := if bitOf id 29 then fld id 0 18 else 0
  ((base * 2 + b2n (bitOf id 29)) * 262144 + ext) * 4 + (if fmt = 0 then 0 else if fmt = 3 then 2 else 1)

/-- E090 or E091 for an object: port and object in DETAIL, the identifier in DETAIL2. -/
def State.objEvent (s : State) (code cause p o : Nat) : State :=
  s.raise code s.deckAddr cause (p * 128 + o : Nat) (fld (s.obj p o).id 0 29 : Nat)

/-- The port takes part in bus traffic. -/
def PortS.onBus (x : PortS) : Bool := decide (x.st = .active) || decide (x.st = .passive)

/-! ### Choosing what to send (R373) -/

/-- An object takes part in the choice: pending, not suspended, not withheld, not stranded. -/
def ObjS.offered (x : ObjS) : Bool := x.send && x.pend && !x.susp && !x.strand && !x.rerouted && decide (x.backoff = 0)

/-- The candidates of a port with their order: arbitration value, then objects by number, then queue entries. -/
def State.candidates (s : State) (p : Nat) : List (Nat × TxNow) :=
  let x := s.port p
  let objs := (List.range 128).filterMap (fun o =>
    let b := x.objS o
    if b.offered then
      some (arbValue b.id b.fmt, { port := p, obj := o, data := b.data, queued := false, again := false, aborted := false })
    else none)
  objs ++ x.queue.filterMap (fun e =>
    let b := s.obj e.port e.obj
    if b.susp || decide (b.backoff ≠ 0) then none
    else some (arbValue b.id b.fmt, { port := e.port, obj := e.obj, data := e.data, queued := true, again := false, aborted := false }))

/-- The first candidate with the least value. -/
def leastEntry : List (Nat × TxNow) → Option (Nat × TxNow)
  | [] => none
  | c :: t => match leastEntry t with
    | none => some c
    | some d => if d.1 < c.1 then some d else some c

/-- A port that may start a frame begins an attempt with the entry of the lowest arbitration value (R373, R375). -/
def State.offer (s : State) (p : Nat) : State :=
  let x := s.port p
  if x.onBus ∧ x.tx = none then
    match leastEntry (s.candidates p) with
    | some c => s.updPort p (fun x => { x with tx := some c.2 })
    | none => s
  else s

/-! ### Stranding and re-routing (R384 to R386) -/

/-- The alternate port that takes a stranded object, where every condition of R386 holds. -/
def State.altPort (s : State) (p o : Nat) : Option Nat :=
  let b := s.obj p o
  let n := fld b.cfg 18 13
  let r := s.partner n
  let alt := r.alt
  let y := s.port alt
  let w := s.fpCfg alt
  let fmtOk := if b.fmt = 0 then true else if b.fmt = 3 then bitOf w 2 else bitOf w 1
  if b.strand ∧ ¬ b.rerouted ∧ bitOf b.cfg 6 ∧ n < 4096 ∧ r.st ≠ 0 ∧ alt < 48 ∧ alt ≠ p ∧ y.onBus ∧ fmtOk ∧ y.queue.length < 8
      ∧ ¬ (p = 0 ∧ o = 127 ∧ bitOf (s.reg 0x2048) 31) then some alt
  else none

/-- Test a stranded object under R386 and copy its frame into the alternate queue. -/
def State.reroute (s : State) (p o : Nat) : State :=
  match s.altPort p o with
  | some a =>
    let s1 := s.updPort a (fun y => { y with queue := y.queue ++ [{ port := p, obj := o, data := (s.obj p o).data }] })
    ((s1.updObj p o (fun b => { b with rerouted := true })).objEvent 90 2 p o).offer a
  | none => s

/-- An object becomes stranded (R384). -/
def State.strandObj (s : State) (p o : Nat) : State :=
  ((s.updObj p o (fun b => { b with strand := true })).objEvent 90 1 p o).reroute p o

/-- An object has something to send: pending, or stranded while its port is BUS_OFF (R386 row 4). -/
def State.request (s : State) (p o : Nat) : State :=
  let s1 := s.updObj p o (fun b => { b with pend := true })
  if (s.port p).st = .busOff ∧ ¬ (s.obj p o).strand ∧ ¬ (s.obj p o).susp then s1.strandObj p o else s1.offer p

/-- Take an object's copy out of the alternate queue (R386 row 4). -/
def State.unqueue (s : State) (p o : Nat) : State :=
  if (s.obj p o).rerouted then
    let hit := fun (e : RrEntry) => decide (e.port = p) && decide (e.obj = o)
    let s1 := (List.range 48).foldl (fun t a =>
      if (t.port a).queue.any hit then t.updPort a (fun y => { y with queue := y.queue.filter (fun e => !hit e) }) else t) s
    s1.updObj p o (fun b => { b with rerouted := false })
  else s

/-- A new request takes the copy of a re-routed object out of the queue, and the object stands as not yet stranded (R386 row 4). -/
def State.withdraw (s : State) (p o : Nat) : State :=
  if (s.obj p o).rerouted then (s.unqueue p o).updObj p o (fun b => { b with strand := false }) else s

/-- A port enters BUS_OFF (R384, R385). -/
def State.enterBusOff (s : State) (p : Nat) : State :=
  let back := (s.port p).queue
  let s1 := s.updPort p (fun x => { x with
    st := .busOff, busoffSeen := true, busoffs := satInc x.busoffs max16, tx := none, queue := [], offAt := s.tk.now })
  let s2 := (s1.mapObjs p (fun b => { b with collRun := 0, backoff := 0 })).raise 89 s.deckAddr 1 p 0
  let s3 := back.foldl (fun t e =>
    let free := (t.port e.port).onBus
    (t.updObj e.port e.obj (fun b => { b with rerouted := false, strand := b.strand && !free })).offer e.port) s2
  (List.range 128).foldl (fun t o =>
    let b := t.obj p o
    if b.send && b.pend && !b.susp && !b.strand then t.strandObj p o else t) s3

/-- The state of confinement after the counters changed (Table 16-5). -/
def State.confine (s : State) (p : Nat) : State :=
  let x := s.port p
  if 255 < x.txErr ∧ x.onBus then s.enterBusOff p
  else
    let high : Bool := decide (127 < x.txErr) || decide (127 < x.rxErr)
    if high ∧ x.st = .active then
      (s.updPort p (fun x => { x with st := .passive, passiveSeen := true })).raise 88 s.deckAddr 1 (p : Int) (x.txErr * 256 + x.rxErr : Nat)
    else if ¬ high ∧ x.st = .passive then
      (s.updPort p (fun x => { x with st := .active })).raise 88 s.deckAddr 2 (p : Int) 0
    else s

/-- A frame was completed on the bus: the back-off counts of the entries that the port offers fall (R389). -/
def State.frameDone (s : State) (p : Nat) : State :=
  (s.port p).queue.foldl (fun t e => t.updObj e.port e.obj (fun b => { b with backoff := b.backoff - 1 }))
    (s.mapObjs p (fun b => if b.rerouted then b else { b with backoff := b.backoff - 1 }))

/-! ### Sending (R373, R375, R388, R389) -/

/-- An attempt ended in success. -/
def State.sentFrame (s : State) (p : Nat) (t : TxNow) : State :=
  let s1 := (s.updPort p (fun x => { x with
    txErr := x.txErr - 1, txCount := satInc x.txCount max16, sent := some ((s.obj t.port t.obj).id, t.data) })).frameDone p
  if t.queued then
    let hit := fun (e : RrEntry) => decide (e.port = t.port) && decide (e.obj = t.obj)
    if (s.port p).queue.any hit then
      let s2 := s1.updPort p (fun x => { x with queue := x.queue.filter (fun e => !hit e), rrSent := satInc x.rrSent max16 })
      (s2.updObj t.port t.obj (fun b => { b with
        pend := false, strand := false, rerouted := false, collRun := 0, count := satInc b.count max16 })).objEvent 90 3 t.port t.obj
    else s1
  else
    s1.updObj p t.obj (fun b => { b with pend := t.again, collRun := 0, count := satInc b.count max16 })

/-- A collision of an entry of port p: counted, reported, and the policy of R389 applied to its object. An entry of a
re-route queue goes by the settings of the port that sends it (DEDUCED, log 133). -/
def State.collision (s : State) (p : Nat) (t : TxNow) : State :=
  let w := s.fpCfg p
  let s1 := (s.updPort p (fun x => { x with collCount := satInc x.collCount max32, collSeen := true })).objEvent 91 0 t.port t.obj
  if bitOf w 16 then s1.updObj t.port t.obj (fun b => { b with collRun := 0, susp := true })
  else
    let k := (Config.freeBackoff s1.freeCtr).val + 1
    { s1 with freeCtr := s1.freeCtr + 1 }.updObj t.port t.obj (fun b => { b with collRun := 0, backoff := k })

/-- An attempt ended in an error: counters, collision runs and confinement. -/
def State.failedFrame (s : State) (p : Nat) (t : TxNow) (tec : Nat) (coll : Bool) : State :=
  let s1 := s.updPort p (fun x => { x with txErr := min 256 (x.txErr + tec), errCount := satInc x.errCount max16 })
  let s2 := s1.updObj t.port t.obj (fun b => { b with collRun := if coll then b.collRun + 1 else 0, pend := b.pend || t.again })
  let s3 := s2.confine p
  if (s3.port p).st = .busOff then s3
  else if coll && decide (fld (s.fpCfg p) 12 4 ≤ (s2.obj t.port t.obj).collRun) then s3.collision p t
  else s3

/-- The transmitter delay of an entry's frame is measured: TDC_EN, and an FD or XL frame (R371). -/
def State.measures (s : State) (p : Nat) (t : TxNow) : Bool :=
  bitOf (s.reg (0x20014 + 0x400 * p)) 0 && decide ((s.obj t.port t.obj).fmt ≠ 0)

/-- The measured delay stands in FPnn_TDC_MEAS, saturating at 255. -/
def State.measured (s : State) (p : Nat) (t : TxNow) (d : Nat) : State :=
  if s.measures p t then s.updPort p (fun x => { x with tdc := min 255 d }) else s

/-- FRAME_ATTEMPT_END (R366, R371, R373, R375, R388): the attempt in progress on the port ends. -/
def execFrameAttemptEnd (p : Port) (e : AttemptEnd) (ofs : Nat) (s0 : State) : Host.Outcome State Fault Refusal :=
  let s := s0.at ofs
  let x := s.port p.val
  match x.tx with
  | none => .next s
  | some t =>
    let s1 := s.updPort p.val (fun x => { x with tx := none })
    let s2 := match e with
      | .success (some d) =>
        -- A delay above 127 kernel clocks ends the frame with a bit error (R371).
        if s1.measures p.val t && decide (127 < d) then (s1.measured p.val t d).failedFrame p.val t 8 true
        else ((s1.measured p.val t d).sentFrame p.val t).confine p.val
      | .success none => (s1.sentFrame p.val t).confine p.val
      | .lostArbitration => s1.updObj t.port t.obj (fun b => { b with collRun := 0, pend := b.pend || t.again })
      | .bitError => s1.failedFrame p.val t 8 true
      | .otherError => s1.failedFrame p.val t 8 false
      | .noAck => s1.failedFrame p.val t (if x.st = PortSt.passive then 0 else 8) false
      | .delayError d => (s1.measured p.val t d).failedFrame p.val t 8 true
    .next (s2.offer p.val)

/-- TXREQ (R375, R386 row 4): send the selected object. -/
def execTxreq (p : Port) (ofs : Nat) (s0 : State) : Host.Outcome State Fault Refusal :=
  let s := s0.at ofs
  let o := s.objSel p.val
  let b := s.obj p.val o
  if s.start.abut || !b.send || decide (b.src ≠ 0) then .next (s.accessViolation (0x20020 + 0x400 * p.val))
  else
    match (s.port p.val).tx with
    | some t =>
      if t.obj = o ∧ ¬ t.queued then .next (s.updPort p.val (fun x => { x with tx := some { t with again := true } }))
      else .next ((s.withdraw p.val o).request p.val o)
    | none => .next ((s.withdraw p.val o).request p.val o)

/-- OBJ_ABORT (R375, R386 row 4): PEND and STRAND of the selected object are cleared; a frame on the bus is completed. -/
def execObjAbort (p : Port) (ofs : Nat) (s0 : State) : Host.Outcome State Fault Refusal :=
  let s := s0.at ofs
  let o := s.objSel p.val
  let s1 := (s.unqueue p.val o).updObj p.val o (fun b => { b with pend := false, strand := false })
  if s.start.abut then .next (s.accessViolation (0x20020 + 0x400 * p.val))
  else .next (s1.updPort p.val (fun x => match x.tx with
    | some t => if t.obj = o ∧ ¬ t.queued then { x with tx := some { t with again := false, aborted := true } } else x
    | none => x))

/-- RESUME (R389): the selected object takes part again. -/
def execResume (p : Port) (ofs : Nat) (s0 : State) : Host.Outcome State Fault Refusal :=
  let s := s0.at ofs
  if s.start.abut then .next (s.accessViolation (0x20020 + 0x400 * p.val))
  else .next ((s.updObj p.val (s.objSel p.val) (fun b => { b with susp := false })).offer p.val)

/-- A fill of a publication, heartbeat or reply object (R374, R386 row 5). -/
def State.fillObj (s : State) (p o : Nat) (bytes : List Byte) : State :=
  let b := s.obj p o
  let s1 := s.updObj p o (fun b => { b with buf := bufOf bytes, stale := b.stale || b.pend })
  let hit := fun (e : RrEntry) => decide (e.port = p) && decide (e.obj = o)
  let s2 := if b.rerouted then
      (List.range 48).foldl (fun t a => if (t.port a).queue.any hit then
        t.updPort a (fun y => { y with queue := y.queue.map (fun e => if hit e then { e with data := bytes } else e) }) else t) s1
    else s1
  if b.pend then s2 else s2.request p o

/-! ### Bus-off recovery, integration, errors as receiver (R368, R387) -/

/-- PORT_INTEGRATION (R368): from deck ready a port that is enabled joins its bus. -/
def execPortIntegration (p : Port) (ofs : Nat) (s0 : State) : Host.Outcome State Fault Refusal :=
  let s := s0.at ofs
  if s.start.ready ∧ bitOf (s.fpCfg p.val) 0 ∧ (s.port p.val).st = .off then
    .next ((s.updPort p.val (fun x => { x with st := .active })).offer p.val)
  else .next s

/-- Recovery starts (Table 16-5). -/
def State.startRecovery (s : State) (p : Nat) : State :=
  (s.updPort p (fun x => { x with st := .recovering })).raise 89 s.deckAddr 2 p 0

/-- BUS_OFF_RECOVERY_START (R387): with BO_AUTO, BO_HOLD ms after the entry into BUS_OFF. -/
def execBusOffRecoveryStart (p : Port) (ofs : Nat) (s0 : State) : Host.Outcome State Fault Refusal :=
  let s := s0.at ofs
  let x := s.port p.val
  let w := s.fpCfg p.val
  .next (if x.st = .busOff ∧ bitOf w 3 ∧ x.offAt + fld w 4 8 * 1000000 * uNs ≤ s.tk.now then s.startRecovery p.val else s)

/-- BO_RECOVER (R387): the host's request, with BO_AUTO 0, in BUS_OFF only. -/
def execBoRecover (p : Port) (ofs : Nat) (s0 : State) : Host.Outcome State Fault Refusal :=
  let s := s0.at ofs
  if s.start.abut then .next (s.accessViolation (0x20020 + 0x400 * p.val))
  else .next (if (s.port p.val).st = .busOff ∧ ¬ bitOf (s.fpCfg p.val) 3 then s.startRecovery p.val else s)

/-- BUS_OFF_RECOVERED (R386 row 2, R387): 128 sequences of 11 recessive bits have passed. -/
def execBusOffRecovered (p : Port) (ofs : Nat) (s0 : State) : Host.Outcome State Fault Refusal :=
  let s := s0.at ofs
  if (s.port p.val).st = .recovering then
    let s1 := s.updPort p.val (fun x => { x with st := .active, txErr := 0, rxErr := 0 })
    let s2 := s1.mapObjs p.val (fun b => if b.rerouted then b else { b with strand := false })
    .next ((s2.raise 89 s.deckAddr 3 p.val 0).offer p.val)
  else .next s

/-- ERROR_FRAME (R366): an error seen as receiver; REC rises by 1, or by 8 where the standard says so. -/
def execErrorFrame (p : Port) (eight : Bool) (ofs : Nat) (s0 : State) : Host.Outcome State Fault Refusal :=
  let s := s0.at ofs
  if (s.port p.val).onBus then
    let s1 := s.updPort p.val (fun x => { x with
      rxErr := min 255 (x.rxErr + (if eight then 8 else 1)), errCount := satInc x.errCount max16 })
    .next (s1.confine p.val)
  else .next s

/-- REROUTE_TEST (R386): every 1 ms of Pylon time the stranded objects are tested. -/
def execRerouteTest (ofs : Nat) (s0 : State) : Host.Outcome State Fault Refusal :=
  let s := s0.at ofs
  let ms := s.tk.now / (1000000 * uNs)
  if s.fp.rrMs < ms then
    let s1 := { s with fp := { s.fp with rrMs := ms } }
    .next ((List.range 48).foldl (fun t p =>
      if (t.port p).obj = [] then t else (List.range 128).foldl (fun t o => t.reroute p o) t) s1)
  else .next s

/-! ### Receiving (R376 to R379) -/

/-- The receive object that takes a frame: the first match in ascending number (R376, R377). -/
def PortS.matchRx (x : PortS) (f : RxFrame) : Option Nat :=
  (List.range 128).find? (fun o =>
    let b := x.objS o
    let id := fld b.id 0 29
    b.used && !b.send && decide (b.fmt = f.fmt.val) && decide (bitOf b.id 29 = f.ide) &&
    decide (id ≤ f.id.toNat) && decide (f.id.toNat < id + 2 ^ fld b.cfg 8 4))

/-- The frame replaces its slot range (R378). -/
def State.store (s : State) (p o : Nat) (f : RxFrame) : State :=
  let b := s.obj p o
  let k := fld b.cfg 12 6
  let n := fld b.pub 0 14 + (f.id.toNat - fld b.id 0 29) * k
  if 16384 < n + k then s
  else
    let old := s.fp.ldg n
    let xl := decide (f.fmt.val = 3)
    let slot : LdgSlot := {
      id := f.id.toNat, ide := f.ide, fmt := if f.fmt.val = 0 then 0 else if xl then 2 else 1, len := f.data.length % 4096,
      unread := true, lost := old.unread, trunc := decide (64 * k < f.data.length), brs := decide (f.fmt.val = 2),
      esi := f.esi, port := p, obj := o, pylon := s.tk.now / uNs, sdt := if xl then f.sdt.toNat else 0,
      vcid := if xl then f.vcid.toNat else 0, sec := xl && f.sec, ovr := if old.unread then satInc old.ovr 255 else 0,
      af := if xl then f.af.toNat else 0, k := k, data := f.data.take (64 * k) }
    let s1 := { s with fp := { s.fp with
      slot := Store.put (fun _ => LdgSlot.empty) s.fp.slot n slot,
      lostCount := if old.unread then satInc s.fp.lostCount max32 else s.fp.lostCount } }
    let s2 := s1.updObj p o (fun b => { b with count := satInc b.count max16 })
    if old.unread ∧ bitOf b.cfg 7 then s2.raise 92 s.deckAddr 0 (p * 128 + o : Nat) (f.id.toNat : Int) else s2

/-- A frame is a heartbeat of a partner (R381). -/
def PtnS.heard (r : PtnS) (p : Nat) (f : RxFrame) : Bool :=
  decide (r.st ≠ 0) && decide (r.hbId = f.id.toNat) && decide (r.ide = f.ide) && (decide (r.port = p) || decide (r.alt = p))

/-- The heartbeats that a frame is (R381, R382). -/
def State.heartbeats (s : State) (p : Nat) (f : RxFrame) : State :=
  s.fp.ptn.foldl (fun t e =>
    if e.2.heard p f then
      let t1 := t.updPartner e.1 (fun r => { r with age := 0, hbCount := (r.hbCount + 1) % 65536, st := 2 })
      if e.2.st = 3 then t1.raise 93 s.deckAddr 2 e.2.addr e.1 else t1
    else t) s

/-- REC after a valid received frame, as ISO 11898-1 lays down: above 127 it becomes a value of 119 to 127 (log 62). -/
def State.rxOk (s : State) (p : Nat) : State :=
  let r := (s.port p).rxErr
  if r = 0 then s
  else if r ≤ 127 then s.updPort p (fun x => { x with rxErr := r - 1 })
  else { s with freeCtr := s.freeCtr + 1 }.updPort p (fun x => { x with rxErr := 119 + (Config.freeRec s.freeCtr).val })

/-- The port receives frames of the format (Table 16-7 FD_EN, XL_EN). -/
def State.rxFormat (s : State) (p : Nat) (f : RxFrame) : Bool :=
  if f.fmt.val = 0 then true else if f.fmt.val = 3 then bitOf (s.fpCfg p) 2 else bitOf (s.fpCfg p) 1

/-- CAN_FRAME_RECEIVED (R377, R378, R381, R389, R390): a valid frame of another node. An attempt that waited for the bus
begins now. -/
def execCanFrameReceived (p : Port) (f : RxFrame) (ofs : Nat) (s0 : State) : Host.Outcome State Fault Refusal :=
  let s := s0.at ofs
  if (s.port p.val).onBus ∧ s.rxFormat p.val f then
    let s := s.updPort p.val (fun x => { x with rxCount := satInc x.rxCount max16, tx := none })
    let s := ((s.rxOk p.val).confine p.val).frameDone p.val
    let miss := fun (t : State) => t.updPort p.val (fun x => { x with noMatch := satInc x.noMatch max32 })
    let s :=
      if f.remote then miss s
      else
        let s1 := match (s.port p.val).matchRx f with
          | some o => if bitOf (s.reg 0x2C000) 0 then s.store p.val o f else s
          | none => miss s
        let s2 := s1.heartbeats p.val f
        let w := s.reg 0x2048
        if p.val = 0 ∧ bitOf w 31 ∧ fld w 0 29 = f.id.toNat ∧ bitOf w 29 = f.ide then
          let due := if ofs ≤ s.t1end then s.tk.count else s.tk.count + 1
          { s2 with fp := { s2.fp with
            fbIn := s2.fp.fbIn ++ [{ data := f.data, fd := decide (f.fmt.val = 1) || decide (f.fmt.val = 2), due := due }] } }
        else s2
    .next (s.offer p.val)
  else .next s

/-- The slot of a range of k slots to which a slot that is not its first belongs, and its place in the range (R379). -/
def FpS.rangeOf (x : FpS) (n : Nat) : Option (LdgSlot × Nat) :=
  (List.range 31).findSome? (fun j =>
    if j < n then
      let c := x.ldg (n - (j + 1))
      if c.fmt ≠ 3 ∧ j + 1 < c.k then some (c, j + 1) else none
    else none)

/-- LDG_SEL (R379): the slot is copied into the read buffer; the first slot of a range becomes read. -/
def execLdgSel (slot : Fin 16384) (ofs : Nat) (s0 : State) : Host.Outcome State Fault Refusal :=
  let s := (s0.at ofs).setReg 0x2C010 (wd slot.val)
  if s.start.abut then .next ((s0.at ofs).accessViolation 0x2C010)
  else match s.fp.rangeOf slot.val with
  | some (c, j) => .next { s with fp := { s.fp with
      rdHdr := { (s.fp.ldg slot.val) with k := 1 }, rdData := (c.data.drop (64 * j)).take 64 } }
  | none =>
    let c := s.fp.ldg slot.val
    .next { s with fp := { s.fp with
      rdHdr := c, rdData := c.data,
      slot := Store.put (fun _ => LdgSlot.empty) s.fp.slot slot.val { c with unread := false, ovr := 0 } } }

/-! ### Partners (R382) -/

/-- PARTNER_AGE_TICK (R382): every 1 ms of Pylon time each used partner's AGE rises by 1, from deck ready. -/
def execPartnerAgeTick (ofs : Nat) (s0 : State) : Host.Outcome State Fault Refusal :=
  let s := s0.at ofs
  if s.start.ready ∧ s.fp.ageMs < s.tk.now / (1000000 * uNs) then
    let s1 := { s with fp := { s.fp with ageMs := s.fp.ageMs + 1 } }
    .next (s.fp.ptn.foldl (fun t e =>
      if e.2.st = 0 then t
      else
        let age := satInc e.2.age max16
        let t1 := t.updPartner e.1 (fun r => { r with age := age })
        -- A heartbeat since the last increment is counted first: the partner stays ALIVE.
        if e.2.tmo ≤ age ∧ e.2.st ≠ 3 ∧ ¬ (e.2.st = 2 ∧ e.2.age = 0) then
          (t1.updPartner e.1 (fun r => { r with st := 3, losses := satInc r.losses max16 })).raise 93 s.deckAddr 1 e.2.addr e.1
        else t1) s1)
  else .next s

end Sys2Proof.Machine
end

