-- ==== Sys2Proof/Machine/Sensing.lean ====
section
/-! DEFINITION. Sensing (chapter 03): conversions, regular and injected sequences, triggers, groups, the snapshot of Φ0, plausibility pairs, the reference buffer, self-calibration and window comparators. -/
namespace Sys2Proof.Machine

/-! ### Configuration -/

/-- Offset of a converter's registers. -/
def convBase (c : Nat) : Nat := 0x4400 + 0x100 * c
/-- Offset of an input's registers. -/
def inpBase (i : Nat) : Nat := 0x5400 + 0x20 * i
/-- RSEQ.LENGTH. -/
def State.rLength (s : State) (c : Nat) : Nat := fld (s.reg (convBase c + 0x0C)) 0 5
/-- RSEQ.START in units of 1/3072 ns. -/
def State.rStart (s : State) (c : Nat) : Nat := fld (s.reg (convBase c + 0x0C)) 8 9 * u25
/-- The plausibility input of a pair, ADC_PAIRk_CFG.INPUT (R69). -/
def State.pairInput (s : State) (k : Nat) : Nat := fld (s.reg (0x4040 + 4 * k)) 0 7
/-- The input of regular slot n; slot 0 converts the plausibility input whatever RSLOT0 holds (R69). -/
def State.rSlot (s : State) (c n : Nat) : Nat :=
  if n = 0 then s.pairInput (c / 2) else fld (s.reg (convBase c + 0x10 + 4 * n)) 0 7
/-- The input of injected slot j. -/
def State.iSlot (s : State) (c j : Nat) : Nat := fld (s.reg (convBase c + 0x50 + 4 * j)) 0 7
/-- ISRCj. -/
def State.iSrc (s : State) (c j : Nat) : Word := s.reg (convBase c + 0x60 + 4 * j)
/-- ISRCj.TYPE (Table 03-3). -/
def State.srcType (s : State) (c j : Nat) : Nat := fld (s.iSrc c j) 0 3
/-- ISRCj.PRIO. -/
def State.srcPrio (s : State) (c j : Nat) : Nat := fld (s.iSrc c j) 9 2
/-- NSAMP of a type 1 source: points per carrier (Table 03-3). -/
def State.srcPoints (s : State) (c j : Nat) : Nat := 2 ^ fld (s.iSrc c j) 15 2
/-- The slots a source runs, ascending (ISRCj.MASK). A selected slot whose ISLOT is empty takes no time and delivers nothing,
as R68 has it of a regular slot (DESIGN CHOICE, log 118). -/
def State.srcSlots (s : State) (c j : Nat) : List Nat :=
  (List.range 4).filter (fun k => bitOf (s.iSrc c j) (11 + k) && decide (s.iSlot c k ≠ 127))
/-- The current inputs of the deck (Table 03-2, class Current). -/
def isCurrentInput (i : Nat) : Bool :=
  i ≤ 5 || i = 7 || (12 ≤ i && i ≤ 17) || i = 19 || (24 ≤ i && i ≤ 31) || i = 34 || (36 ≤ i && i ≤ 38) ||
  i = 42 || i = 43 || i = 48 || (50 ≤ i && i ≤ 55) || i = 57 || (60 ≤ i && i ≤ 65)

/-! ### From code to signal (R67) -/

/-- c of R67 from raw codes, with the converter's factors. -/
def correctedCode (k : ConvS) (codes : List Int) : Int :=
  let avg := rheDiv codes.sum codes.length
  sat16 (rhe ((avg - k.offset) * k.gain) 15)

/-- s of R67 from the corrected code, with the input's trim and scale. -/
def State.toSignal (s : State) (i : Nat) (c : Int) : Int :=
  let trim := s.reg (inpBase i + 0x08)
  let t := rhe ((c - sfld trim 0 16) * fld trim 16 16) 15
  sat32 (rhe (t * sig (s.reg (inpBase i + 0x04))) (fld (s.reg (inpBase i)) 0 6))

/-- The window comparison on a signal s formed for input i (R87, R88). -/
def State.windowCompare (s : State) (i : Nat) (v : Int) : State :=
  if bitOf (s.reg (inpBase i)) 6 then
    let hi := sig (s.reg (inpBase i + 0x0C))
    let lo := sig (s.reg (inpBase i + 0x10))
    let hy : Int := fld (s.reg (inpBase i + 0x14)) 0 31
    let x := s.inp i
    if x.winOut then
      if lo + hy ≤ v ∧ v ≤ hi - hy then s.updInp i (fun x => { x with winOut := false, winReentry := true }) else s
    else if hi < v ∨ v < lo then
      (s.updInp i (fun x => { x with winOut := true, winExit := true, winDir := decide (hi < v) })).raise 47 s.deckAddr
        (if hi < v then 1 else 2) i v
    else s
  else s

/-- Deliver a result for input i (R67, R87). The plausibility input's value is the even converter's result: whatever slot
the odd converter of the pair converted it in delivers nothing (R70). -/
def State.deliver (s : State) (c i : Nat) (codes : List Int) (ended : Instant) (sync regular : Bool) (ang : Option Nat) : State :=
  if c % 2 = 1 ∧ i = s.pairInput (c / 2) then s
  else
    let cc := correctedCode (s.conv c) codes
    let v := s.toSignal i cc
    let s := s.updInp i (fun x => { x with
      latest := some { code := cc, s := v, ended := ended, sync := sync, regular := regular, ang := ang }, notSettled := false })
    s.windowCompare i v

/-- A conversion that is due while the reference is not settled is refused (R84): the inputs keep their values, and what had
ended before it is still theirs at the next snapshot. -/
def State.refuse (s : State) (c : Nat) (inputs : List Nat) : State :=
  let s := inputs.foldl (fun t i => t.updInp i (fun x => { x with notSettled := true, fresh := false })) s
  let s := s.updConv c (fun k => { k with notSettled := true })
  { s with adc := { s.adc with notSetCount := satAdd s.adc.notSetCount inputs.length max32 } }

/-! ### Regular sequences (R68, R69) -/

/-- The next non-empty regular slot at or after n; empty slots take no time (R68). -/
def State.nextSlotFrom (s : State) (c n : Nat) : Option Nat :=
  (List.range (s.rLength c)).find? (fun k => decide (n ≤ k) && (decide (k = 0) || decide (s.rSlot c k ≠ 127)))

/-- The slots from n on, all of them. -/
def State.slotsFrom (s : State) (c n : Nat) : List Nat :=
  (List.range (s.rLength c)).filter (fun k => decide (n ≤ k) && (decide (k = 0) || decide (s.rSlot c k ≠ 127)))

/-- Start what follows on a free converter: the next regular slot, unless an injected sequence is queued (R68) or T0END has
come (R71). While the reference is not settled the regular slots due are refused, each at the edge at which it was due
(R84). -/
def State.startRegular (s : State) (c : Nat) (edge : Instant) : State :=
  let k := s.conv c
  match k.nextSlot with
  | none => s
  | some n =>
    if k.queue ≠ [] ∨ s.boundary s.tk.count + s.t0end ≤ edge then s
    else if s.adc.settled then s.updConv c (fun k => { k with busy := .regular n edge, nextSlot := none })
    else (s.refuse c ((s.slotsFrom c n).map (s.rSlot c))).updConv c (fun k => { k with nextSlot := none })

/-- A converter takes part in sequences: sequencing is on and it is not calibrating (R68, R85). -/
def State.sampling (s : State) (c : Nat) : Bool := s.adc.seqRun && !(s.conv c).calRun

/-- The edge at which slot 0 of a pair starts: the first at or after boundary + START at which both are free (R69). -/
def State.slot0Edge (s : State) (k : Nat) : Instant :=
  max (ceilTo (s.boundary s.tk.count + s.rStart (2 * k)) uEdge)
    (max (s.conv (2 * k)).freeAt (s.conv (2 * k + 1)).freeAt)

/-- A converter's regular sequence starts at an edge with slot 0; while the reference is not settled all its slots are refused
(R68, R84). -/
def State.startSlot0 (s : State) (c : Nat) (edge : Instant) : State :=
  if s.adc.settled then s.updConv c (fun k => { k with busy := .regular 0 edge, nextSlot := none, ran := true })
  else (s.refuse c ((s.slotsFrom c 0).map (s.rSlot c))).updConv c (fun k => { k with nextSlot := none, ran := true })

/-- A converter has its regular sequence of the tick before it (R68, R85). -/
def State.slot0Due (s : State) (c : Nat) : Bool := s.sampling c && !(s.conv c).ran && !s.tk.phi0Done

/-- REGULAR_SEQUENCE_START (R68, R69): slot 0 of the converters of a pair starts together, once in a tick and before T0END; the
partner of a converter that calibrates runs its sequence alone. -/
def execRegularSequenceStart (p : Pair) (s : State) : Host.Outcome State Fault Refusal :=
  let a := 2 * p.val
  let b := a + 1
  let edge := s.slot0Edge p.val
  if (s.conv a).busy = .idle ∧ (s.conv b).busy = .idle ∧ edge < s.boundary s.tk.count + s.t0end then
    let t := if s.slot0Due a then s.startSlot0 a edge else s
    .next (if s.slot0Due b then t.startSlot0 b edge else t)
  else .next s

/-- One conversion lasts 16 edges (R64). -/
def convLen : Nat := 16 * uEdge

/-- REGULAR_SLOT_END (R68): the conversion in progress ends with its raw code; the result is formed by R67, and the next
slot starts at that edge unless an injected sequence is queued. The result of the plausibility input is that of the even
converter (R70). A slot that ran on after T0END delivers nothing (R71). -/
def execRegularSlotEnd (c : Conv) (code : BitVec 16) (s : State) : Host.Outcome State Fault Refusal :=
  match (s.conv c).busy with
  | .regular n start =>
    let ended := start + convLen
    let raw := code.toInt
    let s1 := if n = 0 then s.updConv c (fun k => { k with slot0 := some (correctedCode k [raw]) }) else s
    let s2 := s1.deliver c (s.rSlot c n) [raw] ended false true none
    let s3 := s2.updConv c (fun k => { k with busy := .idle, freeAt := ended, nextSlot := s.nextSlotFrom c (n + 1) })
    .next (s3.startRegular c ended)
  | .late _ start => .next (s.updConv c (fun k => { k with busy := .idle, freeAt := start + convLen, nextSlot := none }))
  | _ => .next s

/-! ### Injected sequences and triggers (R72 to R77) -/

/-- Insert by PRIO, from 3 down to 0, and by arrival within one (R72). -/
def queueInsert (t : Trigger) : List Trigger → List Trigger
  | [] => [t]
  | x :: r => if x.prio < t.prio then t :: x :: r else x :: queueInsert t r

/-- A trigger enters its converter's queue; a fifth drops the last of the five (R74). -/
def State.enqueue (s : State) (c : Nat) (x : Trigger) : State :=
  let q := queueInsert x (s.conv c).queue
  if q.length ≤ 4 then s.updConv c (fun k => { k with queue := q })
  else
    match q.getLast? with
    | none => s
    | some d =>
      let s := s.updConv c (fun k => { k with queue := q.dropLast, dropCount := satInc k.dropCount max32 })
      s.raise 46 s.deckAddr c d.src.val 0

/-- The set-a U leg of the traction span that a converter's bank belongs to (Table 03-1, R159). -/
def uLegOf (c : Nat) : Nat := if c / 2 = 1 then 6 else 0

/-- The leg of a type 1 source, ISRCj.SEL. -/
def State.srcLeg (s : State) (c j : Nat) : Nat := fld (s.iSrc c j) 3 6

/-- The points of a type 1 source in the period in progress of its leg:
centre + (2j − N + 1) × d (R76). -/
def State.points (s : State) (c j : Nat) : List Instant :=
  let n := s.srcPoints c j
  let d := fld (s.reg (convBase c + 0x70)) 0 10 * 5 * uNs
  (List.range n).map (fun i => s.carrierCentre (s.srcLeg c j) + (2 * i + 1) * d - n * d)

/-- The instant is a point of a type 1 source: within the period in progress of its leg, at one of its points (R76). -/
def State.atPoint (s : State) (c j : Nat) (t : Instant) : Bool :=
  let g := s.leg (s.srcLeg c j)
  decide (0 < g.plen) && decide (g.pstart ≤ t) && decide (t < g.pstart + g.plen * uStep) && (s.points c j).contains t

/-- INJECTED_TRIGGER (R72): a trigger enters its converter's queue. It is ignored while sequencing is off or the
converter calibrates. A point of a type 1 source comes at the instants of R76 alone, and a host trigger (type 4) only where
ADC_TRIG has placed one. -/
def execInjectedTrigger (c : Conv) (j : Fin 4) (ofs : Nat) (s0 : State) : Host.Outcome State Fault Refusal :=
  let s := s0.at ofs
  let ty := s.srcType c j
  let host := s.adc.hostTrig.find? (fun h => decide (h.1 = c ∧ h.2.1 = j ∧ h.2.2 ≤ s.tk.now))
  let s1 : State := match host with
    | some h => if ty = 4 then { s with adc := { s.adc with hostTrig := s.adc.hostTrig.erase h } } else s
    | none => s
  if ¬ s.adc.seqEn ∨ ¬ s.sampling c ∨ ty = 0 ∨ 5 ≤ ty ∨ (ty = 4 ∧ host = none) ∨ (ty = 1 ∧ ¬ s.atPoint c j s.tk.now) then .next s1
  else
    .next (s1.enqueue c { src := j, prio := s.srcPrio c j, arrived := s.tk.now,
                          period := if ty = 1 then (s.leg (s.srcLeg c j)).pstart else 0, uPeriod := (s.leg (uLegOf c)).pstart })

/-- Slot 0 of the pair is pending: between boundary + START and its start no injected sequence starts (R69). -/
def State.slot0Pending (s : State) (c : Nat) (t : Instant) : Bool :=
  decide (s.boundary s.tk.count + s.rStart c ≤ t) && s.adc.settled && s.slot0Due c

/-- INJECTED_SEQUENCE_START (R73): the head of the queue starts on a free converter, at the first edge at or after its
arrival and the end of what ran before. A sequence due while the reference is not settled is refused (R84); while the
converter calibrates none starts, and the queue waits (R85; DESIGN CHOICE, log 119). -/
def execInjectedSequenceStart (c : Conv) (s : State) : Host.Outcome State Fault Refusal :=
  let k := s.conv c
  match k.busy, k.queue with
  | .idle, t :: rest =>
    let edge := max (ceilTo t.arrived uEdge) k.freeAt
    if k.calRun ∨ s.slot0Pending c edge then .next s
    else if s.adc.settled then
      let delay := (edge - t.arrived) / (5 * uNs)
      .next (s.updConv c (fun k => { k with queue := rest, busy := .injected t edge 0, ilatMax := max k.ilatMax (min delay max16) }))
    else
      let s1 := (s.updConv c (fun k => { k with queue := rest })).refuse c ((s.srcSlots c t.src).map (s.iSlot c))
      .next (s1.startRegular c edge)
  | _, _ => .next s

/-- The carrier-centre capture that the position unit keeps together with a group (R159). -/
def State.captureOf (s : State) (c : Nat) (u : Instant) : Option Nat :=
  if c < 4 then
    (((s.pos (if c / 2 = 1 then 1 else 0)).caps.find? (fun q => decide (q.1 = u))).map (fun q => q.2))
  else none

/-- One slot of an injected sequence delivers its code: a group point or a single result (R76, R77). The codes of one carrier
period form a group; one that lost a point never becomes complete, and the first point of a later period begins anew. -/
def State.injectedCode (s : State) (c : Nat) (x : Trigger) (slot : Nat) (raw : Int) (ended : Instant) : State :=
  let i := s.iSlot c slot
  if s.srcType c x.src = 1 then
    let y := s.inp i
    let g := (if y.groupOf = x.period then y.group else []) ++ [raw]
    if g.length < s.srcPoints c x.src then s.updInp i (fun y => { y with group := g, groupOf := x.period })
    else (s.updInp i (fun y => { y with group := [], groupOf := x.period })).deliver c i g ended true false (s.captureOf c x.uPeriod)
  else s.deliver c i [raw] ended false false none

/-- The codes of a sequence, slot by slot from number n, each ending one conversion after the one before. -/
def State.injectedCodes (s : State) (c : Nat) (x : Trigger) (start : Instant) : List Nat → List (BitVec 16) → Nat → State
  | k :: ks, r :: rs, n => (s.injectedCode c x k r.toInt (start + (n + 1) * convLen)).injectedCodes c x start ks rs (n + 1)
  | _, _, _ => s

/-- How many slots of a sequence are converted: those that were due before SETTLED fell (R84). -/
def State.slotsRun (s : State) (start : Instant) (slots : List Nat) : Nat :=
  if s.adc.settled then slots.length
  else ((List.range slots.length).filter (fun n => decide (start + n * convLen < s.adc.fellAt))).length

/-- INJECTED_SEQUENCE_END (R75): the selected slots have ended with their codes; then the next regular slot starts unless
another sequence is queued. Slots that were due after SETTLED had fallen are refused (R84). A converter that calibrates
delivers nothing (R85). -/
def execInjectedSequenceEnd (c : Conv) (codes : List (BitVec 16)) (s : State) : Host.Outcome State Fault Refusal :=
  match (s.conv c).busy with
  | .injected x start done =>
    let slots := s.srcSlots c x.src
    let r := s.slotsRun start slots
    let ended := start + r * convLen
    let free := fun (t : State) => t.updConv c (fun k => { k with busy := .idle, freeAt := ended })
    if (s.conv c).calRun then .next (free s)
    else
      let s1 := s.injectedCodes c x start ((slots.take r).drop done) codes done
      let s2 := if r < slots.length then s1.refuse c ((slots.drop r).map (s.iSlot c)) else s1
      .next ((free s2).startRegular c ended)
  | _ => .next s

/-- What of a sequence in progress has ended by T0END is delivered before the snapshot is taken (R75, R78): `codes` are those
of the slots that have. -/
def State.injectedEnded (s : State) (c : Conv) (codes : List (BitVec 16)) : State :=
  match (s.conv c).busy with
  | .injected x start done =>
    let slots := s.srcSlots c x.src
    let t0 := s.boundary s.tk.count + s.t0end
    let past := (List.range (s.slotsRun start slots)).filter (fun n => decide (start + (n + 1) * convLen ≤ t0))
    let take := min codes.length (past.length - done)
    if (s.conv c).calRun then s
    else (s.injectedCodes c x start ((slots.take (done + take)).drop done) codes done).updConv c (fun k =>
      { k with busy := .injected x start (done + take) })
  | _ => s

/-! ### The snapshot (R71, R75, R78) and the pairs (R79 to R81) -/

/-- The inputs that regular slots of a converter deliver. -/
def State.regularInputs (s : State) (c : Nat) : List Nat :=
  if c % 2 = 0 then (s.slotsFrom c 0).map (s.rSlot c) else (s.slotsFrom c 1).map (s.rSlot c)

/-- The tick of an instant (R295). -/
def State.tickOf (s : State) (t : Instant) : Tick := t / s.pu

/-- The inputs a converter converts, by its regular slots and its sources (R85). -/
def State.inputsOf (s : State) (c : Nat) : List Nat :=
  s.regularInputs c ++ (List.range 4).flatMap (fun j => if s.srcType c j = 0 then [] else (s.srcSlots c j).map (s.iSlot c))

/-- An input's converter calibrates: it keeps its value with FRESH 0 (R85). -/
def State.calHolds (s : State) (i : Nat) : Bool :=
  [2 * (i / 12), 2 * (i / 12) + 1].any (fun c => (s.conv c).calRun && (s.inputsOf c).contains i)

/-- The value an input takes at T0END: the latest result that ended in time, or the previous value (R71, R75, R78). -/
def InputS.take (x : InputS) (t0 : Instant) : InputS :=
  match x.latest with
  | some r =>
    if r.ended ≤ t0 then
      { x with latest := none, result := r.s, code := r.code, sync := r.sync, formed := some r.ended, regular := r.regular,
               ang := r.ang.getD x.ang, fresh := true }
    else { x with fresh := false }
  | none => { x with fresh := false }

/-- FRESH of an input that is not from a regular slot: its conversion ended at or after boundary n − 1 (R75, R78). -/
def State.stillFresh (s : State) (y : InputS) : Bool :=
  match y.formed with
  | some t => decide (s.boundary (s.tk.count - 1) ≤ t)
  | none => false

/-- Latch input i (R71), with its age in ticks (R78) and the verdict of its pair (R81). AGE of an input that has had no value
yet counts the snapshots since reset (DESIGN CHOICE, log 117). -/
def State.latchInput (s : State) (i : Nat) : State :=
  let n := s.tk.count
  let held := s.calHolds i
  let y := if held then { s.inp i with latest := none, fresh := false } else (s.inp i).take (s.boundary n + s.t0end)
  let fresh := if y.notSettled || held then false else if y.regular then y.fresh else s.stillFresh y
  let age := match y.formed with
    | some t => min (n - s.tickOf t) 255
    | none => min (y.age + 1) 255
  let bad := (s.pairS (i / 12)).implausible
  s.updInp i (fun _ => { y with
    fresh := fresh, age := age, untrusted := bad && isCurrentInput i, pairBad := bad && !isCurrentInput i })

/-- Pair k at the snapshot (R79, R80). -/
def State.evalPair (s : State) (k : Nat) : State :=
  if s.adc.eval then
    match (s.conv (2 * k)).slot0, (s.conv (2 * k + 1)).slot0 with
    | some a, some b =>
      let diff := (a - b).natAbs
      let bad := decide (fld (s.reg (0x4040 + 4 * k)) 16 16 < diff)
      let p := s.pairS k
      let run := if bad then min (p.run + 1) 3 else 0
      let s1 := s.updPair k (fun p => { p with
        mismatch := bad, run := run, lastDiff := min diff max16,
        implausible := p.implausible || decide (run = 3) })
      if run = 3 ∧ ¬ p.implausible then s1.raise 14 s.deckAddr k diff 0 else s1
    | _, _ => s
  else s.updPair k (fun p => { p with run := 0 })

/-- A regular sequence that has not ended by T0END (R71): slots not run are dropped, a running one is discarded. A sequence
that was refused counts as ended (R84). -/
def State.lateSequence (s : State) (c : Nat) : State :=
  let k := s.conv c
  let late := s.sampling c &&
    (match k.busy with | .regular _ _ => true | _ => decide (k.nextSlot ≠ none) || (s.adc.settled && !k.ran))
  let busy := match k.busy with | .regular n t => .late n t | b => b
  let s1 := s.updConv c (fun k => { k with
    busy := busy, nextSlot := none, slot0 := none, regLate := late,
    lateCount := if late then satInc k.lateCount max32 else k.lateCount })
  if late then s1.raise 45 s.deckAddr c 0 0 else s1

/-- Pairing is evaluated while the reference is settled and all converters calibrated without failure (R79). -/
def State.pairingOn (s : State) : Bool :=
  s.adc.settled && (List.range 16).all (fun c => (s.conv c).calDone && !(s.conv c).calFail)

/-- EVAL follows its condition at once, and while it is 0 the mismatch runs are 0 (R79). -/
def State.formEval (s : State) : State :=
  let t := { s with adc := { s.adc with eval := s.pairingOn } }
  if s.pairingOn then t else (List.range 8).foldl (fun u k => u.updPair k (fun p => { p with run := 0 })) t

/-- The converter part of the snapshot at T0END (R71, R75, R78 to R81). -/
def State.snapshot (s : State) : State :=
  let s := (List.range 8).foldl State.evalPair s.formEval
  let s := (List.range 96).foldl State.latchInput s
  (List.range 16).foldl State.lateSequence s

/-! ### Reference buffer and calibration (R83 to R86) -/

/-- 500 µs, the settle time (R83). -/
def settleTime : Nat := 500000 * uNs

/-- SEQ_EN (R68): ADC_CTRL.SEQ_EN as written; sequences and triggers follow it from the next boundary. After deck ready
the register is locked (LK). -/
def execSeqEn (v : Bool) (s : State) : Host.Outcome State Fault Refusal :=
  if s.start.ready || s.start.abut then .next (s.accessViolation 0x4000)
  else .next { s with adc := { s.adc with seqEn := v } }

/-- REF_ENABLE (R83): the reference buffer and its settle timer start. Writing REF_EN 1 while it is 1 changes nothing and
leaves the timer running (DESIGN CHOICE, log 120). -/
def execRefEnable (ofs : Nat) (s0 : State) : Host.Outcome State Fault Refusal :=
  let s := s0.at ofs
  if s.start.ready || s.start.abut then .next (s.accessViolation 0x4004)
  else if s.adc.refEn then .next s
  else .next { s with adc := { s.adc with refEn := true, settled := false, settleAt := s.tk.now + settleTime } }

/-- REF_SETTLED (R83): the settle timer expires. -/
def execRefSettled (s : State) : Host.Outcome State Fault Refusal :=
  if s.adc.refEn ∧ ¬ s.adc.settled ∧ s.reaches s.adc.settleAt then
    let t := s.goto s.adc.settleAt
    .next { t with adc := { t.adc with settled := true } }.formEval
  else .next s

/-- REF_DISABLE (R83): REF_EN 0 clears SETTLED at once. -/
def execRefDisable (s : State) : Host.Outcome State Fault Refusal :=
  if s.start.ready || s.start.abut then .next (s.accessViolation 0x4004)
  else .next { s with adc := { s.adc with
    refEn := false, settled := false, fellAt := if s.adc.settled then s.tk.now else s.adc.fellAt } }.formEval

/-- Start calibrating converters (R85): no conversions, triggers ignored, CAL_RUN 1. A conversion in progress ends in its time
(R64) and delivers nothing; triggers that wait stay in the queue (DESIGN CHOICE, log 119). -/
def State.startCal (s : State) (cs : List Conv) (cmd : Option Staged) : State :=
  let stop := fun (k : ConvS) => { k with
    calRun := true, busy := (match k.busy with | .regular n t => .late n t | b => b), nextSlot := none }
  let s := cs.foldl (fun t c => t.updConv c stop) s
  { s with adc := { s.adc with cal := s.adc.cal ++ [{ running := cs, passed := [], failed := [], cmd := cmd }] } }

/-- A measured factor pair passes (R86). -/
def calPasses (gain : Nat) (offset : Int) : Bool :=
  decide (0x7333 ≤ gain ∧ gain ≤ 0x8CCD ∧ -512 ≤ offset ∧ offset ≤ 512)

/-- One converter ends its calibration with what it measured (R86). -/
def State.endCal (s : State) (c : Conv) (gain : Nat) (offset : Int) : State :=
  let t := if calPasses gain offset then
      s.updConv c (fun k => { k with calRun := false, calDone := true, calFail := false, gain := gain, offset := offset })
    else
      (s.updConv c (fun k => { k with calRun := false, calDone := false, calFail := true })).raise 104 s.deckAddr c.val
        gain offset
  t.formEval

/-- The instants of a converter after a step of the count (R298). -/
def ConvS.moved (mv : Instant → Instant) (k : ConvS) : ConvS :=
  let trig := fun (x : Trigger) => { x with arrived := mv x.arrived, period := mv x.period, uPeriod := mv x.uPeriod }
  { k with
    freeAt := mv k.freeAt, queue := k.queue.map trig,
    busy := match k.busy with
      | .idle => .idle
      | .regular n t => .regular n (mv t)
      | .late n t => .late n (mv t)
      | .injected x t d => .injected (trig x) (mv t) d }

/-- The instants of an input after a step of the count. -/
def InputS.moved (mv : Instant → Instant) (x : InputS) : InputS :=
  { x with
    latest := x.latest.map (fun r => { r with ended := mv r.ended }), groupOf := mv x.groupOf, formed := x.formed.map mv }

/-- The sensing block after a step of the count. -/
def State.sensingMoved (s : State) (mv : Instant → Instant) : State :=
  let t := (List.range 16).foldl (fun (t : State) c => t.updConv c (ConvS.moved mv)) s
  let t := (List.range 96).foldl (fun (t : State) i => t.updInp i (InputS.moved mv)) t
  { t with adc := { t.adc with
    settleAt := mv t.adc.settleAt, fellAt := mv t.adc.fellAt, hostTrig := t.adc.hostTrig.map (fun h => (h.1, h.2.1, mv h.2.2)) } }

/-- The bitmap of a set of converters. -/
def convMask (cs : List Conv) : Nat := bitmap 16 (fun k => cs.any (fun c => decide (c.val = k)))

end Sys2Proof.Machine
end

