-- ==== Sys2Proof/Machine/Pylon.lean ====
section
/-! DEFINITION. Pylon time, the LAUNCH line, census banks and the calendar (chapter 13); the launch table's execution is in Launch.lean. -/
namespace Sys2Proof.Machine

/-! ### Clock states (Tables 13-1, 13-2) -/

/-- The codes of Table 13-1. -/
def PylSt.code : PylSt → Nat
  | .free => 0 | .acquire => 1 | .locked => 2 | .holdover => 3 | .grandmaster => 4

/-- Change the clock state: E073 names the new state and the cause: 1 first Sync, 2 locked, 3 sync lost, 4 offset fault,
5 rejoined, 6 grandmaster, 7 another clock selected, 8 count stepped. PYL_GM_ID of a grandmaster is its own identity. -/
def State.pylTo (s : State) (st : PylSt) (cause : Nat) : State :=
  ({ s with pyl := { s.pyl with
      st := st, goodSyncs := 0, nearSyncs := 0, farSyncs := 0,
      gmId := if st = PylSt.grandmaster then Config.clockIdentity.toNat else s.pyl.gmId,
      holdCount := if st = PylSt.holdover then satInc s.pyl.holdCount max32 else s.pyl.holdCount } }).raise 73 s.deckAddr cause
    st.code s.pyl.offset

/-- The clock is LOCKED or GRANDMASTER (R299). -/
def State.clockReady (s : State) : Bool := decide (s.pyl.st = .locked) || decide (s.pyl.st = .grandmaster)

/-- Step the count to an instant before deck ready (R44, R298): the tick in progress ends, ticks are numbered from the
stepped count, held TL writes land at its first boundary, and what runs on its own clock keeps its distance. Every multiple of
LINE_PER after it is due again (R302). -/
def State.stepCount (s : State) (t : Instant) : State :=
  let d : Int := (t : Int) - (s.tk.now : Int)
  let mv := fun (x : Instant) => ((x : Int) + d).toNat
  let n := if s.pu = 0 then 0 else t / s.pu
  let s1 : State := { s with
    cal := { s.cal with base := s.calRaw s.tk.now, at0 := t },
    tk := { s.tk with count := n, now := t, held := s.tk.held.map (fun h => { h with lands := n + 1 }) },
    start := { s.start with ts := mv s.start.ts, step9 := mv s.start.step9, failedAt := s.start.failedAt.map mv },
    trl := { s.trl with brgAt := mv s.trl.brgAt, brgFaults := s.trl.brgFaults.map mv, round := t / (1000000 * uNs) - 1 },
    vdt := { s.vdt with shakeAt := s.vdt.shakeAt.map mv },
    pyl := { s.pyl with markAt := 0, lastSync := mv s.pyl.lastSync },
    fp := { s.fp with ageMs := t / (1000000 * uNs), rrMs := t / (1000000 * uNs) } }
  (s1.sensingMoved mv).updLegs allLegs (fun _ g => g.moved mv)

/-- Step the count by a measured offset, ns (R298); E073 reports the offset removed. -/
def State.stepBy (s : State) (offset : Int) : State :=
  (s.stepCount (((s.tk.now : Int) - offset * uNs).toNat)).raise 73 s.deckAddr 8 s.pyl.st.code offset

/-- The offset is above 10 µs. -/
def farOffset (o : Int) : Bool := decide (10000 < absI o)

/-- A valid Sync in ACQUIRE or LOCKED (Table 13-2). -/
def State.syncTracked (s : State) (o : Int) : State :=
  let far := if s.start.ready && farOffset o then s.pyl.farSyncs + 1 else 0
  let good := if absI o ≤ 100 then s.pyl.goodSyncs + 1 else 0
  let s := { s with pyl := { s.pyl with goodSyncs := min good 16, farSyncs := far } }
  if far = 4 then
    ({ s with pyl := { s.pyl with ofsFault := true, mayRejoin := false } }.raise 75 s.deckAddr 0 o 0).pylTo .holdover 4
  else if s.pyl.st = .acquire ∧ 16 ≤ good then s.pylTo .locked 2
  else s

/-- SYNC_MESSAGE (R297, R298, R301): a Sync of the configured domain; its offset is taken with the mean path delay. While a valid
LAUNCH line steers a LOCKED deck, gPTP supplies the whole line periods alone (R303). -/
def execSyncMessage (m : SyncIn) (ofs : Nat) (s0 : State) : Host.Outcome State Fault Refusal :=
  let s := s0.at ofs
  if m.domain.toNat ≠ fld (s.reg 0x1104) 0 7 ∨ s.pyl.st = .grandmaster ∨ s.start.abut then .next s
  else
    let o := m.offset - s.pyl.pathDelay
    let hold := decide (s.pyl.st = .holdover) || (s.pyl.lineValid && decide (s.pyl.st = .locked))
    let s := { s with pyl := { s.pyl with
      offset := sat32 o, gmId := m.gm.toNat, lastSync := s.tk.now,
      freqAdj := if hold then s.pyl.freqAdj else clampI m.adj (-50000) 50000 } }
    match s.pyl.st with
    | .free => .next (if s.start.ready then s else (s.stepBy o).pylTo .acquire 1)
    | .holdover =>
      let near := if farOffset o then 0 else s.pyl.nearSyncs + 1
      let s := { s with pyl := { s.pyl with nearSyncs := min near 16 } }
      let s := if !s.start.ready && farOffset o then s.stepBy o else s
      .next (if s.pyl.mayRejoin && !s.pyl.ofsFault && decide (16 ≤ near) then s.pylTo .acquire 5 else s)
    | _ =>
      let s := if !s.start.ready && farOffset o then s.stepBy o else s
      .next (s.syncTracked o)

/-- The sync interval, 2^−code s (PYL_PTP_CFG.SYNC_LOG). -/
def State.syncInterval (s : State) : Nat := 1000000000 * uNs / 2 ^ fld (s.reg 0x1104) 24 3

/-- SYNC_LOSS (R297): no valid Sync has come for three sync intervals. -/
def execSyncLoss (ofs : Nat) (s0 : State) : Host.Outcome State Fault Refusal :=
  let s := s0.at ofs
  if (s.pyl.st = .locked ∨ s.pyl.st = .acquire) ∧ s.pyl.lastSync + 3 * s.syncInterval ≤ s.tk.now then
    .next ({ s with pyl := { s.pyl with syncLost := true, mayRejoin := true } }.pylTo .holdover 3)
  else .next s

/-- The announced clock is better than this deck's own, by the data-set comparison of IEEE 802.1AS-2020 (R301): priority1,
clockClass 248, accuracy, variance, priority2, identity; the lower value is better. -/
def State.announceBetter (s : State) (m : AnnounceIn) : Bool :=
  let w := s.reg 0x1104
  let rank := fun (p1 c a v p2 i : Nat) => ((((p1 * 256 + c) * 256 + a) * 65536 + v) * 256 + p2) * 2 ^ 64 + i
  decide (rank m.prio1.toNat m.cls.toNat m.acc.toNat m.var.toNat m.prio2.toNat m.id.toNat <
    rank (fld w 8 8) 248 Config.clockAccuracy.toNat Config.clockVariance.toNat (fld w 16 8) Config.clockIdentity.toNat)

/-- The first start of a grandmaster sets the count to the calendar, to 0 while it is INVALID (R299). -/
def State.setCount (s : State) : State :=
  s.stepCount (if s.cal.st = 0 then 0 else s.calVal s.tk.now * 1000000000 * uNs / 2 ^ 24)

/-- ANNOUNCE_MESSAGE (R297, R301): with BMCA the better clock becomes grandmaster; with external port configuration the
role is fixed and the message changes nothing. -/
def execAnnounceMessage (m : AnnounceIn) (ofs : Nat) (s0 : State) : Host.Outcome State Fault Refusal :=
  let s := s0.at ofs
  if m.domain.toNat ≠ fld (s.reg 0x1104) 0 7 ∨ ¬ bitOf (s.reg 0x1100) 7 ∨ s.start.abut then .next s
  else if !bitOf (s.reg 0x1100) 8 || s.announceBetter m then
    let s := { s with pyl := { s.pyl with gmId := m.id.toNat } }
    .next (if s.pyl.st = .grandmaster then ({ s with pyl := { s.pyl with mayRejoin := true } }).pylTo .holdover 7 else s)
  else .next (if s.pyl.st = .free then (if s.start.first && s.start.ticking && !s.start.ready then s.setCount else s).pylTo .grandmaster 6 else s)

/-- PDELAY_EXCHANGE (R301): the mean path delay of the peer-to-peer mechanism from its four times in ns. -/
def execPdelayExchange (t1 t2 t3 t4 : Int) (s : State) : Host.Outcome State Fault Refusal :=
  .next { s with pyl := { s.pyl with pathDelay := ((t4 - t1) - (t3 - t2)) / 2 } }

/-- GRANDMASTER_SYNC_SEND (R301): as grandmaster the deck sends a two-step Sync every 2^−code s and an Announce every
second; at an instant at which neither is due nothing is sent. -/
def execGrandmasterSyncSend (ofs : Nat) (s0 : State) : Host.Outcome State Fault Refusal :=
  let s := s0.at ofs
  let iv := s.syncInterval
  let p := s.pyl
  if p.st = .grandmaster then
    let due := decide (p.syncSent = 0) || decide (p.syncAt + iv ≤ s.tk.now)
    let ann := decide (p.annSent = 0) || decide (p.annAt + 1000000000 * uNs ≤ s.tk.now)
    .next { s with pyl := { p with
      syncSent := if due then p.syncSent + 1 else p.syncSent, syncAt := if due then s.tk.now else p.syncAt,
      annSent := if ann then p.annSent + 1 else p.annSent, annAt := if ann then s.tk.now else p.annAt } }
  else .next s

/-! ### The LAUNCH line (R302, R303) -/

/-- LINE_PER in 1/3072 ns. -/
def State.linePer (s : State) : Nat := fld (s.reg 0x1108) 0 19 * u25
/-- This deck drives the line. -/
def State.lineDriving (s : State) : Bool :=
  bitOf (s.reg 0x1100) 5 && bitOf (s.reg 0x1100) 6 && s.start.ticking && !s.start.abut
/-- This deck receives on the line. -/
def State.lineReceives (s : State) : Bool :=
  bitOf (s.reg 0x1100) 5 && !bitOf (s.reg 0x1100) 6 && s.start.ticking && !s.start.abut

/-- LAUNCH_MARKER_DRIVE (R302): the driver raises a marker at the next multiple of LINE_PER; none where that instant does
not lie in the tick in progress. -/
def execLaunchMarkerDrive (s : State) : Host.Outcome State Fault Refusal :=
  let lp := s.linePer
  if s.lineDriving ∧ lp ≠ 0 then
    let t := max (ceilTo s.tk.now lp) (if s.pyl.markAt = 0 then 0 else s.pyl.markAt + lp)
    if t < s.boundary (s.tk.count + 1) then
      .next { s with tk := { s.tk with now := max s.tk.now t }, pyl := { s.pyl with markAt := t } }
    else .next s
  else .next s

/-- The line becomes invalid; E074 with cause 1 lost, 2 disagree. -/
def State.lineInvalid (s : State) (cause : Nat) : State :=
  ({ s with pyl := { s.pyl with
      lineValid := false, lineLost := true, lineDisagree := s.pyl.lineDisagree || decide (cause = 2), goodMarks := 0,
      disMarks := 0 } }).raise 74 s.deckAddr cause 0 0

/-- The line error and the gPTP offset of a marker differ by more than 1 µs. -/
def State.markApart (s : State) (err : Int) : Bool := decide (1000 * (uNs : Int) < absI (err * uStep - s.pyl.offset * uNs))

/-- An expected marker was missing, or outside the window with its phase error, which may be one more that disagrees. -/
def State.markBad (s : State) (err : Option Int) : State :=
  let bad := min (s.pyl.badMarks + 1) 3
  let dis := match err with
    | some e => if s.markApart e then min (s.pyl.disMarks + 1) 3 else 0
    | none => s.pyl.disMarks
  let s := { s with pyl := { s.pyl with badMarks := bad, goodMarks := 0, disMarks := dis } }
  if s.pyl.lineValid then (if bad = 3 then s.lineInvalid 1 else if dis = 3 then s.lineInvalid 2 else s) else s

/-- A marker within ±1 µs, with its phase error in steps: while the line is valid and the deck LOCKED it steers the count by a
frequency correction within ±50 ppm (R303). -/
def State.markGood (s : State) (err : Int) : State :=
  let good := min (s.pyl.goodMarks + 1) 16
  let dis := if s.markApart err then min (s.pyl.disMarks + 1) 3 else 0
  let adj := if s.pyl.lineValid ∧ s.pyl.st = .locked then clampI (Config.freeLineAdj err s.pyl.freqAdj) (-50000) 50000 else s.pyl.freqAdj
  let s := { s with pyl := { s.pyl with badMarks := 0, goodMarks := good, disMarks := dis, freqAdj := adj } }
  if s.pyl.lineValid then (if dis = 3 then s.lineInvalid 2 else s)
  else if good = 16 then
    let s1 := { s with pyl := { s.pyl with lineValid := true, lineOnce := true } }
    if s.pyl.lineOnce then s1.raise 74 s.deckAddr 3 0 0 else s1
  else s

/-- LAUNCH_MARKER (R303): a rising edge at a step of the tick; its phase error is taken against the nearest multiple of
LINE_PER after LINE_DLY is subtracted. -/
def execLaunchMarker (steps : Nat) (s0 : State) : Host.Outcome State Fault Refusal :=
  let s := s0.at (steps * uStep)
  let lp : Int := s.linePer
  if s.lineReceives ∧ lp ≠ 0 then
    let t : Int := (s.boundary s.tk.count : Int) + (steps * uStep : Nat) - (fld (s.reg 0x110C) 0 16 * uStep : Nat)
    let k := (2 * t + lp) / (2 * lp)
    let err := (t - k * lp) / uStep
    let s := { s with pyl := { s.pyl with lineErr := err } }
    .next (if absI (t - k * lp) ≤ 1000 * (uNs : Int) then s.markGood err else s.markBad (some err))
  else .next s

/-- LAUNCH_MARKER_MISSING (R303): an expected marker has not come. -/
def execLaunchMarkerMissing (ofs : Nat) (s0 : State) : Host.Outcome State Fault Refusal :=
  let s := s0.at ofs
  .next (if s.lineReceives then s.markBad none else s)

/-! ### Census banks (R316 to R318) -/

/-- Bank k. -/
def PylS.bank (p : PylS) (k : Nat) : CensusBank := if k = 0 then p.bank0 else p.bank1
/-- Change bank k. -/
def PylS.putBank (p : PylS) (k : Nat) (b : CensusBank) : PylS := if k = 0 then { p with bank0 := b } else { p with bank1 := b }

/-- CENSUS_READY (R316): the copy of the bank that was latched is complete; E078 names the bank, CENSUS_ID and the instant. -/
def execCensusReady (ofs : Nat) (s0 : State) : Host.Outcome State Fault Refusal :=
  let s := s0.at ofs
  let k := s.pyl.bankNext
  let b := s.pyl.bank k
  if b.st = 1 then
    .next ({ s with pyl := { (s.pyl.putBank k { b with st := 2 }) with bankNext := 1 - k } }.raise 78 s.deckAddr 0 k ((b.id + 2 ^ 32 * b.inst : Nat) : Int))
  else .next s

/-- CENSUS_RELEASE (R318): RELk releases a ready bank; one that is still copied is not released. -/
def execCensusRelease (k : Fin 4) (s : State) : Host.Outcome State Fault Refusal :=
  let rel := fun (p : PylS) (i : Nat) =>
    if k.val.testBit i ∧ (p.bank i).st = 2 then p.putBank i { (p.bank i) with st := 0 } else p
  if s.start.abut then .next (s.accessViolation 0x1180)
  else .next { s with pyl := rel (rel s.pyl 0) 1 }

/-- A census at an instant, with the words of the bank (R316, R317): latched into the bank named NEXT where that one has
been released, else counted as missed. -/
def State.census (s : State) (inst id : Nat) (words : Store Word) : State :=
  let k := s.pyl.bankNext
  if (s.pyl.bank k).st = 0 then
    { s with pyl := s.pyl.putBank k { st := 1, inst := inst, id := id, words := words } }
  else
    ({ s with pyl := { s.pyl with cnsMisses := satInc s.pyl.cnsMisses max16, cnsMiss := true } }).raise 78 s.deckAddr 1 id 0

/-! ### Calendar (R319 to R321) -/

/-- LEAP_SECOND_INSERT (R320): the announced second begins. -/
def execLeapSecondInsert (ofs : Nat) (s0 : State) : Host.Outcome State Fault Refusal :=
  let s := s0.at ofs
  match s.cal.leapSec with
  | some k =>
    if k * 2 ^ 24 ≤ s.calRaw s.tk.now ∧ ¬ s.cal.leapDone then
      .next (({ s with cal := { s.cal with leapDone := true } }).raise 79 s.deckAddr 2 0 0)
    else .next s
  | none => .next s

/-- RTC_TRIM_UPDATE (R321): the crystal measured against Pylon time over 64 s. -/
def execRtcTrimUpdate (trim : BitVec 16) (ofs : Nat) (s0 : State) : Host.Outcome State Fault Refusal :=
  let s := s0.at ofs
  if s.cal.st = 2 ∧ s.clockReady ∧ s.cal.trimAt + 64000000000 * uNs ≤ s.tk.now then
    .next { s with cal := { s.cal with trim := trim.toInt, trimmed := true, trimAt := s.tk.now } }
  else .next s

/-- VBAK_LOW (R321): raised once, while the flag is clear. -/
def execVbakLow (ofs : Nat) (s0 : State) : Host.Outcome State Fault Refusal :=
  let s := s0.at ofs
  if s.cal.vbakLow then .next s
  else .next (({ s with cal := { s.cal with vbakLow := true } }).raise 79 s.deckAddr 3 0 0)

/-- CAL_MAP (R320): the calendar is set to a stamp of a Pylon instant (ns), with or without a leap second announced for the
end of its UTC day; E079 reports the step in ns. -/
def State.calMap (s : State) (inst stamp : Nat) (leap : Bool) : State :=
  let v : Nat := stamp % 4611686018427387904
  let at0 := inst * uNs
  let now := s.tk.now
  let old := s.calVal now
  let ahead : Nat := if at0 ≤ now then 0 else (at0 - now) * 2 ^ 24 / (1000000000 * uNs)
  let base : Int := (v : Int) - (ahead : Int)
  let k : Nat := (v / 16777216 / 86400 + 1) * 86400
  let s1 := { s with cal := { s.cal with
    st := 2, at0 := min at0 now, base := base.toNat, leapSec := if leap then some k else none, leapDone := false,
    trimAt := if s.cal.st = 2 then s.cal.trimAt else now,
    mapPyl := inst, mapCal := stamp } }
  let step : Int := (s1.calVal now : Int) - (old : Int)
  s1.raise 79 s.deckAddr 1 (step * 1000000000 / 16777216) 0

end Sys2Proof.Machine
end

