-- ==== Sys2Proof/Machine/Traction.lean ====
section
/-! DEFINITION. Traction spans T0 and T1 (chapter 07): angle source, speed, limits, torque reference, flux map, forward transforms, observer, modulation, safe zone and causes of SAFE, as one tick's compute. -/
namespace Sys2Proof.Machine

/-! ### Configuration (Table 07-8) -/

/-- A register of traction span t as a signal. -/
def State.tn (s : State) (t : Trac) (o : Nat) : Int := s.spn (Span.ofTrac t) o
/-- The engine of a role: 0 SPD, 1 FWA, 2 FWB, 3 DA, 4 DB, 5 QA, 6 QB, 7 PLL (Table 07-9). -/
def State.tRole (s : State) (t : Trac) (r : Nat) : Nat :=
  if r < 4 then fld (s.spnW (Span.ofTrac t) 0x04) (8 * r) 7 else fld (s.spnW (Span.ofTrac t) 0x08) (8 * (r - 4)) 7
/-- CFG bits: POS_SRC, OBS_EN, DTC_EN. -/
def State.tCfg (s : State) (t : Trac) (i : Nat) : Bool := bitOf (s.spnW (Span.ofTrac t) 0x00) i
/-- Six-phase wiring (R29, R154). -/
def State.sixPhase (s : State) (t : Trac) : Bool := decide (s.wiring t = 0)
/-- First leg of set a or b. -/
def tLeg (t : Trac) (x : Nat) : Nat := 6 * t.val + 3 * x
/-- First phase-current input of set a or b (R159). -/
def tInp (t : Trac) (x : Nat) : Nat := 12 * t.val + 3 * x
/-- SETB_OFS for set b, 0 for set a (R154). -/
def State.setOfs (s : State) (t : Trac) (x : Nat) : Nat := if x = 0 then 0 else (s.spnW (Span.ofTrac t) 0x14).toNat

/-! ### The position unit (R164, R165) -/

/-- The electrical angle of a sensor angle (R164). -/
def State.thetaE (s : State) (t : Trac) (raw : BitVec 32) : Nat :=
  let cfg := s.spnW (Span.ofTrac t) 0x0C
  let pp : Int := fld cfg 0 6
  let sp : Int := fld cfg 8 11
  let a : Int := if bitOf cfg 6 then -(raw.toNat : Int) else raw.toNat
  let ofs : Int := (s.spnW (Span.ofTrac t) 0x10).toNat
  if s.tCfg t 0 then angMod (a * pp + ofs) else angMod (a * pp / sp + ofs)

/-- An angle difference is above ANG_TOL (R165). -/
def State.aboveTol (s : State) (t : Trac) (d : Int) : Bool := decide (s.tn t 0x98 * 256 < absI d)

/-- The conditions of Table 07-5 at a boundary capture: amplitude, tracking, excitation. A span that is not fitted has no
sensor to fail (log 67). -/
def State.sensorBad (s : State) (t : Trac) (p : PosIn) : Bool × Bool × Bool :=
  if !s.fitted (Span.ofTrac t) then (false, false, false) else
  (decide (p.amp * 100 < 60 * 4096) || decide (140 * 4096 < p.amp * 100), s.aboveTol t p.trkErr.toInt,
   p.excBad && !s.tCfg t 0)

/-- The boundary capture and the sensor faults (R164, R165): a fault that persists for its number of captures latches. -/
def State.capture (s : State) (t : Trac) (p : PosIn) : State :=
  let q := s.pos t
  let b := s.sensorBad t p
  let amp := if b.1 then min (q.ampRun + 1) 3 else 0
  let trk := if b.2.1 then min (q.trkRun + 1) 3 else 0
  let exc := if b.2.2 then 1 else 0
  let newA := decide (amp = 3) && !q.causeAmp
  let newT := decide (trk = 3) && !q.causeTrk
  let newE := decide (exc = 1) && !q.causeExc
  let s1 := s.updPos t (fun q => { q with
    capPrev := q.cap, cap := s.thetaE t p.angle, amp := min p.amp max16,
    ampRun := amp, trkRun := trk, excRun := exc,
    causeAmp := q.causeAmp || newA, causeTrk := q.causeTrk || newT, causeExc := q.causeExc || newE })
  let addr := s.spanAddr (Span.ofTrac t)
  let s2 := if newA || newT || newE then s1.stick (.tPosFault t) else s1
  let s3 := if newA then s2.raise 53 addr 1 0 0 else s2
  let s4 := if newT then s3.raise 53 addr 2 0 0 else s3
  if newE then s4.raise 53 addr 3 0 0 else s4

/-- The sensor is valid: no fault of Table 07-5 is latched (R165). -/
def State.sensorValid (s : State) (t : Trac) : Bool :=
  !((s.pos t).causeAmp || (s.pos t).causeTrk || (s.pos t).causeExc)

/-- A condition of Table 07-5 held at the last boundary capture (R165, T_POS_REARM). -/
def State.sensorCauseNow (s : State) (t : Trac) : Bool :=
  decide (0 < (s.pos t).ampRun) || decide (0 < (s.pos t).trkRun) || decide (0 < (s.pos t).excRun)

/-- CARRIER_CENTRE (R159, R164): the position unit captures θe at the carrier centre of the set-a U leg, once in a period, and
keeps the capture with the period. -/
def execCarrierCentre (t : Trac) (angle : BitVec 32) (s0 : State) : Host.Outcome State Fault Refusal :=
  let u := tLeg t 0
  let g := s0.leg u
  let at0 := s0.carrierCentre u
  if g.plen = 0 ∨ g.centred ∨ ¬ s0.reaches at0 then .next s0
  else
    let s := (s0.goto at0).updLeg u (fun g => { g with centred := true })
    .next (s.updPos t (fun p => { p with caps := ((g.pstart, s.thetaE t angle) :: p.caps).take 8 }))

/-! ### Sets -/

/-- A leg counts as lost: unusable, trip latch or desaturation latch in the snapshot (R177). -/
def State.legLost (s : State) (l : Nat) : Bool :=
  !(s.snap.usable.contains l) || s.snap.trip.contains l || s.snap.desat.contains l

/-- The sets whose three legs are all present: bit 0 set a, bit 1 set b (R29, R177, Table 01-3). -/
def State.goodSets (s : State) (t : Trac) : Nat :=
  let ok := fun x => (List.range 3).all (fun k => !s.legLost (tLeg t x + k))
  b2n (ok 0) + (if s.sixPhase t then 2 * b2n (ok 1) else 0)

/-- Bitwise and of two set masks. -/
def andSets (a b : Nat) : Nat := b2n (a.testBit 0 && b.testBit 0) + 2 * b2n (a.testBit 1 && b.testBit 1)

/-! ### The flux map (R161 to R163) -/

/-- Entry word j at (kt, kw, kv) of the on-die map. -/
def State.mapWord (s : State) (t : Trac) (kt kw kv j : Nat) : Int :=
  let i := ((kv * 64 + kw) * 64 + kt) * 4 + j
  sig (Store.get (fun _ => 0#32) (if t.val = 0 then s.image.map0 else s.image.map1) i)

/-- lerp of R154. -/
def lerp16 (a b f : Int) : Int := lerp a b f 16

/-- Word j of the lookup at (T, |ω|, vdc) (R163). -/
def State.mapLookup (s : State) (t : Trac) (tq w vdc : Int) (j : Nat) : Int :=
  let pt := clampI (rhe ((tq - s.tn t 0x40) * s.tn t 0x44) 24) 0 (63 * 65536)
  let pw := clampI (rhe (absI w * s.tn t 0x48) 24) 0 (63 * 65536)
  let pv := clampI (rhe ((vdc - s.tn t 0x4C) * s.tn t 0x50) 24) 0 (15 * 65536)
  let kt := min (pt / 65536).toNat 62
  let kw := min (pw / 65536).toNat 62
  let kv := min (pv / 65536).toNat 14
  let ft := pt - kt * 65536
  let fw := pw - kw * 65536
  let fv := pv - kv * 65536
  let g := fun (dw dv : Nat) => lerp16 (s.mapWord t kt (kw + dw) (kv + dv) j) (s.mapWord t (kt + 1) (kw + dw) (kv + dv) j) ft
  let h := fun (dv : Nat) => lerp16 (g 0 dv) (g 1 dv) fw
  lerp16 (h 0) (h 1) fv

/-! ### One tick before the engines -/

/-- The link voltage of R160: the snapshot, raised to the per-unit value of 300 V. -/
def State.tVdc (s : State) (t : Trac) : Int :=
  let i := 6 + 12 * t.val
  maxI (s.ai i) (s.v300 i)

/-- The span runs its legs in this tick: TORQUE, SPEED, or the ramp to 0 after them (Table 07-2). -/
def TracS.running (x : TracS) : Bool :=
  match x.st with
  | .torque => true
  | .speed => true
  | .standby => x.winding && !x.offDue
  | _ => false

/-- The angle source of the tick (R167): 0 none, 1 sensor, 2 observer. `entering` marks STANDBY to TORQUE or SPEED, the one
change at which the source goes from the observer back to the sensor. -/
def State.angleSource (s : State) (t : Trac) (x : TracS) (entering : Bool) : Nat :=
  if s.sensorValid t && (decide (x.angSrc ≠ 2) || entering) then 1
  else if x.obsValid then 2 else 0

/-- The speed of the sensor: mulc(dθ, W_SCALE) (R166). -/
def State.sensorSpeed (s : State) (t : Trac) : Int :=
  mulc (angDiff (s.pos t).cap (s.pos t).capPrev) (s.tn t 0x18)

/-- The speed of the tick (R166): the sensor's, the PLL's output current at boundary n, or, without an angle source, the
last one (log 12). -/
def State.tSpeed (s : State) (t : Trac) (prev : Ctl) (x : TracS) (src : Nat) : Int :=
  if src = 1 then s.sensorSpeed t else if src = 2 then s.roleOut prev (s.tRole t 7) else x.speed

/-- tm and tg (R169). -/
def State.torqueLimits (s : State) (t : Trac) (x : TracS) (sets : Nat) (flink w : Int) : Int × Int :=
  let fset := if s.sixPhase t && (decide (sets = 1) || decide (sets = 2)) then one24 / 2 else one24
  let f := minI (minI fset (s.ftr (Span.ofTrac t))) s.snap.fcoolT
  let fv := minI one24 (quot456 (s.tVdc t) (s.tn t 0x74))
  let tm := mulc (s.tn t 0x60) (minI (minI f flink) x.dip)
  let tg := mulc (s.tn t 0x64) (minI f x.dip)
  let cont := s.tn t 0x6C
  let tm := if x.peakExh then minI tm cont else tm
  let tg := if x.peakExh then minI tg cont else tg
  let pe := mulc (mulc (s.tn t 0x70) fv) (minI f flink)
  let tm := if 0 < absI w then minI tm (rheQ (pe * one24) (absI w)) else tm
  (tm, tg)

/-- T of R170 from a target: the new T, whether the target was clipped, whether it ramps. -/
def rampTorque (target prev tm tg rate : Int) : Int × Bool × Bool :=
  let tt := clampI target (-tg) tm
  let t := clampI (prev + clampI (tt - prev) (-rate) rate) (-tg) tm
  (t, decide (tt ≠ target), decide (t ≠ tt))

/-- The observer before the engines (R168): fluxes, the angle error. -/
structure ObsStep where
  psa : Int
  psb : Int
  err : Int
  deriving DecidableEq, Repr

/-- The flux model and the angle error of R168. -/
def State.observe (s : State) (t : Trac) (x : TracS) (al be : Int) (thobs : Nat) : ObsStep :=
  let rs := s.tn t 0x20
  let lq := s.tn t 0x28
  let kt := s.tn t 0x8C
  let kl := s.tn t 0x90
  let ea := x.valPrev - mulc rs al
  let eb := x.vbePrev - mulc rs be
  let psa := x.psa + mulc ea kt - mulc x.psa kl
  let psb := x.psb + mulc eb kt - mulc x.psb kl
  let fa := psa - mulc lq al
  let fb := psb - mulc lq be
  { psa := psa, psb := psb, err := mulc fb (cosA thobs) - mulc fa (sinA thobs) }

/-- What the tick's first part of a traction span leaves for its second. -/
structure TracPre where
  x : TracS
  post : SpanPost
  vdc : Int
  /-- Boundary angle, set a. -/
  th : Nat
  w : Int
  sets : Nat
  obsRun : Bool
  err : Int
  sensW : Int
  deriving DecidableEq, Repr

/-- The currents of a set. -/
def State.tCur (s : State) (t : Trac) (x : Nat) : Int × Int × Int :=
  (s.ai (tInp t x), s.ai (tInp t x + 1), s.ai (tInp t x + 2))

/-- id and iq of set x (R159). -/
def State.tDq (s : State) (t : Trac) (x : Nat) (ths : Nat) : Int × Int :=
  let i := s.tCur t x
  let c := clarke i.1 i.2.1 i.2.2
  park c.1 c.2 ((ths + s.setOfs t x) % 2 ^ 32)

/-- The references of the sets in use (R163): id*_a, iq*_a, id*_b, iq*_b, with the FW outputs current at boundary n. -/
def State.tRefs (s : State) (t : Trac) (prev : Ctl) (sets : Nat) (tq w vdc : Int) : List Int :=
  let m := fun j => s.mapLookup t tq w vdc j
  let fa := s.roleOut prev (s.tRole t 1)
  let fb := s.roleOut prev (s.tRole t 2)
  if !s.sixPhase t then [sat32 (m 0 + fa), m 1, 0, 0]
  else if sets = 3 then [sat32 (m 0 + fa), m 1, sat32 (m 2 + fb), m 3]
  else if sets = 2 then [0, 0, sat32 (m 0 + m 2 + fb), sat32 (m 1 + m 3)]
  else [sat32 (m 0 + m 2 + fa), sat32 (m 1 + m 3), 0, 0]

/-- How another deck's or the tick before's outer result enters a span's compute in a viaduct (R263). -/
inductive Outer where
  /-- A single deck: the outer laws of the tick itself. -/
  | single
  /-- This deck leads: `prev` is T_V of the tick before, and the new T_V is formed in `steps` steps of the ramp from
  `base`. -/
  | lead (prev base : Int) (steps : Nat)
  /-- The twin leads: T_V of its frame. -/
  | follow (prev : Int)
  deriving DecidableEq, Repr

/-- Steps of the ramp of R170 (R282 takes more than one at a takeover). -/
def rampSteps (target tm tg rate : Int) : Nat → Int × Bool × Bool → Int × Bool × Bool
  | 0, r => r
  | n + 1, r => rampSteps target tm tg rate n (rampTorque target r.1 tm tg rate)

/-- The first part of the compute: everything before the engines (R159, R163, R166 to R170). In DISABLED every engine is IDLE,
the PLL with them (Table 07-1), so the observer is not valid there (R168; log 123). In a viaduct the span applies
its share of T_V of the tick before, clamped to its own limits (Table 12-1, R264). -/
def State.tracPre (s : State) (t : Trac) (prev : Ctl) (x0 : TracS) (flink : Int) (outer : Outer) : TracPre :=
  let was := (prev.trac t).st
  let entering := decide (was = .standby) && (decide (x0.st = .torque) || decide (x0.st = .speed))
  let src := s.angleSource t x0 entering
  let sensW := if s.sensorValid t then s.sensorSpeed t else 0
  let w := s.tSpeed t prev x0 src
  let th := if src = 2 then x0.thobs else (s.pos t).cap
  let ths := fun (x : Nat) => if src = 2 then x0.thobs else (s.inp (tInp t x)).ang
  let good := s.goodSets t
  let sets := match x0.st with
    | .disabled => 0
    | .safe => x0.sets
    | _ => if entering && decide (good = 3) then 3
           else if decide (was = .disabled) then good
           else andSets x0.sets good
  let vdc := s.tVdc t
  let lim := s.torqueLimits t x0 sets flink w
  let spd := s.roleOut prev (s.tRole t 0)
  let target := match x0.st with
    | .torque => x0.target
    | .speed => spd
    | _ => 0
  let sp := Span.ofTrac t
  let rate := s.tn t 0x68
  let ulim := (s.unshared sp lim.1, s.unshared sp lim.2)
  let none3 : Int × Bool × Bool := (0, false, false)
  let ramp : Int × Bool × Bool := if !x0.running then none3
    else match outer with
    | .single => rampTorque target x0.tq lim.1 lim.2 rate
    | .lead _ b k => rampSteps target ulim.1 ulim.2 rate k (b, false, false)
    | .follow _ => none3
  let given := fun (v : Int) => clampI (s.shared sp v) (-lim.2) lim.1
  let tq : Int := if !x0.running then 0
    else match outer with
    | .single => ramp.1
    | .lead v _ _ => given v
    | .follow v => given v
  let tv : Int := match outer with
    | .single => 0
    | .lead _ _ _ => ramp.1
    | .follow v => if x0.running then v else 0
  let clip := match outer with
    | .follow v => x0.running && decide (given v ≠ s.shared sp v)
    | _ => ramp.2.1
  let refs := s.tRefs t prev sets tq w vdc ++ [x0.spdTarget]
  let da := if sets.testBit 0 then s.tDq t 0 (ths 0) else (0, 0)
  let db := if sets.testBit 1 then s.tDq t 1 (ths 1) else (0, 0)
  let obsSet := if sets.testBit 0 || !sets.testBit 1 then 0 else 1
  let track := s.sensorValid t && decide (absI w < s.tn t 0x88)
  let thobs := if track then (s.pos t).cap else x0.thobs
  let i := s.tCur t obsSet
  let c := clarke i.1 i.2.1 i.2.2
  let ob := if s.tCfg t 1 then s.observe t x0 c.1 c.2 thobs else { psa := x0.psa, psb := x0.psb, err := 0 }
  let vmax := vmaxOf vdc (fld (s.spnW (Span.ofTrac t) 0x30) 0 17)
  let qlim := fun r => isqrt (maxI 0 (vmax * vmax - s.roleOut prev (s.tRole t r) * s.roleOut prev (s.tRole t r)))
  let run := x0.running
  let dq := fun (b : Nat) => if sets.testBit b then (if run then EngMode.run else match x0.st with | .standby => .track | _ => .idle) else .idle
  let fw := fun (b : Nat) => if sets.testBit b && run then EngMode.run else .idle
  let spdMode := match x0.st with
    | .speed => EngMode.run
    | .torque => .track
    | .standby => .track
    | _ => .idle
  let obsRuns := s.tCfg t 1 && decide (x0.st ≠ .disabled)
  let pllMode := if obsRuns then (if track then EngMode.track else .run) else .idle
  let tprev := match outer with | .single => x0.tq | _ => x0.tv
  let meas7 := match x0.st with | .standby => (if x0.winding then tprev else 0) | _ => tprev
  let spdLim := match outer with | .single => lim | _ => ulim
  let ff := fun (d q : Int) => (-(mulc w (mulc (s.tn t 0x28) q)), mulc w (mulc (s.tn t 0x24) d + s.tn t 0x2C))
  let fa := ff da.1 da.2
  let fb := ff db.1 db.2
  let meas := [da.1, da.2, db.1, db.2, x0.marginA, x0.marginB, w, meas7, fa.1, fa.2, fb.1, fb.2, -ob.err, sensW]
  let eng :=
    postEng (s.tRole t 0) spdMode (-spdLim.2) spdLim.1 ++
    postEng (s.tRole t 1) (fw 0) s32min s32max ++ postEng (s.tRole t 2) (fw 1) s32min s32max ++
    postEng (s.tRole t 3) (dq 0) (-vmax) vmax ++ postEng (s.tRole t 4) (dq 1) (-vmax) vmax ++
    postEng (s.tRole t 5) (dq 0) (-(qlim 3)) (qlim 3) ++ postEng (s.tRole t 6) (dq 1) (-(qlim 4)) (qlim 4) ++
    postEng (s.tRole t 7) pllMode s32min s32max
  { x := { x0 with angSrc := src, speed := w, angle := th, tq := tq, tv := tv, tm := lim.1, tg := lim.2, tqClip := clip,
                   ramp := ramp.2.2, thobs := thobs, psa := ob.psa, psb := ob.psb },
    post := { refs := refs, meas := meas, eng := eng }, vdc := vdc, th := th, w := w, sets := sets,
    obsRun := obsRuns && !track, err := ob.err, sensW := sensW }

/-! ### Safe zone, causes and what follows the engines -/

/-- The zone of R174, held without an angle source, and left after 256 ticks without current (R175). -/
def State.ascZone (s : State) (t : Trac) (x : TracS) (w : Int) (src ascRun : Nat) : Bool :=
  if src = 0 then (if x.st = .safe && decide (256 ≤ ascRun) then false else x.ascZone)
  else if s.tn t 0x78 ≤ absI w then true
  else if absI w < s.tn t 0x7C then false
  else x.ascZone

/-- The run of R175: ticks without an untrusted phase current in which every set in ASC stays below ASC_I. -/
def State.ascRun (s : State) (t : Trac) (x : TracS) (src : Nat) : Nat :=
  if decide (x.st = .safe) && decide (src = 0) && x.ascZone then
    let sets := (if 2 ≤ x.safeA then [0] else []) ++ (if 2 ≤ x.safeB then [1] else [])
    let ins := fun (l : List Nat) => l.flatMap (fun b => (List.range 3).map (fun k => tInp t b + k))
    let trusted := (ins (if s.sixPhase t then [0, 1] else [0])).all (fun i => !(s.inp i).untrusted)
    if trusted && (ins sets).all (fun i => decide (absI (s.ai i) < s.tn t 0x80)) then min (x.ascRun + 1) 256 else 0
  else 0

/-- The pattern a set posts (R174): 1 OFF, 2 LS on, 3 HS on, in the codes of STATE.SAFE_A. -/
def State.setPattern (s : State) (t : Trac) (zone : Bool) (x : Nat) : Nat :=
  let ls := (List.range 3).map (fun k => tLeg t x + k)
  if zone && (decide (x = 0) || s.sixPhase t) then
    if ls.all (fun l => s.snap.gateLs.contains l) then 2
    else if ls.all (fun l => s.snap.gateHs.contains l) then 3 else 1
  else 1

/-- The phase-current inputs of the sets in use. -/
def tInputs (t : Trac) (sets : Nat) : List (Nat × Nat) :=
  (if sets.testBit 0 then (List.range 3).map (fun k => (tInp t 0 + k, tLeg t 0 + k)) else []) ++
  (if sets.testBit 1 then (List.range 3).map (fun k => (tInp t 1 + k, tLeg t 1 + k)) else [])

/-- The causes of Table 07-6 present in the tick's inputs, lowest code first; cause 1 is the boundary's own. `sets` are
the sets whose currents and legs count. -/
def State.tracCauses (s : State) (t : Trac) (sets : Nat) : List Nat :=
  let x := s.cur.trac t
  let sp := Span.ofTrac t
  let src := s.angleSource t x false
  let above := decide (s.tn t 0x84 < absI (s.tSpeed t s.cur x src))
  (if s.snap.shortSpans.contains sp then [2] else []) ++ (if s.snap.linkOv then [3] else []) ++
  (if s.snap.stTrips.contains sp then [4] else []) ++ (if s.snap.syncSpans.contains sp then [5] else []) ++
  (if (tInputs t 3).any (fun p => (s.inp p.1).untrusted) then [6] else []) ++
  (if (tInputs t sets).any (fun p => s.stale p.1 p.2) then [7] else []) ++
  (if src = 0 then [8] else []) ++ (if above && decide (2 ≤ x.ovRun) then [9] else []) ++ (if sets = 0 then [10] else []) ++
  (if s.snap.orders.contains sp then [11] else [])

/-- The cause that takes a traction span into SAFE in this tick, judged on the state in force (R173). -/
def State.tracEntry (s : State) (t : Trac) : Option Nat :=
  let x := s.cur.trac t
  match x.st with
  | .disabled => none
  | .safe => none
  | _ => (s.tracCauses t (andSets x.sets (s.goodSets t))).head?

/-- What a latched pattern shows in STATE of a traction span: 1 OFF, 2 LS on, 3 HS on (Table 07-9). -/
def shownPattern (pat : Nat) : Nat := if pat = 1 then 2 else if pat = 2 then 3 else 1

/-- STATE.SAFE_A and SAFE_B of a span that is in SAFE with the patterns its legs have latched (R174): those in force until a
compute in SAFE posts new ones. -/
def State.tracShown (s : State) (t : Trac) (x : TracS) : TracS :=
  { x with safeA := shownPattern (s.leg (tLeg t 0)).safePat, safeB := shownPattern (s.leg (tLeg t 1)).safePat }

/-- Enter SAFE at the next boundary (R173): state, cause, sticky flag and E054. -/
def State.tracSafe (s : State) (t : Trac) (cause : Nat) : State :=
  let sp := Span.ofTrac t
  let x := s.stage.trac t
  let c := s.stage.putTrac t (s.tracShown t { x with
    st := .safe, safeCause := cause, winding := false, offDue := false, tq := 0, tv := 0 })
  { s with stage := { c with
      safed := addSet sp c.safed,
      notes := c.notes ++ [Note.ev 54 (s.spanAddr sp) cause 0 0, Note.stick (.safeEntry sp)] } }

/-- Compare values of one set (R160). -/
def State.tMod (s : State) (t : Trac) (now : Ctl) (p : TracPre) (x : Nat) : ModOut :=
  let m := s.spnW (Span.ofTrac t) 0x30
  let l := tLeg t x
  let adv := rhe (p.w * ((s.spnW (Span.ofTrac t) 0x1C).toNat : Int) * (fld m 17 10 : Nat)) 32
  let thm := angMod ((p.th : Int) + adv + s.setOfs t x)
  let comp := fun (k : Nat) =>
    dtComp (s.tCfg t 2) (rheDiv ((s.leg (l + k)).voted * 1024) 5 + sfld (s.spnW (Span.ofTrac t) 0x34) 0 16)
      (s.tn t 0x38) (s.ai (tInp t x + k))
  modulate (s.roleOut now (s.tRole t (3 + x))) (s.roleOut now (s.tRole t (5 + x))) p.vdc (fld m 0 17) thm (s.nominal l)
    (comp 0) (comp 1) (comp 2)

/-- A COMP set (Table 05-2) with a compare value. -/
def State.compSet (s : State) (l : Nat) (cmpa : Int) : PSet :=
  { per := s.nominal l, cmpa := cmpa.toNat, cmpb := 0, phase := s.choPhase l, mode := 1 }

/-- The Truss code of a posted pattern: SAFE_A codes 1 OFF, 2 LS on, 3 HS on become 0, 1, 2 (R124). -/
def patCode (p : Nat) : Nat := p - 1

/-- The second part: observer, sets, SAFE, compare values, patterns and commit bit (R160, R168, R172 to R177). The limiter and
modulator run for every set in use, whether or not the legs drive. E055 names the set that was lost, the sets that remain and
the capacity, 0.5 of the span's (R177; log 10). -/
def State.tracPost (s : State) (t : Trac) (prev now : Ctl) (p : TracPre) : Ctl :=
  let x := p.x
  let sp := Span.ofTrac t
  let addr := s.spanAddr sp
  let src := x.angSrc
  let pllU := s.roleOut now (s.tRole t 7)
  -- observer
  let pllRun := if p.obsRun then min (x.pllRun + 1) 64 else 0
  let errRun := if p.obsRun && decide (absI p.err ≤ s.tn t 0x94) then min (x.errRun + 1) 64 else 0
  let obsValid := s.tCfg t 1 && decide (pllRun = 64) && decide (errRun = 64) && decide (s.tn t 0x88 ≤ absI pllU)
  let thobs := if s.tCfg t 1 then angMod ((x.thobs : Int) + rhe (pllU * ((s.spnW sp 0x1C).toNat : Int)) 24) else x.thobs
  let dis := s.sensorValid t && obsValid && s.aboveTol t (angDiff (s.pos t).cap x.thobs)
  let disRun := if dis then min (x.disRun + 1) 16 else 0
  let newDis := decide (disRun = 16) && !x.disagree
  -- zone, sets, overspeed
  let ascRun := s.ascRun t x src
  let zone := s.ascZone t x p.w src ascRun
  let patA := s.setPattern t zone 0
  let patB := s.setPattern t zone 1
  let ovRun := if s.tn t 0x84 < absI p.w then min (x.ovRun + 1) 3 else 0
  let was := (prev.trac t).st
  let live := decide (x.st = .standby) || decide (x.st = .torque) || decide (x.st = .speed)
  let lost := live && decide (was ≠ .disabled) && decide (p.sets ≠ x.sets) && decide (p.sets < 3) && decide (p.sets ≠ 0) && decide (x.sets = 3)
  -- SAFE
  let inSafe := decide (x.st = .safe)
  let safeA := if inSafe then patA else 0
  let safeB := if inSafe then patB else 0
  let patChange := inSafe && decide (was = .safe) && (decide (safeA ≠ x.safeA) || decide (safeB ≠ x.safeB))
  -- peak (R172)
  let above := decide (s.tn t 0x6C < absI x.tq)
  let peak := if above then (if x.peakExh && s.reached x.peak 30000 then x.peak else x.peak + 1) else x.peak - 1
  let exh := if x.peakExh then decide (peak ≠ 0) else s.reached peak 30000 && decide (0 < peak)
  -- compare values
  let drive := x.running
  let ma := s.tMod t now p 0
  let mb := s.tMod t now p 1
  let useA := p.sets.testBit 0
  let useB := p.sets.testBit 1
  let keep := if useA || !useB then ma else mb
  let kept := useA || useB
  let offDue := x.running && decide (x.st = .standby) && decide (x.tq = 0)
  let y : TracS := { x with
    safeA := safeA, safeB := safeB, sets := p.sets, obsValid := obsValid, ascZone := zone,
    vlimA := useA && ma.vlim, vlimB := useB && mb.vlim,
    tq := if inSafe then 0 else x.tq, tv := if inSafe then 0 else x.tv, peak := peak, peakExh := exh,
    marginA := if useA then ma.margin else 0, marginB := if useB then mb.margin else 0,
    valPrev := if kept then keep.val else 0, vbePrev := if kept then keep.vbe else 0,
    thobs := thobs, pllRun := pllRun, errRun := errRun, disRun := disRun, disagree := decide (disRun = 16), ovRun := ovRun,
    ascRun := ascRun, winding := x.winding && !inSafe && !x.offDue, offDue := offDue && !inSafe && !x.offDue }
  let post := fun (c : Ctl) (b : Nat) (m : ModOut) (pat : Nat) =>
    let l := tLeg t b
    let on := drive && p.sets.testBit b
    let w := fun (k : Nat) (v : Int) => if on then s.compSet (l + k) v else s.offSet (l + k)
    ((c.post l (w 0 m.a) (patCode pat)).post (l + 1) (w 1 m.b) (patCode pat)).post (l + 2) (w 2 m.c) (patCode pat)
  let c1 := post (post (now.putTrac t y) 0 ma patA) 1 mb patB
  let notes :=
    (if src = 2 && decide ((prev.trac t).angSrc ≠ 2) then [Note.ev 53 addr 4 0 0] else []) ++
    (if newDis then [Note.ev 53 addr 5 0 0, Note.stick (.tDisagree t)] else []) ++
    (if lost then [Note.ev 55 addr (3 - p.sets) p.sets (one24 / 2), Note.stick (.tSetLost t)] else []) ++
    (if exh && !x.peakExh then [Note.ev 56 addr 0 peak 0] else []) ++
    (if patChange then [Note.ev 54 addr 0 safeA safeB] else [])
  { c1 with notes := c1.notes ++ notes, commit := addSet sp c1.commit }

/-- TORQUE_PEAK_EXHAUST (R172): a counter that has reached 30 s / P sets PEAK_EXH and raises E056, as the compute does in
the tick in which it happens; with the counter below that nothing happens. -/
def execTorquePeakExhaust (t : Trac) (s : State) : Host.Outcome State Fault Refusal :=
  let x := s.stage.trac t
  if s.reached x.peak 30000 ∧ 0 < x.peak ∧ ¬ x.peakExh then
    .next { (s.raise 56 (s.spanAddr (Span.ofTrac t)) 0 x.peak 0) with stage := s.stage.putTrac t { x with peakExh := true } }
  else .next s

/-- The end of a dip (R171): at its end tick the factor returns to 1.0. -/
def TracS.dipEnds (x : TracS) (n : Tick) : TracS :=
  match x.dipEnd with
  | some e => if e ≤ n then { x with dip := one24, dipEnd := none } else x
  | none => x

/-- DIP_END (R171): the dip of a span whose duration has ended returns to 1.0 from the next boundary. -/
def execDipEnd (t : Trac) (s : State) : Host.Outcome State Fault Refusal :=
  .next { s with stage := s.stage.putTrac t ((s.stage.trac t).dipEnds (s.tk.count + 1)) }

/-- ASC_EXIT_NO_ANGLE (R175): in SAFE without an angle source, after 256 ticks below ASC_I, the ASC zone changes to OFF. -/
def execAscExitNoAngle (t : Trac) (s : State) : Host.Outcome State Fault Refusal :=
  let x := s.stage.trac t
  if x.st = .safe ∧ x.angSrc = 0 ∧ x.ascZone ∧ x.ascRun = 256 then
    .next { (s.raise 54 (s.spanAddr (Span.ofTrac t)) 0 1 1) with
      stage := s.stage.putTrac t { x with ascZone := false, safeA := 1, safeB := 1 } }
  else .next s

/-! ### Commands (Tables 07-2, 15-4, 15-5) -/

/-- The checks of DISABLED to STANDBY, in the order of Table 07-2. -/
def State.tracStandbyCheck (s : State) (t : Trac) : Option Status :=
  let i := 6 + 12 * t.val
  if s.ai i < s.v300 i then some .linkAbsent
  else if !(s.sensorValid t || (s.stage.trac t).obsValid) then some .positionInvalid
  else if !(s.image.mapLoaded.contains t) then some .tableInvalid
  else if s.snap.implausible.contains t.val then some .pairImplausible
  else if s.goodSets t = 0 then some .spanUnavailable
  else none

/-- A cause of Table 07-6 is still active for a span in SAFE (Table 07-2, R61). -/
def State.tracCauseActive (s : State) (t : Trac) : Bool :=
  let x := s.stage.trac t
  !(s.tracCauses t (andSets x.sets (s.goodSets t))).isEmpty || s.overrunActive x.safeCause

/-- The verdict of a mode command (Table 07-2, R255, R353); codes 0 DISABLED, 1 STANDBY, 2 TORQUE, 3 SPEED. -/
def State.tracVerdict (s : State) (t : Trac) (code : Nat) : Verdict :=
  let sp := Span.ofTrac t
  let x := s.stage.trac t
  match x.st, code with
  | .disabled, 0 => .same
  | .standby, 1 => .same
  | .torque, 2 => .same
  | .speed, 3 => .same
  | .disabled, 1 =>
    if s.kst.lsBroken then .no .spanUnavailable
    else match s.tracStandbyCheck t with
      | some st => .no st
      | none => s.mayChange sp
  | .disabled, _ => if s.kst.lsBroken then .no .spanUnavailable else .no .wrongState
  | .standby, _ => s.mayChange sp
  | .torque, 0 => .no .spanActive
  | .speed, 0 => .no .spanActive
  | .torque, _ => s.mayChange sp
  | .speed, _ => s.mayChange sp
  | .safe, 0 => if s.tracCauseActive t then .no .causeActive else s.mayChange sp
  | .safe, _ => if s.kst.lsBroken then .no .spanUnavailable else .no .wrongState

/-- The state after an accepted mode command (Table 07-2). From STANDBY with the legs OFF, T starts at 0; while a ramp to 0
still runs, T continues from its present value. -/
def TracS.toMode (x : TracS) (code : Nat) (val : Int) : TracS :=
  match code with
  | 0 => { x with st := .disabled, winding := false, offDue := false, tq := 0, tv := 0 }
  | 1 => match x.st with
    | .disabled => { x with st := .standby, winding := false, offDue := false, tq := 0, tv := 0 }
    | _ => { x with st := .standby, winding := true, offDue := false }
  | 2 => { x with st := .torque, target := val, tq := if x.st = .standby ∧ ¬ (x.winding ∧ ¬ x.offDue) then 0 else x.tq,
                  tv := if x.st = .standby ∧ ¬ (x.winding ∧ ¬ x.offDue) then 0 else x.tv,
                  winding := false, offDue := false }
  | _ => { x with st := .speed, spdTarget := val, tq := if x.st = .standby ∧ ¬ (x.winding ∧ ¬ x.offDue) then 0 else x.tq,
                  tv := if x.st = .standby ∧ ¬ (x.winding ∧ ¬ x.offDue) then 0 else x.tv,
                  winding := false, offDue := false }

/-- MODE on a traction span. -/
def State.tracMode (t : Trac) (code : Nat) (val : Int) (s : State) : Verdict × State :=
  match s.tracVerdict t code with
  | .go => (.go, s.withStage ((s.stage.putTrac t ((s.stage.trac t).toMode code val)).changes (Span.ofTrac t)))
  | v => (v, s)

/-- The states in which a torque or speed target is accepted (Table 15-5). -/
def TracS.takesTarget (x : TracS) : Bool :=
  decide (x.st = .standby) || decide (x.st = .torque) || decide (x.st = .speed)

/-- TQ_TARGET (R170). -/
def State.tqTarget (t : Trac) (v : Int) (s : State) : Verdict × State :=
  let x := s.stage.trac t
  if x.takesTarget then (.go, s.withStage (s.stage.putTrac t { x with target := v })) else (.no .wrongState, s)

/-- SPD_TARGET (R170, Table 15-5). -/
def State.spdTargetCmd (t : Trac) (v : Int) (s : State) : Verdict × State :=
  let x := s.stage.trac t
  if x.takesTarget then (.go, s.withStage (s.stage.putTrac t { x with spdTarget := v })) else (.no .wrongState, s)

/-- T_POS_REARM (R165): judged on the boundary capture of tick b − 1; the latch clears at b. -/
def State.posRearmCmd (t : Trac) (s : State) : Verdict × State :=
  if s.sensorCauseNow t then (.no .causeActive, s) else (.go, s.withStage (s.stage.note [.posRearm t]))

/-- A torque dip of the launch table (R171): the lower level and the later end of two dips. -/
def State.tracDip (t : Trac) (level : Int) (dur : Nat) (s : State) : State :=
  let x := s.stage.trac t
  let e := s.nextBoundary + dur
  let y := match x.dipEnd with
    | some e0 => { x with dip := minI x.dip level, dipEnd := some (max e0 e) }
    | none => { x with dip := level, dipEnd := some e }
  s.withStage (s.stage.putTrac t y)

end Sys2Proof.Machine
end

