-- ==== Sys2Proof/Machine/Flags.lean ====
section
/-! DEFINITION. Every flag and status register of BAR0 as a word: what each register of Tables 19-4 to 19-11 reads as, formed from the state it reports, its access type and its defined bits. -/
namespace Sys2Proof.Machine

/-! ### Blocks and rows (R430, Table 19-1) -/

/-- The blocks of BAR0 that have registers. -/
inductive Block where
  | dkid | tick | cwy | adc | conv | inp | gdr | trs | pier | par | trac | cspn | qspn | bspn | aspn | fp | ldg | kst | vdt
  | trl | cal | mrm
  deriving DecidableEq, Repr

/-- The access types of Table 00-2, with the pairs of R433 and the registers whose writes the chapters treat apart. -/
inductive Acc where
  /-- RO; also CH and CAL, which no host write reaches. -/
  | ro
  | rw
  | lk
  | tl
  | w1s
  | w1c
  /-- RO, W1C (R433). -/
  | mix
  /-- LK, RO: the mask says which bits are LK (R433). -/
  | lkro
  /-- The write set of a leg: RW in direct mode, RO otherwise (R115). -/
  | ws
  deriving DecidableEq, Repr

/-- `n` registers from offset `lo` within a block instance, with their access type and their writable or held bits. -/
structure RegRow where
  lo : Nat
  n : Nat
  acc : Acc
  mask : Nat
  deriving DecidableEq, Repr

/-- All 32 bits. -/
def m32 : Nat := 0xFFFFFFFF

/-- The block, the instance and the offset within the instance of a BAR0 offset (Table 19-1). -/
def regPlace (off : Nat) : Option (Block × Nat × Nat) :=
  if off < 0x80 then some (.dkid, 0, off)
  else if off < 0x1000 then none
  else if off < 0x1300 then some (.tick, 0, off - 0x1000)
  else if off < 0x2000 then none
  else if off < 0x4000 then some (.cwy, 0, off - 0x2000)
  else if off < 0x4400 then some (.adc, 0, off - 0x4000)
  else if off < 0x5400 then some (.conv, (off - 0x4400) / 0x100, (off - 0x4400) % 0x100)
  else if off < 0x6000 then some (.inp, (off - 0x5400) / 0x20, (off - 0x5400) % 0x20)
  else if off < 0x8000 then none
  else if off < 0xC000 then some (.gdr, (off - 0x8000) / 0x100, (off - 0x8000) % 0x100)
  else if off < 0x11000 then some (.trs, (off - 0xC000) / 0x200, (off - 0xC000) % 0x200)
  else if off < 0x13800 then some (.pier, (off - 0x11000) / 0x100, (off - 0x11000) % 0x100)
  else if off < 0x14000 then none
  else if off < 0x15000 then some (.par, 0, off - 0x14000)
  else if off < 0x18000 then none
  else if off < 0x1A000 then some (.trac, (off - 0x18000) / 0x1000, (off - 0x18000) % 0x1000)
  else if off < 0x1B000 then some (.cspn, 0, off - 0x1A000)
  else if off < 0x1C000 then some (.qspn, 0, off - 0x1B000)
  else if off < 0x1D000 then some (.bspn, 0, off - 0x1C000)
  else if off < 0x1F000 then some (.aspn, (off - 0x1D000) / 0x800, (off - 0x1D000) % 0x800)
  else if off < 0x20000 then none
  else if off < 0x2C000 then some (.fp, (off - 0x20000) / 0x400, (off - 0x20000) % 0x400)
  else if off < 0x30000 then some (.ldg, 0, off - 0x2C000)
  else if off < 0x31000 then some (.kst, 0, off - 0x30000)
  else if off < 0x32000 then some (.vdt, 0, off - 0x31000)
  else if off < 0x33000 then some (.trl, 0, off - 0x32000)
  else if off < 0x33100 then some (.cal, 0, off - 0x33000)
  else if off < 0x34000 then some (.mrm, 0, off - 0x33100)
  else none

/-- The registers of a block instance, with access types and defined bits (Tables 19-4 to 19-11 and the field tables of
the chapters). -/
def Block.rows : Block → List RegRow
  | .dkid => [⟨0x00, 1, .ro, 0xFFFF0007⟩, ⟨0x04, 1, .ro, 0xFFFF⟩, ⟨0x08, 2, .ro, m32⟩, ⟨0x40, 1, .ro, 0xFFFF⟩,
      ⟨0x44, 1, .ro, m32⟩, ⟨0x48, 1, .ro, 0xFF⟩, ⟨0x4C, 3, .ro, m32⟩, ⟨0x58, 2, .lk, m32⟩, ⟨0x60, 1, .w1s, 3⟩,
      ⟨0x64, 7, .ro, m32⟩]
  | .tick => [⟨0x00, 1, .ro, 0x1FFF⟩, ⟨0x04, 1, .ro, 0x1FF01FF⟩, ⟨0x08, 1, .ro, 0xFF⟩, ⟨0x10, 2, .ro, m32⟩,
      ⟨0x18, 1, .mix, 0x1E⟩, ⟨0x1C, 9, .ro, m32⟩, ⟨0x40, 1, .w1s, 1⟩, ⟨0x44, 1, .ro, m32⟩,
      ⟨0x100, 1, .lk, 0x1FF⟩, ⟨0x104, 1, .lk, 0x7FFFF7F⟩, ⟨0x108, 1, .lk, 0x7FFFF⟩, ⟨0x10C, 1, .lk, 0xFFFF⟩,
      ⟨0x110, 1, .ro, m32⟩, ⟨0x114, 1, .mix, 0x3D⟩, ⟨0x118, 8, .ro, m32⟩, ⟨0x140, 1, .rw, 0xFF⟩, ⟨0x144, 2, .ro, m32⟩,
      ⟨0x160, 8, .ro, m32⟩, ⟨0x180, 1, .w1s, 3⟩, ⟨0x184, 4, .ro, m32⟩, ⟨0x198, 3, .ro, m32⟩, ⟨0x1B0, 1, .rw, 0xFFFFC⟩,
      ⟨0x1B4, 1, .ro, m32⟩, ⟨0x200, 40, .lk, 0xFFFF⟩]
  | .cwy => [⟨0x00, 1, .lk, 1⟩, ⟨0x04, 1, .mix, 0x83⟩, ⟨0x08, 4, .lk, m32⟩, ⟨0x18, 1, .lk, 0x1FF0F⟩, ⟨0x20, 4, .lk, m32⟩,
      ⟨0x30, 1, .lk, 0xFFFFFF1F⟩, ⟨0x34, 2, .lk, m32⟩, ⟨0x3C, 1, .lkro, 0xFF1F⟩, ⟨0x40, 1, .lk, 0x7FFFF⟩,
      ⟨0x44, 1, .lk, m32⟩, ⟨0x48, 2, .lk, m32⟩, ⟨0x50, 10, .ro, m32⟩, ⟨0x1000, 32, .rw, m32⟩, ⟨0x1800, 2, .ro, m32⟩]
  | .adc => [⟨0x00, 2, .lk, 1⟩, ⟨0x08, 4, .ro, m32⟩, ⟨0x40, 8, .ro, 0xFFFF007F⟩, ⟨0x60, 8, .ro, m32⟩, ⟨0x100, 3, .ro, m32⟩,
      ⟨0x110, 3, .w1c, m32⟩, ⟨0x120, 3, .w1c, m32⟩, ⟨0x130, 3, .ro, m32⟩]
  | .conv => [⟨0x00, 3, .ro, m32⟩, ⟨0x0C, 1, .lk, 0x1FF1F⟩, ⟨0x10, 20, .lk, 0x7F⟩, ⟨0x60, 4, .lk, 0x1FFFF⟩,
      ⟨0x70, 1, .lk, 0x3FF⟩, ⟨0x74, 3, .ro, m32⟩]
  | .inp => [⟨0x00, 1, .lk, 0x7F⟩, ⟨0x04, 1, .lk, m32⟩, ⟨0x08, 1, .ro, m32⟩, ⟨0x0C, 2, .tl, m32⟩, ⟨0x14, 1, .tl, 0x7FFFFFFF⟩,
      ⟨0x18, 2, .ro, m32⟩]
  | .gdr => [⟨0x00, 1, .lk, 0x7F⟩, ⟨0x04, 2, .lk, 0x3FF03FF⟩, ⟨0x0C, 6, .tl, m32⟩, ⟨0x24, 1, .tl, 0x3F3F3F3F⟩,
      ⟨0x28, 1, .tl, 0x3F1F⟩, ⟨0x2C, 2, .tl, m32⟩, ⟨0x40, 1, .ro, m32⟩, ⟨0x44, 1, .mix, 0x300⟩, ⟨0x48, 10, .ro, m32⟩]
  | .trs => [⟨0x00, 1, .lk, 0x0FF7FFFF⟩, ⟨0x04, 1, .lk, 0xFFFF⟩, ⟨0x08, 1, .lk, m32⟩, ⟨0x0C, 4, .ws, 0x7FFFFFF⟩,
      ⟨0x1C, 1, .ws, 0xF⟩, ⟨0x20, 9, .ro, m32⟩, ⟨0x44, 1, .w1s, 1⟩, ⟨0x48, 1, .mix, 0x3F0⟩, ⟨0x4C, 7, .ro, m32⟩]
  | .pier => [⟨0x00, 1, .ro, 0x1FF⟩, ⟨0x04, 1, .ro, m32⟩, ⟨0x08, 1, .ro, 0x7F⟩, ⟨0x0C, 1, .lk, 0x1F7FFF⟩,
      ⟨0x10, 1, .lk, 0x0FFFFFFF⟩, ⟨0x14, 1, .mix, 0xF80⟩, ⟨0x18, 2, .ro, m32⟩]
  | .par => [⟨0x00, 1, .lk, 0x7FF07FF⟩, ⟨0x04, 1, .mix, 0x30⟩, ⟨0x08, 1, .w1c, 0x1FF⟩, ⟨0x0C, 1, .lk, 0xFFF⟩,
      ⟨0x10, 8, .lk, 0xFFFFFF⟩, ⟨0x30, 1, .ro, m32⟩]
  | .trac => [⟨0x00, 1, .lk, 7⟩, ⟨0x04, 2, .lk, 0x7F7F7F7F⟩, ⟨0x0C, 1, .lk, 0x7FF7F⟩, ⟨0x10, 8, .lk, m32⟩,
      ⟨0x30, 1, .lk, 0x7FFFFFF⟩, ⟨0x34, 1, .lk, 0xFFFF⟩, ⟨0x38, 1, .lk, m32⟩, ⟨0x40, 5, .lk, m32⟩, ⟨0x54, 1, .ro, m32⟩,
      ⟨0x60, 3, .tl, m32⟩, ⟨0x6C, 12, .lk, m32⟩, ⟨0x100, 1, .ro, m32⟩, ⟨0x104, 1, .mix, 0xF00⟩, ⟨0x108, 7, .ro, m32⟩]
  | .cspn => [⟨0x00, 1, .lk, 0xFFFFFF⟩, ⟨0x04, 2, .lk, 0x7F7F7F7F⟩, ⟨0x0C, 1, .lk, 0x7F7F⟩, ⟨0x10, 1, .lk, 0xFFFF⟩,
      ⟨0x14, 2, .lk, m32⟩, ⟨0x1C, 1, .lk, 0xFFF⟩, ⟨0x20, 1, .lk, m32⟩, ⟨0x24, 3, .tl, m32⟩, ⟨0x30, 12, .lk, m32⟩,
      ⟨0x100, 1, .ro, m32⟩, ⟨0x104, 1, .mix, 0x62⟩, ⟨0x108, 6, .ro, m32⟩]
  | .qspn => [⟨0x00, 1, .lk, 0xFFFFFF3F⟩, ⟨0x04, 2, .lk, 0x7F7F7F7F⟩, ⟨0x0C, 1, .lk, 0x7FFFFFF⟩, ⟨0x10, 18, .lk, m32⟩,
      ⟨0x60, 2, .tl, m32⟩, ⟨0x100, 1, .ro, m32⟩, ⟨0x104, 1, .mix, 0xC⟩, ⟨0x108, 5, .ro, m32⟩]
  | .bspn => [⟨0x00, 1, .lk, 0xFF03⟩, ⟨0x04, 10, .lk, m32⟩, ⟨0x100, 1, .ro, m32⟩, ⟨0x104, 1, .mix, 0x8⟩, ⟨0x108, 4, .ro, m32⟩]
  | .aspn => [⟨0x00, 1, .lk, 0x1FF⟩, ⟨0x04, 1, .lk, 0x7F7F7F7F⟩, ⟨0x08, 2, .lk, m32⟩, ⟨0x10, 1, .lk, 0x7F⟩, ⟨0x14, 5, .lk, m32⟩,
      ⟨0x28, 1, .lk, 0x1FFFF⟩, ⟨0x2C, 3, .lk, m32⟩, ⟨0x38, 2, .tl, m32⟩, ⟨0x40, 7, .lk, m32⟩, ⟨0x60, 8, .lk, m32⟩,
      ⟨0x100, 1, .ro, m32⟩, ⟨0x104, 1, .mix, 0x10⟩, ⟨0x108, 7, .ro, m32⟩]
  | .fp => [⟨0x00, 1, .lk, 0x1FFFF⟩, ⟨0x04, 3, .lk, 0xFFFFFFF⟩, ⟨0x10, 1, .lk, 0x7F7F7F⟩, ⟨0x14, 1, .lk, 0x7F01⟩,
      ⟨0x20, 1, .w1s, 0xF⟩, ⟨0x24, 1, .mix, 0x38⟩, ⟨0x28, 7, .ro, m32⟩, ⟨0x80, 1, .rw, 0x7F⟩, ⟨0x84, 1, .lk, 0x7FFFFFFF⟩,
      ⟨0x88, 1, .lk, 0x3FFFFFFF⟩, ⟨0x8C, 2, .lk, m32⟩, ⟨0x94, 1, .mix, 0x10⟩, ⟨0x98, 1, .rw, 0xFFC⟩, ⟨0x9C, 1, .rw, m32⟩,
      ⟨0xA0, 12, .ro, m32⟩]
  | .ldg => [⟨0x00, 1, .lk, 1⟩, ⟨0x04, 2, .ro, m32⟩, ⟨0x10, 1, .rw, 0x3FFF⟩, ⟨0x20, 8, .ro, m32⟩, ⟨0x40, 1, .rw, 0x7FC⟩,
      ⟨0x44, 1, .ro, m32⟩, ⟨0x80, 1, .rw, 0xFFF⟩, ⟨0x84, 1, .lkro, 0x3F3FFFFF⟩, ⟨0x88, 1, .lkro, 0x3FFFFFFF⟩,
      ⟨0x8C, 1, .lkro, 0xFFFF⟩, ⟨0x90, 1, .lkro, 0⟩, ⟨0x94, 1, .ro, m32⟩]
  | .kst => [⟨0x00, 1, .ro, m32⟩, ⟨0x04, 1, .mix, 0xF⟩, ⟨0x08, 9, .ro, m32⟩]
  | .vdt => [⟨0x00, 1, .lk, 0x7F⟩, ⟨0x04, 4, .lk, m32⟩, ⟨0x14, 2, .lk, 0x7F7F7F7F⟩, ⟨0x1C, 1, .lk, m32⟩, ⟨0x20, 1, .lk, 0xFFFF⟩,
      ⟨0x100, 1, .ro, m32⟩, ⟨0x104, 1, .mix, 0x3FF⟩, ⟨0x108, 12, .ro, m32⟩, ⟨0x138, 1, .ro, 0x7FF⟩, ⟨0x140, 2, .ro, m32⟩]
  | .trl => [⟨0x00, 1, .ro, m32⟩, ⟨0x04, 1, .mix, 0x1F⟩, ⟨0x08, 2, .ro, m32⟩, ⟨0x10, 1, .ro, 0xFFFF⟩, ⟨0x14, 4, .ro, m32⟩,
      ⟨0x30, 9, .ro, m32⟩, ⟨0x60, 1, .ro, m32⟩, ⟨0x70, 8, .ro, m32⟩, ⟨0xA0, 5, .ro, m32⟩]
  | .cal => [⟨0x00, 3, .ro, m32⟩, ⟨0x0C, 1, .mix, 0xC⟩, ⟨0x10, 5, .ro, m32⟩]
  | .mrm => [⟨0x00, 3, .ro, m32⟩, ⟨0x100, 1, .mix, 0xE⟩, ⟨0x104, 1, .ro, m32⟩, ⟨0x108, 1, .rw, 0x3FFFFFC⟩, ⟨0x10C, 2, .ro, m32⟩,
      ⟨0x200, 1, .ro, 0xFFF01FF⟩, ⟨0x204, 4, .ro, m32⟩, ⟨0x220, 1, .ro, m32⟩, ⟨0x224, 1, .w1s, 0x1F⟩, ⟨0x228, 1, .ro, m32⟩]

/-- The rows of one Trestle channel, from 0x400 of the block. -/
def chanRows : List RegRow :=
  [⟨0x00, 1, .lk, 0x1F⟩, ⟨0x04, 1, .lk, m32⟩, ⟨0x08, 3, .lk, 0xFFFFFF⟩, ⟨0x14, 3, .ro, m32⟩]

/-- The row that lists an offset of a block. -/
def findRow (rows : List RegRow) (l : Nat) : Option RegRow :=
  rows.find? (fun r => decide (r.lo ≤ l) && decide (l < r.lo + 4 * r.n) && decide (l % 4 = 0))

/-- The row of a BAR0 offset; none where it is reserved (R430). -/
def regRow (off : Nat) : Option RegRow :=
  match regPlace off with
  | some (.trl, _, l) =>
    if l < 0x400 then findRow Block.trl.rows l
    else if l < 0xC00 then findRow chanRows ((l - 0x400) % 0x20) else none
  | some (b, _, l) => findRow b.rows l
  | none => none

/-! ### Packing -/

/-- A word from its fields: position and value. -/
def pack (fs : List (Nat × Nat)) : Nat := fs.foldl (fun a f => a + f.2 * 2 ^ f.1) 0
/-- Bits from position `lo` up. -/
def bitsFrom (lo : Nat) (bs : List Bool) : Nat := (bs.foldl (fun (a : Nat × Nat) b => (a.1 + b2n b * 2 ^ a.2, a.2 + 1)) (0, lo)).1
/-- The spans of a list as a bitmap by span code. -/
def spanMask (xs : List Span) : Nat := bitmap 9 (fun k => xs.any (fun x => decide (x.code = k)))
/-- A signed field of a given width. -/
def sbits (v : Int) (n : Nat) : Nat := (v % 2 ^ n).toNat
/-- A signed register. -/
def s32w (v : Int) : Nat := sbits v 32
/-- Low and high words of a 64-bit value. -/
def lo32 (v : Nat) : Nat := v % 2 ^ 32
/-- The high word. -/
def hi32 (v : Nat) : Nat := v / 2 ^ 32 % 2 ^ 32
/-- The value that a table of registers gives an offset; none where the register is held as written. -/
def viewAt (l : Nat) : List (Nat × Nat) → Option Nat
  | [] => none
  | (o, v) :: t => if o = l then some v else viewAt l t
/-- Register l of an array from `lo` of n registers. -/
def viewArr (l lo n : Nat) (f : Nat → Nat) : Option Nat :=
  if lo ≤ l ∧ l < lo + 4 * n then some (f ((l - lo) / 4)) else none

/-! ### Capacity (R30, R31, R149, Table 01-3) -/

/-- The usable sets of a traction span, as bits. -/
def State.tracCap (s : State) (t : Trac) : Nat :=
  let ok := fun (x : Nat) => (List.range 3).all (fun k => s.legServes (tLeg t x + k))
  b2n (ok 0) + (if s.sixPhase t then 2 * b2n (ok 1) else 0)

/-- The capacity of a span with its usable legs: the sets of a traction span as bits, the phases of C, 1 or 0 of the
others. -/
def State.capacity (s : State) (x : Span) : Nat :=
  if !s.fitted x then 0
  else match x with
    | .t0 => s.tracCap 0
    | .t1 => s.tracCap 1
    | .c => let k := ((List.range 8).filter (fun k => s.legServes (12 + k))).length
            if k < 2 then 0 else k
    | y => b2n (y.legs.all s.legServes)

/-- A span is usable (R30): it has capacity, and an AI33 that was open has been good again for long enough (R199). -/
def State.usable (s : State) (x : Span) : Bool := decide (s.capacity x ≠ 0) && !(decide (x = .c) && s.cur.cs.ai33Blind)

/-- The availability registers are updated at a boundary from deck ready on (Table 01-4). -/
def State.updateAvail (s : State) : State :=
  if s.start.ready then
    { s with par := { s.par with availLegs := allLegs.filter s.legUsable, availSpans := Span.all.filter s.usable } }
  else s

/-! ### The views -/

/-- The launch slot shown in the window (Table 13-10). -/
def PylS.slotAt (p : PylS) (k : Nat) : LtSlot := Store.get (fun _ => LtSlot.empty) p.lt k

/-- A word latched by a read of its low word (R435). -/
def State.hi (s : State) (off : Nat) : Nat := (Store.get (fun _ => 0#32) s.hiLatch off).toNat

/-- Identity, start, charter (chapters 01 and 18). -/
def State.viewDkid (s : State) (l : Nat) : Option Nat :=
  let x := s.start
  viewAt l [(0x4C, bitmap 32 (fun k => s.par.availLegs.contains k)), (0x50, bitmap 8 (fun k => s.par.availLegs.contains (32 + k))),
    (0x54, spanMask s.par.availSpans), (0x60, 0),
    (0x64, pack [(0, x.step), (4, b2n x.ready), (5, b2n x.abut), (6, x.abutCause)]),
    (0x68, pack [(0, x.failCount), (8, x.lastCause), (16, x.lastStep)]), (0x6C, x.dur),
    (0x70, pack [(0, min s.ledgerUsed 15), (4, b2n s.charterFrozen), (5, s.charterCopy),
      (8, ((s.mrm.ledger.drop 1).filter (fun r => !r.valid)).length)]),
    (0x74, bitsFrom 0 [decide (x.fwAct = 1), x.fwPend, decide (x.imgAct = 1), x.imgPend, x.fwRej, x.imgRej]),
    (0x78, lo32 x.digest.toNat), (0x7C, hi32 x.digest.toNat)]

/-- Tick and Pylon (chapters 02 and 13). -/
def State.viewTick (s : State) (l : Nat) : Option Nat :=
  let t := s.tk
  let p := s.pyl
  let sl := p.slotAt (s.reg 0x1140).toNat
  let a := (s.reg 0x11B0).toNat
  let cho := (l - 0x200) / 4
  if 0x200 ≤ l ∧ ((12 ≤ cho ∧ cho ≤ 19) ∨ (23 ≤ cho ∧ cho ≤ 26)) then some 0
  else match viewArr l 0x160 8 (fun w => (sl.bytes.toNat >>> (32 * w)) % 2 ^ 32) with
  | some v => some v
  | none =>
  viewAt l [(0x10, lo32 t.count), (0x14, s.hi 0x1014),
    (0x18, bitsFrom 0 [t.ovrLast, t.ovrLatch, t.ovrSafe, t.fetchSlip, t.mirrorSlip] + 256 * spanMask t.ovrSpans),
    (0x1C, t.ovrCount), (0x20, lo32 (t.ovrTick.getD 0)), (0x24, s.hi 0x1024), (0x28, t.fetchSlips), (0x2C, t.mirrorSlips),
    (0x30, lo32 t.tlLast), (0x34, s.hi 0x1034), (0x38, t.tlOverride), (0x3C, t.slackMin), (0x40, b2n t.statReset),
    (0x44, t.tlOverwrite),
    (0x110, pack [(0, p.st.code), (3, b2n p.lineValid), (4, b2n s.lineDriving)]),
    (0x114, bitsFrom 0 [p.syncLost, p.ofsFault, p.lineLost, p.lineDisagree, p.ltDefer, p.cnsMiss]),
    (0x118, lo32 (t.now / uNs)), (0x11C, s.hi 0x111C), (0x120, s32w (sat32 p.offset)), (0x124, s32w p.lineErr),
    (0x128, s32w p.freqAdj), (0x12C, lo32 p.gmId), (0x130, hi32 p.gmId), (0x134, p.holdCount),
    (0x144, pack [(0, sl.st), (2, b2n sl.img), (4, sl.outcome), (16, sl.last % 65536)]),
    (0x148, pack [(0, (p.lt.filter (fun e => decide (e.2.st = 1))).length), (16, p.ltExec)]), (0x180, 0),
    (0x184, pack [(0, b2n (decide (p.bank0.st = 2))), (1, b2n (decide (p.bank1.st = 2))), (2, p.bankNext), (16, p.cnsMisses)]),
    (0x188, lo32 p.bank0.inst), (0x18C, hi32 p.bank0.inst), (0x190, p.bank0.id),
    (0x198, lo32 p.bank1.inst), (0x19C, hi32 p.bank1.inst), (0x1A0, p.bank1.id),
    (0x1B4, (Store.get (fun _ => 0#32) (p.bank (a / 2 ^ 19)).words (a % 2 ^ 19)).toNat)]

/-- The Causeway (chapter 14). -/
def State.viewCwy (s : State) (l : Nat) : Option Nat :=
  let c := s.cwy
  viewAt l [(0x04, bitsFrom 0 [c.accViol, c.pageCrc, c.cmdFull, c.evtRsv, c.storm, c.hostLost, c.fbActive, c.tlmGap, c.linkUp]),
    (0x50, c.avAddr), (0x54, lo32 c.cmdFetched), (0x58, c.lateCount), (0x5C, pack [(0, c.dcrcCount), (16, c.seqCount)]),
    (0x60, c.pageErr), (0x64, c.evtDrop), (0x68, c.stormCount), (0x6C, pack [(0, c.pq.length), (16, c.pqMax)]),
    (0x70, c.tlmGaps), (0x74, pack [(0, b2n c.hostLost), (16, c.hlTick % 65536)]),
    (0x1800, bitmap 8 (fun v => c.pba.contains v)), (0x1804, 0)]

/-- The converters' global registers (Table 03-7). -/
def State.viewAdc (s : State) (l : Nat) : Option Nat :=
  let a := s.adc
  let win := fun (f : InputS → Bool) (x : Nat) => bitmap 32 (fun b => f (s.inp (32 * x + b)))
  match viewArr l 0x60 8 (fun k => pack [(0, (s.pairS k).run), (16, min (s.pairS k).lastDiff max16)]),
    viewArr l 0x100 3 (win InputS.winOut), viewArr l 0x110 3 (win InputS.winExit), viewArr l 0x120 3 (win InputS.winReentry),
    viewArr l 0x130 3 (win InputS.winDir) with
  | some v, _, _, _, _ => some v
  | _, some v, _, _, _ => some v
  | _, _, some v, _, _ => some v
  | _, _, _, some v, _ => some v
  | _, _, _, _, some v => some v
  | none, none, none, none, none =>
    viewAt l [(0x00, b2n a.seqEn), (0x04, b2n a.refEn), (0x08, b2n a.settled),
      (0x0C, bitmap 16 (fun c => (s.conv c).calDone) + 65536 * bitmap 16 (fun c => (s.conv c).calFail)),
      (0x10, bitmap 8 (fun k => (s.pairS k).implausible) + 256 * bitmap 8 (fun k => (s.pairS k).mismatch) + 65536 * b2n a.eval),
      (0x14, a.notSetCount)]

/-- One converter (Table 03-8). -/
def State.viewConv (s : State) (c l : Nat) : Option Nat :=
  let x := s.conv c
  viewAt l [(0x00, x.gain % 65536), (0x04, sbits x.offset 16),
    (0x08, pack [(0, b2n x.calDone), (1, b2n x.calFail), (2, b2n x.calRun), (3, x.queue.length), (6, b2n x.notSettled), (7, b2n x.regLate)]),
    (0x74, x.dropCount), (0x78, x.lateCount), (0x7C, x.ilatMax)]

/-- One input (Table 03-8). -/
def State.viewInp (s : State) (i l : Nat) : Option Nat :=
  let x := s.inp i
  viewAt l [(0x18, s32w x.result),
    (0x1C, sbits x.code 16 + bitsFrom 16 [x.fresh, x.untrusted, x.pairBad, x.notSettled, x.sync, x.winReject] + min x.age 255 * 2 ^ 24)]

/-- MODE of an engine as a code. -/
def EngMode.code : EngMode → Nat
  | .idle => 0 | .run => 1 | .track => 2

/-- The state words of an engine (Table 04-4). -/
def EngS.word (x : EngS) (w : Nat) : Nat :=
  let i := sbits x.i 80
  if w = 0 then lo32 i else if w = 1 then hi32 i
  else if w = 2 then i / 2 ^ 64 + x.mode.code * 2 ^ 16 + bitsFrom 18 [x.clampHi, x.clampLo, x.held, x.first, x.limConflict, x.rebased]
  else if w = 3 then s32w x.d else if w = 4 then s32w x.yPrev else s32w x.u

/-- One engine (Table 04-6). -/
def State.viewGdr (s : State) (g l : Nat) : Option Nat :=
  let x := s.cur.engS g
  let r := s.rejS g
  match viewArr l 0x50 6 x.word with
  | some v => some v
  | none =>
    viewAt l [(0x40, s32w x.u),
      (0x44, x.mode.code + bitsFrom 2 [x.clampHi, x.clampLo, x.held, x.limConflict, x.first, x.rebased, r.coefReject, r.limReject]),
      (0x48, pack [(0, r.coefCount), (16, r.limCount)]), (0x4C, x.rebases), (0x68, s32w x.effHi), (0x6C, s32w x.effLo)]

/-- One leg timer (Table 05-6). -/
def State.viewTrs (s : State) (k l : Nat) : Option Nat :=
  let g := s.leg k
  let win := fld (s.reg (0xC004 + 0x200 * k)) 0 16
  let w := g.shownSet
  viewAt l [(0x0C, w.per), (0x10, w.cmpa), (0x14, w.cmpb), (0x18, w.phase), (0x1C, w.mode),
    (0x20, g.sh.cmpa), (0x24, g.sh.cmpb), (0x28, g.sh.phase), (0x2C, g.sh.mode),
    (0x30, g.act.cmpa), (0x34, g.act.cmpb), (0x38, g.act.phase), (0x3C, g.act.mode), (0x40, g.plen), (0x44, 0),
    (0x48, bitsFrom 0 [g.pending, g.stBlock, g.tripLatch, g.safe, g.clkSafe, g.uncommitted, g.cutover, g.syncErr, g.blankClamp, g.stTrip]),
    (0x4C, pack [(0, g.wrTick % 65536), (16, b2n g.cut)]), (0x50, pack [(0, g.cur % 65536), (16, g.xfer % 65536)]),
    (0x54, g.stCount),
    (0x58, pack [(0, g.tripTotal), (16, min (g.tripTicks.filter (fun n => decide (s.tk.count < n + win))).length 255)]),
    (0x5C, g.uncCount), (0x60, g.syncCount), (0x64, g.safePat)]

/-- One pier (Table 06-6). -/
def State.viewPier (s : State) (k l : Nat) : Option Nat :=
  let g := s.leg k
  viewAt l [(0x04, g.voted % 512 + bitsFrom 9 [g.c0Bad, g.c1Bad, g.c2Bad, g.noMaj] + g.repairs * 65536),
    (0x14, bitsFrom 0 [g.uvHsPos, g.uvHsNeg, g.uvLsPos, g.uvLsNeg, g.desatHs, g.desatLs, g.unprot, g.testOverdue, g.scTrip,
      g.dtRepair, g.swallow, g.softOff]),
    (0x18, bitmap 10 (fun b => g.testFail.contains b) + s.testAge k * 65536),
    (0x1C, pack [(0, g.desatCount), (16, g.swallowCount)])]

/-- The Parapet (Table 06-6). -/
def State.viewPar (s : State) (l : Nat) : Option Nat :=
  let p := s.par
  let hall := fun (m : Nat) => Store.get (fun _ => 0) p.hall m
  viewAt l [(0x04, bitmap 4 (fun u => p.ovNow.any (fun v => decide (v.val = u))) + bitsFrom 4 [p.linkOvLatch, p.cOvLatch] +
      256 * bitmap 4 (fun u => p.testFail.any (fun v => decide (v.val = u)))),
    (0x08, spanMask p.spanSc),
    (0x30, hall 0 + 8 * hall 1 + 64 * hall 2 + 512 * hall 3 + 4096 * bitmap 4 (fun m => p.hallInvalid.any (fun v => decide (v.val = m))))]

/-- Table 07-1 codes. -/
def TracMode.code : TracMode → Nat
  | .disabled => 0 | .standby => 1 | .torque => 2 | .speed => 3 | .safe => 4

/-- A sticky flag as a bit. -/
def State.stuck (s : State) (f : Sticky) : Bool := s.sticky.contains f

/-- One traction span (Table 07-9). -/
def State.viewTrac (s : State) (n l : Nat) : Option Nat :=
  let t : Trac := if n = 0 then 0 else 1
  let x := s.cur.trac t
  let p := s.pos t
  viewAt l [(0x54, (s.reg (0x18054 + 0x1000 * n)).toNat),
    (0x100, pack [(0, x.st.code), (3, x.safeA), (5, x.safeB), (7, x.sets), (9, x.angSrc), (11, b2n x.obsValid), (12, b2n x.ascZone)]),
    (0x104, bitsFrom 0 [x.vlimA, x.vlimB, x.tqClip, x.dipEnd.isSome, x.peakExh, x.ramp] +
      bitsFrom 8 [s.stuck (.tPosFault t), s.stuck (.tDisagree t), s.stuck (.tSetLost t), s.stuck (.safeEntry (Span.ofTrac t))] +
      x.safeCause * 4096),
    (0x108, x.angle), (0x10C, s32w x.speed), (0x110, s32w x.tq), (0x114, s32w x.tm), (0x118, s32w x.tg),
    (0x11C, min p.amp max16 + bitsFrom 16 [p.causeAmp, p.causeTrk, p.causeExc]), (0x120, x.peak)]

/-- Span C (Table 08-7). -/
def State.viewC (s : State) (l : Nat) : Option Nat :=
  let x := s.cur.cs
  let act := bitmap 8 (fun k => (x.phase k).active)
  viewAt l [(0x100, pack [(0, x.st.code), (3, b2n x.cot), (4, b2n x.de), (5, b2n x.slewing), (6, x.active.length), (10, act),
      (18, x.shed.getD 15), (22, x.safePat), (24, b2n x.auto)]),
    (0x104, bitsFrom 0 [x.clip, s.stuck .cTrunc, s.cHw.zcd, s.cHw.crowbar, x.senseFault, s.stuck .cShedCancel, s.stuck (.safeEntry .c)] +
      x.safeCause * 256 + bitsFrom 12 [x.senseAi32, x.senseAi33, x.senseDis]),
    (0x108, s32w x.vref), (0x10C, s32w x.vtgt), (0x110, s32w x.idem), (0x114, s.cHw.truncCount),
    (0x118, pack [(0, min x.adds 255), (8, min x.sheds 255), (16, min x.cancels 255), (24, min x.modChg 255)]),
    (0x11C, s.cHw.crowTick % 65536 + 65536 * bitmap 8 (fun k => s.cHw.crowbar && (s.leg (12 + k)).ls.gate))]

/-- Span Q (Table 09-8). PILOT.STATE reads 0 until an image says whether the pilot is in use. -/
def State.viewQ (s : State) (l : Nat) : Option Nat :=
  let x := s.cur.qs
  let u := s.pilot
  viewAt l [(0x100, x.st.code + bitsFrom 3 [x.locked, x.busReady, x.kAc, u.kAcFb, x.s2]),
    (0x104, bitsFrom 0 [x.clip, x.ceil, s.stuck .qAiTrip, s.stuck (.safeEntry .q)] + x.safeCause * 16),
    (0x108, s32w x.freq), (0x10C, s32w x.pAc), (0x110, s32w x.ilim),
    (0x114, pack [(0, u.duty), (10, if s.qCfg 0 then u.st.code else if s.start.ticking then 7 else 0), (13, b2n u.hlc), (16, u.limit)]),
    (0x118, pack [(0, u.ppCode), (16, min u.ppRes max16)])]

/-- Span B (Table 09-8). -/
def State.viewB (s : State) (l : Nat) : Option Nat :=
  let x := s.cur.bs
  viewAt l [(0x100, x.st.code + 4 * b2n x.active),
    (0x104, bitsFrom 0 [x.thermal, x.peakExh, x.fallback, s.stuck (.safeEntry .b)] + x.safeCause * 16),
    (0x108, s32w x.duty), (0x10C, s32w x.power), (0x110, s32w (rhe x.theta 24)), (0x114, x.peak)]

/-- The engaged slot of an actuator in HOLD or PARK (R239): the lowest whose position POS is within POS_TOL of. -/
def State.gearOf (s : State) (m : Nat) : Nat :=
  let near := fun (g : Nat) => decide (absI (s.aPos m - s.aGear m g) ≤ ((s.aw m 0x40).toNat : Int))
  if (s.cur.actS m).st = .hold ∨ (s.cur.actS m).st = .park then ((List.range 8).find? near).getD 15 else 15

/-- One actuator (Table 10-8). -/
def State.viewA (s : State) (m l : Nat) : Option Nat :=
  let x := s.cur.actS m
  viewAt l [(0x100, pack [(0, x.st.code), (3, x.safePat), (5, s.gearOf m), (9, b2n x.homed), (10, b2n x.owner), (11, b2n x.dir)]),
    (0x104, bitsFrom 0 [x.peakExh, x.busLim, x.dbgLim, x.posFault, s.stuck (.safeEntry (aSp m))] + x.safeCause * 256 +
      bitsFrom 12 [x.causeSkip, x.causeInv, x.causeAna]),
    (0x108, s32w (s.aPos m)), (0x10C, s32w x.speed), (0x110, s32w x.target), (0x114, lo32 x.tag),
    (0x118, pack [(0, min x.elapsed max16), (16, x.slot), (19, x.out.code), (22, min x.settle 255)]),
    (0x11C, s32w x.ilim), (0x120, x.peak)]

/-- Table 16-5 codes. -/
def PortSt.code : PortSt → Nat
  | .off => 0 | .active => 1 | .passive => 2 | .busOff => 3 | .recovering => 4

/-- A DADDR lies within the data of an object: below DLEN + 4, at most 2,048 (Table 16-7). -/
def ObjS.inWindow (x : ObjS) (a : Nat) : Bool := decide (a ≤ 2048) && decide (a < x.dlen + 4)

/-- A little-endian word of bytes from an offset. -/
def bytesAt (f : Nat → Byte) (a : Nat) : Nat := ofLe ((List.range 4).map (fun i => (f (a + i)).toNat))

/-- One field port and its object window (Table 16-7). -/
def State.viewFp (s : State) (p l : Nat) : Option Nat :=
  let x := s.port p
  let o := x.objS (s.objSel p)
  let a := (s.reg (0x20098 + 0x400 * p)).toNat
  let map := fun (f : ObjS → Bool) (w : Nat) => bitmap 32 (fun b => f (x.objS (32 * w + b)))
  match viewArr l 0xA0 4 (map ObjS.pend), viewArr l 0xB0 4 (map ObjS.strand), viewArr l 0xC0 4 (map ObjS.susp) with
  | some v, _, _ => some v
  | _, some v, _ => some v
  | _, _, some v => some v
  | none, none, none =>
    viewAt l [(0x20, 0), (0x24, x.st.code + bitsFrom 3 [x.passiveSeen, x.busoffSeen, x.collSeen]),
      (0x28, pack [(0, x.txErr), (16, x.rxErr)]), (0x2C, min x.tdc 255), (0x30, pack [(0, x.txCount), (16, x.rxCount)]),
      (0x34, pack [(0, x.errCount), (16, x.busoffs)]), (0x38, x.collCount), (0x3C, x.noMatch),
      (0x40, pack [(0, x.queue.length), (16, x.rrSent)]), (0x84, o.cfg.toNat), (0x88, o.id.toNat), (0x8C, o.pub.toNat),
      (0x90, o.aux.toNat),
      (0x94, bitsFrom 0 [o.pend, o.strand, o.susp, o.rerouted, o.stale] + pack [(8, min o.collRun 15), (12, o.backoff), (16, o.count)]),
      (0x9C, if o.inWindow a then bytesAt (Store.get (fun _ => (0#8 : Byte)) o.buf) a else 0)]

/-- The words of a slot header (Table 16-3). -/
def LdgSlot.word (h : LdgSlot) (w : Nat) : Nat :=
  if w = 0 then pack [(0, h.id), (29, b2n h.ide), (30, h.fmt)]
  else if w = 1 then h.len + bitsFrom 12 [h.unread, h.lost, h.trunc, h.brs, h.esi] + pack [(17, h.port), (23, h.obj)]
  else if w = 2 then lo32 h.pylon else if w = 3 then hi32 h.pylon
  else if w = 4 then pack [(0, h.sdt), (8, h.vcid), (16, b2n h.sec), (24, h.ovr)]
  else if w = 5 then h.af else 0

/-- The words of a partner record (Table 16-4). -/
def PtnS.word (r : PtnS) (w : Nat) : Nat :=
  if w = 0 then pack [(0, r.addr), (16, r.port), (24, r.alt), (30, r.st)]
  else if w = 1 then pack [(0, r.hbId), (29, b2n r.ide)]
  else if w = 2 then pack [(0, r.tmo), (16, r.age)] else pack [(0, r.hbCount), (16, r.losses)]

/-- The ledger and the partners (Table 16-7). -/
def State.viewLdg (s : State) (l : Nat) : Option Nat :=
  let f := s.fp
  let a := (s.reg 0x2C040).toNat
  match viewArr l 0x20 8 f.rdHdr.word, viewArr l 0x84 4 (s.partner (s.reg 0x2C080).toNat).word with
  | some v, _ => some v
  | _, some v => some v
  | none, none =>
    viewAt l [(0x04, (f.slot.filter (fun e => e.2.unread)).length), (0x08, f.lostCount),
      (0x44, bytesAt (fun i => f.rdData.getD i 0#8) a),
      (0x94, pack [(0, (f.ptn.filter (fun e => decide (e.2.st = 2))).length), (16, (f.ptn.filter (fun e => decide (e.2.st = 3))).length)])]

/-- Keystone (Table 11-8). -/
def State.viewKst (s : State) (l : Nat) : Option Nat :=
  let k := s.kst
  viewAt l [(0x00, bitsFrom 0 [k.lockstepOk, k.lsBroken, k.injPass, k.faultLine]),
    (0x04, bitsFrom 0 [k.mismatch, k.wdt, k.ecc, k.dtDigest]), (0x08, k.mmAddr), (0x0C, lo32 k.mmTick), (0x10, s.hi 0x30010),
    (0x14, bitmap 32 (fun b => k.caught.any (fun p => decide (p.val = b)))),
    (0x18, bitmap 32 (fun b => k.caught.any (fun p => decide (p.val = 32 + b)))),
    (0x1C, pack [(0, k.ecc0), (16, k.ecc1)]), (0x20, k.wdtLast), (0x24, k.attaches), (0x28, k.fwId.toNat)]

/-- The viaduct tie (Table 12-10); on a single deck every register of the block reads 0. -/
def State.viewVdt (s : State) (l : Nat) : Option Nat :=
  let v := s.vdt
  if !s.inViaduct then some 0 else viewAt l [(0x100, pack [(0, v.pair), (3, spanMask v.leads), (12, b2n v.cwyLead)]),
    (0x104, bitsFrom 0 [v.miss, v.late, v.shdMm, v.diverge, v.laneDown, v.overlap, v.staging, v.carrier, v.speed, v.posDiff] +
      v.pairFail * 65536),
    (0x108, bitsFrom 0 [v.lane0Up, v.lane1Up, v.selfTx, v.selfRx]), (0x10C, pack [(0, v.err0), (16, v.err1)]),
    (0x110, v.missCount), (0x114, v.lateCount), (0x118, v.shadowCount), (0x11C, v.divergeCount),
    (0x120, pack [(0, spanMask v.relSpans), (12, v.relCause), (16, v.relTick % 65536)]),
    (0x124, pack [(0, spanMask v.takSpans), (12, v.takCause), (16, v.takTick % 65536)]),
    (0x128, lo32 v.rxTick), (0x12C, s.hi 0x3112C), (0x130, lo32 v.digest.toNat), (0x134, hi32 v.digest.toNat),
    (0x138, s.frameLen),
    (0x140, s32w s.cur.tr0.tv), (0x144, s32w s.cur.tr1.tv)]

/-- Table 17-5, VSUP codes. -/
def VsupSt.code : VsupSt → Nat
  | .normal => 0 | .warn => 1 | .long => 2

/-- The Trestle (Table 17-5). -/
def State.viewTrl (s : State) (l : Nat) : Option Nat :=
  let t := s.trl
  let map := fun (f : ChanS → Bool) (x : Nat) => bitmap 32 (fun b => f (t.chanS (32 * x + b)))
  let ch := t.chanS ((l - 0x400) / 0x20)
  if 0x400 ≤ l then
    viewAt ((l - 0x400) % 0x20) [(0x14, sbits ch.value 16),
      (0x18, bitsFrom 0 [ch.warn, ch.throt, ch.shut, ch.brokenOpen, ch.brokenShort]), (0x1C, s32w ch.f)]
  else match viewArr l 0x30 9 (fun k => s32w (Store.get (fun _ => one24) t.ftr k)) with
  | some v => some v
  | none =>
    viewAt l [(0x00, pack [(0, t.vsup.code), (2, t.brg.code), (5, b2n t.frozen)]),
      (0x04, bitsFrom 0 [t.dip, t.longDip, t.brgFault, t.brokenSeen, t.shutSeen]), (0x08, lo32 t.round),
      (0x14, s32w t.fc), (0x18, s32w t.fq), (0x1C, s32w t.ft), (0x20, s32w t.fcc), (0x60, spanMask t.shutSpans),
      (0x70, map ChanS.warn 0), (0x74, map ChanS.warn 1), (0x78, map ChanS.throt 0), (0x7C, map ChanS.throt 1),
      (0x80, map ChanS.shut 0), (0x84, map ChanS.shut 1), (0x88, map (fun c => c.brokenOpen || c.brokenShort) 0),
      (0x8C, map (fun c => c.brokenOpen || c.brokenShort) 1), (0xA0, pack [(0, t.rstCause), (8, t.rstRail)]),
      (0xA4, t.dipLast), (0xA8, t.dipMax), (0xAC, t.dipCount), (0xB0, pack [(0, min s.brgRecent 3), (16, t.brgCount)])]

/-- The calendar (Table 13-10). -/
def State.viewCal (s : State) (l : Nat) : Option Nat :=
  let c := s.cal
  viewAt l [(0x00, lo32 (s.calVal s.tk.now / 2 ^ 24)), (0x04, s.hi 0x33004), (0x08, s.hi 0x33008),
    (0x0C, pack [(0, c.st), (2, b2n c.vbakLow), (3, b2n c.lost), (4, b2n c.trimmed)]), (0x10, sbits c.trim 16),
    (0x14, lo32 c.mapPyl), (0x18, hi32 c.mapPyl), (0x1C, lo32 c.mapCal), (0x20, hi32 c.mapCal)]

/-- Calibration set, MRAM and recorder (Table 18-9). -/
def State.viewMrm (s : State) (l : Nat) : Option Nat :=
  let m := s.mrm
  let slots := fun (f : RecSlot → Bool) => bitmap 5 (fun k => f (s.recSlot k))
  let armed := (List.range 5).find? (fun k => decide ((s.recSlot k).st = 1))
  viewAt l [(0x00, pack [(0, b2n m.calUser), (16, min m.calCount max16)]), (0x04, lo32 m.calStamp), (0x08, hi32 m.calStamp),
    (0x100, bitsFrom 0 [s.trl.frozen, m.wrFail, m.rdErr, m.holdDrop]), (0x104, pack [(0, m.corr), (16, m.uncorr)]),
    (0x10C, (s.mramWord (s.reg 0x33208).toNat).toNat), (0x110, lo32 m.head),
    (0x220, armed.getD 7 + 8 * b2n m.open_.isSome + 16 * slots (fun r => decide (r.st = 3)) + 512 * slots RecSlot.protect),
    (0x224, 0), (0x228, m.miss)]

/-- The view of a register that reports state; none for a register that holds its word. -/
def State.view (s : State) : Block × Nat × Nat → Option Nat
  | (.dkid, _, l) => s.viewDkid l
  | (.tick, _, l) => s.viewTick l
  | (.cwy, _, l) => s.viewCwy l
  | (.adc, _, l) => s.viewAdc l
  | (.conv, k, l) => s.viewConv k l
  | (.inp, k, l) => s.viewInp k l
  | (.gdr, k, l) => s.viewGdr k l
  | (.trs, k, l) => s.viewTrs k l
  | (.pier, k, l) => s.viewPier k l
  | (.par, _, l) => s.viewPar l
  | (.trac, k, l) => s.viewTrac k l
  | (.cspn, _, l) => s.viewC l
  | (.qspn, _, l) => s.viewQ l
  | (.bspn, _, l) => s.viewB l
  | (.aspn, k, l) => s.viewA k l
  | (.fp, k, l) => s.viewFp k l
  | (.ldg, _, l) => s.viewLdg l
  | (.kst, _, l) => s.viewKst l
  | (.vdt, _, l) => s.viewVdt l
  | (.trl, _, l) => s.viewTrl l
  | (.cal, _, l) => s.viewCal l
  | (.mrm, _, l) => s.viewMrm l

/-- The blocks that keep their registers in abutment mode (R436). -/
def Block.inAbutment : Block → Bool
  | .dkid => true
  | .cwy => true
  | .kst => true
  | .trl => true
  | .cal => true
  | .mrm => true
  | _ => false

/-- What a read of a BAR0 offset returns (R432, R434, R436). -/
def State.readReg (s : State) (off : Nat) : Word :=
  match regPlace off, regRow off with
  | some p, some r =>
    if s.start.abut && !p.1.inAbutment then 0#32
    else match s.view p with
      | some v => BitVec.ofNat 32 v
      | none => BitVec.ofNat 32 ((s.reg off).toNat &&& (if r.acc = .lkro then m32 else r.mask))
  | _, _ => 0#32

end Sys2Proof.Machine
end

