-- ==== Sys2Proof/Machine/Registers.lean ====
section
/-! DEFINITION. Host accesses to BAR0 (R20, R21, R52, R392, R430 to R437): which values an LK register takes, what a write of each access type does, and the reads that have an effect. -/
namespace Sys2Proof.Machine

/-! ### Valid encodings of LK registers -/

/-- The first n engine fields of a word: 0–63 an engine, 0x7F none. -/
def engFieldsOk (v : Word) (n : Nat) : Bool :=
  (List.range n).all (fun k => let e := fld v (8 * k) 7; decide (e < 64) || decide (e = 0x7F))
/-- A number lies in a range. -/
def inR (x lo hi : Nat) : Bool := decide (lo ≤ x) && decide (x ≤ hi)
/-- A signed value above 0. -/
def posW (v : Word) : Bool := decide (0 < sig v)
/-- MODMAX: 0.5 to 1.0 (Table 07-9). -/
def modmaxOk (v : Word) : Bool := inR (fld v 0 17) 0x8000 0x10000
/-- A slot of a converter: an input of its bank, or empty (Table 03-8). -/
def slotOk (c : Nat) (v : Word) : Bool :=
  let i := fld v 0 7
  decide (i = 127) || (decide (i / 12 = c / 2) && decide (i < 96))
/-- ISRCj (Tables 03-3, 03-8). -/
def isrcOk (v : Word) : Bool :=
  let ty := fld v 0 3
  let sel := fld v 3 6
  if ty = 1 then decide (sel < 40) && decide (fld v 15 2 < 3)
  else if ty = 2 then decide (sel < 40)
  else if ty = 3 then decide (sel ≤ 8)
  else decide (ty ≤ 4)
/-- One source of an engine (Table 04-2). -/
def sourceOk (ty sel : Nat) : Bool :=
  if ty = 1 then decide (sel < 16) else if ty = 2 then decide (sel < 96) else if ty = 3 then decide (sel < 32)
  else if ty = 4 ∨ ty = 5 then decide (sel < 64) else decide (ty ≠ 7)
/-- Both sources of SRC_A or SRC_B. -/
def sourcesOk (v : Word) : Bool := sourceOk (fld v 0 3) (fld v 3 7) && sourceOk (fld v 16 3) (fld v 19 7)
/-- A timer's configuration (Table 05-6). -/
def trsCfgOk (v : Word) : Bool :=
  decide (fld v 1 3 ≤ 4) && inR (fld v 7 6) 1 60 && (!bitOf v 6 || decide (fld v 13 6 < 40)) && decide (1 ≤ fld v 20 8)
/-- PIER_Lxx_DESAT (Table 06-6). -/
def desatOk (v : Word) : Bool :=
  decide (fld v 0 5 ≤ 20) && inR (fld v 5 7) 10 120 && decide (fld v 12 3 ≤ 5) && inR (fld v 16 5) 2 20
/-- A commutation table: no state drives HS and LS of one leg (Table 06-6). -/
def commutOk (v : Word) : Bool :=
  (List.range 6).all (fun k => let h := fld v (4 * k) 2; decide (h ≠ fld v (4 * k + 2) 2) || decide (h = 3))
/-- SEQ: each of 1–6 exactly once (Table 10-8). -/
def hallSeqOk (v : Word) : Bool :=
  [1, 2, 3, 4, 5, 6].all (fun x => (List.range 6).any (fun k => decide (fld v (3 * k) 3 = x))) && decide (1 ≤ fld v 18 14)
/-- SPN_C_CFG (Table 08-7). C_PHASES bounds the counts where C is fitted; where it is not, 8 does (log 70). -/
def State.cCfgOk (s : State) (v : Word) : Bool :=
  let n := fld v 4 4
  let most := if s.cPhases = 0 then 8 else s.cPhases
  inR n 2 most && inR (fld v 8 4) n most && decide (1 ≤ fld v 12 4) && decide (1 ≤ fld v 16 8)
/-- The SCOPE that Table 17-1 fixes for a channel from 24 to 57. -/
def fixedScope (c : Nat) : Option Nat :=
  if c < 24 ∨ 58 ≤ c then none
  else if c = 24 ∨ c = 25 ∨ (42 ≤ c ∧ c ≤ 47) ∨ c = 57 then some 0xE
  else if c = 27 ∨ c = 28 then some 0 else if c = 29 ∨ c = 30 then some 1
  else if 31 ≤ c ∧ c ≤ 34 then some 2 else if c = 35 ∨ c = 36 then some 3 else if c = 37 then some 4
  else if 38 ≤ c ∧ c ≤ 41 then some (c - 33) else some 0xD
/-- A Trestle channel's register (Table 17-5). -/
def State.chanWordOk (s : State) (c r : Nat) (v : Word) : Bool :=
  let sc := fld v 1 4
  if r = 0 then (match fixedScope c with | some k => decide (sc = k) | none => decide (sc ≤ 8) || decide (sc = 0xD) || decide (sc = 0xE))
  else if r = 4 then !(decide (c < 24) && decide (s.tsType c ≠ 0)) || decide (fld v 0 16 ≠ 0)
  else true
/-- A timing set (Table 16-2). -/
def timingOk (nominal : Bool) (v : Word) : Bool :=
  inR (fld v 0 6) 1 32 &&
  (if nominal then inR (fld v 14 7) 1 127 && inR (fld v 21 7) 2 127
   else decide (fld v 6 8 ≤ 31) && inR (fld v 14 7) 1 31 && inR (fld v 21 7) 1 31)
/-- OBJ_CFG (Table 16-7). -/
def objCfgOk (v : Word) : Bool :=
  let used := bitOf v 0
  let send := bitOf v 1
  let ptn := fld v 18 13
  (!(used && send) || decide (fld v 4 2 ≠ 3)) && (!(used && !send) || (decide (fld v 8 4 ≤ 8) && inR (fld v 12 6) 1 32)) &&
  (decide (ptn ≤ 4095) || decide (ptn = 0x1FFF))
/-- A field port's register (Table 16-7). -/
def State.fpWordOk (s : State) (p r : Nat) (v : Word) : Bool :=
  let b := 0x20000 + 0x400 * p
  if r = 0 then decide (2 ≤ fld v 12 4)
  else if r = 0x04 then timingOk true v else if r = 0x08 ∨ r = 0x0C then timingOk false v
  else if r = 0x10 then
    [(0, 0x04), (8, 0x08), (16, 0x0C)].all (fun (q : Nat × Nat) => inR (fld v q.1 7) 1 (fld (s.reg (b + q.2)) 21 7))
  else if r = 0x84 then objCfgOk v
  else if r = 0x88 then !(decide ((s.obj p (s.objSel p)).fmt = 3) && bitOf v 29)
  else true
/-- A register of the Causeway (Table 14-11). -/
def cwyWordOk (r : Nat) (v : Word) : Bool :=
  if r = 0x08 ∨ r = 0x10 ∨ r = 0x20 ∨ r = 0x28 ∨ r = 0x34 then decide (fld v 0 12 = 0)
  else if r = 0x18 then inR (fld v 0 4) 6 12 && inR (fld v 8 9) 1 256
  else if r = 0x30 then inR (fld v 0 5) 8 16 && decide (1 ≤ fld v 8 8) && inR (fld v 16 16) 32 (2 ^ (fld v 0 5 - 1))
  else if r = 0x3C then inR (fld v 0 5) 4 16 && decide (1 ≤ fld v 8 8)
  else if r = 0x40 then decide (1 ≤ fld v 0 16)
  else if r = 0x48 then if bitOf v 29 then decide (fld v 0 29 ≤ 0x1FFFFFFE) else decide (fld v 0 29 ≤ 0x7FE)
  else if r = 0x4C then posW v
  else true
/-- A traction span's register (Table 07-9). -/
def tracWordOk (r : Nat) (v : Word) (resolver : Bool) : Bool :=
  if r = 0x04 ∨ r = 0x08 then engFieldsOk v 4
  else if r = 0x0C then inR (fld v 0 6) 1 32 && decide (1 ≤ fld v 8 11) && (!resolver || decide (fld v 8 11 ≤ 8))
  else if r = 0x30 then modmaxOk v
  else if r ∈ [0x38, 0x60, 0x64, 0x68, 0x6C, 0x70, 0x74, 0x80, 0x84, 0x88, 0x94] then posW v
  else true
/-- A register of span C (Table 08-7). -/
def State.cWordOk (s : State) (r : Nat) (v : Word) : Bool :=
  if r = 0 then s.cCfgOk v
  else if r = 0x04 ∨ r = 0x08 then engFieldsOk v 4 else if r = 0x0C then engFieldsOk v 2
  else if r = 0x14 then decide (fld v 16 16 < fld v 0 16)
  else if r = 0x18 then decide (fld v 0 16 < fld v 16 16)
  else if r = 0x30 then decide (sig v < s.cn 0x34)
  else if r = 0x34 then decide (s.cn 0x30 < sig v)
  else if r ∈ [0x20, 0x24, 0x28, 0x2C, 0x40, 0x4C, 0x50, 0x54, 0x58] then posW v
  else true
/-- A register of span Q (Table 09-8). -/
def qWordOk (r : Nat) (v : Word) : Bool :=
  if r = 0 then decide (1 ≤ fld v 8 8) && decide (1 ≤ fld v 16 16)
  else if r = 0x04 ∨ r = 0x08 then engFieldsOk v 4
  else if r = 0x0C then modmaxOk v
  else if r = 0x34 then decide (0 ≤ sig v)
  else if 0x14 ≤ r ∧ r ≤ 0x64 then posW v
  else true
/-- A register of an actuator (Table 10-8). -/
def State.aWordOk (s : State) (m r : Nat) (v : Word) : Bool :=
  if r = 0x04 then engFieldsOk v 4
  else if r = 0x08 then hallSeqOk v
  else if r = 0x10 then decide (fld v 0 7 < 96)
  else if r = 0x1C ∨ r = 0x24 ∨ r = 0x40 then decide (v ≠ 0#32)
  else if r = 0x28 then modmaxOk v
  else if r ∈ [0x2C, 0x30, 0x34, 0x38, 0x3C, 0x50] then posW v
  else if r = 0x44 then decide (1 ≤ fld v 0 8) && decide (fld v 0 8 < fld v 8 16) && decide (1 ≤ fld v 24 8)
  else if r = 0x54 then decide (sig v < s.an m 0x58)
  else if r = 0x58 then decide (s.an m 0x54 < sig v)
  else true

/-- The value is a valid encoding of a register (R90, R107, R127, R152, R178, R200, R225, R245, R293, R322, R349, R392,
R406). -/
def State.encodingOk (s : State) (p : Block × Nat × Nat) (v : Word) : Bool :=
  let r := p.2.2
  match p.1 with
  | .dkid => posW v
  | .tick =>
    if r = 0x104 then decide (fld v 24 3 ≤ 5) else if r = 0x108 then inR (fld v 0 19) 400 400000 else true
  | .cwy => cwyWordOk r v
  | .conv =>
    if r = 0x0C then inR (fld v 0 5) 1 16 && decide (fld v 8 9 ≤ 319)
    -- RSLOT0 is ignored, and takes any value (DESIGN CHOICE, log 116).
    else if r = 0x10 then true
    else if 0x14 ≤ r ∧ r < 0x60 then slotOk p.2.1 v
    else if 0x60 ≤ r ∧ r < 0x70 then isrcOk v else true
  | .inp => if r = 0 then decide (fld v 0 6 ≤ 47) else true
  | .gdr => if r = 0 then decide (fld v 1 4 ≤ 8) else if r = 4 ∨ r = 8 then sourcesOk v else true
  | .trs =>
    if r = 0 then trsCfgOk v else if r = 4 then decide (1 ≤ fld v 0 16)
    else if r = 8 then decide (fld v 0 17 ≤ 0x10000) && decide (fld v 17 15 ≤ fld v 0 17) else true
  | .pier => if r = 0x0C then desatOk v else if r = 0x10 then decide (1 ≤ fld v 0 12) && decide (fld v 0 12 < fld v 16 12) else true
  | .par =>
    if r = 0 then inR (fld v 0 11) 1000 1340 && inR (fld v 16 11) 360 1100
    else if r = 0x0C then decide (1 ≤ fld v 4 8) else if 0x10 ≤ r ∧ r < 0x30 then commutOk v else true
  | .trac => tracWordOk r v (decide (r ≠ 0x0C) || !bitOf (s.reg (0x18000 + 0x1000 * p.2.1)) 0)
  | .cspn => s.cWordOk r v
  | .qspn => qWordOk r v
  | .bspn => if r = 0 then decide (1 ≤ fld v 8 8) else posW v
  | .aspn => s.aWordOk p.2.1 r v
  | .fp => s.fpWordOk p.2.1 r v
  | .vdt =>
    if r = 0x04 ∨ r = 0x08 then decide (1 ≤ fld v 0 16) && decide (1 ≤ fld v 16 16)
    else if r = 0x14 ∨ r = 0x18 then engFieldsOk v 4
    else if r = 0x1C then posW v else if r = 0x20 then decide (1 ≤ fld v 0 16) else true
  | .trl => if 0x400 ≤ r then s.chanWordOk ((r - 0x400) / 0x20) ((r - 0x400) % 0x20) v else true
  | _ => true

/-! ### W1C bits -/

/-- Remove the stuck flags whose bit is written 1. -/
def State.unstick (s : State) (v : Word) (fs : List (Nat × Sticky)) : State :=
  { s with sticky := s.sticky.filter (fun f => !fs.any (fun q => bitOf v q.1 && decide (q.2 = f))) }

/-- Clear the W1C bits of a register that are written 1 (R20, R433). -/
def State.clearBits (s : State) (p : Block × Nat × Nat) (v : Word) : State :=
  let k := p.2.1
  let r := p.2.2
  let keep := fun (i : Nat) (b : Bool) => b && !bitOf v i
  match p.1 with
  | .tick =>
    if r = 0x18 then { s with tk := { s.tk with
      ovrLatch := keep 1 s.tk.ovrLatch, ovrSafe := keep 2 s.tk.ovrSafe, fetchSlip := keep 3 s.tk.fetchSlip,
      mirrorSlip := keep 4 s.tk.mirrorSlip } }
    else { s with pyl := { s.pyl with
      syncLost := keep 0 s.pyl.syncLost, lineLost := keep 2 s.pyl.lineLost, lineDisagree := keep 3 s.pyl.lineDisagree,
      ltDefer := keep 4 s.pyl.ltDefer, cnsMiss := keep 5 s.pyl.cnsMiss } }
  | .cwy => { s with cwy := { s.cwy with
      accViol := keep 0 s.cwy.accViol, pageCrc := keep 1 s.cwy.pageCrc, tlmGap := keep 7 s.cwy.tlmGap } }
  | .adc =>
    let x := (r % 0x10) / 4
    (List.range 32).foldl (fun t b => if bitOf v b then t.updInp (32 * x + b) (fun y =>
      if r < 0x120 then { y with winExit := false } else { y with winReentry := false }) else t) s
  | .gdr => s.updRej k (fun y => { y with coefReject := keep 8 y.coefReject, limReject := keep 9 y.limReject })
  | .trs => s.updLeg k (fun g => { g with
      clkSafe := keep 4 g.clkSafe, uncommitted := keep 5 g.uncommitted, cutover := keep 6 g.cutover,
      syncErr := keep 7 g.syncErr, blankClamp := keep 8 g.blankClamp, stTrip := keep 9 g.stTrip })
  | .pier => s.updLeg k (fun g => { g with
      testOverdue := keep 7 g.testOverdue, scTrip := keep 8 g.scTrip, dtRepair := keep 9 g.dtRepair,
      swallow := keep 10 g.swallow, softOff := keep 11 g.softOff })
  | .par =>
    if r = 0x04 then { s with par := { s.par with linkOvLatch := keep 4 s.par.linkOvLatch, cOvLatch := keep 5 s.par.cOvLatch } }
    else { s with par := { s.par with spanSc := s.par.spanSc.filter (fun x => !bitOf v x.code) } }
  | .trac =>
    let t : Trac := if k = 0 then 0 else 1
    s.unstick v [(8, .tPosFault t), (9, .tDisagree t), (10, .tSetLost t), (11, .safeEntry (Span.ofTrac t))]
  | .cspn => s.unstick v [(1, .cTrunc), (5, .cShedCancel), (6, .safeEntry .c)]
  | .qspn => s.unstick v [(2, .qAiTrip), (3, .safeEntry .q)]
  | .bspn => s.unstick v [(3, .safeEntry .b)]
  | .aspn => s.unstick v [(4, .safeEntry (aSp k))]
  | .fp =>
    if r = 0x24 then s.updPort k (fun x => { x with
      passiveSeen := keep 3 x.passiveSeen, busoffSeen := keep 4 x.busoffSeen, collSeen := keep 5 x.collSeen })
    else s.updObj k (s.objSel k) (fun b => { b with stale := keep 4 b.stale })
  | .kst =>
    -- R251: KST_FAULT and the mismatch record are cleared after deck ready.
    if !s.start.ready then s
    else
      let q := { s.kst with
        mismatch := keep 0 s.kst.mismatch, wdt := keep 1 s.kst.wdt, ecc := keep 2 s.kst.ecc, dtDigest := keep 3 s.kst.dtDigest }
      { s with kst := if bitOf v 0 then { q with mmAddr := 0, mmTick := 0, mmRecorded := false } else q }
  | .vdt => { s with vdt := { s.vdt with
      miss := keep 0 s.vdt.miss, late := keep 1 s.vdt.late, shdMm := keep 2 s.vdt.shdMm, diverge := keep 3 s.vdt.diverge,
      laneDown := keep 4 s.vdt.laneDown, overlap := keep 5 s.vdt.overlap, staging := keep 6 s.vdt.staging,
      carrier := keep 7 s.vdt.carrier, speed := keep 8 s.vdt.speed, posDiff := keep 9 s.vdt.posDiff } }
  | .trl => { s with trl := { s.trl with
      dip := keep 0 s.trl.dip, longDip := keep 1 s.trl.longDip, brgFault := keep 2 s.trl.brgFault,
      brokenSeen := keep 3 s.trl.brokenSeen, shutSeen := keep 4 s.trl.shutSeen } }
  | .cal => { s with cal := { s.cal with vbakLow := keep 2 s.cal.vbakLow, lost := keep 3 s.cal.lost } }
  | .mrm => { s with mrm := { s.mrm with
      wrFail := keep 1 s.mrm.wrFail, rdErr := keep 2 s.mrm.rdErr, holdDrop := keep 3 s.mrm.holdDrop } }
  | _ => s

/-! ### TL writes (R21, R52) -/

/-- The boundary at which a TL write lands: the next one when it comes at or before 50 ns before it, else the one after. -/
def State.landsAt (s : State) (ofs : Nat) : Tick :=
  if ofs + 50 * uNs ≤ s.pu then s.tk.count + 1 else s.tk.count + 2

/-- Hold a TL write; one that waits for the same boundary is overwritten and counted. -/
def State.holdWrite (s : State) (off : Nat) (v : Word) (ofs : Nat) : State :=
  let b := s.landsAt ofs
  let hit := fun (h : HeldWrite) => decide (h.off = off) && decide (h.lands = b)
  let n := s.tk.tlOverwrite
  { s with tk := { s.tk with
      held := s.tk.held.filter (fun h => !hit h) ++ [{ off := off, value := v, lands := b }],
      tlOverwrite := if s.tk.held.any hit then satInc n max32 else n } }

/-! ### Start-up requests (R408, R414) -/

/-- Step 7 ends: GO acts while the deck waits in steps 6 and 7. -/
def State.go (s : State) : State :=
  if s.start.running && s.start.ticking && decide (s.start.step ≤ 7) then { s with start := { s.start with go := true } } else s

/-- ABUT: honoured before deck ready, or while every span is in OFF (R414). -/
def State.askAbut (s : State) : State :=
  if !s.start.ready || Span.all.all s.cur.inOff then { s with start := { s.start with abutDue := true } }
  else s.accessViolation 0x60

/-! ### Writes -/

/-- The state of an outcome that goes on. -/
def goOn (s : State) (o : Host.Outcome State Fault Refusal) : State :=
  match o with
  | .next t => t
  | _ => s

/-- Do one thing for each bit of a W1S register that is written 1. -/
def State.onBit (s : State) (v : Word) (i : Nat) (f : State → State) : State := if bitOf v i then f s else s

/-- A port by number. -/
def portOf (k : Nat) : Port := Fin.ofNat 48 k
/-- A leg by number. -/
def legOf (k : Nat) : Leg := Fin.ofNat 40 k

/-- A W1S register: each bit that is written 1 acts (Table 00-2). -/
def State.setBits (s : State) (p : Block × Nat × Nat) (v : Word) (ofs : Nat) : State :=
  let k := p.2.1
  let r := p.2.2
  match p.1 with
  | .dkid => (s.onBit v 0 State.go).onBit v 1 State.askAbut
  | .tick =>
    if r = 0x40 then s.onBit v 0 (fun t => { t with tk := { t.tk with slackMin := 65535, statReset := true } })
    else goOn s (execCensusRelease (Fin.ofNat 4 (fld v 0 2)) s)
  | .trs =>
    if s.legDirect (legOf k).val then s.onBit v 0 (fun t => goOn t (execDirectCommit (legOf k) ofs t))
    else s.accessViolation (0xC044 + 0x200 * k)
  | .fp =>
    let q := portOf k
    let t := s.onBit v 0 (fun t => goOn t (execTxreq q ofs t))
    let t := t.onBit v 1 (fun t => goOn t (execObjAbort q ofs t))
    let t := t.onBit v 2 (fun t => goOn t (execResume q ofs t))
    t.onBit v 3 (fun t => goOn t (execBoRecover q ofs t))
  | .mrm => goOn s (execRecSlotRelease (BitVec.ofNat 5 v.toNat) s)
  | _ => s

/-- The register of the write set at an offset of a timer. -/
def wregOf (r : Nat) : WReg :=
  if r = 0x0C then .per else if r = 0x10 then .cmpa else if r = 0x14 then .cmpb else if r = 0x18 then .phase else .mode

/-- The MSI-X vector control word of a vector: a vector that is unmasked while pending is signalled (R323). -/
def State.unmask (s : State) (vec : Nat) : State :=
  if bitOf (s.reg (0x300C + 0x10 * vec)) 0 || !s.cwy.pba.contains vec then s
  else ({ s with cwy := { s.cwy with pba := s.cwy.pba.filter (fun x => decide (x ≠ vec)) } }).signal vec

/-- An access of FPnn_OBJ_DATA advances FPnn_OBJ_DADDR by 4 (Table 19-2). -/
def State.stepDaddr (s : State) (p : Nat) : State :=
  let a := 0x20098 + 0x400 * p
  s.setReg a (wd (((s.reg a).toNat + 4) % 4096))

/-- A write of FPnn_OBJ_DATA: only an object that sends host data takes it (R375); beyond the window it is ignored. -/
def State.writeObjData (s : State) (p : Nat) (v : Word) : State :=
  let o := s.objSel p
  let b := s.obj p o
  let a := (s.reg (0x20098 + 0x400 * p)).toNat
  if !b.send || decide (b.src ≠ 0) then s.accessViolation (0x2009C + 0x400 * p)
  else
    let t := if b.inWindow a then
        let word := (List.range 4).map (fun i => (a + i, (BitVec.ofNat 8 (v.toNat >>> (8 * i)) : Byte)))
        s.updObj p o (fun b => { b with buf := word.foldl (fun m q => Store.put (fun _ => (0#8 : Byte)) m q.1 q.2) b.buf })
      else s
    t.stepDaddr p

/-- An RW register (Table 00-2). -/
def State.writeRw (s : State) (off : Nat) (p : Block × Nat × Nat) (v : Word) (ofs : Nat) : State :=
  match p.1 with
  | .fp => if p.2.2 = 0x9C then s.writeObjData p.2.1 v else s.setReg off v
  | .ldg => if p.2.2 = 0x10 then goOn s (execLdgSel (Fin.ofNat 16384 v.toNat) ofs s) else s.setReg off v
  | .cwy => if p.2.2 % 16 = 12 then (s.setReg off v).unmask ((p.2.2 - 0x1000) / 16) else s.setReg off v
  | _ => s.setReg off v

/-- A partner record is written word by word (Table 16-4): its configured fields. -/
def PtnS.putWord (r : PtnS) (w : Nat) (v : Word) : PtnS :=
  if w = 0 then { r with addr := fld v 0 16, port := fld v 16 6, alt := fld v 24 6 }
  else if w = 1 then { r with hbId := fld v 0 29, ide := bitOf v 29 }
  else if w = 2 then
    let t := fld v 0 16
    { r with tmo := t, st := if t = 0 then 0 else if r.st = 0 then 1 else r.st }
  else r

/-- An LK register that is not locked (Table 00-2). -/
def State.writeLk (s : State) (off : Nat) (p : Block × Nat × Nat) (row : RegRow) (v : Word) (ofs : Nat) : State :=
  let k := p.2.1
  let r := p.2.2
  let obj := fun (f : ObjS → ObjS) => s.updObj k (s.objSel k) f
  match p.1 with
  | .adc => if r = 0 then { s with adc := { s.adc with seqEn := bitOf v 0 } }
            else if bitOf v 0 then goOn s (execRefEnable ofs s) else goOn s (execRefDisable s)
  | .fp =>
    if r = 0x84 then obj (fun b => { b with cfg := v }) else if r = 0x88 then obj (fun b => { b with id := v })
    else if r = 0x8C then obj (fun b => { b with pub := v }) else if r = 0x90 then obj (fun b => { b with aux := v })
    else s.setReg off v
  | .ldg => if 0x84 ≤ r then s.updPartner (fld (s.reg 0x2C080) 0 12) (fun q => q.putWord ((r - 0x84) / 4) v) else s.setReg off v
  | _ =>
    if row.acc = .lkro then s.setReg off ((s.reg off &&& ~~~ wd row.mask) ||| v) else s.setReg off v

/-- LK registers of a block take writes: before deck ready; in abutment mode those of the Causeway (R436). -/
def State.unlocked (s : State) (b : Block) : Bool :=
  if s.start.abut then decide (b = .cwy) else !s.start.ready

/-- A host write to a register at an offset of the tick in progress, with its byte enables (R20, R431 to R433, R436). -/
def State.hostWrite (s0 : State) (off : Nat) (v0 : Word) (be : BitVec 4) (ofs : Nat) : State :=
  let s := s0.at ofs
  match regPlace off, regRow off with
  | some p, some row =>
    let v := v0 &&& wd row.mask
    if (s.start.abut && !p.1.inAbutment) || decide (be ≠ 0xF#4) then s.accessViolation off
    else match row.acc with
      | .ro => s.accessViolation off
      | .rw => s.writeRw off p v ofs
      | .lk => if s.unlocked p.1 && s.encodingOk p v then s.writeLk off p row v ofs else s.accessViolation off
      | .lkro => if s.unlocked p.1 && s.encodingOk p v then s.writeLk off p row v ofs else s.accessViolation off
      | .tl => s.holdWrite off v ofs
      | .w1s => s.setBits p v ofs
      | .w1c => s.clearBits p v
      | .mix => s.clearBits p v
      | .ws => goOn s (execDirectWrite (legOf p.2.1) (wregOf p.2.2) v ofs s)
  | _, _ => s

/-- TL_REGISTER_WRITE (R52): a host write to a tick-latched register is held and lands at a boundary; at an offset of
another type it acts by that type. -/
def execTlRegisterWrite (off : Nat) (v : Word) (be : BitVec 4) (ofs : Nat) (s : State) : Host.Outcome State Fault Refusal :=
  .next (s.hostWrite off v be ofs)

/-- REGISTER_WRITE (R20): a host write is applied by the register's access type. -/
def execRegisterWrite (off : Nat) (v : Word) (be : BitVec 4) (ofs : Nat) (s : State) : Host.Outcome State Fault Refusal :=
  .next (s.hostWrite off v be ofs)

/-- STAT_RESET (R63): TICK_SLACK_MIN returns to 0xFFFF; the bit reads 1 until the next boundary. -/
def execStatReset (s : State) : Host.Outcome State Fault Refusal :=
  .next (s.hostWrite 0x1040 1#32 0xF#4 0)

/-- CAUSEWAY_ENABLE (R325): CWY_CTRL.EN, an LK register; it acts from the next boundary. -/
def execCausewayEnable (v : Bool) (s : State) : Host.Outcome State Fault Refusal :=
  .next (s.hostWrite 0x2000 (if v then 1#32 else 0#32) 0xF#4 0)

/-- GO (R408): the host's write of GO. -/
def execGo (ofs : Nat) (s : State) : Host.Outcome State Fault Refusal :=
  .next (s.hostWrite 0x60 1#32 0xF#4 ofs)

/-- ABUT (R414): the host's write of ABUT. -/
def execAbut (ofs : Nat) (s : State) : Host.Outcome State Fault Refusal :=
  .next (s.hostWrite 0x60 2#32 0xF#4 ofs)

/-! ### Reads with an effect (R435, Table 19-2) -/

/-- The value read goes to the host. -/
def State.readsBack (s : State) (v : Word) : State := { s with lastRead := v }

/-- The words that a read of a _LO register latches, with their offsets; none for another register. -/
def State.latchWords (s : State) (off : Nat) : List (Nat × Nat) :=
  if off = 0x1010 then [(0x1014, hi32 s.tk.count)]
  else if off = 0x1020 then [(0x1024, hi32 (s.tk.ovrTick.getD 0))]
  else if off = 0x1030 then [(0x1034, hi32 s.tk.tlLast)]
  else if off = 0x1118 then [(0x111C, hi32 (s.tk.now / uNs))]
  else if off = 0x3000C then [(0x30010, hi32 s.kst.mmTick)]
  else if off = 0x31128 then [(0x3112C, hi32 s.vdt.rxTick)]
  else if off = 0x33000 then
    let v := s.calVal s.tk.now
    [(0x33004, v / 2 ^ 56 % 64 + 64 * s.cal.st), (0x33008, v % 2 ^ 24)]
  else []

/-- HIGH_WORD_LATCH_READ (R435): a read of a _LO register returns its word and latches the words of Table 19-2. A block
that reads 0 in abutment mode latches nothing. -/
def execHighWordLatchRead (off : Nat) (ofs : Nat) (s0 : State) : Host.Outcome State Fault Refusal :=
  let s := s0.at ofs
  let live := match regPlace off with | some p => !(s.start.abut && !p.1.inAbutment) | none => false
  let t := if live then
      (s.latchWords off).foldl (fun t q => { t with hiLatch := Store.put (fun _ => 0#32) t.hiLatch q.1 (wd q.2) }) s
    else s
  .next (t.readsBack (s.readReg off))

/-- An MRAM read shows its ECC verdict: 0 none, 1 a corrected error, 2 an uncorrectable one (R425). -/
def State.readEcc (s : State) (ecc : Fin 3) : State :=
  if ecc.val = 1 then { s with mrm := { s.mrm with corr := satInc s.mrm.corr max16 } }
  else if ecc.val = 2 then
    { s with mrm := { s.mrm with uncorr := satInc s.mrm.uncorr max16, rdErr := true } }
  else s

/-- Advance an address register by 4 within its defined bits. -/
def State.advance (s : State) (a mask : Nat) : State := s.setReg a (wd (((s.reg a).toNat + 4) &&& mask))

/-- DATA_WINDOW_ACCESS (R425, R435): a read, or a write with its word, of a data-window register; the address register
advances by 4. -/
def execDataWindowAccess (off : Nat) (wr : Option Word) (ecc : Fin 3) (s : State) : Host.Outcome State Fault Refusal :=
  match wr with
  | some v => .next (s.hostWrite off v 0xF#4 0)
  | none =>
    let live := match regPlace off with | some p => !(s.start.abut && !p.1.inAbutment) | none => false
    let v := s.readReg off
    if !live then .next (s.readsBack 0#32)
    else if off = 0x11B4 then .next ((s.readsBack v).advance 0x11B0 0xFFFFC)
    else if off = 0x2C044 then .next ((s.readsBack v).advance 0x2C040 0x7FC)
    else if off = 0x3320C then .next (((s.readEcc ecc).readsBack (if ecc.val = 2 then 0#32 else v)).advance 0x33208 0x3FFFFFC)
    else if 0x20000 ≤ off ∧ off < 0x2C000 ∧ (off - 0x20000) % 0x400 = 0x9C then
      .next ((s.readsBack v).stepDaddr ((off - 0x20000) / 0x400))
    else .next (s.readsBack v)

end Sys2Proof.Machine
end

