-- ==== Sys2Proof/Machine/Keystone.lean ====
section
/-! DEFINITION. The Keystone (chapter 11): the fault line and its hardware reactions, lockstep, watchdog, RAM errors, clocks that return, and debug attach. -/
namespace Sys2Proof.Machine

/-! ### The fault line (R249) -/

/-- KST_FAULT as a word (Table 11-8). -/
def KstS.faultWord (k : KstS) : Nat := bitsFrom 0 [k.mismatch, k.wdt, k.ecc, k.dtDigest]

/-- The code of the Keystone cause in each span's cause table (R249 item 5). -/
def keystoneCause : Span → Nat
  | .t0 => 11 | .t1 => 11 | .c => 10 | .q => 13 | .b => 6 | .a0 => 10 | .a1 => 10 | .a2 => 10 | .a3 => 10

/-- One span under the Keystone cause: a span that is not DISABLED reports SAFE with the pattern its legs have latched. -/
def State.keystoneSpan (s : State) (c : Ctl) (x : Span) : Ctl :=
  let code := keystoneCause x
  let pat := fun (l : Nat) => (s.leg l).safePat
  match x with
  | .t0 => { c with tr0 := s.tracShown 0 { c.tr0 with st := .safe, safeCause := code, winding := false, offDue := false } }
  | .t1 => { c with tr1 := s.tracShown 1 { c.tr1 with st := .safe, safeCause := code, winding := false, offDue := false } }
  | .c => { c with cs := { c.cs with st := .safe, safeCause := code, safePat := if pat 12 = 1 then 2 else 1 } }
  | .q => { c with qs := { c.qs.opened with st := .safe, safeCause := code } }
  | .b => { c with bs := { c.bs with st := .safe, safeCause := code, active := false } }
  | y =>
    let m := y.code - 5
    c.putAct m { (c.actS m) with st := .safe, safeCause := code, safePat := if pat (28 + 3 * m) = 1 then 2 else 1 }

/-- From the boundary after assertion every span that is not DISABLED reports SAFE (R249 item 5); no event of the span
chapters is raised. -/
def State.keystoneSafe (s : State) : State :=
  let xs := Span.all.filter (fun x => !s.cur.disabled x)
  let c := xs.foldl s.keystoneSpan s.cur
  xs.foldl (fun t x => t.stick (.safeEntry x)) { s with cur := c, stage := c }

/-- Every shared or standby span that this deck leads or owns in a running viaduct is given up with a cause (R281,
Table 12-6). -/
def State.giveUpAll (s : State) (cause : Nat) : State :=
  if s.inViaduct then
    let has := fun (x : Span) => s.fitted x && !s.vdt.out.contains x && (decide (x.code ≤ 4) || s.vdt.leads.contains x)
    let new := Span.all.filter (fun x => has x && !s.vdt.giveUp.any (fun g => decide (g.1 = x)))
    { s with vdt := { s.vdt with giveUp := s.vdt.giveUp ++ new.map (fun x => (x, cause)) } }
  else s

/-- The index reached from p over slots that have been dealt with; the first argument bounds the steps. -/
def passDone (done : Nat → Bool) : Nat → Nat → Nat
  | 0, p => p
  | n + 1, p => if done p then passDone done n ((p + 1) % 2 ^ 32) else p

/-- The index of the first fetched descriptor whose completion has not been written (R249 item 6): CMPL_PROD stands behind the
slots written since Φ1 of the tick. -/
def CwyS.firstUnwritten (w : CwyS) : Nat := passDone (fun k => w.cmplDone.contains k) 4096 w.cmplProd

/-- The completions that are formed and not written when the line comes: on a single deck each is written with the fault-line
status in the tick after assertion, in a viaduct the surviving deck writes them (R250). -/
def State.cmplFaulted (s : State) : List Completion :=
  if s.inViaduct then []
  else s.cwy.cmplDue.map (fun c =>
    { c with status := .faultLine, applied := max c.applied (s.tk.count + 1), result := 0, clip := false, superseded := false })

/-! ### The relinquish frame (R273, R274) -/

/-- STAGED_CRC (Table 12-4 S6). -/
def State.stagedCrc (s : State) : Nat :=
  (crc32c (s.cwy.staged.flatMap (fun d => leBytes (dTag d) 4 ++ leBytes d.bound 8))).toNat

/-- A frame as sent: the header of Table 12-3, the body and the CRC. -/
def State.makeFrame (s : State) (kind len tick flags rcause : Nat) (relq : List Span) (body : List Nat) : List Byte :=
  let head := leBytes 0xB7E1 2 ++ [1, kind] ++ leBytes tick 8 ++ leBytes len 2 ++
    [flags + (if s.roleBit = 0 then 0 else 1) + 32 * b2n s.vdt.cwyLead, rcause] ++ leBytes (spanMask s.vdt.leads) 2 ++
    leBytes (spanMask relq) 2 ++ leBytes (spanMask (Span.all.filter s.usable)) 2 ++ [0, 0] ++
    leBytes s.vdt.rxTick 8
  let all := head ++ body
  (all ++ leBytes (crc32c all).toNat 4).map (BitVec.ofNat 8)

/-- CMPL_POSTED: the slot up to which this deck has written its own slots (Table 12-4 S6). -/
def State.posted (s : State) : Nat :=
  passDone (fun p => s.cwy.cmplDone.contains p || s.cwy.twinSlots.contains p) 4096 s.cwy.cmplProd

/-- S6: CMD_CONS, STAGED, STAGED_CRC, CMPL_FORMED, CMPL_POSTED (Table 12-4). CMPL_FORMED keeps the last slot formed in a tick that
forms none (DESIGN CHOICE, log 129). -/
def State.s6Bytes (s : State) : List Nat :=
  leBytes s.cwy.cmdFetched 4 ++ leBytes s.cwy.staged.length 4 ++ leBytes s.stagedCrc 4 ++
  leBytes s.vdt.formedLast 4 ++ leBytes s.posted 4 ++
  List.replicate 12 0

/-- A relinquish frame (R274, Table 12-6 codes 1 and 2); after a debug attach its TICK is that of the attach (DEDUCED, log 129). -/
def State.relinquishFrame (s : State) (cause : Nat) : List Byte :=
  s.makeFrame 2 68 s.kst.faultTick 0 cause (Span.all.filter s.fitted) s.s6Bytes

/-- The tie unit sends a relinquish frame within 1 µs of the cause, without firmware (Table 12-6). -/
def State.sendRelinquish (s : State) (cause : Nat) : State :=
  if s.inViaduct then { s with vdt := { s.vdt with sent := s.relinquishFrame cause } } else s

/-- The fault line is asserted (R249): the legs take their latched patterns, K_AC and S2 open, the event of the cause names
KST_FAULT and the first descriptor whose completion is not written. During a start the start fails with cause 21 (R408). A
further cause while the line is asserted has its own bit and its own event, whose path needs no cores (R249, R259). -/
def State.assertFault (s0 : State) (code cause : Nat) : State :=
  if s0.kst.faultLine then s0.raise code s0.deckAddr cause s0.kst.faultWord s0.kst.firstOpen
  else
    let s1 := { s0 with
      kst := { s0.kst with faultLine := true, lockstepOk := false, faultTick := s0.tk.count, firstOpen := s0.cwy.firstUnwritten },
      cwy := { s0.cwy with cmplDue := s0.cmplFaulted },
      cur := { s0.cur with qs := s0.cur.qs.opened }, stage := { s0.stage with qs := s0.stage.qs.opened } }
    let s2 := s1.raise code s1.deckAddr cause s1.kst.faultWord s1.kst.firstOpen
    let s3 := ((s2.giveUpAll 1).driveAll allLegs).sendRelinquish 1
    if s3.start.running then s3.startFail 21 else s3

/-- The cores run: ticks go on, the clocks hold and the fault line is released. -/
def State.coresRun (s : State) : Bool := s.start.ticking && s.clocked && !s.kst.faultLine

/-- LOCKSTEP_MISMATCH (R246): a difference asserts the fault line; the first since the last start is recorded. The
comparator of a lockstep-broken deck is disabled (R254). -/
def execLockstepMismatch (addr : Word) (ofs : Nat) (s0 : State) : Host.Outcome State Fault Refusal :=
  let s := s0.at ofs
  if s.kst.lsBroken || s.kst.faultLine then .next s
  else
    let k := { s.kst with mismatch := true }
    let k := if k.mmRecorded then k else { k with mmRecorded := true, mmAddr := addr.toNat, mmTick := s.tk.count }
    .next ({ s with kst := k }.assertFault 18 0)

/-- The watchdog misses its service (R247). -/
def State.watchdogFault (s : State) : State := { s with kst := { s.kst with wdt := true } }.assertFault 21 0

/-- WATCHDOG_SERVICE (R247): accepted from T0END to P − 1 µs; outside the window it asserts the fault line. -/
def execWatchdogService (ofs : Nat) (s0 : State) : Host.Outcome State Fault Refusal :=
  let s := s0.at ofs
  if !s.coresRun then .next s
  else if s.t0end ≤ ofs ∧ ofs + 1000 * uNs ≤ s.pu then
    .next { s with kst := { s.kst with served := some (ofs / u25) } }
  else .next s.watchdogFault

/-- WATCHDOG_EXPIRY (R247): P − 1 µs has come without a service in this tick. -/
def execWatchdogExpiry (s0 : State) : Host.Outcome State Fault Refusal :=
  let s := s0.at (s0.pu - 1000 * uNs)
  if s.coresRun && decide (s.kst.served = none) then .next s.watchdogFault else .next s

/-- KST_WDT.LAST at a boundary: the service time of the tick that ends. -/
def State.watchdogBoundary (s : State) : State :=
  { s with kst := { s.kst with wdtLast := s.kst.served.getD s.kst.wdtLast, served := none } }

/-- RAM_ECC_ERROR (R248): a single-bit error is corrected and counted for its core; a double-bit error asserts the fault
line. -/
def execRamEccError (trailing double : Bool) (ofs : Nat) (s0 : State) : Host.Outcome State Fault Refusal :=
  let s := s0.at ofs
  if double then .next ({ s with kst := { s.kst with ecc := true } }.assertFault 22 0)
  else if trailing then .next { s with kst := { s.kst with ecc1 := satInc s.kst.ecc1 max16 } }
  else .next { s with kst := { s.kst with ecc0 := satInc s.kst.ecc0 max16 } }

/-- The dead-time digest differs (R132): the fault line with E011, cause 3 "digest", once. -/
def State.digestFault (s : State) : State :=
  if s.kst.faultLine && s.kst.dtDigest then s else { s with kst := { s.kst with dtDigest := true } }.assertFault 11 3

/-- CLOCKS_VALID (R125): the clocks are valid again or the halt has ended; the fault line is asserted with E006. The legs
keep their pattern until the next start. -/
def execClocksValid (ofs : Nat) (s0 : State) : Host.Outcome State Fault Refusal :=
  let s := s0.at ofs
  if s.par.clockLost = 0 then .next s
  else .next ({ s with par := { s.par with clockLost := 0 } }.assertFault 6 s.par.clockLost)

/-- DEBUG_ATTACH (R254, R255): the lockstep is broken, the HV legs are off, E020; in a viaduct everything is given up. The
availability registers follow at once (Table 11-4), and the tie unit sends a relinquish frame (Table 12-6). -/
def execDebugAttach (ofs : Nat) (s0 : State) : Host.Outcome State Fault Refusal :=
  let s := s0.at ofs
  let s1 := { s with kst := { s.kst with
    lsBroken := true, lockstepOk := false, attaches := satInc s.kst.attaches 255, faultTick := if s.kst.faultLine then s.kst.faultTick else s.tk.count } }
  let s2 := s1.raise 20 s1.deckAddr 0 0 0
  .next (((s2.giveUpAll 2).driveAll allLegs).sendRelinquish (if s.kst.faultLine then 1 else 2)).updateAvail

/-- LS_BROKEN_CLEAR (R254): VSUP has stayed below 2.5 V for 1 s. -/
def execLsBrokenClear (s : State) : Host.Outcome State Fault Refusal :=
  .next { s with kst := { s.kst with lsBroken := false, attaches := 0 } }

end Sys2Proof.Machine
end

