-- ==== Sys2Proof/Machine/Viaduct.lean ====
section
/-! DEFINITION. The viaduct and the Miash tie (chapter 12): frames, lanes, pairing, the shadow of the follower, giving up and taking over spans, and handover. -/
namespace Sys2Proof.Machine

/-! ### Frame layout (R273, R274, Tables 12-3 and 12-4) -/

/-- A field of a frame, little-endian. -/
def fw (f : List Byte) (o n : Nat) : Nat := ofLe (((f.drop o).take n).map BitVec.toNat)
/-- A signed field of 32 bits. -/
def fws (f : List Byte) (o : Nat) : Int := (BitVec.ofNat 32 (fw f o 4)).toInt
/-- The tick of a frame. -/
def fTick (f : List Byte) : Nat := fw f 4 8
/-- The spans of a bitmap field. -/
def fSpans (f : List Byte) (o : Nat) : List Span := let m := fw f o 2; Span.all.filter (fun x => m.testBit x.code)
/-- One flag of the header. -/
def fFlag (f : List Byte) (i : Nat) : Bool := (fw f 14 1).testBit i
/-- Word k of S1 of a span. -/
def s1 (f : List Byte) (x : Span) (k : Nat) : Nat := fw f (32 + 32 * x.code + 4 * k) 4
/-- The same word, signed. -/
def s1s (f : List Byte) (x : Span) (k : Nat) : Int := (BitVec.ofNat 32 (s1 f x k)).toInt
/-- The six state words of an engine in S2, by its place among the mirrored engines. -/
def State.s2Words (s : State) (f : List Byte) (g : Nat) : Option (List Nat) :=
  (s.mirrorEng.findIdx? (fun e => decide (e = g))).map (fun i => (List.range 6).map (fun w => fw f (320 + 24 * i + 4 * w) 4))
/-- A number of n bits as a signed one. -/
def signedOf (v n : Nat) : Int := if v < 2 ^ (n - 1) then (v : Int) else (v : Int) - 2 ^ n
/-- An engine with the state words of a frame (Table 04-4). -/
def EngS.ofWords (x : EngS) (ws : List Nat) : EngS :=
  let w := fun (k : Nat) => ws.getD k 0
  let b := fun (i : Nat) => (w 2).testBit i
  { x with
    i := signedOf (w 0 + 2 ^ 32 * w 1 + 2 ^ 64 * (w 2 % 65536)) 80,
    mode := if w 2 / 65536 % 4 = 1 then .run else if w 2 / 65536 % 4 = 2 then .track else .idle,
    clampHi := b 18, clampLo := b 19, held := b 20, first := b 21, limConflict := b 22, rebased := b 23,
    d := signedOf (w 3) 32, yPrev := signedOf (w 4) 32, u := signedOf (w 5) 32 }

/-! ### Forming frames -/

/-- The bytes of one completion entry (Table 14-5), as the deck of a role writes it. -/
def cmplBytes (role entries : Nat) (c : Completion) : List Nat :=
  leBytes c.tag 4 ++ leBytes c.dseq 4 ++ leBytes c.applied 8 ++ leBytes c.opcode 2 ++ leBytes c.addr.toNat 2 ++
  leBytes c.status.code 2 ++
  [pack [(0, b2n c.late), (1, b2n c.clip), (2, b2n c.superseded), (3, role), (4, c.lateCause)], c.dseq / entries % 256] ++
  leBytes c.result 8

/-- The torque target of the tick that Φ2 computed: the target, or SPD's output in SPEED (Table 12-5 word 3). -/
def State.tracTarget (s : State) (t : Trac) : Int :=
  match (s.stage.trac t).st with
  | .torque => (s.stage.trac t).target
  | .speed => s.roleOut s.cur (s.tRole t 0)
  | _ => 0

/-- The words of S1 of a span (Table 12-5), with the states that stand at the boundary ending this tick. -/
def State.s1Words (s : State) (x : Span) : List Nat :=
  let q := { s with cur := s.stage }
  let r := fun (o : Nat) => (q.readReg (spanBase x + o)).toNat
  if !s.fitted x then List.replicate 8 0
  else match x with
    | .t0 => let y := s.stage.tr0
             [r 0x100, r 0x104, s32w y.tv, s32w (s.tracTarget 0), s32w y.tm, s32w y.tg, y.peak, s32w y.dip]
    | .t1 => let y := s.stage.tr1
             [r 0x100, r 0x104, s32w y.tv, s32w (s.tracTarget 1), s32w y.tm, s32w y.tg, y.peak, s32w y.dip]
    | .c => let y := s.stage.cs
            let w := match y.shed with | some k => (y.phase k).ws | none => 0
            [r 0x100, r 0x104, s32w (s.roleOut s.stage (s.cRole 0)), s32w y.vref, s32w (s.cLimit 0x2C y.held), s32w (s.cLimit 0x28 y.held),
             s32w y.vtgt, pack [(0, bitmap 8 (fun k => (y.phase k).active)), (8, y.shed.getD 15), (12, w)]]
    | .q => let y := s.stage.qs
            let isl := decide (y.st = .exportIs)
            [r 0x100, r 0x104, s32w (if isl then s.roleOut s.stage (s.qRole 6) else y.pTgt),
             s32w (if isl then s.roleOut s.stage (s.qRole 7) else y.iqRef), s32w y.ilim, y.thg,
             s32w (if isl then s.qn 0x40 else s.roleOut s.stage (s.qRole 0)), 0]
    | .b => [r 0x100, r 0x104, r 0x108, r 0x10C, r 0x110, r 0x114, 0, 0]
    | _ => [r 0x100, r 0x104, r 0x108, r 0x110, r 0x11C, r 0x114, r 0x118, r 0x120]

/-- This deck leads or owns a span. -/
def State.leadsSpan (s : State) (x : Span) : Bool := s.vdt.leads.contains x
/-- The span of an engine, where its code names one. -/
def State.engLed (s : State) (g : Nat) : Bool :=
  match Span.ofCode? (s.engSpan g) with | some x => s.leadsSpan x | none => false

/-- The signals an outer engine used in this tick (S3): kept by the compute as words. -/
def inputBytes (i : EngIn) (lo hi : Int) : List Nat :=
  [i.r, i.y, i.f, i.t, lo, hi].flatMap (fun v => leBytes (s32w v) 4)

/-- S4 of one traction span. -/
def State.s4Words (s : State) (t : Trac) : List Nat :=
  let y := s.stage.trac t
  [y.angle, y.thobs, s32w y.speed, s32w y.psa, s32w y.psb, y.angSrc + 4 * b2n y.obsValid]

/-- S5 of one span: carrier number at the boundary that opened the tick, leg and phase of its lowest usable leg. -/
def State.s5Bytes (s : State) (x : Span) : List Nat :=
  match x.legs.find? s.legUsable with
  | some l => leBytes ((s.leg l).cur + 65536 - (s.leg l).pidx) 2 ++ [l, 0] ++ leBytes (s.leg l).act.phase 4
  | none => List.replicate 8 0

/-- S7: of the completions formed in this tick, those of owned standby spans, at most 8, in slot order: the running index counts
from CMPL_PROD on. -/
def State.s7Bytes (s : State) (formed : List Completion) : List Nat :=
  let own := formed.filter (fun c => match Span.ofCode? (aSpan c.addr.toNat) with
    | some x => decide (5 ≤ x.code) && s.leadsSpan x | none => false)
  let bs := ((own.mergeSort (fun a b => decide (idxSub a.seq s.cwy.cmplProd ≤ idxSub b.seq s.cwy.cmplProd))).take 8).flatMap (cmplBytes (if s.roleBit = 0 then 0 else 1) (2 ^ fld (s.reg 0x2018) 0 4))
  bs ++ List.replicate (256 - bs.length) 0

/-- The mirror frame of the tick (R274). A compute still under way leaves S1 to S3 as last completed (FLAGS.OVR). -/
def State.mirrorFrame (s : State) (s3 : List Nat) (s8 : Option (BitVec 64)) (formed : List Completion) : List Byte :=
  let q := if s.tk.phi2Done then s else { s with stage := s.cur }
  let flags := 2 * b2n s.tk.mirLate + 4 * b2n (!s.tk.phi2Done) + 8 * b2n s8.isSome + 16 * b2n s.vdt.mmNow
  let eng := s.mirrorEng.flatMap (fun g =>
    (List.range 6).flatMap (fun w => leBytes (if s.engLed g then (q.stage.engS g).word w else 0) 4))
  let body := Span.all.flatMap (fun x => (q.s1Words x).flatMap (fun v => leBytes v 4)) ++ eng ++ s3 ++
    ((q.s4Words 0) ++ (q.s4Words 1)).flatMap (fun v => leBytes v 4) ++ Span.all.flatMap s.s5Bytes ++ s.s6Bytes ++ s.s7Bytes formed ++
    leBytes (match s8 with | some d => d.toNat | none => 0) 8
  s.makeFrame 1 s.frameLen s.tk.count flags s.vdt.rcauseNext s.vdt.relqNext body

/-- A handshake frame (R266). -/
def State.shakeFrame (s : State) : List Byte :=
  s.makeFrame 3 68 s.tk.count 0 0 [] (leBytes s.kst.fwId.toNat 4 ++ leBytes s.start.digest.toNat 8 ++
    leBytes (s.reg 0x1000).toNat 4 ++ leBytes (s.reg 0x1008).toNat 4 ++ leBytes s.frameLen 4 ++ leBytes s.vdt.startTick 8)

/-! ### Receiving (R268 to R271) -/

/-- A frame whose CRC, MAGIC, VERSION and KIND hold and whose length is that of its kind (R268, R273). -/
def State.frameOk (s : State) (kind : Nat) (f : List Byte) : Bool :=
  let n := f.length
  decide (n = (if kind = 1 then s.frameLen else 68)) && decide (fw f 0 2 = 0xB7E1) && decide (fw f 2 1 = 1) && decide (fw f 3 1 = kind) &&
  decide (fw f (n - 4) 4 = (crc32c ((f.take (n - 4)).map BitVec.toNat)).toNat)

/-- What the two lanes deliver of a kind: lane L0 where it is valid (R268), and which lanes delivered. -/
def State.laneFrame (s : State) (kind : Nat) (ok : List Byte → Bool) (l0 l1 : Option (List Byte)) : Option (List Byte) × Bool × Bool :=
  let good := fun (l : Option (List Byte)) => match l with | some f => s.frameOk kind f && ok f | none => false
  (if good l0 then l0 else if good l1 then l1 else none, good l0, good l1)

/-- A frame of tick k arrives in time in tick c: before the boundary that ends k, or no later than 3 µs after it (R268). -/
def State.inTime (s : State) (ofs : Nat) (f : List Byte) : Bool :=
  decide (fTick f = s.tk.count) || (decide (fTick f + 1 = s.tk.count) && decide (ofs ≤ 3000 * uNs))

/-- Note the lanes that delivered. -/
def State.gotLanes (s : State) (a b : Bool) : State :=
  { s with vdt := { s.vdt with got0 := s.vdt.got0 || a, got1 := s.vdt.got1 || b } }

/-- One lane at the end of Φ0 (R271): errors in a row, counter, down after 3, up again after 64 good frames. -/
def State.judgeLane (s : State) (lane : Nat) : State :=
  let v := s.vdt
  let got := if lane = 0 then v.got0 else v.got1
  let bad := if lane = 0 then v.bad0 else v.bad1
  let good := if lane = 0 then v.good0 else v.good1
  let err := if lane = 0 then v.err0 else v.err1
  let down := decide (3 ≤ bad)
  let bad' := if got then (if down && decide (good + 1 < 64) then bad else 0) else min (bad + 1) 3
  let good' := if got then min (good + 1) 64 else 0
  let err' := if got then err else satInc err max16
  let up := decide (bad' < 3) && (if lane = 0 then v.lane0Up || got else v.lane1Up || got)
  let fell := decide (bad' = 3) && !down
  let w := if lane = 0
    then { v with bad0 := bad', good0 := good', err0 := err', lane0Up := up, laneDown := v.laneDown || fell, got0 := false }
    else { v with bad1 := bad', good1 := good', err1 := err', lane1Up := up, laneDown := v.laneDown || fell, got1 := false }
  let t := { s with vdt := w }
  if fell then t.raise 80 s.deckAddr lane 0 0 else t

/-- A warning or a failed pairing check: E086 with its cause (1 to 6 the checks of Table 12-2, then 7 speed, 8 carrier,
9 staging, 10 position). -/
def State.e086 (s : State) (cause : Nat) : State := s.raise 86 s.deckAddr cause 0 0

/-! ### Pairing (R266, R267) -/

/-- The first check of Table 12-2 that a handshake frame fails; 0 where all pass. `n` is the tick whose Φ0 takes the frame in:
the next one, or the one in progress for a frame that arrives in its first 3 µs (R268). -/
def State.shakeCheck (s : State) (f : List Byte) (n : Tick) : Nat :=
  if fFlag f 0 = decide (s.roleBit ≠ 0) then 1
  else if fw f 32 4 ≠ s.kst.fwId.toNat then 2
  else if fw f 36 8 ≠ s.start.digest.toNat then 3
  else if fw f 44 4 ≠ (s.reg 0x1000).toNat ∨ fw f 48 4 ≠ (s.reg 0x1008).toNat ∨ fTick f + 1 ≠ n then 4
  else if fw f 52 4 ≠ s.frameLen then 5
  else if fw f 24 8 + 1 ≠ fTick f then 6
  else 0

/-- This deck handshakes: it pairs, or it runs alone and may pair again. -/
def State.shaking (s : State) : Bool := decide (s.vdt.pair = 1) || decide (s.vdt.pair = 3)

/-- HANDSHAKE_FRAME (R266): the frame is checked as the input of the tick that takes it in; a failed check restarts the count of 16; S is taken
from role A's frame. -/
def execHandshakeFrame (l0 l1 : Option (List Byte)) (ofs : Nat) (s0 : State) : Host.Outcome State Fault Refusal :=
  let s := s0.at ofs
  if !s.shaking then .next s
  else
    let (f?, a, b) := s.laneFrame 3 (fun _ => true) l0 l1
    let s := s.gotLanes a b
    match f? with
    | none => .next s
    | some f =>
      let k := s.shakeCheck f (if ofs ≤ 3000 * uNs then s.tk.count else s.tk.count + 1)
      let s := { s with vdt := { s.vdt with
        shakeSeen := true, reShake := true, rxTick := fTick f, joins := decide (fw f 16 2 ≠ 0),
        startTick := if s.roleBit ≠ 0 ∧ fw f 56 8 ≠ 0 then fw f 56 8 else s.vdt.startTick } }
      if k = 0 then .next { s with vdt := { s.vdt with shakeOk := true } }
      else .next ({ s with vdt := { s.vdt with pairFail := k, shakeRun := 0, shakeOk := false } }.e086 k)

/-- The count of good ticks, at T0END (R266). -/
def State.shakeCount (s : State) : State :=
  if !s.shaking then s
  else { s with vdt := { s.vdt with shakeRun := if s.vdt.shakeOk then min (s.vdt.shakeRun + 1) 16 else 0, shakeOk := false } }

/-- S, as role A sets it at a boundary after 16 good ticks (R266). -/
def State.shakeBoundary (s : State) : State :=
  if !s.shaking then s
  else
    let v := s.vdt
    let run := v.shakeRun
    let n := s.tk.count
    let st := if decide (run = 16) && decide (s.roleBit = 0) && decide (v.startTick = 0) then ceilTo (n + 64) 256 else v.startTick
    { s with vdt := { v with startTick := st } }

/-- The leads and owners at the first pairing (R262), or those of a deck that joins a running twin (R267). -/
def State.initialLeads (s : State) : List Span :=
  let cfg := s.reg 0x31000
  let me := decide (s.roleBit ≠ 0)
  Span.all.filter (fun x => s.fitted x &&
    (if x.code ≤ 4 then decide (bitOf cfg x.code = me) else decide (bitOf (s.spnW x 0) 8 = me)))

/-- Boundary S: mirror frames, PAIR 2 (R266). A deck that joins leads nothing and its shared halves wait for a handover
(R267); the deck that ran alone keeps every lead at share 2^16. -/
def State.pairBoundary (s : State) : State :=
  if s.shaking && decide (s.vdt.startTick ≠ 0) && decide (s.vdt.startTick ≤ s.tk.count) then
    let v := s.vdt
    let shared := Span.all.filter (fun x => decide (x.code ≤ 4) && s.fitted x)
    let base := { v with
      pair := 2, paired := true, mirror := true, missRun := 0, startTick := 0, shakeRun := 0, reShake := false, met := true, twinOut := [] }
    if v.pair = 3 then { s with vdt := { base with alone := shared, twinOut := shared } }
    else if v.joins then { s with vdt := { base with leads := [], cwyLead := false, out := shared, adopt := some (s.tk.count + 1) } }
    else { s with vdt := { base with
        leads := s.initialLeads, cwyLead := decide (bitOf (s.reg 0x31000) 5 = decide (s.roleBit ≠ 0)), alone := [], out := [] } }
  else s

/-- This deck goes on alone: it leads and owns every span with share 2^16 (R266, R282). -/
def State.goAlone (s : State) : State :=
  let all := Span.all.filter s.fitted
  { s with vdt := { s.vdt with
    pair := 3, paired := false, leads := all, cwyLead := true, alone := all.filter (fun x => decide (x.code ≤ 4)), mirror := true } }

/-- PAIRING_TIMEOUT (R266): 1.5 s after the first handshake frame. With SOLO, and no valid handshake frame received, the
deck goes on alone; else the start fails with cause 18. -/
def execPairingTimeout (s : State) : Host.Outcome State Fault Refusal :=
  match s.vdt.shakeAt with
  | some t =>
    let due := t + 1500000000 * uNs
    if s.vdt.pair = 1 ∧ s.start.running ∧ s.reaches due then
      let s := s.goto due
      if bitOf (s.reg 0x31000) 6 && !s.vdt.shakeSeen then .next s.goAlone else .next (s.startFail 18)
    else .next s
  | none => .next s

/-! ### Mirror and relinquish frames (R274, R282, R284) -/

/-- The twin has found three of this deck's frames missing (R284): the tie unit drives every leg to its latched pattern,
standby spans OFF, and everything is given up with cause 8; E082 follows in the next tick. -/
def State.staleAcknowledged (s : State) : State :=
  let s1 := { s with vdt := { s.vdt with hold := Span.all, staleAck := true } }
  (s1.giveUpAll 8).driveAll allLegs

/-- MIRROR_FRAME (R268, R274): a valid frame is held until Φ0 of the next tick fixes it. R284 is met in a pair: a deck that has
itself taken the twin's spans over keeps to R285 when the tie returns (DEDUCED, log 128). -/
def execMirrorFrame (l0 l1 : Option (List Byte)) (ofs : Nat) (s0 : State) : Host.Outcome State Fault Refusal :=
  let s := s0.at ofs
  let (f?, a, b) := s.laneFrame 1 (s.inTime ofs) l0 l1
  let s := s.gotLanes a b
  match f? with
  | none => .next s
  | some f =>
    let s := { s with vdt := { s.vdt with frameNew := some f } }
    if s.vdt.pair = 2 ∧ fw f 24 8 + 4 ≤ fTick f ∧ ¬ s.vdt.staleAck then .next s.staleAcknowledged else .next s

/-- Schedule a takeover of spans that the twin gave up (R282, R283); a span already scheduled is not scheduled again, nor one whose
twin half is gone already. -/
def State.scheduleTakeover (s : State) (b : Tick) (xs : List Span) (cwy : Bool) (cause : Nat) : State :=
  let new := xs.filter (fun x => s.fitted x && !s.vdt.alone.contains x && !s.vdt.takeovers.any (fun t => t.2.1.contains x) &&
    (decide (x.code ≤ 4) || !s.leadsSpan x))
  if new = [] ∧ ¬ cwy ∧ cause ≠ 3 then s
  else { s with vdt := { s.vdt with takeovers := s.vdt.takeovers ++ [(b, new, cwy, cause)] } }

/-- RELINQUISH_FRAME (R282): the spans the twin gives up are taken over at the boundary that ends the first tick whose Φ2
starts after the frame's receipt. -/
def execRelinquishFrame (l0 l1 : Option (List Byte)) (ofs : Nat) (s0 : State) : Host.Outcome State Fault Refusal :=
  let s := s0.at ofs
  let (f?, a, b) := s.laneFrame 2 (fun _ => true) l0 l1
  let s := s.gotLanes a b
  match f? with
  | none => .next s
  | some f =>
    if s.vdt.pair = 2 then
      let b := if s.tk.phi0Done && s.tk.phi1Done then s.tk.count + 2 else s.tk.count + 1
      .next (s.scheduleTakeover b (fSpans f 18) (!s.vdt.cwyLead) 1)
    else .next s

/-! ### The twin's frame at the end of Φ0 (R270, R283, R285, R287) -/

/-- POS of a standby span in the owner's frame against this deck's own (R287). -/
def State.judgePosition (s : State) (f : List Byte) (m : Nat) : State :=
  let x := aSp m
  if s.fitted x && !s.leadsSpan x && (fSpans f 16).contains x then
    let d := s1s f x 2 - (s.hallS m).posPrev
    let last := Store.get (fun _ => none) s.vdt.delta m
    let t := { s with vdt := { s.vdt with delta := Store.put (fun _ => none) s.vdt.delta m (some d) } }
    match last with
    | some o => if (fld (s.reg 0x31020) 0 16 : Int) < absI (d - o) then
        ({ t with vdt := { t.vdt with posDiff := true, noHome := addSet m t.vdt.noHome } }).e086 10 else t
    | none => t
  else s

/-- Spans that both decks lead (R285): E087, and role B gives them up with cause 11; a doubled Causeway lead ends alike. The twin's
frame is held to what this deck's own frame of the same tick showed, so that a planned change of leads is no conflict. -/
def State.judgeOverlap (s : State) (f : List Byte) : State :=
  let g := s.vdt.sent
  let same := decide (fTick g = fTick f) && decide (fw g 3 1 = 1)
  let both := (fSpans f 16).filter (fun x => s.leadsSpan x && (!same || (fSpans g 16).contains x))
  let cw := fFlag f 5 && s.vdt.cwyLead && (!same || fFlag g 5)
  if both = [] ∧ ¬ cw then s
  else
    let t := ({ s with vdt := { s.vdt with overlap := true } }).raise 87 s.deckAddr 0 (spanMask both) (b2n cw)
    if s.roleBit = 0 then t
    else { t with vdt := { t.vdt with cwyLead := t.vdt.cwyLead && !cw, giveUp := t.vdt.giveUp ++ both.map (fun x => (x, 11)) } }

/-- The warnings of R276: ω of the traction spans, carriers, staged descriptors, each against this deck's own frame of the
same tick. -/
def State.judgeWarnings (s : State) (f : List Byte) : State :=
  let g := s.vdt.sent
  if g.length ≠ f.length ∨ fTick g ≠ fTick f then s
  else
    let tol := sig (s.reg 0x3101C)
    let w := fun (b : List Byte) (t : Nat) => fws b (s.s4At + 24 * t + 8)
    let sp := (List.range 2).any (fun t => s.fitted (if t = 0 then Span.t0 else .t1) && decide (tol < absI (w f t - w g t)))
    let run := if sp then min (s.vdt.spdRun + 1) 17 else 0
    let at5 := s.s4At + 48
    let car := Span.all.any (fun x => s.fitted x &&
      (decide (fw f (at5 + 8 * x.code) 2 ≠ fw g (at5 + 8 * x.code) 2) ||
       decide (fw f (at5 + 8 * x.code + 4) 4 ≠ fw g (at5 + 8 * x.code + 4) 4)))
    let crun := if car then min (s.vdt.carRun + 1) 4 else 0
    let at6 := at5 + 72
    let stg := decide (fw f (at6 + 8) 4 ≠ fw g (at6 + 8) 4)
    let v := s.vdt
    let t := { s with vdt := { v with
      spdRun := run, carRun := crun, speed := v.speed || decide (run = 16), carrier := v.carrier || decide (crun = 3),
      staging := v.staging || stg } }
    let t := if run = 16 then t.e086 7 else t
    let t := if crun = 3 then t.e086 8 else t
    if stg then t.e086 9 else t

/-- The twin's digest of tick k − 1 against this deck's own (R280). -/
def State.judgeDigest (s : State) (f : List Byte) : State :=
  if fFlag f 3 && decide (fw f (s.frameLen - 12) 8 ≠ s.vdt.digest.toNat) then
    ({ s with vdt := { s.vdt with
        diverge := true, divergeCount := satInc s.vdt.divergeCount max32, adopt := some (fTick f + 2) } }).raise 85 s.deckAddr 0 0 0
  else s

/-- A Completion from the bytes of an S7 entry; none for an unused one. -/
def completionAt (f : List Byte) (o : Nat) : Option Completion :=
  let st := [Status.success, .tooLate, .aborted, .timeout, .invalidAddress, .invalidParameter, .unknownOpcode, .descriptorCrc, .sequence,
    .horizon, .hostLost, .faultLine, .spanActive, .spanUnavailable, .causeActive, .busy, .notOwner, .linkAbsent, .supplyAbsent,
    .pairImplausible, .positionInvalid, .tableInvalid, .senseFault, .outOfRange, .notReady, .pilotInvalid, .cableInvalid, .gridPresent,
    .notHomed, .tripActive, .wrongState, .boundaryFull].find? (fun q => decide (q.code = fw f (o + 20) 2))
  let m := fw f (o + 22) 1
  match st with
  | some q => if fw f (o + 16) 2 = 0 then none else
      some { tag := fw f o 4, seq := fw f (o + 4) 4, dseq := fw f (o + 4) 4, applied := fw f (o + 8) 8, opcode := fw f (o + 16) 2,
             addr := BitVec.ofNat 16 (fw f (o + 18) 2), status := q, late := m.testBit 0, clip := m.testBit 1,
             superseded := m.testBit 2, lateCause := m / 16, result := fw f (o + 24) 8 }
  | none => none

/-- Completions of the twin's standby spans (S7), and the slots it has posted (R292): what this deck would write in its
place is kept up to date, and what is posted is no longer open; an abort may still name it (R335 row 3). -/
def State.judgeCompletions (s : State) (f : List Byte) : State :=
  let posted := fw f (s.s4At + 136) 4
  let s7 := (List.range 8).filterMap (fun i => completionAt f (s.s4At + 152 + 32 * i))
  let behind := fun (k : Nat) => decide (0 < idxSub posted k) && decide (idxSub posted k < 2 ^ 31)
  let kept := s.vdt.twinDue.filter (fun c => !behind c.seq && !s7.any (fun d => decide (d.seq = c.seq)))
  let tags := (s.vdt.twinDue.filter (fun c => behind c.seq)).map Completion.doneTag ++
    (s.vdt.openA.filter (fun d => behind d.seq)).map (fun d => (completionOf s d .success 0 0).doneTag)
  { s with
    vdt := { s.vdt with twinDue := kept ++ s7.filter (fun d => !behind d.seq), openA := s.vdt.openA.filter (fun d => !behind d.seq) }
    cwy := { s.cwy with doneTags := (tags ++ s.cwy.doneTags).take s.cmdEntries } }

/-- The spans that the frame's RELQ names (R281, R282): they are taken over at boundary k + 2, with the Causeway lead where the twin
has then given up everything that it led and every half that it drove. -/
def State.judgeRelq (s : State) (f : List Byte) : State :=
  let xs := fSpans f 18
  if xs = [] then s
  else
    let out := s.vdt.twinOut ++ xs.filter (fun x => !s.vdt.twinOut.contains x)
    let gone := (fSpans f 16).all xs.contains && Span.all.all (fun x => !s.fitted x || decide (5 ≤ x.code) || out.contains x)
    ({ s with vdt := { s.vdt with twinOut := out } }).scheduleTakeover (fTick f + 2) xs (gone && !s.vdt.cwyLead) 2

/-- A valid frame of the tick before is the input of the tick (R268, R270). -/
def State.useFrame (s : State) (f : List Byte) : State :=
  let late := fFlag f 1
  let t := { s with vdt := { s.vdt with
    frame := f, frameNew := none, held := true, rxTick := fTick f, missRun := 0,
    late := s.vdt.late || late, lateCount := if late then satInc s.vdt.lateCount max32 else s.vdt.lateCount } }
  let t := (List.range 4).foldl (fun (t : State) m => t.judgePosition f m) t
  let t := (t.judgeOverlap f).judgeCompletions f
  let t := if s.vdt.pair = 2 then (t.judgeWarnings f).judgeDigest f else t
  let t := if fFlag f 4 then t.raise 84 s.deckAddr 2 0 (fTick f) else t
  if s.vdt.pair = 4 then t else t.judgeRelq f

/-- A tick without a valid frame (R270); three in a row are silence (R283). A handshake frame of the tick before is a valid frame
too: in tick S no mirror frame is due yet. -/
def State.missFrame (s : State) : State :=
  let v := { s.vdt with held := false, frameNew := none }
  if s.vdt.rxTick + 1 = s.tk.count then { s with vdt := { v with missRun := 0 } }
  else
    let run := min (v.missRun + 1) max32
    let t := ({ s with vdt := { v with miss := true, missRun := run, missCount := satInc v.missCount max32 } }).raise 81 s.deckAddr 0 run 0
    if decide (run = 3) && decide (v.pair = 2) then
      t.scheduleTakeover (s.tk.count + 1) (Span.all.filter (fun x => !s.leadsSpan x)) (!v.cwyLead) 3
    else t

/-- The twin at T0END (R268 to R271, R276, R283): the lanes, the handshake of a deck that pairs, and the frame of a deck that has
been paired. -/
def State.judgeFrame (s0 : State) : State :=
  let s := if s0.vdt.shakeSeen then (s0.judgeLane 0).judgeLane 1 else s0
  let s := s.shakeCount
  if !s.vdt.met then s
  else match s.vdt.frameNew with
    | some f => if fTick f + 1 = s.tk.count then s.useFrame f else s.missFrame
    | none => s.missFrame

/-- The self-check of the tie (R272): both transmitters or both receivers failing in two ticks in a row lose the tie. -/
def State.tieSelfCheck (s : State) (fails : List (Fin 4)) : State :=
  if !s.inViaduct then s
  else
    let bad := fun (k : Nat) => fails.any (fun u => decide (u.val = k))
    let lost := (bad 0 && bad 1) || (bad 2 && bad 3)
    let run := if lost then min (s.vdt.selfBad + 1) 3 else 0
    let t := { s with vdt := { s.vdt with selfTx := !(bad 0 || bad 1), selfRx := !(bad 2 || bad 3), selfBad := run } }
    if run = 2 then t.giveUpAll 7 else t

/-! ### The follower's shadow (R263, R276, R277, R280) -/

/-- The outer results of the last valid frame that this deck uses for a span: it follows, or takes over at this tick's
boundary. -/
def State.follows (s : State) (x : Span) : Bool :=
  decide (s.vdt.pair = 2) && decide (x.code ≤ 4) && !s.leadsSpan x && decide (s.vdt.frame ≠ [])

/-- One outer engine of a span the twin leads, from its shadow state and the frame's inputs (R276). -/
def State.shadowEngine (s : State) (f : List Byte) (k g : Nat) : EngS :=
  let o := s.s3At + 24 * k
  let i : EngIn := { r := fws f o, y := fws f (o + 4), f := fws f (o + 8), t := fws f (o + 12) }
  let l := s.engLimits g (fws f (o + 16)) (fws f (o + 20))
  let c := s.coef g
  let n := (s.rejS g).landed
  let x := s.cur.engS g
  match (EngS.ofWords x ((s.s2Words f g).getD [])).mode with
  | .run => engRun n c x i l.1 l.2
  | .track => engTrack n c x i l.1 l.2
  | .idle => engIdle n c x l.1 l.2

/-- T_V as the ramp of R170 gives it from the follower's own shadow and S1 words 3 to 5 of the frame (R276). -/
def State.shadowTorque (s : State) (f : List Byte) (t : Trac) : Int :=
  let x := Span.ofTrac t
  let st := s1 f x 0 % 8
  let lead := fun (v : Int) =>
    let d : Int := 65536 - (s.share x : Int)
    if s.share x = 65536 ∨ d = 0 then v else rheQ (v * 65536) d
  if st = 2 ∨ st = 3 then (rampTorque (s1s f x 3) (s.cur.trac t).tv (lead (s1s f x 4)) (lead (s1s f x 5)) (s.tn t 0x68)).1
  else if st = 1 then (rampTorque 0 (s.cur.trac t).tv (lead (s1s f x 4)) (lead (s1s f x 5)) (s.tn t 0x68)).1
  else 0

/-- A mismatch of the tick on a span (R277): E084 names the span, the engine and the tick. -/
def State.shadowMismatch (s : State) (x : Span) (g : Nat) (n : Tick) : State :=
  ({ s with vdt := { s.vdt with
    shdMm := true, mmNow := true, shadowCount := satInc s.vdt.shadowCount max32,
    mmTicks := Store.put (fun _ => []) s.vdt.mmTicks x.code
      (addSet s.tk.count ((Store.get (fun _ => []) s.vdt.mmTicks x.code).filter (fun m => decide (s.tk.count < m + 1024)))) } }).raise
    84 (s.spanAddr x) 1 g n

/-- A follower that keeps finding mismatches on a span gives its half up with cause 9 (R277). -/
def State.shadowVerdict (s : State) (x : Span) : State :=
  let l := Store.get (fun _ => []) s.vdt.mmTicks x.code
  let n := s.tk.count
  let three := l.contains n && l.contains (n - 1) && l.contains (n - 2) && decide (2 ≤ n)
  if (three || decide (8 ≤ l.length)) && l.contains n && !s.vdt.out.contains x then
    { s with vdt := { s.vdt with giveUp := s.vdt.giveUp ++ [(x, 9)], mmTicks := Store.put (fun _ => []) s.vdt.mmTicks x.code [] } }
  else s

/-- The outer engines that the follower shadows in a tick, in the order of VDT_OUTER: span, engine, the state it computes, the
state of the lead's S2 words (R276). -/
def State.shadowed (s : State) (f : List Byte) : List (Span × Nat × EngS × EngS) :=
  (s.outerEng.zip (List.range 8)).filterMap (fun q => match Span.ofCode? (s.engSpan q.1) with
    | some x => if decide (x.code ≤ 4) && (fSpans f 16).contains x && !s.leadsSpan x
        then some (x, q.1, s.shadowEngine f q.2 q.1, EngS.ofWords (s.cur.engS q.1) ((s.s2Words f q.1).getD [])) else none
    | none => none)

/-- The shared quantities that differ from S1 word 2 (R276), each with engine number 127: T_V of the traction spans; of C and of
Q in EXPORT_IS the output of the outer engine; of Q otherwise p_tgt. -/
def State.shadowShared (s : State) (f : List Byte) (es : List (Span × Nat × EngS × EngS)) : List Span :=
  let half := fun (x : Span) => s.follows x && s.fitted x && !s.vdt.out.contains x
  let u := fun (g : Nat) => (es.find? (fun q => decide (q.2.1 = g))).map (fun q => q.2.2.1.u)
  let no := fun (x : Span) (v : Option Int) => match v with | some k => half x && decide (k ≠ s1s f x 2) | none => false
  (if no .t0 (some (s.shadowTorque f 0)) then [.t0] else []) ++ (if no .t1 (some (s.shadowTorque f 1)) then [.t1] else []) ++
  (if no .c (u (s.cRole 0)) then [.c] else []) ++
  (if no .q (if s1 f .q 0 % 8 = 4 then u (s.qRole 6) else some s.cur.qs.pTgt) then [.q] else [])

/-- The shadow of the tick: with a valid frame the outer engines of the spans the twin leads are computed and compared. Where
every compared value is equal the results are the shadow states; where one differs, and where R267 or R280 says so, the lead's
S2 words are (R276, R277). The second part is the controlled state in which the lead's engines stand as the shadow has them. -/
def State.shadow (s0 : State) : State × Ctl :=
  let s := { s0 with vdt := { s0.vdt with mmNow := false } }
  if !(decide (s.vdt.pair = 2) && s.vdt.held) then (s, s.cur)
  else
    let f := s.vdt.frame
    let adopt := decide (s.vdt.adopt = some s.tk.count)
    let es := s.shadowed f
    let bad := if adopt then [] else
      (es.filter (fun q => decide (q.2.2.1.u ≠ q.2.2.2.u))).map (fun q => (q.1, q.2.1)) ++
        (s.shadowShared f es).map (fun x => (x, 127))
    let given := adopt || !bad.isEmpty
    let c := es.foldl (fun (c : Ctl) q => c.putEng q.2.1 (if given then q.2.2.2 else q.2.2.1)) s.cur
    let t := bad.foldl (fun (t : State) b => t.shadowMismatch b.1 b.2 (fTick f)) s
    let t := [Span.t0, .t1, .c, .q].foldl State.shadowVerdict t
    ({ t with vdt := { t.vdt with adopt := if adopt then none else t.vdt.adopt } }, c)

/-- How the outer torque enters a traction span's compute (R263, R282): a deck that leads from the next boundary on computes as
lead, from the shadow. -/
def State.outerOf (s : State) (t : Trac) : Outer :=
  let x := Span.ofTrac t
  let v := s1s s.vdt.frame x 2
  if !s.inViaduct then .single
  else if s.follows x then (if s.gaining x then .lead v v (s.tk.count - s.vdt.rxTick) else .follow v)
  else .lead (s.cur.trac t).tv (s.cur.trac t).tv 1

/-- The battery current demand that C applies, and whether a follower's own limits clamp it (Table 12-1, R264). -/
def State.cDemand (s : State) : Int × Option Bool :=
  if !s.inViaduct then (s.cur.cs.idem, none)
  else if s.follows .c then
    let v := s.shared .c (s1s s.vdt.frame .c 2)
    let h := s.stage.cs.held
    let w := clampI v (-(s.cLimit 0x28 h)) (s.cLimit 0x2C h)
    (w, some (decide (w ≠ v)))
  else (s.shared .c (s.roleOut s.cur (s.cRole 0)), none)

/-- id*, iq* of the lead in EXPORT_IS (Table 12-1). -/
def State.qOuter (s : State) : Option (Int × Int) :=
  if s.follows .q then some (s1s s.vdt.frame .q 2, s1s s.vdt.frame .q 3) else none

/-- p_tgt as it is applied (Table 12-1): of the command on a single deck; in a viaduct the lead's of the tick before. -/
def State.qShared (s : State) : Int :=
  if !s.inViaduct then s.stage.qs.pTgt
  else if s.follows .q && !s.gaining .q && decide (s1 s.vdt.frame .q 0 % 8 ≠ 4) then s1s s.vdt.frame .q 2
  else s.cur.qs.pTgt

/-- What a follower takes from the frame before its compute: θg in EXPORT_IS; v_ref where it takes C over (R282). -/
def State.followInputs (s : State) : State :=
  let f := s.vdt.frame
  let c := s.stage
  let c := if s.follows .q && decide (c.qs.st = .exportIs) then { c with qs := { c.qs with thg := s1 f .q 5 } } else c
  let c := if s.follows .c && s.gaining .c then
      let k : Int := (s.tk.count - s.vdt.rxTick - 1 : Nat)
      let v := s1s f .c 3
      { c with cs := { c.cs with vref := v + clampI (c.cs.vtgt - v) (-(k * s.cn 0x24)) (k * s.cn 0x24) } }
    else c
  s.withStage c

/-- The outer engines of the spans that the twin leads are left to the shadow (R263). -/
def State.ownEngines (s : State) (p : SpanPost) : SpanPost :=
  let outer := s.outerEng
  { p with eng := p.eng.filter (fun q => !outer.contains q.1 ||
      (match Span.ofCode? (s.engSpan q.1) with | some x => !s.follows x || s.gaining x | none => true)) }

/-! ### The copy of a standby span (R243, R270, R282, R287) -/

/-- Table 10-1 state of a code. -/
def AMode.ofCode (k : Nat) : AMode :=
  if k = 0 then .disabled else if k = 1 then .standby else if k = 2 then .hold else if k = 3 then .shifting
  else if k = 4 then .current else if k = 5 then .homing else if k = 6 then .park else .safe
/-- Outcome of a code. -/
def ShiftOut.ofCode (k : Nat) : ShiftOut :=
  if k = 1 then .done else if k = 2 then .aborted else if k = 3 then .timeout else if k = 4 then .safe else .running

/-- The descriptor of the shift or home that the owner's frame shows running: among those left to the twin (R287). -/
def State.copiedCmd (s : State) (x : Span) (tag : Nat) : Option Staged :=
  s.vdt.openA.find? (fun d => decide (dSpan d = x) && !dIsDeck d && decide (dTag d = tag) &&
    (decide (dOp d = 0x151) || decide (dOp d = 0x152) || decide (dOp d = 0x153) || decide (dOp d = 0x155)))

/-- The kind of a shift or home by its descriptor; without one it is that of a gear-step action. -/
def kindOf (d : Option Staged) : ShiftKind :=
  match d with
  | some d => if dOp d = 0x152 then .park else if dOp d = 0x153 then .release else if dOp d = 0x155 then .home else .shift
  | none => .shift

/-- The actuator as the owner's S1 words show it. Its start position is the owner's POS of the first frame that shows the shift
(R243, R287; DEDUCED, log 130). -/
def State.copied (s : State) (x : ActS) (f : List Byte) (sp : Span) (noHome : Bool) : ActS :=
  let w := fun (k : Nat) => s1 f sp k
  let b := fun (k i : Nat) => (w k).testBit i
  let st := AMode.ofCode (w 0 % 8)
  let busy := decide (st = .shifting) || decide (st = .homing)
  let cmd := if busy then s.copiedCmd sp (w 5) else none
  let out := ShiftOut.ofCode (w 6 / 524288 % 8)
  let slot := w 6 / 65536 % 8
  let kind := if busy then (if st = .homing then .home else kindOf cmd) else x.kind
  { x with
    st := st, safePat := w 0 / 8 % 4, homed := b 0 9 && !noHome, dir := b 0 11,
    peakExh := b 1 0, busLim := b 1 1, dbgLim := b 1 2, posFault := b 1 3, safeCause := w 1 / 256 % 16,
    causeSkip := b 1 12, causeInv := b 1 13, causeAna := b 1 14, target := s1s f sp 3, ilim := s1s f sp 4, tag := w 5,
    elapsed := w 6 % 65536, slot := slot, out := out, settle := w 6 / 4194304 % 256,
    peak := w 7, cmd := cmd, kind := kind,
    startPos := if busy && !(decide (x.st = st) && decide (x.tag = w 5)) then s1s f sp 2 else x.startPos,
    past := if out = .done ∧ kind ≠ .home ∧ ¬ busy then addPast (w 5) slot x.past else x.past }

/-- The engines of a standby span as the owner's S2 words have them. -/
def State.copyEngines (s : State) (x : Span) (c : Ctl) : Ctl :=
  let f := s.vdt.frame
  (s.mirrorEng.filter (fun g => decide (s.engSpan g = x.code))).foldl (fun (c : Ctl) g =>
    c.putEng g (EngS.ofWords (c.engS g) ((s.s2Words f g).getD []))) c

/-- The new owner of a standby span adopts the owner's S1 contents of the last valid frame, with its own count shifted by δ
(R282, R287). -/
def State.adopted (s : State) (m : Nat) (c : Ctl) : Ctl :=
  let x := aSp m
  let f := s.vdt.frame
  let y := if f = [] then c.actS m else s.copied (c.actS m) f x (s.vdt.noHome.contains m)
  let d := (Store.get (fun _ => none) s.vdt.delta m).getD 0
  c.putAct m { y with owner := true, posLoad := some (s.aPos m + d), posLast := y.posLast + d }

/-- A standby span that this deck owns from the boundary that ends this tick, and does not own yet. -/
def State.adopting (s : State) (m : Nat) : Bool := s.fitted (aSp m) && s.gaining (aSp m) && !(s.cur.actS m).owner

/-- The standby spans that this deck takes over at the boundary ending this tick are adopted before anything of the tick is
computed (R282, Table 12-7). -/
def State.adoptStandby (s : State) : State :=
  (List.range 4).foldl (fun (t : State) m =>
    if t.adopting m && !(t.stage.actS m).owner then t.withStage (t.adopted m t.stage) else t) s

/-- The engines that stand at the start of the compute: those of an adopted span as the last valid frame has them. -/
def State.adoptEngines (s : State) (c : Ctl) : Ctl :=
  (List.range 4).foldl (fun (c : Ctl) m => if s.adopting m && decide (s.vdt.frame ≠ []) then s.copyEngines (aSp m) c else c) c

/-- The standby spans that another deck owns take their copy from a held frame (R243, R270). -/
def State.copyStandby (s : State) : State :=
  if s.vdt.pair ≠ 2 ∨ ¬ s.vdt.held then s
  else
    (List.range 4).foldl (fun (t : State) m =>
      let x := aSp m
      if !s.fitted x || s.leadsSpan x || s.adopting m then t
      else t.withStage (s.copyEngines x (t.stage.putAct m
        { s.copied (s.stage.actS m) s.vdt.frame x (s.vdt.noHome.contains m) with owner := false }))) s

/-! ### Digest (R279) -/

/-- The digest of the replicated set for tick m, formed in Φ3 of tick m + 1 from the frames of tick m and the shadow. -/
def State.formDigest (s : State) : BitVec 64 :=
  let mine := s.vdt.sent
  let twin := s.vdt.frame
  let outer := (s.outerEng.mergeSort (fun a b => decide (a ≤ b))).flatMap (fun g =>
    let x : EngS := if s.engLed g then EngS.ofWords EngS.init ((s.s2Words mine g).getD []) else s.stage.engS g
    (List.range 6).flatMap (fun w => leBytes (x.word w) 4))
  let standby := [Span.a0, .a1, .a2, .a3].flatMap (fun x =>
    let f := if s.leadsSpan x then mine else twin
    (List.range 8).flatMap (fun k => leBytes (s1 f x k) 4) ++
    (s.mirrorEng.filter (fun g => decide (s.engSpan g = x.code))).flatMap (fun g =>
      ((s.s2Words f g).getD []).flatMap (fun w => leBytes w 4)))
  let at6 := s.s4At + 120
  crc64 (outer ++ standby ++ leBytes (fw mine at6 4) 4 ++ leBytes (fw mine (at6 + 8) 4) 4)

/-! ### Giving up and taking over at a boundary (R281, R282, R286) -/

/-- Relinquish spans at a boundary (R281): VDT_RELINQ, E082, LEADS and shares; the halves wait for a handover. -/
def State.relinquish (s : State) : State :=
  if s.vdt.giveUp = [] then s
  else
    let xs := s.vdt.giveUp.map (fun g => g.1)
    let cause := (s.vdt.giveUp.head?.map (fun g => g.2)).getD 0
    let keep := fun (l : List Span) => l.filter (fun x => !xs.contains x)
    let out := s.vdt.out ++ xs.filter (fun x => !s.vdt.out.contains x)
    let leads := keep s.vdt.leads
    let gone := leads.isEmpty && Span.all.all (fun x => !s.fitted x || decide (5 ≤ x.code) || out.contains x)
    let v := { s.vdt with
      relSpans := xs, relCause := cause, relTick := s.tk.count, leads := leads, alone := keep s.vdt.alone, out := out, giveUp := [],
      hold := if s.vdt.staleAck then s.vdt.hold else [], staleAck := false,
      pair := if gone then 4 else s.vdt.pair, paired := s.vdt.paired && !gone, cwyLead := s.vdt.cwyLead && !gone }
    let c := xs.foldl (fun (c : Ctl) x => if x.code ≤ 4 then c else c.putAct (x.code - 5) { (c.actS (x.code - 5)) with owner := false }) s.cur
    ({ s with vdt := v, cur := c, stage := c }).raise 82 s.deckAddr cause (spanMask xs) 0

/-- The completions that the twin formed and did not post become this deck's to write, for takeovers that are due (R292). -/
def State.claim (s : State) (due : List (Tick × List Span × Bool × Nat)) : State :=
  let mine := s.vdt.twinDue.filter (fun c => due.any (fun q => q.2.2.1 ||
    (match Span.ofCode? (aSpan c.addr.toNat) with | some x => q.2.1.contains x | none => false)))
  { s with
    vdt := { s.vdt with twinDue := s.vdt.twinDue.filter (fun c => !mine.contains c) }
    cwy := { s.cwy with cmplDue := s.cwy.cmplDue ++ mine } }

/-- In Φ3 of the tick that computes for the takeover boundary they are written (Table 12-7). -/
def State.claimNext (s : State) : State := s.claim (s.vdt.takeovers.filter (fun t => decide (t.1 = s.tk.count + 1)))

/-- One takeover at its boundary (R282, R283): leads and owners, share 2^16, Causeway lead, VDT_TAKEOVER, E083. -/
def State.takeOne (t : State) (q : Tick × List Span × Bool × Nat) : State :=
  let n := t.tk.count
  let xs := q.2.1
  let sh := Span.all.filter (fun x => decide (x.code ≤ 4) && t.fitted x && (xs.contains x || decide (q.2.2.2 = 3)))
  let v := t.vdt
  let leads := v.leads ++ xs.filter (fun x => !v.leads.contains x && !v.out.contains x)
  let alone := v.alone ++ sh.filter (fun x => !v.alone.contains x)
  let all := Span.all.all (fun x => !t.fitted x || (leads.contains x && (decide (5 ≤ x.code) || alone.contains x)))
  let own := fun (c : Ctl) => (List.range 4).foldl (fun (c : Ctl) m =>
    if xs.contains (aSp m) && !(c.actS m).owner then t.adopted m c else c) c
  let u := { t with cur := own t.cur, stage := own t.stage, vdt := { v with
    leads := leads, alone := alone, cwyLead := v.cwyLead || q.2.2.1, takSpans := xs, takCause := q.2.2.2, takTick := n,
    takeovers := v.takeovers.filter (fun r => decide (n < r.1)), pair := if all then 3 else v.pair, paired := v.paired && !all } }
  (u.claim [q]).raise 83 t.deckAddr q.2.2.2 (spanMask xs) (b2n q.2.2.1)

/-- Take over at a boundary (R282, R283). -/
def State.takeOver (s : State) : State :=
  (s.vdt.takeovers.filter (fun t => decide (t.1 ≤ s.tk.count))).foldl State.takeOne s

/-- Commands to standby spans that the former owner left without a completion come due again at the takeover boundary, late with
cause 3 "takeover" (R292); a shift or home that it had begun goes on (R287). -/
def State.rebindOpen (s : State) : State :=
  let n := s.tk.count
  let again := fun (d : Staged) => !dIsDeck d && decide (aVspan (dAddr d) = 1) && decide (5 ≤ aSpan (dAddr d)) &&
    s.takingOver (dSpan d) && decide (d.bound ≤ n) && !s.vdt.twinDue.any (fun c => decide (c.seq = d.seq)) &&
    decide ((s.stage.actS (aSpan (dAddr d) - 5)).cmd.map (fun e => e.seq) ≠ some d.seq)
  let mine := s.vdt.openA.filter again
  if mine = [] then s
  else
    { s with
      vdt := { s.vdt with openA := s.vdt.openA.filter (fun d => !again d) }
      cwy := { s.cwy with staged := mine.map (fun d => { d with bound := n + 1, late := true, lateCause := 3 }) ++ s.cwy.staged } }

/-- The twin is out of service: this deck runs alone and holds no frame of it. -/
def State.twinGone (s : State) : Bool :=
  s.inViaduct && decide (s.vdt.pair = 3) && (!s.vdt.met || decide (3 ≤ s.vdt.missRun))

/-- The commands that name a twin that is out of service complete with span-unavailable, written by the survivor (R12, R250, R292;
DESIGN CHOICE of the status, log 131). From a restart of the twin on they are left to the restarted deck (R359). -/
def State.closeOpen (s : State) : State :=
  if !(s.twinGone && s.vdt.cwyLead) then s
  else
    let alone := fun (d : Staged) => dIsDeck d || decide (aVspan (dAddr d) = 0)
    let mine := (s.vdt.openA.takeWhile (fun d => decide (dOp d ≠ 2))).filter alone
    { s with
      vdt := { s.vdt with openA := s.vdt.openA.filter (fun d => !mine.contains d) }
      cwy := { s.cwy with cmplDue := s.cwy.cmplDue ++ mine.map (fun d => completionOf s d .spanUnavailable 0 (max d.bound s.tk.count)) } }

/-- A half that was out takes up the lead's state of the last frame (R267, R286). -/
def State.rejoined (s : State) (x : Span) (c : Ctl) : Ctl :=
  let f := s.vdt.frame
  let code := s1 f x 0 % 8
  if !s.vdt.out.contains x ∨ f = [] then c
  else
    let tm := fun (k : Nat) => if k = 1 then TracMode.standby else if k = 2 then .torque else if k = 3 then .speed else .disabled
    let tr := fun (y : TracS) => if y.st = .disabled ∨ y.st = .safe then y
      else { y with st := tm code, target := s1s f x 3, tv := s1s f x 2, tq := 0 }
    match x with
    | .t0 => { c with tr0 := tr c.tr0 }
    | .t1 => { c with tr1 := tr c.tr1 }
    | .c => if c.cs.st = .disabled ∨ c.cs.st = .safe ∨ 5 ≤ code then c
            else { c with cs := { c.cs with st := CMode.ofCode code, vref := s1s f .c 3, vtgt := s1s f .c 6 } }
    | .q => if c.qs.st = .disabled ∨ c.qs.st = .safe ∨ 5 ≤ code then c
            else { c with qs := { c.qs with st := QMode.ofCode code, thg := s1 f .q 5,
                                            pTgt := if code = 4 then c.qs.pTgt else s1s f .q 2 } }
    | _ => c

/-- What a handover changes in the controlled state (R286): the old owner of a standby span lets go, the new one adopts it; a half
that was out runs again. -/
def State.handedOver (s : State) (x : Span) (c : Ctl) : Ctl :=
  if x.code ≤ 4 then s.rejoined x c
  else
    let m := x.code - 5
    if s.leadsSpan x then c.putAct m { c.actS m with owner := false } else s.adopted m c

/-- HANDOVER in the compute of the tick before its boundary: the sets for the boundary are those of the new lead or owner, at the
shares of the image (R286). -/
def State.stageHandover (s : State) (x : Option Span) : State :=
  match x with
  | none => s
  | some x => s.withStage { s.handedOver x s.stage with handing := addSet x s.stage.handing }

/-- HANDOVER at its boundary on this deck (R286): a span, or with none the Causeway lead, moves to the twin; E083 with
cause 4 on the deck that receives it, which writes the completions of what it applied to a standby span at that boundary. -/
def State.handover (s : State) (x : Option Span) : State :=
  if s.vdt.pair ≠ 2 then s
  else match x with
  | none =>
    let t := { s with vdt := { s.vdt with cwyLead := !s.vdt.cwyLead } }
    if s.vdt.cwyLead then t
    else ({ t with vdt := { t.vdt with takSpans := [], takCause := 4, takTick := s.tk.count } }).raise 83 s.deckAddr 4 0 1
  | some x =>
    let v := s.vdt
    let had := s.leadsSpan x
    let not := fun (l : List Span) => l.filter (fun y => decide (y ≠ x))
    let mine := if had || decide (x.code ≤ 4) then [] else
      v.twinDue.filter (fun c => decide (Span.ofCode? (aSpan c.addr.toNat) = some x) && decide (c.applied = s.tk.count))
    let t := { s with
      vdt := { v with leads := if had then not v.leads else v.leads ++ [x], alone := not v.alone, out := not v.out,
                      twinOut := not v.twinOut, twinDue := v.twinDue.filter (fun c => !mine.contains c) }
      cwy := { s.cwy with cmplDue := s.cwy.cmplDue ++ mine } }
    if had then t
    else ({ t with vdt := { t.vdt with takSpans := [x], takCause := 4, takTick := s.tk.count } }).raise 83 (s.spanAddr x) 4 (spanMask [x]) 0

end Sys2Proof.Machine
end

