-- ==== Sys2Proof/Machine/Landing.lean ====
section
/-! DEFINITION. The landing of tick-latched registers at a boundary (R51, R52): the sets of which they are part, and what a set that is not valid leaves (R89, R102, R104, R178, R200, R225, R245). -/
namespace Sys2Proof.Machine

/-- A set of tick-latched registers that lands as a whole. -/
inductive TlSet where
  /-- WIN_HI, WIN_LO and WIN_HYST of an input (R89). -/
  | window (i : Nat)
  /-- The coefficient set of an engine (R102). -/
  | coef (g : Nat)
  /-- UMAX and UMIN of an engine (R104). -/
  | limit (g : Nat)
  /-- A register by itself. -/
  | one (off : Nat)
  deriving DecidableEq, Repr

/-- The set of a tick-latched register. -/
def tlSetOf (off : Nat) : TlSet :=
  match regPlace off with
  | some (.inp, i, _) => .window i
  | some (.gdr, g, r) => if r = 0x2C ∨ r = 0x30 then .limit g else if r = 0x0C then .one off else .coef g
  | _ => .one off

/-- The registers of a set. -/
def TlSet.offsets : TlSet → List Nat
  | .window i => [inpBase i + 0x0C, inpBase i + 0x10, inpBase i + 0x14]
  | .coef g => coefOffsets g
  | .limit g => limitOffsets g
  | .one off => [off]

/-- The registers of a set hold valid values. -/
def State.setValid (s : State) : TlSet → Bool
  | .window i =>
    let hy : Int := fld (s.reg (inpBase i + 0x14)) 0 31
    decide (sig (s.reg (inpBase i + 0x10)) + hy ≤ sig (s.reg (inpBase i + 0x0C)) - hy)
  | .coef g => (s.coef g).valid
  | .limit g => decide (sig (s.reg (engBase g + 0x30)) ≤ sig (s.reg (engBase g + 0x2C)))
  | .one off => match regPlace off with | some p => s.encodingOk p (s.reg off) | none => true

/-- Write a list of registers. -/
def State.setRegs (s : State) (ws : List (Nat × Word)) : State := ws.foldl (fun t w => t.setReg w.1 w.2) s

/-- What a valid set that landed leaves beside its registers: a window set clears WIN_REJECT, a coefficient set asks for
rebase. -/
def State.setLanded (s : State) : TlSet → State
  | .window i => s.updInp i (fun x => { x with winReject := false })
  | .coef g => s.updRej g (fun x => { x with landed := x.landed + 1 })
  | _ => s

/-- The part that an event of a refused register names: its span, or the whole deck. -/
def State.regAddr (s : State) (off : Nat) : AddrWord :=
  match Span.all.find? (fun x => decide (spanBase x ≤ off) && decide (off < spanBase x + (if x.code < 5 then 0x1000 else 0x800))) with
  | some x => s.spanAddr x
  | none => s.deckAddr

/-- A set that is not valid: the previous set stays, and the refusal is shown as its rule lays down. E049 cause 2 is
"rejected". The event of an engine has the whole deck's address, and the engine as its value (DESIGN CHOICE, log 121). -/
def State.setRefused (s : State) : TlSet → State
  | .window i => s.updInp i (fun x => { x with winReject := true })
  | .coef g => (s.updRej g (fun x => { x with coefReject := true, coefCount := satInc x.coefCount max16 })).raise 48 s.deckAddr 0 g 0
  | .limit g => (s.updRej g (fun x => { x with limReject := true, limCount := satInc x.limCount max16 })).raise 49 s.deckAddr 2 g 0
  | .one off => s.raise 49 (s.regAddr off) 2 off 0

/-- The writes to one set land together. -/
def State.landSet (s : State) (k : TlSet) (ws : List (Nat × Word)) : State :=
  let t := s.setRegs ws
  if t.setValid k then t.setLanded k else s.setRefused k

/-- The sets named by a list of writes, each once, in the order of their first write. -/
def tlSetsOf (ws : List (Nat × Word)) : List TlSet :=
  ws.foldl (fun l w => if tlSetOf w.1 ∈ l then l else l ++ [tlSetOf w.1]) []

/-- Writes land set by set. -/
def State.landWrites (s : State) (ws : List (Nat × Word)) : State :=
  (tlSetsOf ws).foldl (fun t k => t.landSet k (ws.filter (fun w => decide (tlSetOf w.1 = k)))) s

/-- The writes held for a boundary. -/
def State.dueWrites (s : State) (n : Tick) : List (Nat × Word) :=
  (s.tk.held.filter (fun h => decide (h.lands ≤ n))).map (fun h => (h.off, h.value))

/-- The writes due at boundary n land (R51 step 1, R52). -/
def State.landTl (s : State) (n : Tick) : State :=
  let ws := s.dueWrites n
  if ws = [] then s
  else
    let t := s.landWrites ws
    { t with tk := { t.tk with held := t.tk.held.filter (fun h => decide (n < h.lands)), tlLast := n } }

/-- Writes of a command override register writes that land at the same boundary, which are counted (R51). -/
def State.overrideTl (s : State) (landed : List (Nat × Word)) (offs : List Nat) : State :=
  let k := (landed.filter (fun w => offs.contains w.1)).length
  { s with tk := { s.tk with tlOverride := satAdd s.tk.tlOverride k max32 } }

end Sys2Proof.Machine
end

