-- ==== Sys2Proof/Machine/Launch.lean ====
section
/-! DEFINITION. The launch table (chapter 13): entries and their checks, the choice of the actions of a boundary, and what a boundary keeps of them. The actions on spans are applied in Commands.lean. -/
namespace Sys2Proof.Machine

/-! ### Entries (Tables 13-5, 13-6) -/

/-- Bytes lo to lo+n−1 of an entry. -/
def eb (b : BitVec 256) (lo n : Nat) : Nat := (b.toNat >>> (8 * lo)) % 2 ^ (8 * n)
/-- INSTANT. -/
def eInst (b : BitVec 256) : Nat := eb b 0 8
/-- ADDR. -/
def eAddr (b : BitVec 256) : Nat := eb b 8 2
/-- ACTION. -/
def eAct (b : BitVec 256) : Nat := eb b 10 1
/-- TAG. -/
def eTag (b : BitVec 256) : Nat := eb b 12 4
/-- PERIOD_US. -/
def ePer (b : BitVec 256) : Nat := eb b 28 4
/-- A signed word of PARAM. -/
def eS (b : BitVec 256) (lo : Nat) : Int := (BitVec.ofNat 32 (eb b lo 4)).toInt
/-- ADDR names the whole deck. -/
def eDeck (b : BitVec 256) : Bool := decide (aSpan (eAddr b) = 15)

/-- The state codes that MODE accepts for a span and the values that go with them (Table 15-4). -/
def State.modeOk (s : State) (x : Span) (code : Nat) (v v2 : Int) : Bool :=
  match x with
  | .t0 => decide (code ≤ 3) && (decide (2 ≤ code) || decide (v = 0)) && decide (v2 = 0)
  | .t1 => decide (code ≤ 3) && (decide (2 ≤ code) || decide (v = 0)) && decide (v2 = 0)
  | .c =>
    decide (code ≤ 5) && decide (v2 = 0) &&
    (if code = 2 ∨ code = 3 then decide (s.cn 0x30 ≤ v) && decide (v ≤ s.cn 0x34) else decide (code = 4) || decide (v = 0))
  | .q =>
    decide (code ≤ 4) &&
    (if code = 2 then decide (0 ≤ v) else if code = 3 then decide (v ≤ 0) else decide (v = 0) && decide (v2 = 0))
  | _ => decide (code ≤ 1) && decide (v = 0) && decide (v2 = 0)

/-- ADDR is one that the action takes (Table 13-6, R312): an action of VSPAN 0 names a part of this deck. -/
def State.entryAddrOk (s : State) (b : BitVec 256) : Bool :=
  let a := eAddr b
  let own := decide (aVspan a = 1) || decide (Sys2Proof.Machine.aRole a * 0x8000 = s.roleBit)
  let deck := decide (aSpan a = 15)
  let whole := classOk .span a
  let sp := aSpan a
  addrValid s.inViaduct a && own && (whole || deck) &&
  match eAct b with
  | 1 => decide (aVspan a = 0)
  | 2 => decide (aVspan a = 0)
  | 3 => deck || decide (sp ≤ 1)
  | 4 => deck
  | 5 => !deck && decide (5 ≤ sp)
  | 6 => !deck
  | 7 => !deck && decide (sp = 2)
  | _ => false

/-- PARAM of an entry (Table 13-6): its values, and 0 elsewhere. -/
def State.entryParamOk (s : State) (b : BitVec 256) : Bool :=
  let zero := fun (lo n : Nat) => decide (eb b lo n = 0)
  match eAct b with
  | 1 => zero 16 12
  | 2 => zero 16 12
  | 3 => decide (eb b 16 4 ≤ 2 ^ 24) && decide (1 ≤ eb b 20 2) && zero 22 6
  | 4 => zero 20 8
  | 5 => decide (eb b 16 1 ≤ 7) && zero 17 11
  | 6 => zero 17 3 && s.modeOk ((Span.ofCode? (aSpan (eAddr b))).getD .t0) (eb b 16 1) (eS b 20) (eS b 24)
  | 7 => decide (eb b 16 1 = 0 ∨ (2 ≤ eb b 16 1 ∧ eb b 16 1 ≤ s.cPhases)) && zero 17 11
  | _ => false

/-- P in ns. -/
def State.pns (s : State) : Nat := s.period * 25
/-- The tick of the first execution of an entry. -/
def State.entryFirst (s : State) (b : BitVec 256) : Tick := eInst b / s.pns
/-- PERIOD_US in ticks. -/
def State.entryPeriod (s : State) (b : BitVec 256) : Nat := ePer b * 1000 / s.pns

/-- An entry is valid (R306). -/
def State.entryOk (s : State) (b : BitVec 256) : Bool :=
  s.entryAddrOk b && s.entryParamOk b && decide (eb b 11 1 ≤ 1) && decide (eInst b % s.pns = 0) &&
  decide (ePer b * 1000 % s.pns = 0) && (decide (ePer b = 0) || decide (eAct b = 2) || decide (eAct b = 4))

/-- Armed entries whose next execution falls at a boundary, other than that of a slot (R309). -/
def State.armedAt (s : State) (slot : Nat) (n : Tick) : Nat :=
  (s.pyl.lt.filter (fun e => decide (e.1 ≠ slot) && decide (e.2.st = 1) && decide (e.2.next = n))).length

/-- The checks of LT_WRITE at boundary e (R306, R309). -/
def State.ltCheck (s : State) (slot : Nat) (b : BitVec 256) (e : Tick) : Option Status :=
  if !s.entryOk b then some .invalidParameter
  else if s.entryFirst b ≤ e then some .tooLate
  else if 16 ≤ s.armedAt slot (s.entryFirst b) then some .boundaryFull
  else none

/-- The slot of an entry that a command or the image arms; FLAGS.IMG is the deck's (Table 13-5). -/
def armedSlot (b : BitVec 256) (img : Bool) (first : Tick) : LtSlot :=
  { bytes := (b &&& ~~~(1#256 <<< 88)) ||| (if img then 1#256 <<< 88 else 0#256), st := 1, img := img, next := first, outcome := 0, last := 0 }

/-- Put a slot. -/
def State.putSlot (s : State) (k : Nat) (x : LtSlot) : State :=
  { s with pyl := { s.pyl with lt := Store.put (fun _ => LtSlot.empty) s.pyl.lt k x } }

/-- The image's entries at deck ready (R307): the first boundary after d whose instant has the entry's phase. -/
def State.armImage (s : State) (d : Tick) : State :=
  s.image.lt.foldl (fun t e =>
    let p := max 1 (t.entryPeriod e.2)
    let ph := t.entryFirst e.2 % p
    let k := (d + 1 + p - ph + p - 1) / p
    t.putSlot (240 + e.1) (armedSlot e.2 true (ph + (k - 1) * p))) s

/-! ### The actions of a boundary (R308 to R310) -/

/-- The actions due at boundary n: those put off by an overrun, those deferred, then the boundary's own in ascending slot
order. -/
def State.ltDue (s : State) (n : Tick) : List LtDue :=
  let late := s.pyl.due.filter (fun d => decide (d.why = 3))
  let def' := s.pyl.due.filter (fun d => decide (d.why ≠ 3))
  let own := (s.pyl.lt.filter (fun e => decide (e.2.st = 1) && decide (e.2.next = n))).map
    (fun e => ({ slot := e.1, bytes := e.2.bytes, own := n, why := 0 } : LtDue))
  late ++ def' ++ own

/-- The actions that execute at boundary n: at most 16. -/
def State.ltNow (s : State) (n : Tick) : List LtDue := (s.ltDue n).take 16
/-- The actions beyond the sixteenth. -/
def State.ltLater (s : State) (n : Tick) : List LtDue := ((s.ltDue n).drop 16).map (fun d => { d with why := 4 })

/-- Keep the execution of an action in its slot (R308): a one-shot entry is done, a periodic one stays armed for its next
instant. A slot that holds another entry by now keeps it. -/
def State.ltDone (s : State) (d : LtDue) (outcome : Nat) (b : Tick) : State :=
  let x := s.pyl.slotAt d.slot
  let s := { s with pyl := { s.pyl with ltExec := satInc s.pyl.ltExec max16 } }
  if x.bytes ≠ d.bytes ∨ x.st = 0 then s
  else s.putSlot d.slot { x with
    st := if ePer d.bytes = 0 then 2 else x.st, outcome := outcome, last := b % 65536 }

/-- The next instant of the periodic entries due at boundary n. -/
def State.ltAdvance (s : State) (n : Tick) : State :=
  { s with pyl := { s.pyl with lt := s.pyl.lt.map (fun e =>
      if e.2.st = 1 ∧ e.2.next = n ∧ ePer e.2.bytes ≠ 0 then (e.1, { e.2 with next := n + max 1 (s.entryPeriod e.2.bytes) }) else e) } }

/-- E076 of an execution (R311): cause the outcome (0 executed, 256 deferred, 512 late, else the status), the slot with the action
and TAG, and the span codes refused or the periods cut. -/
def State.ltEvent (s : State) (d : LtDue) (cause : Nat) (val2 : Int) : State :=
  s.raise 76 (BitVec.ofNat 16 (eAddr d.bytes)) cause ((d.slot + 256 * eAct d.bytes + 65536 * eTag d.bytes : Nat) : Int) val2

/-- The spans of an action: one, or every fitted span in code order. -/
def State.entrySpans (s : State) (b : BitVec 256) : List Span :=
  if eDeck b then Span.all.filter (fun x => s.fitted x && (decide (eAct b ≠ 3) || decide (x.code ≤ 1)))
  else match Span.ofCode? (aSpan (eAddr b)) with | some x => [x] | none => []

/-! ### Carrier realignment (R315) -/

/-- A leg is realigned at boundary b: whether its period in progress is cut. -/
def State.realignCuts (s : State) (l : Nat) (b : Tick) : Bool :=
  s.ratioMul l && decide ((s.leg l).plen ≠ 0) && decide (((b : Int) - (s.leg l).realigned) % (s.ratioK l : Int) ≠ 0)

/-- Realign a leg: n_r is b, the sync failures start again, and a period in progress at P × k ends. A new period
begins at b. -/
def State.realignLeg (s : State) (l : Nat) (b : Tick) : State :=
  s.updLeg l (fun g => { g with realigned := b, syncRun := 0 })

/-- Carrier realignment of spans at boundary b, with the number of legs whose period was cut. -/
def State.realign (s : State) (xs : List Span) (b : Tick) : State × Nat :=
  let ls := (xs.map Span.legs).flatten
  let cut := (ls.filter (fun l => s.realignCuts l b)).length
  (ls.foldl (fun t l => t.realignLeg l b) s, cut)

/-! ### The words of a census (R316) -/

/-- The registers of a bank: every register whose access type includes RO, and the partner records. -/
def State.censusWords (s : State) : Store Word :=
  let regs := (List.range 65536).foldl (fun (m : Store Word) i =>
    match regRow (4 * i) with
    | some row => if row.acc = Acc.ro ∨ row.acc = Acc.mix ∨ row.acc = Acc.lkro
        then Store.put (fun _ => 0#32) m (4 * i) (s.readReg (4 * i)) else m
    | none => m) []
  s.fp.ptn.foldl (fun (m : Store Word) p =>
    (List.range 4).foldl (fun (m : Store Word) w =>
      Store.put (fun _ => 0#32) m (0x40000 + 0x10 * p.1 + 4 * w) (wd (p.2.word w))) m) regs

end Sys2Proof.Machine
end

