-- ==== Sys2Proof/Machine/Causeway.lean ====
section
/-! DEFINITION. The rings of the Causeway and what Φ3 writes (chapter 14): completions, events and storms, telemetry, publications, the doorbell page of the deck, and the PCIe link. -/
namespace Sys2Proof.Machine

/-! ### Rings (Table 14-2, R326) -/

/-- FETCH_MAX. -/
def State.fetchMax (s : State) : Nat := fld (s.reg 0x2018) 8 9
/-- Entries of the event ring. -/
def State.evtEntries (s : State) : Nat := 2 ^ fld (s.reg 0x2030) 0 5
/-- EVT_BURST. -/
def State.evtBurst (s : State) : Nat := fld (s.reg 0x2030) 8 8
/-- PROT_RSV. -/
def State.protRsv (s : State) : Nat := fld (s.reg 0x2030) 16 16
/-- Entries of the telemetry ring. -/
def State.tlmEntries (s : State) : Nat := 2 ^ fld (s.reg 0x203C) 0 5
/-- TLM_IRQ_DIV. -/
def State.tlmDiv (s : State) : Nat := fld (s.reg 0x203C) 8 8
/-- The deck writes host memory: CWY_CTRL.EN is in force and the link is up (R325, log 40). -/
def State.ringsOpen (s : State) : Bool := s.cwy.run && s.cwy.linkUp
/-- F: free slots of the event ring (R338). -/
def State.evtFree (s : State) : Nat :=
  if s.ringsOpen then s.evtEntries - idxSub s.cwy.evtProd s.cwy.evtCons else 0
/-- Free slots of the telemetry ring. -/
def State.tlmFree (s : State) : Nat :=
  if s.ringsOpen then s.tlmEntries - idxSub s.cwy.tlmProd s.cwy.tlmCons else 0

/-! ### Completions (R334, R292) -/

/-- Write one completion into its slot. -/
def State.putCmpl (s : State) (c : Completion) : State :=
  let w := s.cwy
  { s with cwy := { w with
      cmplRing := Store.put (fun _ => none) w.cmplRing (c.seq % s.cmdEntries) (some c), cmplDone := addSet c.seq w.cmplDone,
      doneTags := (c.doneTag :: w.doneTags).take s.cmdEntries } }

/-- The completions that are due are written; while host memory cannot be written they wait. -/
def State.writeCompletions (s : State) : State :=
  if s.ringsOpen then s.cwy.cmplDue.foldl State.putCmpl { s with cwy := { s.cwy with cmplDue := [] } } else s

/-- The twin's frame shows a slot of the twin as posted (R292): asked by the Causeway lead. While the frame is missing the index
waits. -/
def State.twinPosted (s : State) (p : Nat) : Bool :=
  if s.inViaduct && s.vdt.cwyLead then
    let q := fw s.vdt.frame (s.s4At + 136) 4
    s.vdt.held && decide (0 < idxSub q p) && decide (idxSub q p < 2 ^ 31)
  else true

/-- CMPL_PROD passes the slots that are written (R292, R334): in Φ1 of the tick after they were written. Vector 4 on the
deck that writes the page. -/
def State.advanceProd (s : State) : State :=
  let w := s.cwy
  let p := passDone (fun k => w.cmplDone.contains k || (w.twinSlots.contains k && s.twinPosted k)) 4096 w.cmplProd
  if p = w.cmplProd ∨ ¬ s.ringsOpen then s
  else
    let gone := fun (k : Nat) => decide (idxSub k w.cmplProd < idxSub p w.cmplProd)
    let t := { s with cwy := { w with
      cmplProd := p, cmplDone := w.cmplDone.filter (fun k => !gone k), twinSlots := w.twinSlots.filter (fun k => !gone k) } }
    if !s.inViaduct || s.vdt.cwyLead then t.signal 4 else t

/-! ### Events (R336 to R339) -/

/-- EVT_RSV: non-protection writes are held (R338); vector 6 when it becomes 1. -/
def State.judgeRsv (s : State) : State :=
  let rsv := s.cwy.run && decide (s.evtFree ≤ s.protRsv)
  let t := { s with cwy := { s.cwy with evtRsv := rsv } }
  if rsv && !s.cwy.evtRsv then t.signal 6 else t

/-- Write an event into the next slot; its vector is that of its class (Table 14-7). -/
def State.putEvent (s : State) (e : Event) : State :=
  let w := s.cwy
  ({ s with cwy := { w with
      evtRing := Store.put (fun _ => none) w.evtRing (w.evtProd % s.evtEntries) (some e), evtProd := idxNext w.evtProd } }).signal
    (e.code / 32)

/-- The events of a tick as one entry per code, ascending (R339). -/
def coalesce (evs : List Event) : List Event :=
  (List.range 128).filterMap (fun k => match evs.filter (fun e => decide (e.code = k)) with
    | [] => none
    | e :: t => some { e with coalesced := true, val2 := 0, count := t.foldl (fun a x => a + x.count) e.count })

/-- The storm ends: one record with the events formed, the entries written and the ticks it lasted (R339). -/
def State.endStorm (s : State) : State :=
  let w := s.cwy
  let e : Event := { code := 67, addr := s.deckAddr, cause := 0, val := w.stormEvents, val2 := w.stormWritten, pylon := s.tk.now / uNs,
                     cal := s.calStamp s.tk.now, count := w.stormTicks, coalesced := false, queued := false }
  let t := { s with cwy := { w with
    storm := false, stormCount := satInc w.stormCount max32, stormEvents := 0, stormWritten := 0, stormTicks := 0, stormQuiet := 0 } }
  let t := (t.logEvent e).noteTrigger e
  if s.protRsv < s.evtFree then t.putEvent e
  else { t with cwy := { t.cwy with evtDrop := satInc t.cwy.evtDrop max32 } }

/-- The non-protection events of the tick are written (R337 to R339). While EN is 0 nothing is written. -/
def State.writeEvents (s : State) : State :=
  let evs := s.cwy.evs
  let s1 := { s with cwy := { s.cwy with evs := [] } }
  if !s.cwy.run then s1
  else
    let lim := min (s.evtFree - s.protRsv - 1) s.evtBurst
    let cond := decide (1 ≤ evs.length) && decide (lim < evs.length)
    if !(s.cwy.storm || cond) then (evs.foldl State.putEvent s1).judgeRsv
    else
      let all := coalesce evs
      let out := all.take lim
      let lost := (all.drop lim).foldl (fun a e => a + e.count) 0
      let s2 := out.foldl State.putEvent s1
      let w := s2.cwy
      let s3 := { s2 with cwy := { w with
        storm := true, evtDrop := satAdd w.evtDrop lost max32, stormEvents := w.stormEvents + evs.length,
        stormWritten := w.stormWritten + out.length, stormTicks := w.stormTicks + 1, stormQuiet := if cond then 0 else w.stormQuiet + 1 } }
      (if s3.cwy.stormQuiet = 16 then s3.endStorm else s3).judgeRsv

/-- PROTECTION_EVENT_WRITE (R337, R338): the Causeway writes the head of the protection queue without the cores, where a
slot is free; QUEUED marks one written in a later tick than it occurred. -/
def execProtectionEventWrite (s : State) : Host.Outcome State Fault Refusal :=
  match s.cwy.pq with
  | [] => .next s
  | e :: t =>
    if 1 ≤ s.evtFree then
      let q := decide (s.tickOf (e.pylon * uNs) ≠ s.tk.count)
      .next ((({ s with cwy := { s.cwy with pq := t } }).putEvent { e with queued := q }).judgeRsv)
    else .next s.judgeRsv

/-! ### Telemetry and publications (R340, R374) -/

/-- The signals of the telemetry entry of the tick. -/
def State.tlmSignals (s : State) : List Int := s.image.tlmSig.map (fun o => sig (s.readReg o))

/-- One telemetry entry, or a gap where no slot is free (R340); vector 5 at multiples of TLM_IRQ_DIV. -/
def State.writeTelemetry (s : State) : State :=
  let w := s.cwy
  if !w.run then s
  else if 1 ≤ s.tlmFree then
    let e : TlmEntry := { pylon := s.boundary s.tk.count / uNs, gap := w.gapRun, signals := s.tlmSignals }
    let p := idxNext w.tlmProd
    let t := { s with cwy := { w with
      tlmRing := Store.put (fun _ => none) w.tlmRing (w.tlmProd % s.tlmEntries) (some e), tlmProd := p, gapRun := 0,
      deckTick := s.tk.count } }
    if p % (max 1 s.tlmDiv) = 0 then t.signal 5 else t
  else
    let t := { s with cwy := { w with
      gapRun := w.gapRun + 1, tlmGaps := satInc w.tlmGaps max32, tlmGap := true, deckTick := if w.linkUp then s.tk.count else w.deckTick } }
    if w.gapRun = 0 then t.raise 77 s.deckAddr 0 0 0 else t

/-- The bytes of signed 32-bit signals. -/
def signalBytes (xs : List Int) : List Byte := xs.flatMap (fun x => (leBytes (s32w x) 4).map (BitVec.ofNat 8))

/-- The ESZ bytes of a telemetry entry in host memory (R340): its header, the signals in image order, and zero padding. -/
def State.tlmBytes (s : State) (e : TlmEntry) : List Byte :=
  let body := (leBytes e.pylon 8 ++ leBytes s.deckAddr.toNat 2 ++ leBytes s.image.tlmSig.length 2 ++ leBytes e.gap 4 ++
    leBytes s.image.tlmDigest.toNat 4 ++ List.replicate 12 0).map (BitVec.ofNat 8) ++ signalBytes e.signals
  body ++ List.replicate (fld (s.reg 0x203C) 16 16 - body.length) 0#8

/-! ### What the deck writes into the doorbell page (Table 14-3) -/

/-- The block of the Causeway lead at 0x800: CMPL_PROD, CMD_FETCHED, FETCH_TICK. -/
def State.pageLead (s : State) : List Nat := leBytes s.cwy.cmplProd 4 ++ leBytes s.cwy.cmdFetched 4 ++ leBytes s.cwy.fetchTick 8
/-- The block of this deck at 0x900 + 0x40 × role: EVT_PROD, TLM_PROD, DECK_TICK, DECK_FLAGS. -/
def State.pageDeck (s : State) : List Nat :=
  leBytes s.cwy.evtProd 4 ++ leBytes s.cwy.tlmProd 4 ++ leBytes s.cwy.deckTick 8 ++
    leBytes (bitsFrom 0 [s.cwy.hostLost, s.cwy.fbActive, s.cwy.storm]) 4

/-- The eight bytes of a heartbeat with a fill count (R374). -/
def State.heartbeatBytes (s : State) (count : Nat) : List Byte :=
  ([fld (s.reg 0x1100) 0 5, bitsFrom 0 [decide (s.roleBit ≠ 0), decide (s.vdt.pair = 2), s.cwy.hostLost, s.cwy.fbActive]] ++
    leBytes count 2 ++ leBytes (s.tk.count % 2 ^ 32) 4).map (BitVec.ofNat 8)

/-- A publication or heartbeat object of a port at its instant (R374). -/
def State.publishObj (s : State) (p o : Nat) : State :=
  let b := s.obj p o
  let per := fld b.aux 0 16
  let due := b.send && decide (b.src = 1 ∨ b.src = 2) && decide (per ≠ 0) && decide (s.tk.count % per = fld b.aux 16 16)
  if !due then s
  else if b.src = 1 then s.fillObj p o (signalBytes ((s.tlmSignals.drop (fld b.pub 16 8)).take (b.dlen / 4)))
  else
    let k := p * 128 + o
    let n := (Store.get (fun _ => 0) s.fp.hbSent k + 1) % 65536
    ({ s with fp := { s.fp with hbSent := Store.put (fun _ => 0) s.fp.hbSent k n } }).fillObj p o (s.heartbeatBytes n)

/-- The publications and heartbeats of the tick, from deck ready. -/
def State.publish (s : State) : State :=
  if s.start.ready then
    s.fp.port.foldl (fun t q => q.2.obj.foldl (fun t x => t.publishObj q.1 x.1) t) s
  else s

/-! ### The PCIe link (R323, R324, R346) -/

/-- Fall-back frames are acted on (R346): EN, and host loss, the link down or ALWAYS. -/
def State.fbOn (s : State) : Bool :=
  let w := s.reg 0x2048
  bitOf w 31 && (s.cwy.hostLost || !s.cwy.linkUp || bitOf w 30)

/-- FB_ACTIVE shows the condition. -/
def State.judgeFb (s : State) : State := { s with cwy := { s.cwy with fbActive := s.fbOn } }

/-- The link goes up or down: E069, cause 0 down, 1 up, with speed and width. -/
def State.linkTo (s : State) (up : Bool) (speed width : Nat) : State :=
  ((({ s with cwy := { s.cwy with linkUp := up } }).raise 69 s.deckAddr (b2n up) speed width).judgeFb)

/-- PCIE_LINK_CHANGE (R323, R324): link-down, link-up, or a change of speed or width (cause 2). No span changes its state. -/
def execPcieLinkChange (up : Bool) (speed width : Fin 5) (ofs : Nat) (s0 : State) : Host.Outcome State Fault Refusal :=
  let s := s0.at ofs
  if up = s.cwy.linkUp then (if up then .next (s.raise 69 s.deckAddr 2 speed.val width.val) else .next s)
  else .next (s.linkTo up speed.val width.val)

/-- PCIE_PERST (R324): the endpoint alone is reset: the link goes down, and the MSI-X table and its pending bits return to
their reset. -/
def execPciePerst (ofs : Nat) (s0 : State) : Host.Outcome State Fault Refusal :=
  let s := s0.at ofs
  let s := if s.cwy.linkUp then s.linkTo false 0 0 else s
  let s := (List.range 32).foldl (fun (t : State) k => t.setReg (0x3000 + 4 * k) (barReset (0x3000 + 4 * k))) s
  .next { s with cwy := { s.cwy with pba := [] } }

end Sys2Proof.Machine
end

