-- ==== Sys2Proof/Machine/Start.lean ====
section
/-! DEFINITION. Starting (chapter 18): reset, the steps of Table 18-1 as they pass at a command or at a boundary, deck ready, failed starts, and the deck restart that the Causeway carries out. -/
namespace Sys2Proof.Machine

/-! ### What a start finds (R405, R407, R413) -/

/-- The registers that hold over a start until its steps write them anew: identity, charter values, rails and channel
types. -/
def heldOver (off : Nat) : Bool := decide (off < 0x80) || chOffsets.contains off

/-- Keystone over a start: the fault bits, the mismatch record and the debug attach are held (R251, R254). -/
def KstS.restarted (k : KstS) : KstS :=
  { KstS.reset with
    lsBroken := k.lsBroken, attaches := k.attaches, mismatch := k.mismatch, wdt := k.wdt, ecc := k.ecc,
    dtDigest := k.dtDigest, mmAddr := k.mmAddr, mmTick := k.mmTick, faultLine := k.faultLine, faultTick := k.faultTick,
    firstOpen := k.firstOpen, fwId := k.fwId }

/-- The MRAM over a start: an interrupted change leaves the state that its last write left (R417, R419), a record that was
open is closed, and no slot is armed (log 134). The flags and the read counts tell of the time since the start (Table 18-9). -/
def State.mrmRestarted (s : State) : MrmS :=
  let m := s.mrm
  { m with
    wrFail := false, rdErr := false, holdDrop := false, corr := 0, uncorr := 0,
    writes := m.writes.filter (fun w => !w.isChange) ++
      (m.slots.filter (fun p => decide (p.2.st = 2))).map (fun p => MramWrite.header p.1),
    trigs := [], release := [], lands := none, blockDone := false, open_ := none,
    slots := m.slots.filterMap (fun p =>
      if p.2.st = 2 then some (p.1, { p.2 with st := 3, left := 0 }) else if p.2.st = 3 then some p else none) }

/-- The start unit over a start: the counters and copies held in MRAM. -/
def StartS.restarted (x : StartS) : StartS :=
  { StartS.reset with
    failCount := x.failCount, lastCause := x.lastCause, lastStep := x.lastStep, resetDuring := x.resetDuring,
    before := x.before, first := x.first, fwAct := x.fwAct, fwPend := x.fwPend, fwRej := x.fwRej, imgAct := x.imgAct, imgPend := x.imgPend,
    imgRej := x.imgRej, dur := x.dur }

/-- The Trestle over a start (R400, R402, Table 17-5): the supplies and the numbering of rounds go on, LATCHED ends, and what is
counted since start, flags and channel states begin anew (log 134). -/
def TrlS.restarted (t : TrlS) (now : Instant) : TrlS :=
  { TrlS.reset with
    vsup := t.vsup, frozen := t.frozen, tw := t.tw, brg := if t.brg = .latched then .off else t.brg,
    brgAt := if t.brg = .latched then now else t.brgAt, brgFaults := t.brgFaults, brgOut := t.brgOut,
    round := t.round, posted := t.posted, rstCause := t.rstCause, rstRail := t.rstRail }

/-- The Causeway over a start that it has carried out itself: its indices and rings go on, nothing is staged (R359), and its
counters and flags begin anew (Table 14-11). -/
def CwyS.restarted (w : CwyS) : CwyS :=
  { w with
    accViol := false, pageCrc := false, tlmGap := false, avAddr := 0, lateCount := 0, dcrcCount := 0, seqCount := 0, pageErr := 0,
    evtDrop := 0, stormCount := 0, tlmGaps := 0, pqMax := w.pq.length, hlTick := 0,
    staged := [], cmplDue := [], profile := [], fbStaged := [], job := none, tests := [], hostLost := false, fbActive := false,
    run := false, beat := none, beatSame := 0, noFetch := 0, evs := [], storm := false, stormEvents := 0, stormWritten := 0,
    stormTicks := 0, stormQuiet := 0, twinSlots := [], fbCounter := none, gapRun := 0 }

/-- Everything that a start begins anew: the deck at t_s. What stands in MRAM, on VBAK or on the calendar, the Causeway's
indices and the supplies are kept (R407). -/
def State.restart (s : State) : State :=
  { State.reset with
    pending := s.pending, freeCtr := s.freeCtr, tk := { TickS.reset with now := s.tk.now },
    bar := s.bar.filter (fun p => heldOver p.1), cwy := s.cwy.restarted, cal := s.cal, kst := s.kst.restarted,
    trl := s.trl.restarted s.tk.now, start := s.start.restarted, mrm := s.mrmRestarted,
    cHw := { CHwS.reset with crowbar := s.cHw.crowbar, crowTick := s.cHw.crowTick } }

/-- DECK_RESET (R405): the legs drive their latched patterns, everything else stops; the cause is kept on VBAK: 1 VSUP, 2 a
rail. -/
def execDeckReset (rail : Option (Fin 5)) (ofs : Nat) (s0 : State) : Host.Outcome State Fault Refusal :=
  let s := s0.at ofs
  let s1 := ({ s with par := { s.par with clkHold := true } }).driveAll allLegs
  let r := s1.restart
  .next { r with
    legs := s1.legs, par := { ParS.reset with clkHold := true }, cHw := s1.cHw,
    cwy := { CwyS.reset with linkUp := s.cwy.linkUp },
    trl := { TrlS.reset with
      brgAt := s.tk.now
      rstCause := (match rail with | some _ => 2 | none => 1), rstRail := (match rail with | some k => k.val | none => 0) },
    start := { r.start with
      resetDuring := s.start.running, lastStep := if s.start.running then s.start.step else r.start.lastStep } }

/-- AUTO_RESTART (R410): 100 ms after a failed start with a count below 3. -/
def execAutoRestart (s : State) : Host.Outcome State Fault Refusal :=
  match s.start.failedAt with
  | some t => if s.start.failCount < 3 then .next (s.writeEvents.goto (t + 100000000 * uNs)).restart else .next s
  | none => .next s

/-! ### Steps 1 to 5 (Table 18-1) -/

/-- The copy that a step tries first and, where its signature fails, the other; none where neither verifies. -/
def selectCopy (pend : Bool) (act : Nat) (okA okB : Bool) : Option Nat :=
  let first := if pend then 1 - act else act
  let ok := fun (k : Nat) => if k = 0 then okA else okB
  if ok first then some first else if ok (1 - first) then some (1 - first) else none

/-- An uncorrectable read in a step (R425). -/
def State.mramRead (s : State) (inp : StartIn) (step : Nat) : Option Nat :=
  match inp.mramBad with
  | some k => if k.val = step then some 12 else none
  | none => let _ := s; none

/-- A fused identity register (Table 19-3): PART is fixed, and reserved bits read 0. -/
def fused (p : Nat × Word) : Nat × Word :=
  if p.1 = 0 then (0, (p.2 &&& 7#32) ||| 0x48400000#32)
  else (p.1, match regRow p.1 with | some r => p.2 &&& wd r.mask | none => 0#32)

/-- Step 1: fuses, firmware copy. -/
def State.step1 (s : State) (inp : StartIn) : State × Option Nat :=
  let s := { s with start := { s.start with step := 1 } }
  if !inp.fusesOk then (s, some 23)
  else
    let s := s.setRegs ((inp.fuses.filter (fun p => decide (p.1 < 0x40))).map fused)
    match s.mramRead inp 1 with
    | some c => (s, some c)
    | none =>
      match selectCopy s.start.fwPend s.start.fwAct inp.fwA inp.fwB with
      | none => (s, some 1)
      | some k =>
        if inp.fwFits then
          ({ s with start := { s.start with fwUse := k }, kst := { s.kst with fwId := if k = 0 then inp.fwIdA else inp.fwIdB } }, none)
        else (s, some 2)

/-- Step 2: RAM test and difference injection (R252, R253); E019 names the first pattern missed. -/
def State.step2 (s : State) (inp : StartIn) : State × Option Nat :=
  let s := { s with start := { s.start with step := 2 } }
  if !inp.ramOk then (s, some 4)
  else
    let pats : List (Fin 64) := List.finRange 64
    let s := { s with kst := { s.kst with
      caught := pats.filter (fun p => !inp.missed.contains p), injPass := pats.all (fun p => !inp.missed.contains p) } }
    match pats.find? (fun p => inp.missed.contains p) with
    | some p => (s.raise 19 s.deckAddr 0 p.val 0, some 3)
    | none => (s, s.mramRead inp 2)

/-- What the MRAM holds from the factory, where no record stands in it yet. -/
def State.adoptFactory (s : State) (inp : StartIn) : State :=
  if s.mrm.ledger = [] ∧ inp.factory ≠ [] then
    let vals := copyOf inp.factory
    let r : LedgerRec := {
      kind := 0, fwId := s.kst.fwId, cal := 0, pylon := 0, oldDigest := 0#256, newDigest := charterDigest (copyGet vals), hostId := 0,
      tick := 0, copy := 0, valid := true }
    { s with mrm := { s.mrm with copyA := vals, ledger := [r], calSet := inp.factoryCal } }
  else s

/-- Step 3: the charter (R415, R131). -/
def State.step3 (s0 : State) (inp : StartIn) : State × Option Nat :=
  let s := { s0 with start := { s0.start with step := 3 } }.adoptFactory inp
  match s.mramRead inp 3, s.newestRecord with
  | some c, _ => (s, some c)
  | none, none => (s, some 6)
  | none, some r =>
    let vals := s.mrm.copy r.copy
    if charterDigest (copyGet vals) ≠ r.newDigest then (s, some 5)
    else
      let t := s.charterInForce vals
      (t, if inp.dtOk then none else some 17)

/-- The old set and the staging area of the calibration partition are cleared (R419). -/
def State.clearStaged (s : State) : State := { s with mrm := { s.mrm with calStaged := [] } }

/-- Step 4: the calibration set; a switch that was interrupted after its write is complete (R419). -/
def State.step4 (s0 : State) (inp : StartIn) : State × Option Nat :=
  let s := { s0 with start := { s0.start with step := 4 } }
  match s.mramRead inp 4 with
  | some c => (s, some c)
  | none =>
    if calSetOk s.mrm.calSet then
      (((if s.mrm.calLands.isSome then s.calOverwritten else s).clearStaged).landTrims s.mrm.calSet, none)
    else (s, some 7)

/-- The image constants and sets that the signed image carries. -/
def imageHeld (i : ImageIn) : ImageS :=
  { v300 := i.v300.foldl (fun (m : Store Int) p => Store.put (fun _ => 0) m p.1 p.2) [], v12 := i.v12, v24 := i.v24, pC := i.pC,
    p3000 := i.p3000, i62 := i.i62, i160 := i.i160, cOvLess50 := i.cOvLess50, acAmp := i.acAmp, map0 := [],
    map1 := [], mapLoaded := [],
    tlmSig := i.tlm, recSig := i.recs, lt := i.lt.map (fun p => (p.1.val, p.2)), tlmDigest := i.tlmDigest }

/-- A trim of an input, which the calibration set gives (R418). -/
def trimReg (off : Nat) : Bool :=
  (List.range 96).any (fun i => decide (off = inpBase i + 0x08))

/-- A register that an image may set (Table 18-1 step 5): one that no fuse, charter, calibration set or run-time write
owns. -/
def imageSets (off : Nat) : Bool :=
  match regRow off with
  | some r => decide (r.acc ≠ .rw) && decide (r.acc ≠ .w1c) && decide (r.acc ≠ .w1s) && decide (0x40 ≤ off) && !chOffsets.contains off && !trimReg off &&
    decide (off ≠ 0x18054) && decide (off ≠ 0x19054)
  | none => false

/-- The image value of TRS_Lxx_PER (Table 05-5): it stands in the write set and in the shadow set that a revert restores
(R112). -/
def State.imagePer (s : State) (off : Nat) (v : Word) : State :=
  if 0xC000 ≤ off ∧ off < 0x11000 ∧ (off - 0xC000) % 0x200 = 0x0C then
    s.updLeg ((off - 0xC000) / 0x200) (fun g => { g with ws := g.ws.put .per v.toNat, sh := g.sh.put .per v.toNat })
  else s

/-- Load a verified image: registers, objects, partners, launch entries and the digest of R279 over its bytes. -/
def State.loadImage (s : State) (i : ImageIn) : State :=
  let s := s.setRegs (i.regs.filter (fun p => imageSets p.1))
  let s := i.regs.foldl (fun (t : State) p => t.imagePer p.1 p.2) s
  let s := i.objs.foldl (fun (t : State) o => t.updObj o.1.val o.2.1.val (fun x =>
    { x with cfg := o.2.2.1, id := o.2.2.2.1, pub := o.2.2.2.2.1, aux := o.2.2.2.2.2 })) s
  let s := i.ptns.foldl (fun (t : State) p => t.updPartner p.1.val (fun x =>
    (((x.putWord 0 p.2.1).putWord 1 p.2.2.1).putWord 2 p.2.2.2.1).putWord 3 p.2.2.2.2)) s
  { s with image := imageHeld i, start := { s.start with digest := crc64 (i.bytes.map BitVec.toNat) } }

/-- The flux map of a fitted span is copied onto the die, and MAP_CRC reports the CRC of the copy (R162); the second part says
that it agrees with the descriptor and with the image. -/
def State.copyMap (s : State) (copy : Nat) (crc : Word) (t : Trac) : State × Bool :=
  let m := fluxMap s.mrm.mem copy t.val
  let c := crc32c (fluxBytes s.mrm.mem copy t.val)
  let s := s.setReg (spanBase (Span.ofTrac t) + 0x54) c
  ({ s with image := if t.val = 0 then { s.image with map0 := m } else { s.image with map1 := m } },
   decide (c = fluxDescriptor s.mrm.mem copy t.val) && decide (c = crc))

/-- The flux maps of the fitted spans, T0 first; the second part says that every one of them is sound. -/
def State.copyMaps (s : State) (copy : Nat) (i : ImageIn) : State × Bool :=
  let one := fun (r : State × Bool) (q : Trac × Word) =>
    if r.1.fitted (Span.ofTrac q.1) then
      let (t, ok) := r.1.copyMap copy q.2 q.1
      ({ t with image := { t.image with mapLoaded := if ok then t.image.mapLoaded ++ [q.1] else t.image.mapLoaded } }, r.2 && ok)
    else r
  [((0 : Trac), i.mapCrc0), (1, i.mapCrc1)].foldl one (s, true)

/-- Step 5: the span image. -/
def State.step5 (s0 : State) (inp : StartIn) : State × Option Nat :=
  let s := { s0 with start := { s0.start with step := 5 } }
  match s.mramRead inp 5, selectCopy s.start.imgPend s.start.imgAct inp.imgA inp.imgB with
  | some c, _ => (s, some c)
  | none, none => (s, some 8)
  | none, some k =>
    let s := { s with start := { s.start with imgUse := k } }
    if !inp.imgFw then (s, some 9)
    else if !inp.imgCharter then (s, some 10)
    else
      let (t, ok) := (s.loadImage inp.image).copyMaps k inp.image
      (t, if ok then none else some 11)

/-- Steps 1 to 5 in order, up to the first that fails. -/
def State.steps (s : State) (inp : StartIn) : State × Option Nat :=
  let next := fun (r : State × Option Nat) (f : State → State × Option Nat) =>
    match r.2 with | none => f r.1 | some _ => r
  next (next (next (next (s.step1 inp) (fun t => t.step2 inp)) (fun t => t.step3 inp)) (fun t => t.step4 inp)) (fun t => t.step5 inp)

/-- The clock of a grandmaster by external port configuration at the end of step 5 (Table 13-2, R299): at the deck's first
start it takes the calendar's time, or 0 where the calendar is INVALID. -/
def State.startClock (s : State) : State :=
  if !bitOf (s.reg 0x1100) 7 && bitOf (s.reg 0x1100) 8 then
    (if s.start.first then s.setCount else s).pylTo .grandmaster 6
  else s

/-- The tick runs from the end of step 5 (R44), and steps 6 and 7 begin; in a viaduct pairing begins (R266). The events before it
met CWY_CTRL.EN 0, and are in the event log alone (R411). -/
def State.ticksRun (s : State) : State :=
  let s := { s with
    start := { s.start with step := 6, ticking := true, first := !s.start.before },
    tk := { s.tk with count := if s.pu = 0 then 0 else s.tk.now / s.pu },
    cwy := { s.cwy with evs := [] },
    vdt := { s.vdt with pair := if s.inViaduct then 1 else 0 } }
  let s := s.startClock
  { s with start := { s.start with before := true } }

/-- What the release of reset finds on VBAK and at the port: the calendar that stopped (R321), the cause of the reset
(R405), a start that a reset ended (R408), a debug attach (R254). -/
def State.startFinds (s0 : State) (inp : StartIn) : State :=
  let s := if inp.calLost then
      ({ s0 with cal := { s0.cal with st := 0, lost := true } }).raise 79 s0.deckAddr 4 0 0
    else s0
  let s := if inp.vbakOk then s else { s with trl := { s.trl with rstCause := 0, rstRail := 0 } }
  let s := if s.kst.lsBroken then s.raise 20 s.deckAddr 0 0 0 else s
  if s.start.resetDuring then
    let n := min 3 (s.start.failCount + 1)
    let t := ({ s with start := { s.start with resetDuring := false, failCount := n, lastCause := 20 } }).raise 97 s.deckAddr 20
      s.start.lastStep 0
    let t := t.rejectPending
    if 3 ≤ n then { (t.abutment 20) with start := { (t.abutment 20).start with released := false } } else t
  else s

/-- START (R407, R408): reset is released at t_s; the fault line is released (R251), and steps 1 to 5 run. -/
def execStart (inp : StartIn) (s0 : State) : Host.Outcome State Fault Refusal :=
  if !s0.start.released || s0.start.running || s0.start.ready || s0.start.abut then .next s0
  else
    let r := s0.restart
    let s := { r with
      kst := { r.kst with faultLine := false, lockstepOk := false },
      start := { r.start with released := false, running := true, ts := r.tk.now, failCount := s0.start.failCount } }
    let s := s.startFinds inp
    if s.start.abut then .next s
    else
      let (t, c) := s.steps inp
      let t := t.goto (s.start.ts + inp.dur)
      match c with
      | some c => .next ((if c = 12 then t.readEcc 2 else t).startFail c)
      | none => .next { t.ticksRun with kst := { t.ticksRun.kst with lockstepOk := !t.kst.lsBroken } }

/-! ### Steps 6 to 11 at a boundary -/

/-- Every duplicated current comparator of every leg and the four deck units have been tested (step 9). -/
def State.step9Done (s : State) : Bool :=
  allLegs.all (fun l => [6, 7, 8, 9].all (fun k => (s.leg l).tested.contains k)) && decide (s.par.ovTested.length = 4)

/-- The copies in use are the active ones from deck ready; a pending copy that was activated is reported, one that did
not verify was not started and is rejected (R421). -/
def State.activate (s : State) : State :=
  let one := fun (s : State) (target : Nat) (pend : Bool) (act use : Nat) =>
    if pend then
      if use = act then
        (if target = 0 then { s with start := { s.start with fwPend := false, fwRej := true } }
         else { s with start := { s.start with imgPend := false, imgRej := true } }).raise 111 s.deckAddr 3 target (1 - act : Nat)
      else
        (if target = 0 then { s with start := { s.start with fwPend := false, fwRej := false, fwAct := use } }
         else { s with start := { s.start with imgPend := false, imgRej := false, imgAct := use } }).raise 111 s.deckAddr 2 target use
    else if target = 0 then { s with start := { s.start with fwAct := use } } else { s with start := { s.start with imgAct := use } }
  let s := one s 0 s.start.fwPend s.start.fwAct s.start.fwUse
  one s 1 s.start.imgPend s.start.imgAct s.start.imgUse

/-- The owners of the actuators: this deck on a single deck, else as the leads say (R262). -/
def State.takeOwners (s : State) : State :=
  let own := fun (c : Ctl) => (List.range 4).foldl (fun (c : Ctl) m =>
    c.putAct m { (c.actS m) with owner := s.fitted (aSp m) && (!s.inViaduct || s.leadsSpan (aSp m)) }) c
  { s with cur := own s.cur, stage := own s.stage }

/-- Span C adds and sheds phases from deck ready as SPN_C_CFG.AUTO_PH says (R189, Table 08-7). -/
def State.takeAuto (s : State) : State :=
  let set := fun (c : Ctl) => { c with cs := { c.cs with auto := (s.spnW .c 0).getLsbD 3 } }
  { s with cur := set s.cur, stage := set s.stage }

/-- Deck ready at boundary d (R410, step 11): the count of failed starts returns to 0, E096, the carriers' common
boundary (R55), the image's launch entries (R307), the test rounds (R145), partners UNKNOWN (R382), and a recorder slot
armed (R428). -/
def State.deckReady (s : State) : State :=
  let d := s.tk.count
  let start := { s.start with
    step := 11, ready := true, running := false, failCount := 0, failedAt := none, abut := false, abutCause := 0,
    dur := (s.tk.now - s.start.ts) / (1000 * uNs) }
  let ptn : Store PtnS := s.fp.ptn.map (fun (p : Nat × PtnS) => (p.1, if p.2.st = 0 then p.2 else { p.2 with st := 1, age := 0 }))
  let par := { s.par with roundStart := d, testBase := d, caps := Span.all.map s.capacity }
  let t : State := { s with start := start, par := par, fp := { s.fp with ptn := ptn } }
  let t : State := t.updLegs allLegs (fun _ g => { g with realigned := ceilTo d 12, tested := [], syncRun := 0 })
  let t : State := t.raise 96 t.deckAddr 0 t.start.fwUse t.start.imgUse
  let t : State := ((t.thetaInit.activate.takeOwners.takeAuto).armImage d).updateAvail
  if t.mrm.open_.isNone then t.armSlot else t

/-- The start at a boundary (R408, R455). -/
def State.startBoundary (s0 : State) : State :=
  if !s0.start.running then s0
  else
    let s := { s0 with start := { s0.start with clockOk := s0.start.clockOk || s0.clockReady } }
    let k := s.start.step
    if k ≤ 7 then
      let t := { s with start := { s.start with step := if s.start.clockOk then 7 else 6 } }
      if s.start.clockOk && s.start.go then
        let t := { t with start := { t.start with step := 8 } }
        if t.adc.settled then t.startCal (List.finRange 16) none else t.startFail 15
      else t
    else if k = 8 then s
    else if k = 9 then
      if s.step9Done || decide (s.start.step9 + 1200000 * uNs ≤ s.tk.now) then
        if s.inViaduct && decide (s.vdt.pair < 2) then { s with start := { s.start with step := 10 } }
        else if s.clockReady then s.deckReady else s
      else s
    else if (decide (2 ≤ s.vdt.pair) || !s.inViaduct) && s.clockReady then s.deckReady else s

/-- START_TIMEOUT (R408): deck ready was not reached by t_s + 2.0 s. -/
def execStartTimeout (s0 : State) : Host.Outcome State Fault Refusal :=
  let t := s0.start.ts + 2000000000 * uNs
  if s0.start.running && s0.reaches t then
    let s := s0.goto t
    .next (s.startFail (if !s.start.clockOk then 13 else if !s.start.go then 14
      else if s.inViaduct && decide (s.vdt.pair < 2) then 18 else 22))
  else .next s0

/-! ### Self-calibration (R85, R86) -/

/-- A calibration with one converter's verdict. -/
def CalRun.ended (r : CalRun) (c : Conv) (ok : Bool) : CalRun :=
  if !r.running.contains c then r
  else { r with
    running := r.running.filter (fun x => decide (x ≠ c)), passed := if ok then r.passed ++ [c] else r.passed,
    failed := if ok then r.failed else r.failed ++ [c] }

/-- ADC_CAL_END (R86): a converter's calibration ends. When the last of a start has ended, step 8 has ended; any failure
ends the start with cause 16. -/
def execAdcCalEnd (c : Conv) (gain : Nat) (offset : Int) (s : State) : Host.Outcome State Fault Refusal :=
  if !(s.conv c).calRun then .next s
  else
    let runs := s.adc.cal.map (fun r => r.ended c (calPasses gain offset))
    let past := fun (r : CalRun) => decide (r.cmd = none) && decide (r.running = [])
    let t := s.endCal c gain offset
    let t := { t with adc := { t.adc with cal := runs.filter (fun r => !past r) } }
    match runs.find? past with
    | none => .next t
    | some r =>
      if r.failed ≠ [] then .next (t.startFail 16)
      else .next { t with start := { t.start with step := 9, step9 := t.tk.now } }

/-- The calibrations of ADC_CAL that have ended: the completion is formed in the first tick that begins after the end
(R85). -/
def State.calBoundary (s : State) : State :=
  let past := fun (r : CalRun) => r.cmd.isSome && decide (r.running = [])
  let one := fun (r : CalRun) => r.cmd.map (fun d =>
    completionOf s d (if r.failed = [] then Status.success else .calibrationOutOfRange)
      (convMask r.passed + 2 ^ 16 * convMask r.failed) s.tk.count)
  { s with
    adc := { s.adc with cal := s.adc.cal.filter (fun r => !past r) },
    cwy := { s.cwy with cmplDue := s.cwy.cmplDue ++ (s.adc.cal.filter past).filterMap one } }

/-! ### DECK_RESTART (R359) -/

/-- The deck restart that the Causeway carries out in Φ3 of tick b: the completions that are due and its own are written,
CMD_FETCHED becomes its SEQ + 1, and reset is released; RST_CAUSE is 3 (Table 17-5). -/
def State.deckRestart (s : State) (d : Staged) (applied : Tick) : State :=
  let t := { s with cwy := { s.cwy with cmplDue := s.cwy.cmplDue ++ [completionOf s d .success 0 applied] } }.writeCompletions.writeEvents
  { t with
    cwy := { t.cwy with cmdFetched := idxNext d.seq }
    trl := { t.trl with rstCause := 3, rstRail := 0 } }.restart

end Sys2Proof.Machine
end

