-- ==== Sys2Proof/Machine/Commands.lean ====
section
/-! DEFINITION. The commands of the command ring (chapter 15): staging checks, which deck of a viaduct acts and writes, the causes of SAFE that a tick finds, boundary checks and effects on spans and on the deck, and one meaning for each opcode. -/
namespace Sys2Proof.Machine

/-! ### Staging checks (R350 to R352, Tables 15-2 to 15-5) -/

/-- The span an address names, where it names one. -/
def aSpan? (a : Nat) : Option Span := Span.ofCode? (aSpan a)

/-- A span of the kind that an opcode from 0x110 up takes. -/
def kindOk (op : Nat) (x : Span) : Bool :=
  if op < 0x120 then decide (x.code ≤ 1) else if op < 0x130 then decide (x = .c) else if op < 0x150 then decide (x = .q)
  else decide (5 ≤ x.code)

/-- The opcodes of the whole deck alone (class D). -/
def deckOps : List Nat := [0, 1, 2, 0x10, 0x11, 0x12, 0x20, 0x40, 0x41, 0x42, 0x60, 0x61, 0x62, 0x63]
/-- The opcodes of spans (0x0100 and up). -/
def spanOps : List Nat :=
  [0x100, 0x110, 0x111, 0x112, 0x120, 0x121, 0x122, 0x123, 0x130, 0x150, 0x151, 0x152, 0x153, 0x154, 0x155, 0x156]

/-- The address class of an opcode (Table 15-2); none for an opcode that is not listed. -/
def opAddrOk (op a : Nat) : Option Bool :=
  if deckOps.contains op then some (classOk .deck a)
  else if op = 0x30 then some (classOk .span a || classOk .deck a)
  else if op = 0x31 ∨ op = 0x32 then some (classOk .span a)
  else if op = 0x50 then some (classOk .leg a || classOk .deck a)
  else if op = 0x51 ∨ op = 0x52 then some (classOk .leg a)
  else if op = 0x100 then some (classOk .span a)
  else if spanOps.contains op then
    some (classOk .span a && (match aSpan? a with | some x => kindOk op x | none => false))
  else none

/-- The payload bytes from Pk on are 0 (R350). -/
def restZero (d : Staged) (k : Nat) : Bool := decide (dP d k (36 - k) = 0)

/-- The pairs of a TL_SET: offset and value (R360). -/
def tlPairs (d : Staged) : List (Nat × Word) :=
  (List.range (min 4 (dP d 0 1))).map (fun k => (dP d (4 + 8 * k) 4, dW d (8 + 8 * k)))

/-- The span whose address a tick-latched register asks for in TL_SET; none for a register of the deck (R360). -/
def State.tlSpan (s : State) (off : Nat) : Option Nat :=
  match regPlace off with
  | some (.gdr, g, _) => some (s.engSpan g)
  | _ => (Span.all.find? (fun x => decide (spanBase x ≤ off) && decide (off < spanBase x + (if x.code < 5 then 0x1000 else 0x800)))).map Span.code

/-- One pair of a TL_SET is one that the command may write. -/
def State.tlPairOk (s : State) (a : Nat) (off : Nat) : Bool :=
  (match regRow off with | some r => decide (r.acc = .tl) | none => false) &&
  (match regPlace off with | some (.gdr, _, r) => decide (r = 0x0C) | _ => true) &&
  (match s.tlSpan off with | some c => classOk .span a && decide (aSpan a = c) | none => classOk .deck a)

/-- The staging checks of TL_SET. -/
def State.tlSetOk (s : State) (d : Staged) : Bool :=
  let n := dP d 0 1
  let ps := tlPairs d
  decide (1 ≤ n ∧ n ≤ 4) && decide (dP d 1 3 = 0) && restZero d (4 + 8 * n) && decide ((ps.map (fun p => p.1)).Nodup) &&
    ps.all (fun p => s.tlPairOk (dAddr d) p.1)

/-- The coefficient set of an ENG_COEF (R361). -/
def coefWrites (d : Staged) : List (Nat × Word) :=
  let g := dP d 0 1
  (coefOffsets g).zip [dW d 4, dW d 8, dW d 12, dW d 16, dW d 20, dW d 24, dW d 28]
/-- The limit set of an ENG_LIMIT. -/
def limitWrites (d : Staged) : List (Nat × Word) := (limitOffsets (dP d 0 1)).zip [dW d 4, dW d 8]

/-- The engine of a descriptor is enabled and belongs to the span named (R361). -/
def State.engOf (s : State) (d : Staged) : Bool :=
  let g := dP d 0 1
  decide (g < 64) && decide (dP d 1 3 = 0) && s.engEnabled g && decide (s.engSpan g = aSpan (dAddr d))

/-- Payload fields within the range that chapter 15 gives each opcode. -/
def State.payloadOk (s : State) (d : Staged) : Bool :=
  let x := dSpan d
  match dOp d with
  | 0x00 => restZero d 0
  | 0x01 => restZero d 4
  | 0x02 => restZero d 0
  | 0x10 => decide (dP d 1 3 = 0)
  | 0x11 => restZero d 1
  | 0x12 => decide (dP d 16 1 ≤ 1) && restZero d 17
  | 0x20 => (decide (dP d 0 1 ≤ 8) || decide (dP d 0 1 = 15)) && restZero d 1
  | 0x30 => s.tlSetOk d
  | 0x31 => s.engOf d && restZero d 32 && (s.setRegs (coefWrites d)).setValid (.coef (dP d 0 1))
  | 0x32 => s.engOf d && restZero d 12 && (s.setRegs (limitWrites d)).setValid (.limit (dP d 0 1))
  | 0x40 => decide (dP d 0 2 ≠ 0) && restZero d 2
  | 0x41 => decide (dP d 0 1 ≠ 0) && restZero d 1
  | 0x42 => decide (dP d 0 2 ≠ 0) && decide (dP d 2 2 = 0) && decide (dP d 4 4 < s.period) && restZero d 8
  | 0x50 => restZero d 0
  | 0x51 => restZero d 0
  | 0x52 => restZero d 0
  | 0x60 => decide (dP d 0 8 % 4096 = 0) && restZero d 24
  | 0x61 => decide (dP d 0 8 % 4096 = 0) && decide (dP d 8 4 = 4096) && restZero d 24
  | 0x62 => decide (dP d 0 8 % 4096 = 0) && decide (dP d 24 1 ≤ 1) && restZero d 25
  | 0x63 => restZero d 4
  | 0x100 => decide (dP d 1 3 = 0) && s.modeOk x (dP d 0 1) (dS d 4) (dS d 8) && restZero d 12
  | 0x110 => restZero d 4
  | 0x111 => restZero d 4
  | 0x112 => restZero d 0
  | 0x120 => decide (s.cn 0x30 ≤ dS d 0) && decide (dS d 0 ≤ s.cn 0x34) && restZero d 4
  | 0x121 => restZero d 4
  | 0x122 => (decide (dP d 0 1 = 0) || (decide (2 ≤ dP d 0 1) && decide (dP d 0 1 ≤ s.cPhases))) && restZero d 1
  | 0x123 => restZero d 0
  | 0x130 => restZero d 8
  | 0x150 => decide (dP d 0 1 ≤ 1) && decide (dP d 1 3 = 0) && restZero d 8
  | 0x151 => decide (dP d 0 1 ≤ 7) && restZero d 1
  | 0x154 => restZero d 4
  | _ => restZero d 0

/-- The staging checks in order (R352): opcode, address class, a fitted span (R351), payload. -/
def State.stageCheck (s : State) (d : Staged) : Option Status :=
  match opAddrOk (dOp d) (dAddr d) with
  | none => some .unknownOpcode
  | some false => some .invalidAddress
  | some true =>
    if !dIsDeck d && !s.fitted (dSpan d) then some .spanUnavailable
    else if s.payloadOk d then none else some .invalidParameter

/-! ### Which deck of a viaduct acts and writes (R28, R265, R291, R312) -/

/-- A whole-deck command that both decks carry out: NOP, ABORT, HANDOVER, and LT_WRITE of an entry with VSPAN 1. -/
def bothDecks (d : Staged) : Bool :=
  dIsDeck d && (decide (dOp d = 0) || decide (dOp d = 1) || decide (dOp d = 0x20) ||
    (decide (dOp d = 0x10) && decide (aVspan (dP d 12 2) = 1)))

/-- ROLE of an address names this deck. -/
def State.roleHere (s : State) (a : Nat) : Bool := decide (Sys2Proof.Machine.aRole a * 0x8000 = s.roleBit)

/-- This deck carries the command out: its owner at the boundary that the tick computes for, of a standby span. -/
def State.actsHere (s : State) (d : Staged) : Bool :=
  let a := dAddr d
  if !s.inViaduct then true
  else if aVspan a = 1 then
    (if aSpan a ≤ 4 then !s.vdt.out.contains (dSpan d) else (s.stage.actS (aSpan a - 5)).owner)
  else bothDecks d || s.roleHere a

/-- This deck writes the completion of an opcode and address (R291). -/
def State.writerOf (s : State) (op a : Nat) : Bool :=
  if !s.inViaduct then true
  else if !addrValid true a then s.vdt.cwyLead
  else if aVspan a = 1 then (match aSpan? a with | some x => s.leadsSpan x | none => false)
  else if aSpan a = 15 ∧ (op = 0 ∨ op = 1 ∨ op = 0x20) then s.vdt.cwyLead
  else s.roleHere a

/-- Route a completion that was formed: it is due here, or kept as this deck's copy of what the twin writes (R292). -/
def State.route (s : State) (c : Completion) : State :=
  if s.writerOf c.opcode c.addr.toNat then { s with cwy := { s.cwy with cmplDue := s.cwy.cmplDue ++ [c] } }
  else { s with
    vdt := { s.vdt with twinDue := s.vdt.twinDue ++ [c] }
    cwy := { s.cwy with twinSlots := addSet c.seq s.cwy.twinSlots } }

/-- Take a descriptor out of the staged ones. -/
def State.unstage (s : State) (seq : Nat) : State :=
  { s with cwy := { s.cwy with staged := s.cwy.staged.filter (fun x => decide (x.seq ≠ seq)) } }

/-- A command of the deck completes at its boundary. -/
def State.deckFinish (s : State) (d : Staged) (st : Status) (result : Nat) : State :=
  (s.route (completionOf s d st result d.bound)).unstage d.seq

/-- A command that the twin alone carries out: its slot is the twin's, and it stays open until a frame shows the slot posted
(R292). -/
def State.leaveToTwin (s : State) (d : Staged) : State :=
  { s with
    cwy := { s.cwy with twinSlots := addSet d.seq s.cwy.twinSlots }
    vdt := { s.vdt with openA := s.vdt.openA ++ [d] }
    stage := { s.stage with handled := d.seq :: s.stage.handled } }

/-! ### What the tick finds before its commands (R173, R192, R215, R223, R244, R281) -/

/-- The cause that takes a span into SAFE in this tick. -/
def State.entryOf (s : State) : Span → Option Nat
  | .t0 => s.tracEntry 0
  | .t1 => s.tracEntry 1
  | .c => s.cEntry
  | .q => s.qEntry
  | .b => s.bEntry
  | x => s.aEntry (x.code - 5)

/-- Enter SAFE with a cause. -/
def State.safeOf (s : State) (x : Span) (cause : Nat) : State :=
  match x with
  | .t0 => s.tracSafe 0 cause
  | .t1 => s.tracSafe 1 cause
  | .c => s.cSafe cause
  | .q => s.qSafe cause
  | .b => s.bSafe cause
  | y => s.aSafe (y.code - 5) cause

/-- Give a span up with a cause of Table 12-6, once. -/
def State.giveUpSpan (s : State) (x : Span) (cause : Nat) : State :=
  if decide (s.vdt.pair = 2) && s.fitted x && !s.vdt.out.contains x && (decide (x.code ≤ 4) || s.leadsSpan x) &&
      !s.vdt.giveUp.any (fun g => decide (g.1 = x)) then
    { s with vdt := { s.vdt with giveUp := s.vdt.giveUp ++ [(x, cause)] } }
  else s

/-- The causes of SAFE of one span; in a pair an entry into SAFE gives the span up (causes 4 and 6), and so does a span
whose capacity falls (cause 5: unavailable or fallen back, R31, R148, R149). -/
def State.judgeSpan (s : State) (x : Span) : State :=
  if !s.fitted x then s
  else match s.entryOf x with
    | some c => (s.safeOf x c).giveUpSpan x (if s.trl.inLong ∧ x.code ≤ 4 then 6 else 4)
    | none => if s.capacity x = 0 ∨ s.capacity x < s.par.caps.getD x.code 0 ∨ x ∈ s.par.capFell then s.giveUpSpan x 5 else s

/-- What stands before the commands of the tick's compute: dips that end, angles and position faults, sense lines, causes of
SAFE, the exits of BYPASS and CHARGE, shifts and homes. Once per tick. -/
def State.prepare (s0 : State) : State :=
  if s0.tk.scanned || !s0.tk.phi0Done || s0.tk.phi2Done || !s0.start.ready then s0
  else
    let s := { s0 with tk := { s0.tk with scanned := true } }
    let b := s.nextBoundary
    let s := s.withStage { s.stage with tr0 := s.stage.tr0.dipEnds b, tr1 := s.stage.tr1.dipEnds b }
    let s := (List.range 4).foldl (fun (t : State) m => if t.fitted (aSp m) then t.aScan m else t) s
    let s := if s.fitted .c then
        let r := s.cSense s.stage.cs
        s.withStage ({ s.stage with cs := r.1 }.note r.2)
      else s
    let s := Span.all.foldl State.judgeSpan s
    let s := s.cBypassExit.qPilotExit
    (List.range 4).foldl (fun (t : State) m => if t.fitted (aSp m) then t.aOps m else t) s

/-! ### Commands to spans: gates, effect, completion -/

/-- What a command to a span answers. -/
structure SpanAct where
  v : Verdict
  s : State
  /-- RESULT where it stands when the command is applied, and CLIP. -/
  result : Nat
  clip : Bool
  /-- The quantities it sets (R333). -/
  quants : List Nat
  /-- It completes later (a shift, park, release or home). -/
  long : Bool

/-- An answer with no result of its own. -/
def SpanAct.of (r : Verdict × State) (quants : List Nat) : SpanAct :=
  { v := r.1, s := r.2, result := 0, clip := false, quants := quants, long := false }
/-- An answer with a result. -/
def SpanAct.res (r : Verdict × State) (result : Nat) (quants : List Nat) : SpanAct := { SpanAct.of r quants with result := result }

/-- Quantity k of a span: the targets of Table 15-5 that two commands may both set. -/
def quantOf (x : Span) (k : Nat) : Nat := x.code * 8 + k

/-- The quantities that a MODE sets through its VALUE (R362). -/
def modeQuants (x : Span) (code : Nat) : List Nat :=
  match x with
  | .t0 => if code = 2 then [quantOf x 0] else if code = 3 then [quantOf x 1] else []
  | .t1 => if code = 2 then [quantOf x 0] else if code = 3 then [quantOf x 1] else []
  | .c => if code = 2 ∨ code = 3 then [quantOf x 0] else if code = 4 then [quantOf x 1] else []
  | .q => if code = 2 ∨ code = 3 then [quantOf x 0] else []
  | _ => []

/-- MODE on a span, with its values. -/
def State.modeSpan (s : State) (x : Span) (code : Nat) (v v2 : Int) : Verdict × State :=
  if decide (code ≠ 0) && s.cur.disabled x && (decide (s.jobAhead = 0x60) || decide (s.jobAhead = 0x61)) then (.no .busy, s)
  else match x with
  | .t0 => s.tracMode 0 code v
  | .t1 => s.tracMode 1 code v
  | .c => s.cMode code v
  | .q => s.qMode code v v2
  | .b => s.bMode code
  | y => s.aMode (y.code - 5) code

/-- The traction span of a descriptor. -/
def dTrac (d : Staged) : Trac := if dSpan d = .t1 then 1 else 0
/-- The actuator of a descriptor. -/
def dAct (d : Staged) : Nat := (dSpan d).code - 5

/-- The effect of a span command on the stage, with its span's own checks. -/
def State.spanRun (s : State) (d : Staged) : SpanAct :=
  let x := dSpan d
  let t := dTrac d
  let m := dAct d
  let q0 := [quantOf x 0]
  let long := fun (r : Verdict × State) (qs : List Nat) => ({ SpanAct.of r qs with long := true } : SpanAct)
  match dOp d with
  | 0x100 => SpanAct.of (s.modeSpan x (dP d 0 1) (dS d 4) (dS d 8)) (modeQuants x (dP d 0 1))
  | 0x110 => SpanAct.of (s.tqTarget t (dS d 0)) q0
  | 0x111 => SpanAct.of (s.spdTargetCmd t (dS d 0)) [quantOf x 1]
  | 0x112 => SpanAct.of (s.posRearmCmd t) []
  | 0x120 => SpanAct.of (s.cVtgtCmd (dS d 0)) q0
  | 0x121 => SpanAct.of (s.cItgtCmd (dS d 0)) [quantOf x 1]
  | 0x122 => SpanAct.of (s.cPhasesCmd (dP d 0 1)) [quantOf x 2]
  | 0x123 =>
    let r := s.cCrowbarCmd
    SpanAct.res r (if r.1 = .go then 1 else 0) []
  | 0x130 => SpanAct.of (s.qPowerCmd (dS d 0) (dS d 4)) q0
  | 0x150 =>
    let r := s.aHoldCmd m (decide (dP d 0 1 = 1)) (dS d 4)
    SpanAct.res r (res2 (r.2.stage.actS m).target 0) [quantOf x 3]
  | 0x151 => long (s.aShiftCmd m (dP d 0 1) (dTag d) (some d)) [quantOf x 3]
  | 0x152 => long (s.aParkCmd m (dTag d) (some d)) [quantOf x 3]
  | 0x153 => long (s.aReleaseCmd m (dTag d) (some d)) [quantOf x 3]
  | 0x154 =>
    let r := s.aCurrentCmd m (dS d 0)
    let y := (r.2.stage.actS m).itgt
    { SpanAct.res r (res2 y 0) q0 with clip := decide (y ≠ dS d 0) }
  | 0x155 => long (s.aHomeCmd m (dTag d) (some d)) []
  | _ =>
    let c := (s.stage.actS m).posCause
    SpanAct.res (s.aRearmCmd m) c []

/-- VSPAN 0 commands to a shared span of a viaduct: MODE STANDBY and DISABLED and the leg commands alone (R265); a command
that would move a standby span goes to its owner (R243, R354). -/
def State.vspanGate (s : State) (d : Staged) : Option Status :=
  let a := dAddr d
  let op := dOp d
  if !s.inViaduct || decide (aVspan a = 1) || dIsDeck d then none
  else if aSpan a ≤ 4 then
    (if op = 0x50 ∨ op = 0x51 ∨ op = 0x52 ∨ (op = 0x100 ∧ dP d 0 1 = 0) ∨ (op = 0x100 ∧ dP d 0 1 = 1 ∧ aSpan a ≠ 4) then none
     else some .notOwner)
  else if decide (0x100 ≤ op) && decide (op ≠ 0x156) && !(s.stage.actS (aSpan a - 5)).owner then some .notOwner
  else none

/-- The span has entered SAFE in this tick's compute (R353). -/
def State.safedGate (s : State) (d : Staged) : Option Status :=
  if !dIsDeck d && s.stage.safed.contains (dSpan d) then some .causeActive else none

/-- Note a completion of a span command with its clip. -/
def State.spanDone (s : State) (d : Staged) (st : Status) (result : Nat) (clip : Bool) : State :=
  let c := { completionOf s d st result d.bound with clip := clip }
  { s with stage := { s.stage with cmpl := s.stage.cmpl ++ [c], handled := d.seq :: s.stage.handled } }

/-- A VSPAN 0 mode command that takes this deck's half out of a running state gives the span up (R265). -/
def State.modeRelinquish (s : State) (d : Staged) : State :=
  let x := dSpan d
  let run : Bool := match x with
    | .t0 => s.cur.tr0.running
    | .t1 => s.cur.tr1.running
    | .c => s.cur.cs.st.driven
    | .q => s.cur.qs.st.running
    | .b => decide (s.cur.bs.st = .armed)
    | _ => false
  if dOp d = 0x100 ∧ aVspan (dAddr d) = 0 ∧ s.inViaduct ∧ x.code ≤ 4 ∧ run then s.giveUpSpan x 10 else s

/-- One command to a span at its boundary check (R352, R353): it acts, names the state the span is in, or fails. -/
def State.spanCommand (s : State) (d : Staged) : State :=
  match (s.vspanGate d).orElse (fun _ => s.safedGate d) with
  | some st => s.spanDone d st 0 false
  | none =>
    let r := s.spanRun d
    match r.v with
    | .no st => s.spanDone d st 0 false
    | .same => s.spanDone d .success r.result false
    | .go =>
      let t := r.quants.foldl (fun (t : State) q => { t with stage := t.stage.quantity (some d.seq) q }) r.s
      let t := t.modeRelinquish d
      if r.long then { t with stage := { t.stage with handled := d.seq :: t.stage.handled } }
      else t.spanDone d .success r.result r.clip

/-! ### Completing with the values in force at the boundary (R354, Tables 15-4, 15-5) -/

/-- RESULT and CLIP of a span command that succeeded, from the state that became current at its boundary; a shift that ended
reports its clip whatever its outcome (R237). -/
def State.finish (s : State) (c : Completion) : Completion :=
  let a := c.addr.toNat
  let v := decide (aVspan a = 1) && s.inViaduct
  let ended := decide (0x151 ≤ c.opcode) && decide (c.opcode ≤ 0x153) && decide (c.result % 2 ^ 32 ≠ 0)
  match if ended then .success else c.status, aSpan? a with
  | .success, some x =>
    let t : Trac := if x = .t1 then 1 else 0
    let tr := s.cur.trac t
    let tq := if v then tr.tv else tr.tq
    let cs := s.cur.cs
    let qs := s.cur.qs
    let m := x.code - 5
    let am := s.cur.actS m
    let lim := am.busLim || am.dbgLim || am.peakExh
    match c.opcode with
    | 0x100 =>
      if x.code ≤ 1 then { c with result := res2 tq 0, clip := tr.tqClip }
      else if x = .c then
        { c with result := res2 (if cs.st = .link ∨ cs.st = .batt then cs.vref else if cs.st = .current then cs.idem else 0) 0, clip := cs.clip }
      else if x = .q then { c with result := res2 qs.ilim 0, clip := qs.clip }
      else if 5 ≤ x.code then { c with result := res2 (s.aPos m) 0 } else c
    | 0x110 => { c with result := res2 tq tr.tm, clip := tr.tqClip }
    | 0x111 => { c with result := res2 tq tr.speed, clip := tr.tqClip }
    | 0x112 => { c with result := (s.readReg (spanBase x + 0x11C)).toNat }
    | 0x120 => { c with result := res2 cs.vref cs.idem, clip := cs.clip }
    | 0x121 => { c with result := res2 cs.idem 0, clip := cs.clip }
    | 0x122 => { c with result := cs.active.length }
    | 0x130 => { c with result := res2 qs.power qs.ilim, clip := qs.clip }
    | 0x151 => { c with clip := lim }
    | 0x152 => { c with clip := lim }
    | 0x153 => { c with clip := lim }
    | _ => c
  | _, _ => c

/-! ### Deck-level commands: boundary checks (Table 15-3) -/

/-- Every fitted span is in OFF (R357). -/
def State.allOff (s : State) : Bool := Span.all.all (fun x => !s.fitted x || s.stage.inOff x)

/-- The converters of a mask. -/
def maskConvs (m : Nat) : List Conv := (List.finRange 16).filter (fun c => m.testBit c.val)

/-- The spans that a converter serves: those whose fixed connections its pair's bank holds (Table 03-1); ACT_BUS serves every
actuator (log 41). -/
def convSpans (c : Nat) : List Span :=
  match c / 2 with
  | 0 => [.t0]
  | 1 => [.t1]
  | 2 => [.c]
  | 3 => [.q]
  | 4 => [.b, .a0, .a1, .a2, .a3]
  | 5 => [.a2, .a3]
  | _ => []

/-- The deck that a HANDOVER names holds its target (R286). -/
def State.holds (s : State) (d : Staged) : Bool :=
  let here := s.roleHere (dAddr d)
  let mine := if dP d 0 1 = 15 then s.vdt.cwyLead else s.leadsSpan ((Span.ofCode? (dP d 0 1)).getD .t0)
  if here then mine else !mine

/-- The checks of HANDOVER. -/
def State.handoverCheck (s : State) (d : Staged) : Option Status :=
  if s.vdt.pair ≠ 2 then some .spanUnavailable
  else
    match Span.ofCode? (dP d 0 1) with
    | none => if s.holds d then none else some .notOwner
    | some x =>
      let st := (s.stage.actS (x.code - 5)).st
      if !s.fitted x then some .spanUnavailable
      else if !s.holds d then some .notOwner
      else if decide (5 ≤ x.code) && !(decide (st = .standby) || decide (st = .hold) || decide (st = .park)) then some .busy
      else none

/-- A leg is off: its active MODE is OFF, or its span is in OFF (R140, R147). -/
def State.legIsOff (s : State) (l : Nat) : Bool := decide ((s.leg l).act.mode % 4 = 0) || s.stage.inOff (Span.ofLeg l)

/-- The boundary checks of a command of the deck, a register or a leg, in the order of Table 15-3. -/
def State.deckCheck (s : State) (d : Staged) : Option Status :=
  let active := if s.allOff then none else some Status.spanActive
  let mem := if s.jobAhead = 0 then none else some Status.busy
  match dOp d with
  | 0x02 =>
    if !s.kst.faultLine && !s.allOff then some .spanActive
    else if !s.kst.faultLine && decide (s.vdt.pair = 2) && (!s.vdt.leads.isEmpty || s.vdt.cwyLead) then some .spanActive
    else none
  | 0x20 => s.handoverCheck d
  | 0x30 =>
    let t := (s.landWrites (s.dueWrites d.bound)).setRegs
      (((s.cwy.staged.filter (fun e => decide (dOp e = 0x30) && s.stage.handled.contains e.seq)).map tlPairs).flatten ++ tlPairs d)
    if (tlSetsOf (tlPairs d)).all t.setValid then none else some .invalidParameter
  | 0x40 =>
    if !s.adc.settled then some .referenceNotSettled
    else if (maskConvs (dP d 0 2)).any (fun c => (convSpans c.val).any (fun x => s.fitted x && !s.stage.inOff x)) then some .spanActive
    else none
  | 0x42 => if s.adc.seqEn then none else some .wrongState
  | 0x50 => if dIsDeck d || (dLegs d).all s.legIsOff then none else some .spanActive
  | 0x51 => if (dLegs d).any (fun l => (s.leg l).tripLatch && s.snap.lines.contains l) then some .tripActive else none
  | 0x52 => if (dLegs d).all s.legIsOff then none else some .spanActive
  | 0x60 => active.orElse (fun _ => if s.charterFrozen then some .charterFrozen else mem)
  | 0x61 => active.orElse (fun _ => mem)
  | 0x62 => mem
  | _ => none

/-- Every check of a command that is not one of a span's opcodes: how it was fetched, staging, viaduct, SAFE, boundary. -/
def State.deckStatus (s : State) (d : Staged) : Option Status :=
  d.fail.orElse (fun _ => (s.stageCheck d).orElse (fun _ => (s.vspanGate d).orElse (fun _ =>
    (s.safedGate d).orElse (fun _ => s.deckCheck d))))

/-! ### Deck-level commands: effects at the boundary -/

/-- ABORT (R335, R240, R358, R365), after every command and action of its boundary; `old` is the controlled state that
stood before it. A shift on a standby span of the twin is judged on this deck's copy, which is a tick behind, and on the shifts
left to it (DEDUCED, log 130). -/
def State.abortCommand (s : State) (old : Ctl) (d : Staged) : State :=
  let tag := dP d 0 4
  let free := fun (x : Staged) => decide ((completionOf s x .aborted 0 0).doneTag = tag)
  let hit := s.cwy.staged.filter (fun x => free x && decide (d.bound < x.bound))
  if hit ≠ [] then
    let t := hit.foldl (fun (t : State) x => (t.route (completionOf t x .aborted 0 d.bound)).unstage x.seq) s
    t.deckFinish d .success hit.length
  else
    let own := (List.range 4).filter (fun m => let x := s.cur.actS m; decide (x.tag = tag) && decide (x.kind ≠ .home))
    let left := s.vdt.openA.any (fun x => decide (dTag x = tag) && decide (0x151 ≤ dOp x) && decide (dOp x ≤ 0x153) && decide (d.bound ≤ x.bound + 1))
    let running := own.find? (fun m => decide ((s.cur.actS m).st = .shifting))
    let ended := own.find? (fun m => decide ((s.cur.actS m).out = .aborted) && decide ((old.actS m).st = .shifting))
    let done := ((List.range 4).flatMap (fun m => (s.cur.actS m).past)).find? (fun q => decide (q.1 = tag))
    let known := s.cwy.doneTags.contains tag || s.cwy.cmplDue.any (fun c => decide (c.doneTag = tag))
    match running, ended, done with
    | some m, _, _ =>
      let set := fun (c : Ctl) => c.putAct m { (c.actS m) with abortNow := (c.actS m).owner }
      ({ s with cur := set s.cur, stage := set s.stage }).deckFinish d .success 0
    | none, some _, _ => s.deckFinish d .success 0
    | none, none, some q => s.deckFinish d .tooLate q.2
    | none, none, none =>
      if left then s.deckFinish d .success 0 else s.deckFinish d (if known then .tooLate else .invalidParameter) 0

/-- LT_WRITE at its boundary (R306, R309). -/
def State.ltWriteCommand (s : State) (d : Staged) : State :=
  let k := dP d 0 1
  let b : BitVec 256 := BitVec.ofNat 256 (dP d 4 32)
  match s.ltCheck k b d.bound with
  | some st => s.deckFinish d st 0
  | none =>
    let x := s.pyl.slotAt k
    (s.putSlot k (armedSlot b false (s.entryFirst b))).deckFinish d .success (x.st + 2 ^ 32 * eTag x.bytes)

/-- LT_CLEAR at its boundary. -/
def State.ltClearCommand (s : State) (d : Staged) : State :=
  let k := dP d 0 1
  let x := s.pyl.slotAt k
  (s.putSlot k LtSlot.empty).deckFinish d .success (x.st + 2 ^ 32 * eTag x.bytes)

/-- CAL_MAP (R320): RESULT is the step applied, signed ns. -/
def State.calMapCommand (s : State) (d : Staged) : State :=
  let t := s.calMap (dP d 0 8) (dP d 8 8) (decide (dP d 16 1 = 1))
  let now := s.tk.now
  let step : Int := rheDiv (((t.calVal now : Nat) : Int) * 1000000000 - ((s.calVal now : Nat) : Int) * 1000000000) (2 ^ 24)
  t.deckFinish d .success (sbits step 64)

/-- The registers that a register command sets. -/
def dWrites (d : Staged) : List (Nat × Word) :=
  if dOp d = 0x30 then tlPairs d else if dOp d = 0x31 then coefWrites d else limitWrites d

/-- TL_SET, ENG_COEF and ENG_LIMIT at their boundary (R360, R361, R51): the set is in force, and register writes that landed
with it are overridden. `later` says that a later command of the boundary sets a register of it anew (R333). -/
def State.registerCommand (s : State) (landed : List (Nat × Word)) (d : Staged) (later : Bool) : State :=
  let ws := (dWrites d).map (fun p => (p.1, match regRow p.1 with | some r => p.2 &&& wd r.mask | none => p.2))
  let t := (tlSetsOf ws).foldl State.setLanded (s.setRegs ws)
  let t := t.overrideTl landed (ws.map (fun p => p.1))
  let e := s.cur.engS (dP d 0 1)
  let r := if dOp d = 0x30 then (s.readReg ((ws.head?.map (fun p => p.1)).getD 0)).toNat + 2 ^ 32 * dP d 0 1
    else s32w e.u + 2 ^ 32 * b2n (decide (e.mode = .run))
  (t.route { completionOf t d .success r d.bound with superseded := later }).unstage d.seq

/-- PAIR_REARM (R82). -/
def State.pairRearmCommand (s : State) (d : Staged) : State :=
  let ks := (List.range 8).filter (fun k => (dP d 0 1).testBit k)
  let was := bitmap 8 (fun k => ks.contains k && (s.pairS k).implausible)
  (ks.foldl (fun (t : State) k => t.updPair k (fun x => { x with implausible := false, run := 0 })) s).deckFinish d .success was

/-- ADC_TRIG (R72): a trigger for every type 4 source of each named converter at b + OFFSET. -/
def State.adcTrigCommand (s : State) (d : Staged) : State :=
  let cs := maskConvs (dP d 0 2)
  let srcs := fun (c : Conv) => (List.finRange 4).filter (fun (j : Fin 4) => decide (s.srcType c.val j.val = 4))
  let t := s.boundary d.bound + dP d 4 4 * u25
  let new := cs.flatMap (fun c => (srcs c).map (fun j => (c, j, t)))
  ({ s with adc := { s.adc with hostTrig := s.adc.hostTrig ++ new } }).deckFinish d .success
    (convMask (cs.filter (fun c => !(srcs c).isEmpty)))

/-- The bits of a list of legs. -/
def legBits (ls : List Nat) : Nat := bitmap 40 (fun k => ls.contains k)

/-- TRIP_CLEAR (R120): the latches of the named legs clear and their windows are emptied. -/
def State.tripClearCommand (s : State) (d : Staged) : State :=
  let ls := (dLegs d).filter (fun l => (s.leg l).tripLatch)
  let t := (s.updLegs (dLegs d) (fun _ g => { g with tripLatch := false, tripTicks := [] })).driveAll ls
  t.deckFinish d .success (legBits ls)

/-- PIER_CLEAR (R140): the desaturation latches of the named legs clear. -/
def State.pierClearCommand (s : State) (d : Staged) : State :=
  let ls := (dLegs d).filter (fun l => (s.leg l).desatHs || (s.leg l).desatLs)
  let t := (s.updLegs (dLegs d) (fun _ g => { g with desatHs := false, desatLs := false })).driveAll ls
  t.deckFinish d .success (legBits ls)

/-- A command that begins a block transfer runs until its block has been dealt with (R358). -/
def State.jobCommand (s : State) (d : Staged) : State :=
  ({ s with cwy := { s.cwy with job := some { cmd := d } } }).unstage d.seq

/-- The target of a HANDOVER. -/
def dTarget (d : Staged) : Option Span := Span.ofCode? (dP d 0 1)

/-- The effect of a deck-level, register or leg command at its boundary. -/
def State.deckEffect (s : State) (old : Ctl) (landed : List (Nat × Word)) (later : Bool) (d : Staged) : State :=
  match dOp d with
  | 0x00 => s.deckFinish d .success (s.boundary d.bound / uNs)
  | 0x01 => s.abortCommand old d
  | 0x02 => s
  | 0x10 => s.ltWriteCommand d
  | 0x11 => s.ltClearCommand d
  | 0x12 => s.calMapCommand d
  | 0x20 =>
    (s.handover (dTarget d)).deckFinish d .success 0
  | 0x40 => (s.startCal (maskConvs (dP d 0 2)) (some d)).unstage d.seq
  | 0x41 => s.pairRearmCommand d
  | 0x42 => s.adcTrigCommand d
  | 0x50 => ({ s with cwy := { s.cwy with tests := s.cwy.tests ++ [d] } }).unstage d.seq
  | 0x51 => s.tripClearCommand d
  | 0x52 => s.pierClearCommand d
  | 0x60 => s.jobCommand d
  | 0x61 => s.jobCommand d
  | 0x62 => s.jobCommand d
  | 0x63 =>
    ({ s with mrm := { s.mrm with trigs := s.mrm.trigs ++
      [({ code := 0xFF, addr := BitVec.ofNat 16 (dAddr d), cause := dP d 0 4, val := 0, tick := d.bound, cmd := some d } : RecTrig)] } }).unstage d.seq
  | _ => s.registerCommand landed d later

/-! ### One command at its boundary -/

/-- A descriptor of a span's opcode. -/
def isSpanOp (d : Staged) : Bool := spanOps.contains (dOp d)

/-- The status of a command at fetch or staging, which both decks of a viaduct find. -/
def State.earlyStatus (s : State) (d : Staged) : Option Status := d.fail.orElse (fun _ => s.stageCheck d)

/-- A command to a span: its staging checks, then its boundary checks and effect. -/
def State.runSpan (s : State) (d : Staged) : State :=
  if d.seq ∈ s.stage.handled then s
  else match s.earlyStatus d with
    | some st => s.spanDone d st 0 false
    | none => if s.actsHere d then s.spanCommand d else s.leaveToTwin d

/-- A HANDOVER that acts at once changes the controlled state with it. -/
def State.handoverNow (s : State) (d : Staged) : State :=
  match if dOp d = 0x20 ∧ s.vdt.pair = 2 then dTarget d else none with
  | some x => { s with cur := s.handedOver x s.cur, stage := s.handedOver x s.stage }
  | none => s

/-- A deck-level, register or leg command with its checks and its effect at once. -/
def State.runDeck (s : State) (d : Staged) : State :=
  match s.earlyStatus d with
  | some st => s.deckFinish d st 0
  | none =>
    if !s.actsHere d then (s.leaveToTwin d).unstage d.seq
    else match s.deckStatus d with
      | some st => s.deckFinish d st 0
      | none => (s.handoverNow d).deckEffect s.cur [] false d

/-- What the ROM loader's Causeway answers in abutment mode (R412): NOP, DECK_RESTART and UPDATE are carried out, every
other opcode completes with wrong-state. -/
def State.abutCommand (s : State) (d : Staged) : State :=
  match d.fail with
  | some st => s.deckFinish d st 0
  | none =>
    if dOp d = 0 then s.deckFinish d .success (s.tk.now / uNs)
    else if dOp d = 2 then s.deckRestart d d.bound
    else if dOp d = 0x62 then
      (if !s.payloadOk d then s.deckFinish d .invalidParameter 0
       else if s.jobOp ≠ 0 then s.deckFinish d .busy 0 else s.jobCommand d)
    else s.deckFinish d .wrongState 0

/-- A command under the fault line (R250, R329): a single deck completes it with fault-line; DECK_RESTART is carried out. -/
def State.faultCommand (s : State) (d : Staged) : State :=
  let b := max (s.kst.faultTick + 1) d.bound
  if dOp d = 2 ∧ d.fail.isNone ∧ s.roleHere (dAddr d) then s.deckRestart d b
  else if s.inViaduct then s
  else (s.route (completionOf s d .faultLine 0 b)).unstage d.seq

/-- The circumstances in which a command meets the deck: abutment mode, the fault line, a deck that is not ready or has no
clock (R44), else its own run. -/
def State.onDeck (s : State) (d : Staged) (run : State → State) : State :=
  if s.start.abut then s.abutCommand d
  else if s.kst.faultLine then s.faultCommand d
  else if s.start.ready && s.clocked then run s
  else s

/-- The meaning of a command to a span: the boundary checks of the tick in progress and its effect on the states that
become current at the next boundary. -/
def State.spanRow (s : State) (d : Staged) : State := s.onDeck d (fun t => t.prepare.runSpan d)
/-- The meaning of a command of the deck, a register or a leg: its boundary checks and its effect at its boundary. -/
def State.deckRow (s : State) (d : Staged) : State := s.onDeck d (fun t => t.runDeck d)

/-- NOP (R357): no effect; RESULT is the Pylon instant of its boundary. -/
def execNop (d : Staged) (s : State) : Host.Outcome State Fault Refusal := .next (s.deckRow d)
/-- ABORT (R335). -/
def execAbortCmd (d : Staged) (s : State) : Host.Outcome State Fault Refusal := .next (s.deckRow d)
/-- DECK_RESTART (R359): its checks, then the restart that the Causeway carries out in Φ3 of its tick. -/
def execDeckRestart (d : Staged) (s : State) : Host.Outcome State Fault Refusal :=
  .next (s.onDeck d (fun t =>
    if !t.actsHere d then (t.leaveToTwin d).unstage d.seq
    else match t.deckStatus d with
      | some st => t.deckFinish d st 0
      | none => t.deckRestart d d.bound))
/-- LT_WRITE (R306). -/
def execLtWrite (d : Staged) (s : State) : Host.Outcome State Fault Refusal := .next (s.deckRow d)
/-- LT_CLEAR (R306). -/
def execLtClear (d : Staged) (s : State) : Host.Outcome State Fault Refusal := .next (s.deckRow d)
/-- CAL_MAP (R320). -/
def execCalMap (d : Staged) (s : State) : Host.Outcome State Fault Refusal := .next (s.deckRow d)
/-- HANDOVER (R286). -/
def execHandover (d : Staged) (s : State) : Host.Outcome State Fault Refusal := .next (s.deckRow d)
/-- TL_SET (R360). -/
def execTlSet (d : Staged) (s : State) : Host.Outcome State Fault Refusal := .next (s.deckRow d)
/-- ENG_COEF (R361). -/
def execEngCoef (d : Staged) (s : State) : Host.Outcome State Fault Refusal := .next (s.deckRow d)
/-- ENG_LIMIT (R361). -/
def execEngLimit (d : Staged) (s : State) : Host.Outcome State Fault Refusal := .next (s.deckRow d)
/-- ADC_CAL (R85). -/
def execAdcCal (d : Staged) (s : State) : Host.Outcome State Fault Refusal := .next (s.deckRow d)
/-- PAIR_REARM (R82). -/
def execPairRearm (d : Staged) (s : State) : Host.Outcome State Fault Refusal := .next (s.deckRow d)
/-- ADC_TRIG (R357). -/
def execAdcTrig (d : Staged) (s : State) : Host.Outcome State Fault Refusal := .next (s.deckRow d)
/-- TRIP_CLEAR (R120). -/
def execTripClear (d : Staged) (s : State) : Host.Outcome State Fault Refusal := .next (s.deckRow d)
/-- PIER_CLEAR (R140). -/
def execPierClear (d : Staged) (s : State) : Host.Outcome State Fault Refusal := .next (s.deckRow d)
/-- REC_TRIG (R427). -/
def execRecTrig (d : Staged) (s : State) : Host.Outcome State Fault Refusal := .next (s.deckRow d)
/-- MODE (R362). -/
def execMode (d : Staged) (s : State) : Host.Outcome State Fault Refusal := .next (s.spanRow d)
/-- TQ_TARGET (R170). -/
def execTqTarget (d : Staged) (s : State) : Host.Outcome State Fault Refusal := .next (s.spanRow d)
/-- SPD_TARGET (R363). -/
def execSpdTarget (d : Staged) (s : State) : Host.Outcome State Fault Refusal := .next (s.spanRow d)
/-- T_POS_REARM (R165). -/
def execTPosRearm (d : Staged) (s : State) : Host.Outcome State Fault Refusal := .next (s.spanRow d)
/-- C_VTGT (R184). -/
def execCVtgt (d : Staged) (s : State) : Host.Outcome State Fault Refusal := .next (s.spanRow d)
/-- C_ITGT (R185). -/
def execCItgt (d : Staged) (s : State) : Host.Outcome State Fault Refusal := .next (s.spanRow d)
/-- C_PHASES (R189). -/
def execCPhases (d : Staged) (s : State) : Host.Outcome State Fault Refusal := .next (s.spanRow d)
/-- C_CROWBAR_CLR (R195). -/
def execCCrowbarClr (d : Staged) (s : State) : Host.Outcome State Fault Refusal := .next (s.spanRow d)
/-- Q_POWER (R207). -/
def execQPower (d : Staged) (s : State) : Host.Outcome State Fault Refusal := .next (s.spanRow d)
/-- A_HOLD (R229). -/
def execAHold (d : Staged) (s : State) : Host.Outcome State Fault Refusal := .next (s.spanRow d)
/-- A_SHIFT (R239). -/
def execAShift (d : Staged) (s : State) : Host.Outcome State Fault Refusal := .next (s.spanRow d)
/-- A_PARK (R242). -/
def execAPark (d : Staged) (s : State) : Host.Outcome State Fault Refusal := .next (s.spanRow d)
/-- A_RELEASE (R242). -/
def execARelease (d : Staged) (s : State) : Host.Outcome State Fault Refusal := .next (s.spanRow d)
/-- A_CURRENT (R229). -/
def execACurrent (d : Staged) (s : State) : Host.Outcome State Fault Refusal := .next (s.spanRow d)
/-- A_HOME (R235). -/
def execAHome (d : Staged) (s : State) : Host.Outcome State Fault Refusal := .next (s.spanRow d)
/-- A_POS_REARM (R236). -/
def execAPosRearm (d : Staged) (s : State) : Host.Outcome State Fault Refusal := .next (s.spanRow d)

/-! ### SELF_TEST (R147, R149) -/

/-- One self-test with what it found: legs or deck comparators; its completion names the tick of the test. -/
def State.testDone (s : State) (fails : List (Leg × Fin 10)) (units : List (Fin 4)) (d : Staged) : State :=
  if dIsDeck d then
    let t := s.commandedDeckTest units
    t.deckFinish d (if t.par.testFail = [] then .success else .selfTestFailed) (bitmap 4 (fun k => t.par.testFail.any (fun u => decide (u.val = k))))
  else
    let ls := dLegs d
    let t := ls.foldl (fun (t : State) l => t.commandedTest l ((fails.filter (fun f => decide (f.1.val = l))).map (fun f => f.2.val))) s
    let bad := ls.filter (fun l => (t.leg l).testFail ≠ [])
    let r := if aLeg (dAddr d) = 63 then legBits bad
      else bitmap 10 (fun k => ls.any (fun l => (t.leg l).testFail.contains k))
    t.deckFinish d (if bad = [] then .success else .selfTestFailed) r

/-- SELF_TEST (R147): the tests that run in this tick end, with the comparators that failed. -/
def execSelfTest (fails : List (Leg × Fin 10)) (units : List (Fin 4)) (s : State) : Host.Outcome State Fault Refusal :=
  .next (s.cwy.tests.foldl (fun (t : State) d => t.testDone fails units d) { s with cwy := { s.cwy with tests := [] } })

/-! ### The equivalents: launch actions, host-loss profile, fall-back (R308, R344, R347) -/

/-- What VSPAN 0 shuts out for the equivalent command in a viaduct (R243, R265): of a shared span all but MODE STANDBY and DISABLED,
of a standby span what its owner alone does. -/
def State.actionGate (s : State) (b : BitVec 256) (x : Span) : Bool :=
  s.inViaduct && decide (aVspan (eAddr b) = 0) &&
  (if 5 ≤ x.code then !(s.stage.actS (x.code - 5)).owner
   else decide (eAct b = 7) || (decide (eAct b = 6) && (decide (2 ≤ eb b 16 1) || (decide (x = .b) && decide (eb b 16 1 = 1)))))

/-- A launch action of a span (Table 13-6): its verdict and its effect on the stage. A dip applied late after an overrun
still ends at its own boundary + DUR (R310). -/
def State.actionSpan (s : State) (d : LtDue) (x : Span) : Verdict × State :=
  let b := d.bytes
  let ago := if d.why = 3 then s.nextBoundary - d.own else 0
  if !s.fitted x then (.no .spanUnavailable, s)
  else if s.actionGate b x then (.no .notOwner, s)
  else if s.stage.safed.contains x then (.no .causeActive, s)
  else match eAct b with
  | 1 => s.modeSpan x 1 0 0
  | 3 => (.go, if eb b 20 2 ≤ ago then s else s.tracDip (if x = .t1 then 1 else 0) (eb b 16 4 : Nat) (eb b 20 2 - ago))
  | 5 => s.aShiftCmd (x.code - 5) (eb b 16 1) (eTag b) none
  | 6 => s.modeSpan x (eb b 16 1) (eS b 20) (eS b 24)
  | _ => s.cPhasesCmd (eb b 16 1)

/-- The quantities that an action sets. -/
def actionQuants (b : BitVec 256) (x : Span) : List Nat :=
  if eAct b = 5 then [quantOf x 3] else if eAct b = 6 then modeQuants x (eb b 16 1) else if eAct b = 7 then [quantOf x 2] else []

/-- One action on spans in the compute of the tick before its boundary: the status of the last refusal and the spans refused
(R308, R311): of the lowest span code refused; a standby span of a viaduct is moved by its owner alone (R312), which is kept as
65,535. -/
def State.runAction (s : State) (d : LtDue) : State :=
  let b := d.bytes
  let v := decide (aVspan (eAddr b) = 1)
  let xs := s.entrySpans b
  if s.inViaduct && v && xs.all (fun x => if 5 ≤ x.code then !(s.stage.actS (x.code - 5)).owner else s.vdt.out.contains x) then
    { s with stage := { s.stage with ltOut := s.stage.ltOut ++ [(d.slot, 65535, 0)] } }
  else
    let step := fun (acc : State × Nat × Nat) (x : Span) =>
      let r := acc.1.actionSpan d x
      match r.1 with
      | .no st => (acc.1, if acc.2.2 = 0 then st.code else acc.2.1, acc.2.2 + 2 ^ x.code)
      | _ =>
        let t := (actionQuants b x).foldl (fun (t : State) q => { t with stage := t.stage.quantity none q }) r.2
        (t, acc.2.1, acc.2.2)
    let (t, st, no) := xs.foldl step (s, 0, 0)
    { t with stage := { t.stage with ltOut := t.stage.ltOut ++ [(d.slot, st, no)] } }

/-- A command of the host-loss profile at its boundary (R344): E064 reports it applied (cause 4) or refused (cause 5). -/
def State.runProfile (s : State) (p : ProfileCmd) : State :=
  let x := p.span
  let m := x.code - 5
  let y := s.stage.actS m
  let act : Option (Verdict × State) :=
    if !s.fitted x then none
    else match p.what, x with
    | 0, .t0 => if s.stage.tr0.running then some (s.modeSpan x 1 0 0) else none
    | 0, .t1 => if s.stage.tr1.running then some (s.modeSpan x 1 0 0) else none
    | 0, .q => if s.stage.qs.st.running then some (s.modeSpan x 1 0 0) else none
    | 0, _ => some (s.modeSpan x 1 0 0)
    | 1, _ => if y.owner && (decide (y.st = .current) || decide (y.st = .homing)) then some (s.aHoldHere m) else none
    | _, _ =>
      if y.owner && s.aParkLock m && y.homed && (decide (y.st = .standby) || decide (y.st = .hold)) then some (s.aParkCmd m 0 none) else none
  match act with
  | none => s
  | some (.no st, _) => s.withStage (s.stage.note [.ev 64 (s.spanAddr x) 5 st.code (s.nextBoundary : Nat)])
  | some (_, t) => t.withStage (t.stage.note [.ev 64 (s.spanAddr x) 4 p.what (s.nextBoundary : Nat)])

end Sys2Proof.Machine
end

