-- ==== Sys2Proof/Machine/Fetch.lean ====
section
/-! DEFINITION. Phase 1 of the tick: the doorbell page and the descriptors it announces (R326 to R332), host loss and its profile (R343 to R345), fall-back frames (R346, R347, R390), and the service tick of abutment mode (R412). -/
namespace Sys2Proof.Machine

/-! ### The doorbell page (R327, R328, Table 14-3) -/

/-- PAGE_CRC matches. -/
def pageOk (p : Block64) : Bool := dCrcOk p
/-- EVT_CONS or TLM_CONS of this deck: the field of its role. -/
def State.consOf (s : State) (p : Block64) (base : Nat) : Nat := blk p (base + if s.roleBit = 0 then 0 else 4) 4

/-- A fetch that did not arrive by T1END (R47): E071, counted, vector 7. -/
def State.fetchSlip (s0 : State) : State :=
  let s := if s0.start.abut then s0 else s0.at s0.t1end
  let t := { s with
    tk := { s.tk with fetchSlip := true, fetchSlips := satInc s.tk.fetchSlips max32 }
    cwy := { s.cwy with noFetch := s.cwy.noFetch + b2n s.start.ready } }
  (t.raise 71 s.deckAddr 0 0 0).signal 7

/-- A page whose CRC fails is discarded as if it had not been fetched (R328): E065 cause 1 "page". -/
def State.pageFailed (s : State) : State :=
  let t := { s with cwy := { s.cwy with
    pageCrc := true, pageErr := satInc s.cwy.pageErr max32, noFetch := s.cwy.noFetch + b2n s.start.ready } }
  (t.raise 65 s.deckAddr 1 0 0).signal 7

/-- The indices and the beat of a page that was fetched; the run of equal beats counts from deck ready (R325). -/
def State.takePage (s : State) (p : Block64) : State :=
  let b := blk p 4 4
  let w := s.cwy
  { s with cwy := { w with
      cmdProd := blk p 0 4, cmplCons := blk p 8 4, evtCons := s.consOf p 0x10, tlmCons := s.consOf p 0x18,
      beat := some b, beatSame := if !s.start.ready then 0 else if w.beat = some b then w.beatSame + 1 else 1, noFetch := 0, fetchTick := s.tk.count } }

/-- How many descriptors the fetch of the tick reads (R328): to CMD_PROD, FETCH_MAX and the full limit of R326. -/
def State.toRead (s : State) (p : Block64) : Nat :=
  let ahead := idxSub (blk p 0 4) s.cwy.cmdFetched
  let room := s.cmdEntries - idxSub s.cwy.cmdFetched (blk p 8 4)
  min ahead (min s.fetchMax room)

/-- CMD_FULL (R326): a descriptor is announced beyond the full limit; E066 once per episode, vector 6 when it begins. -/
def State.judgeFull (s : State) : State :=
  let full := decide (s.cmdEntries < idxSub s.cwy.cmdProd s.cwy.cmplCons)
  let t := { s with cwy := { s.cwy with cmdFull := full, fullRaised := full } }
  if full && !s.cwy.fullRaised then (t.raise 66 s.deckAddr 0 s.cwy.cmdProd s.cwy.cmplCons).signal 6 else t

/-! ### Checks and binding (R331, R332) -/

/-- The check of R331 that a descriptor fails, first to last, with the cause of E065: 2 CRC, 3 sequence, 4 invalid address,
5 invalid parameter. -/
def State.fetchCheck (s : State) (d : Staged) : Option (Status × Nat) :=
  if !dCrcOk d.desc then some (.descriptorCrc, 2)
  else if dSeq d ≠ d.seq then some (.sequence, 3)
  else if !addrValid s.inViaduct (dAddr d) then some (.invalidAddress, 4)
  else if dZero d ≠ 0 then some (.invalidParameter, 5)
  else none

/-- The boundary to which effective tick e is bound when fetched in tick m, whether it is late, and whether it lies beyond
the horizon (R332). -/
def bindTick (e m : Nat) : Tick × Bool × Bool :=
  if e = 0 then (m + 2, false, false)
  else if e ≤ m + 1 then (m + 2, true, false)
  else if e ≤ m + 2 ^ 24 then (e, false, false)
  else (m + 2, false, true)

/-- Count a failed check and raise E065. -/
def State.fetchError (s : State) (d : Staged) (st : Status) (cause : Nat) : State :=
  let w := s.cwy
  let t := { s with cwy := { w with
    dcrcCount := if st = Status.descriptorCrc then satInc w.dcrcCount max16 else w.dcrcCount
    seqCount := if st = Status.sequence then satInc w.seqCount max16 else w.seqCount } }
  t.raise 65 s.deckAddr cause d.seq st.code

/-- One descriptor is fetched: it is checked, bound and staged. A failed check of R331 comes before host-lost (R343), and
both before the horizon and the staging checks. Under the fault line the Causeway acts on a deck restart although the host
was lost (R251, R329). -/
def State.fetchOne (s : State) (b : Block64) : State :=
  let d0 : Staged := { desc := b, seq := s.cwy.cmdFetched, bound := 0, late := false, lateCause := 0, fail := none }
  let (n, late, far) := bindTick (dEff d0) s.tk.count
  let r := s.fetchCheck d0
  let fail := (r.map (fun x => x.1)).orElse (fun _ =>
    if s.cwy.hostLost && !s.kst.faultLine then some .hostLost else if far then some .horizon else s.stageCheck d0)
  let d : Staged := { d0 with bound := n, late := late, lateCause := if late then 1 else 0, fail := fail }
  let w := s.cwy
  let t := { s with cwy := { w with
    staged := w.staged ++ [d], cmdFetched := idxNext w.cmdFetched,
    lateCount := if late then satInc w.lateCount max32 else w.lateCount } }
  match r with
  | some (st, cause) => t.fetchError d st cause
  | none => t

/-! ### Host loss (R343 to R345) -/

/-- HL_EN, HL_PARK_EN and HL_C_STOP. -/
def State.hlBit (s : State) (i : Nat) : Bool := bitOf (s.reg 0x2040) i
/-- HL_TICKS. -/
def State.hlTicks (s : State) : Nat := fld (s.reg 0x2040) 0 16

/-- The commands of the profile from a tick h (R344): `what` is 0 STANDBY, 1 hold, 2 park. -/
def State.profileOf (s : State) (h : Tick) : List ProfileCmd :=
  let c := h + 2 + fld (s.reg 0x2044) 16 16
  let park := h + 2 + fld (s.reg 0x2044) 0 16
  let one := fun (x : Span) (w b : Nat) => ({ span := x, what := w, bound := b } : ProfileCmd)
  [one .t0 0 (h + 2), one .t1 0 (h + 2)] ++ (if s.hlBit 18 then [one .c 0 c] else []) ++ [one .q 0 (h + 2)] ++
  ([Span.a0, .a1, .a2, .a3].map (fun x => one x 1 (h + 2))) ++
  (if s.hlBit 17 then [Span.a0, .a1, .a2, .a3].map (fun x => one x 2 park) else [])

/-- Host loss begins in tick h: the descriptors bound to h + 2 or later complete with host-lost, and the profile is issued. -/
def State.hostLoss (s : State) (cause : Nat) : State :=
  let h := s.tk.count
  let lose := fun (d : Staged) =>
    if h + 2 ≤ d.bound ∧ (s.fetchCheck d).isNone then { d with fail := some .hostLost } else d
  let t := { s with cwy := { s.cwy with
    hostLost := true, hlTick := h % 65536, staged := s.cwy.staged.map lose, profile := s.cwy.profile ++ s.profileOf h } }
  (t.raise 64 s.deckAddr cause s.hlTicks 0).judgeFb

/-- Host loss ends at the fetch of tick r (R345): the profile commands bound to r + 2 or later are cancelled. -/
def State.hostBack (s : State) : State :=
  let t := { s with cwy := { s.cwy with
    hostLost := false, profile := s.cwy.profile.filter (fun p => decide (p.bound < s.tk.count + 2)) } }
  (t.raise 64 s.deckAddr 3 0 0).judgeFb

/-- Host loss is judged at the fetch of the tick, before its descriptors are bound: `before` is the beat of the fetch
before it, `ok` that this one succeeded. -/
def State.judgeHost (s : State) (before : Option Nat) (ok : Bool) : State :=
  if s.cwy.hostLost then
    (if ok && decide (s.cwy.beat ≠ before) && before.isSome then s.hostBack else s)
  else if !s.hlBit 16 then s
  else if ok && decide (s.hlTicks ≤ s.cwy.beatSame) then s.hostLoss 1
  else if !ok && decide (s.hlTicks ≤ s.cwy.noFetch) then s.hostLoss 2
  else s

/-! ### The fetch of a tick -/

/-- The descriptors of the fetch are staged, or under the fault line answered (R250, R329). -/
def State.takeDescs (s : State) (ds : List Block64) : State := ds.foldl State.fetchOne s

/-- The page and the descriptors of a tick: a missing page, a page that fails its CRC, and a descriptor that did not
arrive give the fetch up as a whole. Before deck ready, and in no other circumstance, the page alone is read (R325). -/
def State.fetchPage (s : State) (page : Option Block64) (descs : List Block64) : State :=
  let live := (s.start.ready || s.start.abut) && !s.kst.faultLine
  let judge := fun (t : State) (ok : Bool) => if live && s.start.ready then t.judgeHost s.cwy.beat ok else t
  match (if s.cwy.linkUp then page else none) with
  | none => judge s.fetchSlip false
  | some p =>
    if !pageOk p then judge s.pageFailed false
    else
      let n := if s.start.ready || s.start.abut || s.kst.faultLine then s.toRead p else 0
      if descs.length < n then judge s.fetchSlip false
      else ((judge (s.takePage p) true).judgeFull).takeDescs (descs.take n)

/-- DOORBELL_FETCH (R328): Φ1 of the tick. -/
def execDoorbellFetch (page : Option Block64) (descs : List Block64) (s : State) : Host.Outcome State Fault Refusal :=
  if s.tk.phi1Done || s.start.abut || !s.start.ticking || !s.clocked then .next s
  else
    let t := if s.cwy.run then (s.advanceProd.fetchPage page descs) else s
    .next { t with tk := { t.tk with phi1Done := true } }

/-- ABUTMENT_SERVICE_TICK (R412): the Causeway of the ROM loader on its 1 ms tick: what was fetched two service ticks
before is applied, completions and events are written (R411), and the ring is fetched. CWY_CTRL.EN acts from the next service tick
(DEDUCED, log 134). -/
def execAbutmentServiceTick (page : Option Block64) (descs : List Block64) (s0 : State) : Host.Outcome State Fault Refusal :=
  if !s0.start.abut then .next s0
  else
    let m := s0.start.service + 1
    let s := { s0 with
      start := { s0.start with service := m }
      cwy := { s0.cwy with run := bitOf (s0.reg 0x2000) 0, evs := if s0.cwy.run then s0.cwy.evs else [] } }
    let due := s.cwy.staged.filter (fun d => decide (d.bound ≤ m))
    let s := due.foldl (fun (t : State) d => if t.start.abut then t.abutCommand d else t) s
    if !s.start.abut then .next s
    else
      let s := s.writeCompletions.writeEvents
      let old := s.cwy.staged.map (fun d => d.seq)
      let s := if s.cwy.run then s.advanceProd.fetchPage page descs else s
      .next { s with cwy := { s.cwy with staged := s.cwy.staged.map (fun d =>
        if old.contains d.seq then d
        else { d with bound := m + 2, late := false, lateCause := 0, fail := (s.fetchCheck d).map (fun x => x.1) }) } }

/-! ### Fall-back frames (R346, R347, R390) -/

/-- Bytes of a fall-back frame as a little-endian number. -/
def fbNat (f : List Byte) (o n : Nat) : Nat := ofLe (((f.drop o).take n).map BitVec.toNat)

/-- The form of a frame: 16 bytes, its CRC, an OP of 1 to 4 and 0 where the layout has 0. -/
def fbFormOk (f : List Byte) : Bool :=
  decide (f.length = 16) && decide (fbNat f 12 4 = (crc32c ((f.take 12).map BitVec.toNat)).toNat) &&
  decide (1 ≤ fbNat f 0 1 ∧ fbNat f 0 1 ≤ 4) && decide (fbNat f 1 1 < 4) && decide (fbNat f 8 4 = 0) &&
  (decide (fbNat f 0 1 = 3) || decide (fbNat f 4 4 = 0))

/-- COUNTER is 1 to 32,767 ahead of the last accepted value. -/
def fbFresh (last : Option Nat) (k : Nat) : Bool :=
  match last with
  | none => true
  | some l => let d := (k + 65536 - l) % 65536; decide (1 ≤ d ∧ d ≤ 32767)

/-- The answer on F00 (R347) from object 127, with E068. -/
def State.fbReply (s : State) (op status counter tick : Nat) : State :=
  let head := [op % 256, status] ++ leBytes counter 2 ++ leBytes tick 8
  ((s.fillObj 0 127 ((head ++ leBytes (crc32c head).toNat 4).map (BitVec.ofNat 8))).raise 68 s.deckAddr status op counter)

/-- An answer to a frame that is not applied; the spec states no applied tick for it (log 65). -/
def State.fbRefuse (s : State) (op status counter : Nat) : State :=
  let k := s.freeCtr
  ({ s with freeCtr := k + 1 }).fbReply op status counter (Config.freeReplyTick k).toNat

/-- FALLBACK_FRAME (R347, R390): the frame that waits first is read in Φ1 of tick m, where it came up to T1END: path inactive, CRC or format, stale counter,
or accepted and bound to boundary m + 2. Stop issues the profile of R344 at m + 2. -/
def execFallbackFrame (s0 : State) : Host.Outcome State Fault Refusal :=
  match s0.fp.fbIn with
  | [] => .next s0
  | f :: rest =>
    let s := { s0 with fp := { s0.fp with fbIn := rest } }
    let op := fbNat f.data 0 1
    let k := fbNat f.data 2 2
    if s.tk.count < f.due then .next s0
    else if !s.fbOn || s.kst.faultLine || !s.start.ready then .next (s.fbRefuse op 1 k)
    else if !f.fd || !fbFormOk f.data then .next (s.fbRefuse op 2 k)
    else if !fbFresh s.cwy.fbCounter k then .next (s.fbRefuse op 3 k)
    else
      let m := s.tk.count
      .next { s with cwy := { s.cwy with
        fbCounter := some k, fbStaged := s.cwy.fbStaged ++ [(f.data.map BitVec.toNat, m + 2)],
        profile := if op = 1 then s.cwy.profile ++ s.profileOf m else s.cwy.profile } }

/-- The commands of an accepted frame, in span order: what each span answers (R347). -/
def State.fbActs (s : State) (f : List Nat) : List (State → Verdict × State) :=
  let byte := fun (k n : Nat) => ofLe ((f.drop k).take n)
  let tr := [Span.t0, .t1].filter (fun x => s.fitted x && (byte 1 1).testBit x.code)
  let acts := (List.range 4).filter (fun m => s.fitted (aSp m) && (s.stage.actS m).owner)
  let lim := sig (s.reg 0x204C)
  let v : Int := clampI (BitVec.ofNat 32 (byte 4 4)).toInt (-lim) lim
  match byte 0 1 with
  | 2 => tr.map (fun x => fun (t : State) => t.modeSpan x 3 0 0) ++
      (acts.filter (fun m => decide ((s.stage.actS m).st = .current) || decide ((s.stage.actS m).st = .homing))).map
        (fun m => fun (t : State) => t.aHoldHere m)
  | 3 => tr.map (fun x => fun (t : State) => t.modeSpan x 2 v 0)
  | 4 => (acts.filter s.aParkLock).map (fun m => fun (t : State) => t.aParkCmd m 0 none)
  | _ => []

/-- An accepted frame at its boundary: status 0 where every span took its command, 4 where one refused; stop has been
carried by the profile, whose refusals E064 has noted. -/
def State.fbApply (s : State) (f : List Nat) : State :=
  let stopNo := decide (ofLe (f.take 1) = 1) && s.stage.notes.any (fun n => match n with
    | .ev 64 _ 5 _ _ => true
    | _ => false)
  let step := fun (acc : State × Bool) (act : State → Verdict × State) =>
    let r := act acc.1
    match r.1 with
    | .no _ => (acc.1, true)
    | _ => (r.2, acc.2)
  let (t, no) := (s.fbActs f).foldl step (s, stopNo)
  t.withStage (t.stage.note [.fbReply (ofLe (f.take 1)) (if no then 4 else 0) (ofLe ((f.drop 2).take 2))])

end Sys2Proof.Machine
end

