-- ==== Sys2Proof/Machine/Tick.lean ====
section
/-! DEFINITION. The deck tick (chapters 02, 12, 13, 14): the snapshot at T0END, the compute of Φ2, the writes and the frame of Φ3, and the boundary that makes all of it current. -/
namespace Sys2Proof.Machine

/-! ### Φ0: the snapshot (R56, R71, Table 02-3) -/

/-- The status bits and limits as they stand when a tick opens: what the Parapet, the Truss or the clocks do in a tick is
sampled in Φ0 of the following one (R35, R118, R120, R140). -/
def State.sampled (s : State) : SnapS :=
  let with' := fun (p : Nat → Bool) => allLegs.filter p
  { usable := with' s.legServes, usableNoBrg := with' s.usableButBearing,
    trip := with' (fun l => (s.leg l).tripLatch), desat := with' (fun l => (s.leg l).desatHs || (s.leg l).desatLs),
    lines := [],
    gateHs := with' (fun l => s.canGate l .hs), gateLs := with' (fun l => s.canGate l .ls),
    shortSpans := s.par.spanSc, stTrips := Span.all.filter (fun x => x.legs.any (fun l => (s.leg l).stTrip)),
    syncSpans := s.par.syncSpans,
    linkOv := s.par.linkOvLatch || s.par.ovNow.any (fun u => decide (u.val < 2)), cOv := s.cHw.crowbar,
    implausible := [],
    orders := Span.all.filter (fun x => s.trl.inShut.contains x || (s.trl.inLong && decide (x.code ≤ 4))),
    ftr := s.trl.inFtr, fcoolQ := s.trl.inQ, fcoolT := s.trl.inT, fcoolC := s.trl.inC }

/-- What is fixed at the end of Φ0 itself: the undervoltage and self-test status, the trip lines, the pairs' verdicts, and
whether an overvoltage that stood when the tick opened still stands (R35, R79, R120, Table 02-3). A desaturation enters with
the following tick (R140). -/
def State.sampledAt (s : State) : SnapS :=
  { s.opened with
    usable := allLegs.filter s.legServes, usableNoBrg := allLegs.filter s.usableButBearing,
    gateHs := allLegs.filter (fun l => s.hasSupply l .hs && !s.opened.desat.contains l),
    gateLs := allLegs.filter (fun l => s.hasSupply l .ls && !s.opened.desat.contains l),
    lines := allLegs.filter (fun l => (s.leg l).ocLine || (s.leg l).scLine),
    linkOv := s.opened.linkOv && (s.par.linkOvLatch || s.par.ovNow.any (fun u => decide (u.val < 2))),
    implausible := (List.range 8).filter (fun k => (s.pairS k).implausible) }

/-- PHI0_SNAPSHOT (R71): at T0END the 96 inputs, the pairs, the status bits and the twin's frame are fixed. `ov` are the
overvoltage units whose output is asserted; `inj` the codes of those slots of injected sequences in progress that have ended
(R75, R78). -/
def execPhi0Snapshot (ov : List (Fin 4)) (inj : List (Conv × List (BitVec 16))) (s0 : State) : Host.Outcome State Fault Refusal :=
  if !s0.start.ticking || s0.start.abut || !s0.clocked || s0.tk.phi0Done then .next s0
  else
    let s := s0.at s0.t0end
    let s := inj.foldl (fun (t : State) q => t.injectedEnded q.1 q.2) { s with par := { s.par with ovNow := ov } }
    let s := s.snapshot
    let s := { s with snap := s.sampledAt }
    let s := s.judgeFrame
    .next { s with tk := { s.tk with phi0Done := true } }

/-! ### Φ2: the compute (R30 to R39, R97, chapters 07 to 10) -/

/-- The link-support factor (R37); it is kept while AI35 is distrusted or not settled. -/
def State.linkSupport (s : State) : Int :=
  let x := s.inp 35
  let floor := sig (s.reg 0x58)
  let band := sig (s.reg 0x5C)
  if x.pairBad || x.notSettled then s.cur.flink
  else clampI (rheQ ((s.ai 35 - (floor - band)) * one24) band) 0 one24

/-- The factor of the tick, with E033 for each derated span when it leaves 1.0 (cause 1) and when it returns (cause 2). -/
def State.derateLink (s : State) : State :=
  let f := s.linkSupport
  let xs := [Span.t0, .t1, .q].filter s.fitted
  let ev := fun (cause : Nat) => xs.map (fun x => Note.ev 33 (s.spanAddr x) cause f 0)
  let notes := if s.cur.flink = one24 ∧ f ≠ one24 then ev 1 else if s.cur.flink ≠ one24 ∧ f = one24 then ev 2 else []
  s.withStage ({ s.stage with flink := f }.note notes)

/-- The inputs and limits that the outer engines of a led span used (S3 of the mirror frame). -/
def State.keepS3 (s : State) (x : Span) (p : SpanPost) (prev now : Ctl) : State :=
  if !s.inViaduct || !s.leadsSpan x then s
  else
    let words := fun (q : Nat × EngMode × Int × Int) =>
      let i := s.engInputs p prev now q.1
      (q.1, [i.r, i.y, i.f, i.t, q.2.2.1, q.2.2.2])
    let outer := s.outerEng
    { s with vdt := { s.vdt with s3 := s.vdt.s3 ++ (p.eng.filter (fun q => outer.contains q.1)).map words } }

/-- The engines of a span run between the two parts of its compute. -/
def State.engines (s : State) (x : Span) (post : SpanPost) (prev : Ctl) : State × Ctl :=
  let p := s.ownEngines (s.spanEngines x post)
  let now := s.runEngines p prev s.stage
  (s.keepS3 x p prev now, now)

/-- Traction span t in one tick. -/
def State.computeTrac (s : State) (prev : Ctl) (t : Trac) : State :=
  if !s.fitted (Span.ofTrac t) then s
  else
    let p := s.tracPre t prev (s.stage.trac t) s.stage.flink (s.outerOf t)
    let (u, now) := s.engines (Span.ofTrac t) p.post prev
    u.withStage (s.tracPost t prev now p)

/-- Span C in one tick. -/
def State.computeC (s : State) (prev : Ctl) : State :=
  if !s.fitted .c then s
  else
    let d := s.cDemand
    let p := s.cPre prev d.1
    let (u, now) := s.engines .c p.post prev
    u.withStage (s.cPost now p d.2)

/-- Span Q in one tick. -/
def State.computeQ (s : State) (prev : Ctl) : State :=
  if !s.fitted .q then s
  else
    let p := s.qPre prev s.stage.flink s.qOuter s.qShared
    let (u, now) := s.engines .q p.post prev
    u.withStage (s.qPost now p)

/-- Span B in one tick. -/
def State.computeB (s : State) : State := if s.fitted .b then s.withStage (s.bCompute s.stage) else s

/-- Actuator m in one tick. -/
def State.computeA (s : State) (prev : Ctl) (m : Nat) : State :=
  if !s.fitted (aSp m) then s
  else if s.inViaduct && !(s.stage.actS m).owner then s.withStage (s.aIdle m s.stage)
  else
    let p := s.aPre prev m
    let (u, now) := s.engines (aSp m) p.post prev
    u.withStage (s.aPost m now p (prev.actS m))

/-- The spans of the deck in code order, from the states current at boundary n and the states that the commands have set for
boundary n + 1; the follower's shadow, the standby spans that it takes over and its copies of the others with them. -/
def State.computeSpans (s0 : State) : State :=
  let (s, shadowed) := s0.shadow
  let prev := s.adoptEngines shadowed
  let kept := s.outerEng.foldl (fun (c : Ctl) g =>
    match Span.ofCode? (s.engSpan g) with
    | some x => if s.follows x then c.putEng g (prev.engS g) else c
    | none => c) s.stage
  let s := ({ s.withStage kept with vdt := { s.vdt with s3 := [] } }).followInputs.derateLink
  let s := ((((s.computeTrac prev 0).computeTrac prev 1).computeC prev).computeQ prev).computeB
  ((List.range 4).foldl (fun (t : State) m => t.computeA prev m) s).copyStandby

/-- An owner applies at most 8 commands to its standby spans at one boundary; a later one goes to the next, late with cause
4 "queue" (R275). The first part says that the command was put off. -/
def State.putOff (s : State) (d : Staged) (k : Nat) : Bool × State :=
  if s.inViaduct && s.actsHere d && decide (5 ≤ aSpan (dAddr d)) && decide (aSpan (dAddr d) ≤ 8) && decide (8 ≤ k) then
    (true, { s with cwy := { s.cwy with staged := s.cwy.staged.map (fun x =>
      if x.seq = d.seq then { x with bound := s.nextBoundary + 1, late := true, lateCause := 4 } else x) } })
  else (false, s)

/-- One staged command in the compute before its boundary: a span command acts; a command of the deck, a register or a leg
passes its checks, and has its effect at the boundary; a handover changes who computes for that boundary (R286). -/
def State.runStaged (acc : State × Nat) (d : Staged) : State × Nat :=
  let s := acc.1
  let std := decide (5 ≤ aSpan (dAddr d)) && decide (aSpan (dAddr d) ≤ 8)
  let (off, t) := s.putOff d acc.2
  if off then (t, acc.2)
  else
    let k := if std && s.actsHere d then acc.2 + 1 else acc.2
    if isSpanOp d then (s.runSpan d, k)
    else if d.seq ∈ s.stage.handled then acc
    else match s.earlyStatus d with
      | some st => ({ s with stage := { s.stage with refused := s.stage.refused ++ [(d.seq, st)] } }, k)
      | none =>
        if !s.actsHere d then (s.leaveToTwin d, k)
        else match s.deckStatus d with
          | some st => ({ s with stage := { s.stage with refused := s.stage.refused ++ [(d.seq, st)] } }, k)
          | none =>
            let t := if dOp d = 0x20 then s.stageHandover (dTarget d) else s
            ({ t with stage := { t.stage with handled := d.seq :: t.stage.handled } }, k)

/-- The commands due at a boundary, in ring order (R333). -/
def State.dueStaged (s : State) (b : Tick) : List Staged := s.cwy.staged.filter (fun d => decide (d.bound ≤ b))

/-- What stands for boundary n + 1: the profile, the commands in ascending SEQ, fall-back frames, launch actions (R51, R308,
R333, R344, R347). -/
def State.runCommands (s0 : State) : State :=
  let b := s0.nextBoundary
  let s := (s0.cwy.profile.filter (fun p => decide (p.bound ≤ b))).foldl State.runProfile s0
  let s := ((s.dueStaged b).foldl State.runStaged (s, 0)).1
  let s := (s.cwy.fbStaged.filter (fun f => decide (f.2 ≤ b))).foldl (fun (t : State) f => t.fbApply f.1) s
  ((s.ltNow b).filter (fun d => decide (eAct d.bytes ≠ 2) && decide (eAct d.bytes ≠ 4))).foldl State.runAction s

/-- The instant at which Φ2 ended against P − TRES (R48, R63): the least slack in 5 ns units, or a mirror slip. -/
def State.judgeSlack (s : State) (endAt : Nat) : State :=
  let lim := s.pu - s.tres
  if endAt ≤ lim then
    { s with tk := { s.tk with slackMin := if s.tk.mirrorSlips = 0 then min s.tk.slackMin ((lim - endAt) / (5 * uNs)) else 0 } }
  else
    ({ s with tk := { s.tk with
      mirLate := true, mirrorSlip := true, mirrorSlips := satInc s.tk.mirrorSlips max32, slackMin := 0 } }).raise 72 s.deckAddr 0
        ((endAt - lim) / (5 * uNs) : Nat) 0

/-- What a note asks for happens at the boundary. The release of the crowbar raises E013 with cause 2 and the ticks of entry and
release, a protection event, so that the recorder records it (R196; DESIGN CHOICE, log 125). -/
def State.doNote (s : State) (n : Note) : State :=
  match n with
  | .ev code addr cause v v2 => s.raise code addr cause v v2
  | .stick f => s.stick f
  | .posRearm t => s.updPos t (fun q => { q with causeAmp := false, causeTrk := false, causeExc := false })
  | .crowbarClear =>
    ({ s with cHw := { s.cHw with crowbar := false } }.driveAll Span.c.legs).raise 13 (s.spanAddr .c) 2 s.cHw.crowTick s.tk.count
  | .fbReply op st k => if st = 0 then s.fbReply op 0 k s.tk.count else s.fbRefuse op st k

/-- An event that the compute finds in its own tick (R337, log 68), as against one that goes with a change of state at the
boundary. -/
def Note.found : Note → Bool
  | .ev code _ cause _ _ => [16, 33, 42, 43, 44, 49, 53, 55, 56, 58, 63].contains code || (decide (code = 62) && decide (cause = 16))
  | _ => false

/-- Raise what the compute found, in the tick of the compute. -/
def State.raiseFound (s : State) : State :=
  let found := s.stage.notes.filter Note.found
  let t := { s with stage := { s.stage with notes := s.stage.notes.filter (fun n => !n.found) } }
  found.foldl State.doNote t

/-- PHI2_COMPUTE (R46, R56): once Φ0 and Φ1 have ended, the outputs of the tick from its inputs. `endAt` is the instant in
the tick at which the last span's compute ends; a compute that has not ended by the boundary leaves nothing (R59). `tie` are
the transmitters and receivers of the tie that fail their self-check (R272). -/
def execPhi2Compute (endAt : Nat) (tie : List (Fin 4)) (s0 : State) : Host.Outcome State Fault Refusal :=
  if !s0.coresRun || s0.start.abut || s0.tk.phi2Done || !s0.tk.phi0Done || !s0.tk.phi1Done || decide (s0.pu ≤ endAt) then .next s0
  else
    let s := if s0.start.ready then s0.adoptStandby.rebindOpen.prepare.runCommands.computeSpans else s0
    let s := ((s.at endAt).raiseFound.tieSelfCheck tie).judgeSlack endAt
    .next { s with tk := { s.tk with phi2Done := true } }

/-! ### Φ3: rings, recorder, frame (R268, R334, R337, R340, R427) -/

/-- The commands that run over several ticks, or wait within one, when the fault line comes (R250). -/
def State.runningCmds (s : State) : List Staged :=
  (List.range 4).filterMap (fun m => (s.cur.actS m).cmd) ++
  s.adc.cal.filterMap (fun r => r.cmd) ++ (match s.cwy.job with | some j => [j.cmd] | none => []) ++
  s.cwy.tests ++ s.mrm.trigs.filterMap (fun t => t.cmd)

/-- Nothing runs any more. -/
def State.dropRunning (s : State) : State :=
  let stop := fun (c : Ctl) => (List.range 4).foldl (fun (c : Ctl) m => c.putAct m { (c.actS m) with cmd := none }) c
  { s with
    cur := stop s.cur, stage := stop s.stage, adc := { s.adc with cal := [] }, cwy := { s.cwy with job := none, tests := [] },
    mrm := { s.mrm with trigs := [] } }

/-- A descriptor that restarts the deck from Φ3 (R329, R359): staged, due and sound. -/
def State.restartDue (s : State) : Option Staged :=
  s.cwy.staged.find? (fun d => decide (dOp d = 2) && decide (d.bound ≤ s.tk.count) && d.fail.isNone && s.roleHere (dAddr d))

/-- Under the fault line a single deck completes every open descriptor with fault-line, from the tick after assertion on;
the descriptors after a deck restart are left to it (R250). -/
def State.faultCompletions (s : State) : State :=
  if s.inViaduct || decide (s.tk.count ≤ s.kst.faultTick) then s
  else
    let b := s.kst.faultTick + 1
    let isRestart := fun (d : Staged) => decide (dOp d = 2) && d.fail.isNone && s.roleHere (dAddr d)
    let open_ := s.runningCmds ++ s.cwy.staged.takeWhile (fun d => !isRestart d)
    let t := open_.foldl (fun (t : State) d => (t.route (completionOf t d .faultLine 0 (max b d.bound))).unstage d.seq) s
    t.dropRunning

/-- The last slot of the completions formed in the tick, in ring order; the one before where there is none. -/
def State.lastFormed (s : State) (formed : List Completion) : Nat :=
  match formed with
  | [] => s.vdt.formedLast
  | c :: t => t.foldl (fun a x => if idxSub a s.cwy.cmplProd ≤ idxSub x.seq s.cwy.cmplProd then x.seq else a) c.seq

/-- The frame of the tick (R266, R274, R281): a relinquish frame under the fault line or a broken lockstep, handshake frames
while the deck pairs, mirror frames otherwise. The digest of the last tick divisible by 1,024 goes with the frame of the
tick after it (R279). What is given up with cause 8 is signalled in no frame (Table 12-6). -/
def State.sendFrame (s0 : State) (formed : List Completion) : State :=
  let s := { s0 with vdt := { s0.vdt with formedLast := s0.lastFormed formed } }
  let v := s.vdt
  if !s.inViaduct then s
  else if s.kst.faultLine then { s with vdt := { v with sent := s.relinquishFrame 1 } }
  else if s.kst.lsBroken then { s with vdt := { v with sent := s.relinquishFrame 2 } }
  else if v.pair = 1 ∨ (v.pair = 3 ∧ v.reShake) then
    { s with vdt := { v with sent := s.shakeFrame, shakeAt := some (v.shakeAt.getD s.tk.now) } }
  else if v.mirror then
    let dig := if v.pair = 2 ∧ s.tk.count % 1024 = 1 then some s.formDigest else none
    let s3 := s.outerEng.flatMap (fun g =>
      match v.s3.find? (fun q => decide (q.1 = g)) with
      | some q => q.2.flatMap (fun w => leBytes (s32w w) 4)
      | none => List.replicate 24 0)
    let told := v.giveUp.filter (fun g => decide (g.2 ≠ 8))
    let t : State := { s with vdt := { v with
      relqNext := told.map (fun (g : Span × Nat) => g.1), rcauseNext := (told.head?.map (fun (g : Span × Nat) => g.2)).getD 0 } }
    { t with vdt := { t.vdt with sent := t.mirrorFrame s3 dig formed, digest := dig.getD v.digest } }
  else s

/-- The words of the recorder row. -/
def State.recWords (s : State) : List Word := s.image.recSig.map s.readReg

/-- No event of the tick is written. -/
def State.dropEvents (s : State) : State := { s with cwy := { s.cwy with evs := [] } }

/-- The rings in Φ3: the recorder's row, telemetry and publications, then completions and events; under the fault line the Causeway
alone goes on, and in the tick of the assertion it writes no completion any more (R250). -/
def State.writeRings (s0 : State) : State :=
  if s0.kst.faultLine then
    (if s0.tk.count ≤ s0.kst.faultTick then s0.faultCompletions else s0.faultCompletions.claimNext.writeCompletions).dropEvents
  else ((s0.recorder s0.recWords).writeTelemetry.publish).claimNext.writeCompletions.writeEvents

/-- PHI3_MIRROR (R268): the rings and the frame; then a deck restart that is due. Φ3 begins at the end of Φ2 (Table 02-1). -/
def execPhi3Mirror (s0 : State) : Host.Outcome State Fault Refusal :=
  if !s0.start.ticking || s0.start.abut || !s0.clocked || s0.tk.phi3Done || (s0.coresRun && !s0.tk.phi2Done) then .next s0
  else
    let s := State.writeRings { s0 with tk := { s0.tk with phi3Done := true } }
    let s := s.sendFrame s0.cwy.cmplDue
    match s.restartDue with
    | some d => .next (s.deckRestart d (if s.kst.faultLine then max (s.kst.faultTick + 1) d.bound else d.bound))
    | none => .next s

/-! ### The boundary (R51) -/

/-- A controlled state without what a compute posted and noted for one boundary. -/
def Ctl.cleared (c : Ctl) : Ctl :=
  { c with
    sets := [], pats := [], commit := [], changed := [], safed := [], quants := [], cmpl := [], notes := [], handled := [],
    ltOut := [], refused := [], handing := [] }

/-- The states computed in the tick become current (R51 step 4), with the completions formed for the boundary and what the
compute noted. `ran` says that the compute of the tick has ended: what was bound to the boundary without a descriptor is
done. -/
def State.commitStage (s : State) (ran : Bool) : State :=
  let posted := s.stage
  let w := s.cwy
  let t := { s with
    cur := posted.cleared, stage := posted.cleared,
    cwy := if ran then { w with
        profile := w.profile.filter (fun p => decide (s.tk.count < p.bound)),
        fbStaged := w.fbStaged.filter (fun f => decide (s.tk.count < f.2)) } else w }
  let t := posted.notes.foldl State.doNote t
  posted.cmpl.foldl (fun (t : State) c => (t.route (t.finish c)).unstage c.seq) t

/-- One launch action at its boundary (R308 to R311): what the compute found of an action on spans; realignment and census
act here. A realignment that names a span that is not fitted is refused like a command to it (R311, R351). -/
def State.actionAt (s : State) (b : Tick) (out : List (Nat × Nat × Nat)) (words : Store Word) (d : LtDue) : State :=
  let how := if d.why = 3 then (3, 512) else if d.why = 4 then (4, 256) else (1, 0)
  if eAct d.bytes = 2 then
    let xs := s.entrySpans d.bytes
    if !xs.isEmpty && xs.all (fun x => !s.fitted x) then
      (s.ltDone d 2 b).ltEvent d Status.spanUnavailable.code (spanMask xs)
    else
    let r := s.realign (s.entrySpans d.bytes) b
    (r.1.ltDone d how.1 b).ltEvent d how.2 r.2
  else if eAct d.bytes = 4 then
    ((s.census (s.boundary b / uNs) (eb d.bytes 16 4) words).ltDone d how.1 b).ltEvent d how.2 0
  else match out.find? (fun o => decide (o.1 = d.slot)) with
    | some (_, st, no) =>
      if st = 65535 then s.ltDone d how.1 b
      else if st = 0 then (s.ltDone d how.1 b).ltEvent d how.2 0
      else (s.ltDone d 2 b).ltEvent d st no
    | none => s

/-- The actions of boundary b. After an overrun, and where nothing computed them, every action but a census is put off
(R310); a sixteenth that is passed defers the rest (R309). Under the fault line censuses alone execute. -/
def State.launchAt (s : State) (b : Tick) (out : List (Nat × Nat × Nat)) (words : Store Word) (late : Bool) : State :=
  let now := s.ltNow b
  let later := s.ltLater b
  let census := fun (d : LtDue) => decide (eAct d.bytes = 4)
  let fault := s.kst.faultLine
  let act := now.filter (fun d => census d || (!late && !fault))
  let off := if fault then [] else (now.filter (fun d => !census d && late)).map (fun d => { d with why := 3 })
  let s1 := { s with pyl := { s.pyl with due := off ++ (if fault then later.filter census else later), ltDefer := s.pyl.ltDefer || !later.isEmpty } }
  (act.foldl (fun (t : State) d => t.actionAt b out words d) s1).ltAdvance b

/-- The deck-level commands of boundary b have their effects in SEQ order, aborts after every other (R51, R333, R335); those
that failed a check complete with its status, those of the twin are left to it. -/
def State.deckCommands (s : State) (old posted : Ctl) (landed : List (Nat × Word)) (b : Tick) : State :=
  let due := (s.dueStaged b).filter (fun d => !isSpanOp d)
  let isReg := fun (d : Staged) => decide (dOp d = 0x30) || decide (dOp d = 0x31) || decide (dOp d = 0x32)
  let later := fun (d : Staged) => isReg d && due.any (fun e => isReg e && decide (d.seq < e.seq) && posted.handled.contains e.seq &&
    (dWrites e).any (fun w => (dWrites d).any (fun x => decide (x.1 = w.1))))
  let one := fun (t : State) (d : Staged) =>
    match posted.refused.find? (fun r => decide (r.1 = d.seq)) with
    | some r => t.deckFinish d r.2 0
    | none =>
      if !posted.handled.contains d.seq then t
      else if t.cwy.twinSlots.contains d.seq then t.unstage d.seq
      else t.deckEffect old landed (later d) d
  (due.filter (fun d => decide (dOp d = 1))).foldl one ((due.filter (fun d => decide (dOp d ≠ 1))).foldl one s)

/-- Commands that are due and were not dealt with, since the tick overran, go to the next boundary, late with cause 2 (R60). -/
def State.overdue (s : State) (posted : Ctl) (b : Tick) : State :=
  { s with cwy := { s.cwy with staged := (s.cwy.staged.filter (fun d => !(isSpanOp d && posted.handled.contains d.seq))).map (fun d =>
      if d.bound ≤ b ∧ ¬ (dOp d = 2 ∧ posted.handled.contains d.seq) then { d with bound := b + 1, late := true, lateCause := 2 } else d) } }

/-- An overrun in tick n (R59 to R62): the compute is discarded; a second one within 16 ticks sends the spans that had not
ended to SAFE with cause 1 and gives them up with cause 3. The window runs by tick numbers from the most recent overrun;
`ticks lost to a safe state` shorten or lengthen it nowhere (R62; DESIGN CHOICE, log 115). -/
def State.overrun (s0 : State) (spans : List Span) : State :=
  let n := s0.tk.count
  let s := { s0 with stage := s0.cur }
  let second := match s.tk.ovrTick with | some m => decide (n ≤ m + 16) | none => false
  let hit := spans.filter (fun x => s.fitted x && !s.cur.disabled x && !s.cur.inSafe x)
  let t := { s with tk := { s.tk with
    ovrLatch := true, ovrSpans := spans, ovrCount := satInc s.tk.ovrCount max32, ovrTick := some n, ovrSafe := s.tk.ovrSafe || second } }
  if second then
    let u := hit.foldl (fun (u : State) x => u.safeOf x 1) t
    spans.foldl (fun (u : State) x => u.giveUpSpan x 3) u
  else t

/-- E009, and E010 for a second overrun, at the boundary that finds it. -/
def State.overrunEvents (s : State) (spans : List Span) (second : Bool) : State :=
  let t := s.raise 9 s.deckAddr 0 (spanMask spans) 0
  if second then t.raise 10 t.deckAddr 0 (spanMask spans) 0 else t

/-- The capacities of the spans are formed anew: E032 names a span whose capacity has changed (R31). -/
def State.capacityBoundary (s : State) : State :=
  if !s.start.ready then s
  else
    let new := Span.all.map s.capacity
    let one := fun (t : State) (x : Span) =>
      let a := s.par.caps.getD x.code 0
      let b := s.capacity x
      if a = b then t else t.raise 32 (s.spanAddr x) 0 b a
    let fell := Span.all.filter (fun x => decide (s.capacity x < s.par.caps.getD x.code 0))
    (Span.all.foldl one { s with par := { s.par with caps := new, capFell := fell } }).updateAvail

/-- A new tick has started no regular sequence yet (R68), and refused nothing: ADC_ADcc_STAT.NOT_SETTLED tells of the latest
tick alone (R84). -/
def State.forgetRefusals (s : State) : State :=
  (List.range 16).foldl (fun (t : State) c =>
    if (t.conv c).notSettled || (t.conv c).ran then t.updConv c (fun k => { k with notSettled := false, ran := false }) else t) s

/-- The tick-unit flags of a new tick, and what the boundary loads into hardware: the Causeway's enable (R325), the sequencer
(R68), the overshoot threshold (R191). -/
def State.openTick (s : State) (overrun : Bool) : State :=
  { s with
    tk := { s.tk with
      ovrLast := overrun, phi0Done := false, phi1Done := false, phi2Done := false, phi3Done := false, scanned := false, mirLate := false,
      statReset := false },
    cwy := { s.cwy with run := bitOf (s.reg 0x2000) 0, vectors := [] }, adc := { s.adc with seqRun := s.adc.seqEn },
    cHw := { s.cHw with truncRaised := false, zcd := s.cHw.zcdNow, zcdNow := false, ovsLevel := s.cur.cs.vref + s.cn 0x4C } }

/-- Position captures, and the loads of POS that the spans asked for. -/
def State.captures (s : State) (inp : BoundaryIn) : State :=
  let t := ((s.capture 0 inp.pos0).capture 1 inp.pos1).hallBoundary
  let drop := fun (c : Ctl) => (List.range 4).foldl (fun (c : Ctl) m => c.putAct m { (c.actS m) with posLoad := none }) c
  { t with cur := drop t.cur, stage := drop t.stage }

/-- The standby spans that are given up drive OFF from this boundary (R281). -/
def State.postOff (s : State) (posted : Ctl) : Ctl :=
  s.vdt.giveUp.foldl (fun (c : Ctl) g =>
    if g.1.code ≤ 4 then c
    else { (g.1.legs.foldl (fun (c : Ctl) l => c.post l (s.offSet l) 0) c) with commit := addSet g.1 c.commit }) posted

/-- The shared spans that are given up without a cause of their own enter SAFE with the Keystone-order cause (R281), a half that a
VSPAN 0 mode command stops among them (cause 10). -/
def State.giveUpSafe (s : State) : State :=
  let xs := (s.vdt.giveUp.filter (fun g => decide (g.1.code ≤ 4))).map (fun g => g.1)
  let hit := xs.filter (fun x => !s.cur.disabled x && !s.cur.inSafe x)
  let c := hit.foldl s.keystoneSpan s.cur
  hit.foldl (fun (t : State) x => t.stick (.safeEntry x)) { s with cur := c, stage := c }

/-- Write sets, safe patterns, timers and piers at the boundary (R112, R123, R124, R132, R134). -/
def State.trussBoundary (s : State) (posted : Ctl) (inp : BoundaryIn) (revert : Bool) : State :=
  let s := (s.moveSets posted revert).latchPatterns posted
  let s := s.syncCheck (inp.syncOut.map (fun l => l.val)) (inp.markerLost.map (fun l => l.val))
  let (s, bad) := (s.dtUpset inp.dtUpset).dtBoundary
  if bad then s.digestFault else s

/-- The deck restarts nothing and starts nothing here but what its start, its pairing and its host ask for at a boundary. -/
def State.startAndPair (s : State) : State :=
  let s := s.takeOver.closeOpen.shakeBoundary.startBoundary.pairBoundary
  if s.start.abutDue then s.abutment 24 else s

/-- LONG was entered in the tick in progress after its compute had looked for causes, or with none: T0, T1, C, Q and B enter SAFE
at the boundary that ends it all the same (R404). -/
def State.lateLong (s : State) : State :=
  if decide (s.trl.vsup = .long) && decide (s.boundary s.tk.count ≤ s.longAt) && s.start.ready && !s.kst.faultLine then
    (Span.all.filter (fun x => decide (x.code ≤ 4) && s.fitted x && !s.stage.disabled x && !s.stage.inSafe x)).foldl
      (fun (t : State) x => (t.safeOf x (keystoneCause x)).giveUpSpan x 6) s
  else s

/-- The tick in progress ends at boundary b: an overrun is dealt with, and the time reaches the boundary (R57, R59, R60). -/
def State.endTick (s0 : State) (inp : BoundaryIn) (overran : Bool) : State :=
  let b := s0.tk.count + 1
  let second := match s0.tk.ovrTick with | some m => decide (s0.tk.count ≤ m + 16) | none => false
  let s := if s0.kst.faultLine then { s0 with stage := s0.cur } else if overran then s0.overrun inp.unfinished else s0
  let s := s.lateLong
  let s := if overran && !s.tk.phi3Done then s.sendFrame [] else s
  let s := { s with tk := { s.tk with count := b, now := max s.tk.now (s.boundary b) } }
  if overran then s.overrunEvents inp.unfinished second else s

/-- What lands at the boundary that now stands: held writes, the states and sets of the tick's evaluation, launches, the
commands of the deck and the safe states (R53, R57, R115, R250, R281). -/
def State.landTick (s : State) (inp : BoundaryIn) (ran overran fault : Bool) (words : Store Word) : State :=
  let b := s.tk.count
  let old := s.cur
  let posted := if fault then s.stage else s.postOff s.stage
  let landed := s.dueWrites b
  let s := ((s.landTl b).commitStage (ran || fault)).launchAt b posted.ltOut words !ran
  let s := if fault then s else (s.deckCommands old posted landed b).overdue posted b
  let s := if s.kst.faultLine ∧ s.kst.faultTick + 1 = b then s.keystoneSafe else s
  s.giveUpSafe.trussBoundary posted inp (overran || fault)

/-- What opens the tick that the boundary begins: captures, the legs, the safety inputs, the calendar, the capacities and
the start (R57, R58). -/
def State.beginTick (s : State) (inp : BoundaryIn) (overran : Bool) : State :=
  let s := (s.captures inp).uvBoundary
  let s := (s.openTick overran).forgetRefusals.relinquish
  let s := s.boundaryLegs overran
  let s := (s.releaseBoundary.trestleInputs.watchdogBoundary).sampleContactor inp.ppRes inp.kAcFb
  s.calBoundary.capacityBoundary.startAndPair

/-- TICK_BOUNDARY (R51, R59 to R62): tick-latched writes land, commands and launch actions have their effects, the states
computed in the tick become current, and everything that hardware does at a boundary is done. -/
def execTickBoundary (inp : BoundaryIn) (s0 : State) : Host.Outcome State Fault Refusal :=
  if !s0.start.ticking || s0.start.abut || !s0.clocked || decide (s0.pu = 0) then .next s0
  else
    let b := s0.tk.count + 1
    let words := if (s0.ltNow b).any (fun d => decide (eAct d.bytes = 4)) then s0.censusWords else []
    let overran := decide (inp.unfinished ≠ []) && s0.coresRun
    let ran := s0.tk.phi2Done && !overran
    let s := ((s0.endTick inp overran).landTick inp ran overran s0.kst.faultLine words).beginTick inp overran
    .next { s with opened := s.sampled }

end Sys2Proof.Machine
end

