-- ==== Sys2Proof/Machine/Dispatch.lean ====
section
/-! DEFINITION. One arm per constructor of Instr (exec): the command's effect on everything but the queue of waiting commands. -/
namespace Sys2Proof.Machine

/-- The effect of a command. -/
def exec (i : Instr) (s : State) : Host.Outcome State Fault Refusal :=
  match i with
  | .tickBoundary inp => Sys2Proof.Machine.execTickBoundary inp s
  | .doorbellFetch page descs => Sys2Proof.Machine.execDoorbellFetch page descs s
  | .regularSequenceStart p => Sys2Proof.Machine.execRegularSequenceStart p s
  | .regularSlotEnd c code => Sys2Proof.Machine.execRegularSlotEnd c code s
  | .injectedTrigger c j ofs => Sys2Proof.Machine.execInjectedTrigger c j ofs s
  | .injectedSequenceStart c => Sys2Proof.Machine.execInjectedSequenceStart c s
  | .injectedSequenceEnd c codes => Sys2Proof.Machine.execInjectedSequenceEnd c codes s
  | .phi0Snapshot ov inj => Sys2Proof.Machine.execPhi0Snapshot ov inj s
  | .phi2Compute endAt tie => Sys2Proof.Machine.execPhi2Compute endAt tie s
  | .phi3Mirror => Sys2Proof.Machine.execPhi3Mirror s
  | .periodStart l => Sys2Proof.Machine.execPeriodStart l s
  | .directWrite l r v ofs => Sys2Proof.Machine.execDirectWrite l r v ofs s
  | .directCommit l ofs => Sys2Proof.Machine.execDirectCommit l ofs s
  | .ocLineAssert l e => Sys2Proof.Machine.execOcLineAssert l e s
  | .blankWindowEnd l ofs => Sys2Proof.Machine.execBlankWindowEnd l ofs s
  | .scLineAssert l e => Sys2Proof.Machine.execScLineAssert l e s
  | .desatDetect l x ofs => Sys2Proof.Machine.execDesatDetect l x ofs s
  | .desatBlankEnd l x asserted ofs => Sys2Proof.Machine.execDesatBlankEnd l x asserted ofs s
  | .softOffPlateauEnd l x ofs => Sys2Proof.Machine.execSoftOffPlateauEnd l x ofs s
  | .uvloTrip l r ofs => Sys2Proof.Machine.execUvloTrip l r ofs s
  | .uvloRecover r => Sys2Proof.Machine.execUvloRecover r s
  | .bootstrapUvloTimeout l ofs => Sys2Proof.Machine.execBootstrapUvloTimeout l ofs s
  | .linkOvTrip u ofs => Sys2Proof.Machine.execLinkOvTrip u ofs s
  | .cOvTrip u ofs => Sys2Proof.Machine.execCOvTrip u ofs s
  | .zcdDetect k ofs => Sys2Proof.Machine.execZcdDetect k ofs s
  | .overshootTruncate ofs => Sys2Proof.Machine.execOvershootTruncate ofs s
  | .comparatorTest k pass ofs => Sys2Proof.Machine.execComparatorTest k pass ofs s
  | .testRoundEnd => Sys2Proof.Machine.execTestRoundEnd s
  | .testAgeOverdue l => Sys2Proof.Machine.execTestAgeOverdue l s
  | .hallStateChange m v ofs => Sys2Proof.Machine.execHallStateChange m v ofs s
  | .clockFail k ofs => Sys2Proof.Machine.execClockFail k ofs s
  | .debugHalt ofs => Sys2Proof.Machine.execDebugHalt ofs s
  | .clocksValid ofs => Sys2Proof.Machine.execClocksValid ofs s
  | .torquePeakExhaust t => Sys2Proof.Machine.execTorquePeakExhaust t s
  | .dipEnd t => Sys2Proof.Machine.execDipEnd t s
  | .ascExitNoAngle t => Sys2Proof.Machine.execAscExitNoAngle t s
  | .senseFaultClear => Sys2Proof.Machine.execSenseFaultClear s
  | .pilotCycle p => Sys2Proof.Machine.execPilotCycle p s
  | .kacFbTimeout ofs => Sys2Proof.Machine.execKacFbTimeout ofs s
  | .brakePeakExhaust => Sys2Proof.Machine.execBrakePeakExhaust s
  | .shiftTimeout m => Sys2Proof.Machine.execShiftTimeout m s
  | .homeTimeout m => Sys2Proof.Machine.execHomeTimeout m s
  | .actuatorPeakExhaust m => Sys2Proof.Machine.execActuatorPeakExhaust m s
  | .lockstepMismatch addr ofs => Sys2Proof.Machine.execLockstepMismatch addr ofs s
  | .watchdogService ofs => Sys2Proof.Machine.execWatchdogService ofs s
  | .watchdogExpiry => Sys2Proof.Machine.execWatchdogExpiry s
  | .ramEccError trailing double ofs => Sys2Proof.Machine.execRamEccError trailing double ofs s
  | .debugAttach ofs => Sys2Proof.Machine.execDebugAttach ofs s
  | .lsBrokenClear => Sys2Proof.Machine.execLsBrokenClear s
  | .handshakeFrame l0 l1 ofs => Sys2Proof.Machine.execHandshakeFrame l0 l1 ofs s
  | .pairingTimeout => Sys2Proof.Machine.execPairingTimeout s
  | .mirrorFrame l0 l1 ofs => Sys2Proof.Machine.execMirrorFrame l0 l1 ofs s
  | .relinquishFrame l0 l1 ofs => Sys2Proof.Machine.execRelinquishFrame l0 l1 ofs s
  | .syncMessage m ofs => Sys2Proof.Machine.execSyncMessage m ofs s
  | .syncLoss ofs => Sys2Proof.Machine.execSyncLoss ofs s
  | .announceMessage m ofs => Sys2Proof.Machine.execAnnounceMessage m ofs s
  | .pdelayExchange t1 t2 t3 t4 => Sys2Proof.Machine.execPdelayExchange t1 t2 t3 t4 s
  | .grandmasterSyncSend ofs => Sys2Proof.Machine.execGrandmasterSyncSend ofs s
  | .launchMarkerDrive => Sys2Proof.Machine.execLaunchMarkerDrive s
  | .launchMarker steps => Sys2Proof.Machine.execLaunchMarker steps s
  | .launchMarkerMissing ofs => Sys2Proof.Machine.execLaunchMarkerMissing ofs s
  | .censusReady ofs => Sys2Proof.Machine.execCensusReady ofs s
  | .leapSecondInsert ofs => Sys2Proof.Machine.execLeapSecondInsert ofs s
  | .rtcTrimUpdate trim ofs => Sys2Proof.Machine.execRtcTrimUpdate trim ofs s
  | .vbakLow ofs => Sys2Proof.Machine.execVbakLow ofs s
  | .protectionEventWrite => Sys2Proof.Machine.execProtectionEventWrite s
  | .pcieLinkChange up speed width ofs => Sys2Proof.Machine.execPcieLinkChange up speed width ofs s
  | .pciePerst ofs => Sys2Proof.Machine.execPciePerst ofs s
  | .fallbackFrame => Sys2Proof.Machine.execFallbackFrame s
  | .canFrameReceived p f ofs => Sys2Proof.Machine.execCanFrameReceived p f ofs s
  | .frameAttemptEnd p e ofs => Sys2Proof.Machine.execFrameAttemptEnd p e ofs s
  | .portIntegration p ofs => Sys2Proof.Machine.execPortIntegration p ofs s
  | .busOffRecoveryStart p ofs => Sys2Proof.Machine.execBusOffRecoveryStart p ofs s
  | .busOffRecovered p ofs => Sys2Proof.Machine.execBusOffRecovered p ofs s
  | .rerouteTest ofs => Sys2Proof.Machine.execRerouteTest ofs s
  | .partnerAgeTick ofs => Sys2Proof.Machine.execPartnerAgeTick ofs s
  | .txreq p ofs => Sys2Proof.Machine.execTxreq p ofs s
  | .objAbort p ofs => Sys2Proof.Machine.execObjAbort p ofs s
  | .resume p ofs => Sys2Proof.Machine.execResume p ofs s
  | .boRecover p ofs => Sys2Proof.Machine.execBoRecover p ofs s
  | .ldgSel slot ofs => Sys2Proof.Machine.execLdgSel slot ofs s
  | .trestleRoundPost r => Sys2Proof.Machine.execTrestleRoundPost r s
  | .bearingLinkPresent ofs => Sys2Proof.Machine.execBearingLinkPresent ofs s
  | .bearingOutputInBand ofs => Sys2Proof.Machine.execBearingOutputInBand ofs s
  | .bearingStartTimeout => Sys2Proof.Machine.execBearingStartTimeout s
  | .bearingLinkLoss ofs => Sys2Proof.Machine.execBearingLinkLoss ofs s
  | .bearingFaultHoldEnd => Sys2Proof.Machine.execBearingFaultHoldEnd s
  | .vsupWarn cross ofs => Sys2Proof.Machine.execVsupWarn cross ofs s
  | .vsupDipEnd cross ofs => Sys2Proof.Machine.execVsupDipEnd cross ofs s
  | .vsupLongDip => Sys2Proof.Machine.execVsupLongDip s
  | .deckReset rail ofs => Sys2Proof.Machine.execDeckReset rail ofs s
  | .start inp => Sys2Proof.Machine.execStart inp s
  | .go ofs => Sys2Proof.Machine.execGo ofs s
  | .startTimeout => Sys2Proof.Machine.execStartTimeout s
  | .autoRestart => Sys2Proof.Machine.execAutoRestart s
  | .abut ofs => Sys2Proof.Machine.execAbut ofs s
  | .abutmentServiceTick page descs => Sys2Proof.Machine.execAbutmentServiceTick page descs s
  | .recordClose => Sys2Proof.Machine.execRecordClose s
  | .recSlotRelease mask => Sys2Proof.Machine.execRecSlotRelease mask s
  | .mramWriteDone ok => Sys2Proof.Machine.execMramWriteDone ok s
  | .charterChangeLands => Sys2Proof.Machine.execCharterChangeLands s
  | .calSetSwitch => Sys2Proof.Machine.execCalSetSwitch s
  | .updateVerified ok => Sys2Proof.Machine.execUpdateVerified ok s
  | .adcCalEnd c gain offset => Sys2Proof.Machine.execAdcCalEnd c gain offset s
  | .refEnable ofs => Sys2Proof.Machine.execRefEnable ofs s
  | .refDisable => Sys2Proof.Machine.execRefDisable s
  | .refSettled => Sys2Proof.Machine.execRefSettled s
  | .seqEn v => Sys2Proof.Machine.execSeqEn v s
  | .causewayEnable v => Sys2Proof.Machine.execCausewayEnable v s
  | .statReset => Sys2Proof.Machine.execStatReset s
  | .censusRelease k => Sys2Proof.Machine.execCensusRelease k s
  | .tlRegisterWrite off v be ofs => Sys2Proof.Machine.execTlRegisterWrite off v be ofs s
  | .highWordLatchRead off ofs => Sys2Proof.Machine.execHighWordLatchRead off ofs s
  | .dataWindowAccess off wr ecc => Sys2Proof.Machine.execDataWindowAccess off wr ecc s
  | .registerWrite off v be ofs => Sys2Proof.Machine.execRegisterWrite off v be ofs s
  | .nop d => Sys2Proof.Machine.execNop d s
  | .abortCmd d => Sys2Proof.Machine.execAbortCmd d s
  | .deckRestart d => Sys2Proof.Machine.execDeckRestart d s
  | .ltWrite d => Sys2Proof.Machine.execLtWrite d s
  | .ltClear d => Sys2Proof.Machine.execLtClear d s
  | .calMap d => Sys2Proof.Machine.execCalMap d s
  | .handover d => Sys2Proof.Machine.execHandover d s
  | .tlSet d => Sys2Proof.Machine.execTlSet d s
  | .engCoef d => Sys2Proof.Machine.execEngCoef d s
  | .engLimit d => Sys2Proof.Machine.execEngLimit d s
  | .adcCal d => Sys2Proof.Machine.execAdcCal d s
  | .pairRearm d => Sys2Proof.Machine.execPairRearm d s
  | .adcTrig d => Sys2Proof.Machine.execAdcTrig d s
  | .selfTest fails units => Sys2Proof.Machine.execSelfTest fails units s
  | .tripClear d => Sys2Proof.Machine.execTripClear d s
  | .pierClear d => Sys2Proof.Machine.execPierClear d s
  | .charter block imageFits => Sys2Proof.Machine.execCharter block imageFits s
  | .calWrite block => Sys2Proof.Machine.execCalWrite block s
  | .update block proper => Sys2Proof.Machine.execUpdate block proper s
  | .recTrig d => Sys2Proof.Machine.execRecTrig d s
  | .mode d => Sys2Proof.Machine.execMode d s
  | .tqTarget d => Sys2Proof.Machine.execTqTarget d s
  | .spdTarget d => Sys2Proof.Machine.execSpdTarget d s
  | .tPosRearm d => Sys2Proof.Machine.execTPosRearm d s
  | .cVtgt d => Sys2Proof.Machine.execCVtgt d s
  | .cItgt d => Sys2Proof.Machine.execCItgt d s
  | .cPhases d => Sys2Proof.Machine.execCPhases d s
  | .cCrowbarClr d => Sys2Proof.Machine.execCCrowbarClr d s
  | .qPower d => Sys2Proof.Machine.execQPower d s
  | .aHold d => Sys2Proof.Machine.execAHold d s
  | .aShift d => Sys2Proof.Machine.execAShift d s
  | .aPark d => Sys2Proof.Machine.execAPark d s
  | .aRelease d => Sys2Proof.Machine.execARelease d s
  | .aCurrent d => Sys2Proof.Machine.execACurrent d s
  | .aHome d => Sys2Proof.Machine.execAHome d s
  | .aPosRearm d => Sys2Proof.Machine.execAPosRearm d s
  | .switchingEdge l tau => Sys2Proof.Machine.execSwitchingEdge l tau s
  | .gateOnEdge l x => Sys2Proof.Machine.execGateOnEdge l x s
  | .carrierCentre t angle => Sys2Proof.Machine.execCarrierCentre t angle s
  | .kAcOutFault => Sys2Proof.Machine.execKAcOutFault s
  | .errorFrame p eight ofs => Sys2Proof.Machine.execErrorFrame p eight ofs s

end Sys2Proof.Machine
end

