-- ==== Sys2Proof/Safety.lean ====
section
/-! DEFINITION. What counts as a sound state of the deck's data: every sparse store of a held register, a part or the MRAM stands in its one canonical form. -/
namespace Sys2Proof.Machine

/-- The stores of the held registers, the legs, the converters, inputs and pairs, the engines' rejections, the Hall counters
and the field ports stand in their canonical form: keys strictly rising, no entry equal to what an unlisted key reads as. -/
def State.partsOk (s : State) : Bool :=
  Store.wf barReset s.bar && Store.wf LegS.init s.legs && Store.wf (fun _ => ConvS.init) s.adc.conv &&
  Store.wf (fun _ => InputS.init) s.adc.inp && Store.wf (fun _ => PairS.init) s.adc.pair &&
  Store.wf (fun _ => RejS.init) s.rej && Store.wf (fun _ => HallS.init) s.hall && Store.wf (fun _ => PortS.init) s.fp.port

/-- The deck's sparse data is canonical: equal contents are equal data, and reading back what was written gives it. -/
def State.canonical (s : State) : Bool := s.partsOk && Memory.wf s.mrm.mem

/-- A leg but for what driving its gates moves: its piers, its blanking window and the flags of a swallowed edge. -/
def LegS.still (g : LegS) : LegS :=
  { g with safe := false, blankClamp := false, swallow := false, swallowCount := 0, blanking := false, blankEnd := 0,
           hs := PierS.off, ls := PierS.off }

/-- The Parapet but for what it last reported of availability. -/
def ParS.still (p : ParS) : ParS := { p with availLegs := [], availSpans := [] }

/-- A state but for its legs. -/
def State.legless (s : State) : State := { s with legs := [] }

/-! ### When a command of the ring is carried out -/

/-- The descriptor of a command of the ring that the deck meets at its boundary; none for every other command. -/
def descriptorOf : Instr → Option Staged
  | .nop d => some d | .abortCmd d => some d | .deckRestart d => some d | .ltWrite d => some d | .ltClear d => some d
  | .calMap d => some d | .handover d => some d | .tlSet d => some d | .engCoef d => some d | .engLimit d => some d
  | .adcCal d => some d | .pairRearm d => some d | .adcTrig d => some d | .tripClear d => some d | .pierClear d => some d
  | .recTrig d => some d | .mode d => some d | .tqTarget d => some d | .spdTarget d => some d | .tPosRearm d => some d
  | .cVtgt d => some d | .cItgt d => some d | .cPhases d => some d | .cCrowbarClr d => some d | .qPower d => some d
  | .aHold d => some d | .aShift d => some d | .aPark d => some d | .aRelease d => some d | .aCurrent d => some d
  | .aHome d => some d | .aPosRearm d => some d
  | _ => none

/-- Neither abutment mode nor the fault line, deck ready and clocked: a command meets its own checks. -/
def State.runs (s : State) : Bool := !s.start.abut && !s.kst.faultLine && s.start.ready && s.clocked

/-- A command of the deck, a register or a leg that this deck carries out: every check of its opcode passes. -/
def State.deckOpen (s : State) (d : Staged) : Prop :=
  s.runs = true ∧ s.actsHere d = true ∧ s.deckStatus d = none

/-- A command to a span that this deck carries out, at a state that stands before the commands of the tick: it is not yet
handled and its staging checks and its gates pass; its span's own checks are `spanRun`'s. -/
def State.spanOpen (s : State) (d : Staged) : Prop :=
  d.seq ∉ s.stage.handled ∧ s.earlyStatus d = none ∧ s.actsHere d = true ∧ s.vspanGate d = none ∧ s.safedGate d = none

/-- A controlled state holds the answer to a command of a span: its completion stands last and the command is handled. -/
def Ctl.answered (c : Ctl) (d : Staged) (st : Status) (result : Nat) : Prop :=
  d.seq ∈ c.handled ∧
  ∃ k, c.cmpl.getLast? = some k ∧ k.seq = d.seq ∧ k.tag = dTag d ∧ k.opcode = dOp d ∧ k.status = st ∧ k.result = result ∧
    k.applied = d.bound

/-- Everything of the stage but what a command to a span leaves beside its span: completions, quantities and notes. -/
def Ctl.quiet (c : Ctl) : Ctl := { c with cmpl := [], handled := [], quants := [], notes := [] }

/-- A state but for its stage. -/
def State.stageless (s : State) : State := { s with stage := State.reset.stage }

/-! ### Values that a register does not take -/

/-- An invalid encoding of Table 06-6: PIER_Lxx_DESAT, PIER_Lxx_CURLIM, PIER_OV_CFG, PIER_HALL_CFG, PIER_HALLm_FWD and _REV. -/
def invalidPierWord (off : Nat) (v : Word) : Prop :=
  (∃ l : Leg, off = 0x1100C + 0x100 * l.val ∧
    (20 < fld v 0 5 ∨ fld v 5 7 < 10 ∨ 120 < fld v 5 7 ∨ 5 < fld v 12 3 ∨ fld v 16 5 < 2 ∨ 20 < fld v 16 5)) ∨
  (∃ l : Leg, off = 0x11010 + 0x100 * l.val ∧ (fld v 0 12 = 0 ∨ fld v 16 12 ≤ fld v 0 12)) ∨
  (off = 0x14000 ∧ (fld v 0 11 < 1000 ∨ 1340 < fld v 0 11 ∨ fld v 16 11 < 360 ∨ 1100 < fld v 16 11)) ∨
  (off = 0x1400C ∧ fld v 4 8 = 0) ∨
  (∃ k : Fin 8, off = 0x14010 + 4 * k.val ∧
    ∃ i : Fin 6, fld v (4 * i.val) 2 = fld v (4 * i.val + 2) 2 ∧ fld v (4 * i.val) 2 ≠ 3)

/-! ### Events in a step -/

/-- A protection event of a code and an address waits in the protection queue (R337). -/
def State.protects (t : State) (code : Nat) (addr : AddrWord) : Prop := ∃ e ∈ t.cwy.pq, e.code = code ∧ e.addr = addr

/-- A step from s to t forms one event that is not a protection event, with these details, as the last of the tick (R336). -/
def State.reports (s t : State) (code : Nat) (addr : AddrWord) (cause : Nat) (val val2 : Int) : Prop :=
  ∃ e, t.cwy.evs = s.cwy.evs ++ [e] ∧ e.code = code ∧ e.addr = addr ∧ e.cause = cause ∧ e.val = val ∧ e.val2 = val2

end Sys2Proof.Machine
end

