-- ==== Sys2Proof/Certificates/Slice0/Obligations.lean ====
section
/-! DEFINITION. The statements about the deck: one per rule or group of rules of the spec. -/
open Sys2Proof Sys2Proof.Machine

/-- One step takes the command at the front of the queue and answers what it does with the queue's rest; on an empty queue
the deck idles (the model's own queue, log 2). -/
def Obligations.StepRunsFront : Prop :=
  (∀ (c : Instr) (rest : List Instr) (s : State),
    Machine.step { s with pending := c :: rest } = Machine.exec c { s with pending := rest }) ∧
  ∀ s : State, s.pending = [] → Machine.step s = .next s

/-- What a command leaves alone whatever it is: no command touches the queue of those that wait behind it, and no command but
the end of an MRAM write changes a byte of MRAM. -/
def Obligations.QueueAndMramFrame : Prop :=
  (∀ (c : Instr) (s t : State), Machine.exec c s = .next t → t.pending = s.pending) ∧
  ∀ (c : Instr) (s t : State), (∀ ok, c ≠ .mramWriteDone ok) → Machine.exec c s = .next t →
    ∀ a, memByte t.mrm.mem a = memByte s.mrm.mem a

/-- Every step keeps the sparse data of the deck canonical: the held registers, the legs, the converters, inputs and pairs,
the engines' rejections, the Hall counters, the field ports and the bytes of MRAM. -/
def Obligations.CanonicalKept : Prop :=
  ∀ s t : State, s.canonical = true → Machine.step s = .next t → t.canonical = true

/-- R251: once asserted, the fault line is released by no command but START. -/
def Obligations.FaultLineHolds : Prop :=
  ∀ (c : Instr) (s t : State), s.kst.faultLine = true → (∀ inp, c ≠ .start inp) → Machine.exec c s = .next t →
    t.kst.faultLine = true

/-- The state after reset: its sparse data is canonical, and the registers whose reset value the spec states other than 0 hold
it: TICK_SLACK_MIN, the regular sequence and its empty slots, the gains and the window limits of the converters. -/
def Obligations.ResetState : Prop :=
  State.reset.canonical = true ∧
  State.reset.readReg 0x103C = 0xFFFF#32 ∧
  (∀ c : Conv, State.reset.readReg (0x4400 + 0x100 * c.val) = 0x8000#32 ∧ State.reset.readReg (0x440C + 0x100 * c.val) = 1#32 ∧
    ∀ k : Fin 16, State.reset.readReg (0x4410 + 0x100 * c.val + 4 * k.val) = 0x7F#32) ∧
  ∀ i : Input, State.reset.readReg (0x540C + 0x20 * i.val) = 0x7FFFFFFF#32 ∧
    State.reset.readReg (0x5410 + 0x20 * i.val) = 0x80000000#32

/-! ### The command ring: checks, and the effects of the deck-level opcodes -/

/-- What completing a command of the deck leaves on a single deck: one completion with the layout's fields (R330, R355), the
descriptor no longer staged, and nothing else. -/
def Obligations.CompletionForm : Prop :=
  ∀ (s : State) (d : Staged) (st : Status) (r : Nat), s.inViaduct = false →
    s.deckFinish d st r = { s with cwy := { s.cwy with
      cmplDue := s.cwy.cmplDue ++ [{
        tag := dTag d, seq := d.seq, dseq := dSeq d, applied := d.bound, opcode := dOp d,
        addr := if addrValid false (dAddr d) then BitVec.ofNat 16 (dAddr d) else s.deckAddr,
        status := st, late := d.late, clip := false, superseded := false, lateCause := d.lateCause, result := r }],
      staged := s.cwy.staged.filter (fun x => decide (x.seq ≠ d.seq)) } }

/-- Where no command of the ring has its own effect: under the fault line a single deck completes it with the fault-line
status at the boundary after assertion or its own (all but DECK_RESTART), abutment mode answers wrong-state (all but NOP,
DECK_RESTART and UPDATE), and a deck that is not ready leaves it staged. -/
def Obligations.CommandsHeldOff : Prop :=
  ∀ (c : Instr) (d : Staged) (s : State), descriptorOf c = some d →
    (s.start.abut = false → s.kst.faultLine = true → s.inViaduct = false → dOp d ≠ 2 →
      Machine.exec c s = .next { s with cwy := { s.cwy with
        cmplDue := s.cwy.cmplDue ++ [completionOf s d .faultLine 0 (max (s.kst.faultTick + 1) d.bound)],
        staged := s.cwy.staged.filter (fun x => decide (x.seq ≠ d.seq)) } }) ∧
    (s.start.abut = true → d.fail = none → dOp d ≠ 0 → dOp d ≠ 2 → dOp d ≠ 0x62 →
      Machine.exec c s = .next (s.deckFinish d .wrongState 0)) ∧
    (s.start.abut = false → s.kst.faultLine = false → s.start.ready = false → Machine.exec c s = .next s)

/-- The first check that fails decides the status, and the command is not applied (R352): a command of the deck, a register
or a leg that fails one completes with its status and changes nothing else. -/
def Obligations.FailedCheckChangesNothing : Prop :=
  ∀ (d : Staged) (s : State) (st : Status), s.runs = true → s.actsHere d = true → s.deckStatus d = some st →
    ∀ c ∈ [Instr.nop d, .abortCmd d, .deckRestart d, .ltWrite d, .ltClear d, .calMap d, .handover d, .tlSet d, .engCoef d,
      .engLimit d, .adcCal d, .pairRearm d, .adcTrig d, .tripClear d, .pierClear d, .recTrig d],
      Machine.exec c s = .next (s.deckFinish d st 0)

/-- NOP has no effect but its completion, whose RESULT is the Pylon instant of its boundary in ns; ABORT completes every
staged command that carries its TAG and a later boundary with the aborted status, and itself with their number (R335, R357). -/
def Obligations.NopAndAbort : Prop :=
  (∀ (d : Staged) (s : State), s.deckOpen d → dOp d = 0 →
    Machine.exec (.nop d) s = .next (s.deckFinish d .success (d.bound * (s.period * u25) / uNs))) ∧
  ∀ (d : Staged) (s : State), s.deckOpen d → dOp d = 1 → s.inViaduct = false →
    let hits := s.cwy.staged.filter (fun x =>
      decide ((completionOf s x .aborted 0 0).doneTag = dP d 0 4) && decide (d.bound < x.bound))
    hits ≠ [] →
    Machine.exec (.abortCmd d) s = .next { s with cwy := { s.cwy with
      cmplDue := s.cwy.cmplDue ++ hits.map (fun x => completionOf s x .aborted 0 d.bound) ++
        [completionOf s d .success hits.length d.bound],
      staged := s.cwy.staged.filter (fun x => decide (x.seq ≠ d.seq) && decide (x.seq ∉ hits.map (fun h => h.seq))) } }

/-- DECK_RESTART restarts the deck (R359), from its own checks or, on a single deck, under the fault line: the tick count and
everything that a start loses are as after reset, the fault line keeps its state, and the calendar, the supplies and time go
on; a latched Bearing supply is unlatched (R400), and RST_CAUSE is 3 (R405). -/
def Obligations.DeckRestart : Prop :=
  ∀ (d : Staged) (s : State), dOp d = 2 →
    (s.deckOpen d ∨ (s.start.abut = false ∧ s.kst.faultLine = true ∧ d.fail = none ∧ s.roleHere (dAddr d) = true)) →
    ∃ t, Machine.exec (.deckRestart d) s = .next t ∧
      t.tk = { TickS.reset with now := s.tk.now } ∧ t.legs = [] ∧ t.cur = State.reset.cur ∧ t.stage = State.reset.stage ∧
      t.adc = State.reset.adc ∧ t.pyl = State.reset.pyl ∧ t.fp = State.reset.fp ∧ t.vdt = State.reset.vdt ∧
      t.kst.faultLine = s.kst.faultLine ∧ t.kst.lsBroken = s.kst.lsBroken ∧ t.start.ready = false ∧
      t.start.failCount = s.start.failCount ∧ t.cal = s.cal ∧ t.trl.rstCause = 3 ∧ t.trl.vsup = s.trl.vsup ∧
      t.trl.frozen = s.trl.frozen ∧ t.trl.brg = (if s.trl.brg = .latched then .off else s.trl.brg) ∧ t.pending = s.pending ∧
      t.cwy.staged = [] ∧ t.cwy.cmdFetched = idxNext d.seq

/-- LT_WRITE arms its slot with the entry's bytes, FLAGS.IMG 0, at the boundary of its instant, with RESULT the state and TAG
it replaced, or is refused by the staging check of the launch
table and leaves the slot; LT_CLEAR empties its slot (R306, R357). REC_TRIG notes a trigger of the recorder for its
boundary; its completion comes with the record (R357, R427). -/
def Obligations.LaunchAndRecorderCommands : Prop :=
  ∀ (d : Staged) (s : State), s.deckOpen d →
    let k := dP d 0 1
    let b : BitVec 256 := BitVec.ofNat 256 (dP d 4 32)
    let was := s.pyl.slotAt k
    (dOp d = 0x10 → s.ltCheck k b d.bound = none →
      Machine.exec (.ltWrite d) s = .next
        ({ s with pyl := { s.pyl with lt := Store.put (fun _ => LtSlot.empty) s.pyl.lt k ⟨b &&& ~~~(1#256 <<< 88), 1, false, eInst b / s.pns, 0, 0⟩ } }.deckFinish d .success
          (was.st + 2 ^ 32 * eTag was.bytes))) ∧
    (∀ st, dOp d = 0x10 → s.ltCheck k b d.bound = some st →
      Machine.exec (.ltWrite d) s = .next (s.deckFinish d st 0)) ∧
    (dOp d = 0x11 →
      Machine.exec (.ltClear d) s = .next
        ({ s with pyl := { s.pyl with lt := Store.put (fun _ => LtSlot.empty) s.pyl.lt k LtSlot.empty } }.deckFinish d .success
          (was.st + 2 ^ 32 * eTag was.bytes))) ∧
    (dOp d = 0x63 → Machine.exec (.recTrig d) s = .next { s with
        mrm := { s.mrm with trigs := s.mrm.trigs ++
          [({ code := 0xFF, addr := BitVec.ofNat 16 (dAddr d), cause := dP d 0 4, val := 0, tick := d.bound, cmd := some d } : RecTrig)] }
        cwy := { s.cwy with staged := s.cwy.staged.filter (fun x => decide (x.seq ≠ d.seq)) } })

/-- CAL_MAP disciplines the calendar (R320): STATE is DISCIPLINED, the mapping is held, and with an instant that has passed
and no leap second the calendar reads the stamp plus the Pylon time elapsed since the instant. Registers, legs, spans and the
tick are as before. HANDOVER in a pair (R286): the Causeway lead, the lead of a span whose legs both decks share, or a standby
span goes to the other deck, with E083 cause 4 on the deck that receives it; a span handed over no longer runs alone or counts
as given up, and a standby span's ownership goes with it. -/
def Obligations.CalMapAndHandover : Prop :=
  (∀ (d : Staged) (s : State), s.deckOpen d → dOp d = 0x12 →
    ∃ t, Machine.exec (.calMap d) s = .next t ∧
      t.cal.st = 2 ∧ t.cal.mapPyl = dP d 0 8 ∧ t.cal.mapCal = dP d 8 8 ∧
      (dP d 16 1 = 0 → t.cal.leapSec = none) ∧
      (dP d 16 1 = 1 → t.cal.leapSec = some ((dP d 8 8 % 2 ^ 62 / 2 ^ 24 / 86400 + 1) * 86400)) ∧
      (dP d 16 1 = 0 → dP d 0 8 * uNs ≤ s.tk.now →
        t.calVal s.tk.now = dP d 8 8 % 2 ^ 62 + (s.tk.now - dP d 0 8 * uNs) * 2 ^ 24 / (1000000000 * uNs)) ∧
      t.bar = s.bar ∧ t.legs = s.legs ∧ t.cur = s.cur ∧ t.stage = s.stage ∧ t.tk = s.tk ∧ t.pyl = s.pyl ∧ t.kst = s.kst) ∧
  ∀ (d : Staged) (s : State), s.deckOpen d → dOp d = 0x20 →
    (Span.ofCode? (dP d 0 1) = none →
      ∃ t, Machine.exec (.handover d) s = .next t ∧ t.vdt.cwyLead = !s.vdt.cwyLead ∧ t.vdt.leads = s.vdt.leads ∧
        (s.vdt.cwyLead = false → s.reports t 83 s.deckAddr 4 0 1) ∧
        t.bar = s.bar ∧ t.legs = s.legs ∧ t.cur = s.cur ∧ t.tk = s.tk) ∧
    ∀ x : Span, Span.ofCode? (dP d 0 1) = some x →
      ∃ t, Machine.exec (.handover d) s = .next t ∧
        t.vdt.leads = (if x ∈ s.vdt.leads then s.vdt.leads.filter (fun y => decide (y ≠ x)) else s.vdt.leads ++ [x]) ∧
        x ∉ t.vdt.alone ∧ x ∉ t.vdt.out ∧ t.vdt.cwyLead = s.vdt.cwyLead ∧
        (5 ≤ x.code → (t.cur.actS (x.code - 5)).owner = decide (x ∉ s.vdt.leads)) ∧
        (x ∉ s.vdt.leads → s.reports t 83 (s.spanAddr x) 4 (spanMask [x]) 0) ∧
        t.bar = s.bar ∧ t.legs = s.legs ∧ t.tk = s.tk

/-- TL_SET, ENG_COEF and ENG_LIMIT put their set in force at their boundary (R360, R361): every register named holds its
value within its fields, and every other held register is as before. -/
def Obligations.RegisterCommandsSet : Prop :=
  ∀ (c : Instr) (d : Staged) (s : State),
    (c = .tlSet d ∧ dOp d = 0x30 ∨ c = .engCoef d ∧ dOp d = 0x31 ∨ c = .engLimit d ∧ dOp d = 0x32) →
    s.deckOpen d → s.partsOk = true → ((dWrites d).map Prod.fst).Nodup →
    ∃ t, Machine.exec c s = .next t ∧
      (∀ p ∈ dWrites d, t.reg p.1 = match regRow p.1 with | some r => p.2 &&& wd r.mask | none => p.2) ∧
      (∀ off, off ∉ (dWrites d).map Prod.fst → t.reg off = s.reg off) ∧
      t.legs = s.legs ∧ t.cur = s.cur ∧ t.stage = s.stage ∧ t.kst = s.kst ∧ t.pyl = s.pyl

/-- ADC_CAL begins the calibration of every named converter, whose conversion in progress ends in its time and delivers
nothing and which begins no other (R64, R85); PAIR_REARM clears
IMPLAUSIBLE and RUN of every named pair and of no other (R82); ADC_TRIG places its triggers at its boundary plus OFFSET. -/
def Obligations.ConverterCommands : Prop :=
  ∀ (d : Staged) (s : State), s.deckOpen d → s.partsOk = true →
    (dOp d = 0x40 → ∃ t, Machine.exec (.adcCal d) s = .next t ∧
      t.adc.cal = s.adc.cal ++ [{ running := maskConvs (dP d 0 2), passed := [], failed := [], cmd := some d }] ∧
      (∀ c : Conv, t.conv c.val = if (dP d 0 2).testBit c.val then
        { s.conv c.val with
          calRun := true, nextSlot := none, busy := (match (s.conv c.val).busy with | .regular n i => .late n i | b => b) }
        else s.conv c.val) ∧
      t.bar = s.bar ∧ t.legs = s.legs ∧ t.adc.inp = s.adc.inp ∧ t.adc.pair = s.adc.pair) ∧
    (dOp d = 0x41 → ∃ t, Machine.exec (.pairRearm d) s = .next t ∧
      (∀ k, k < 8 → t.pairS k = if (dP d 0 1).testBit k then { s.pairS k with implausible := false, run := 0 } else s.pairS k) ∧
      t.bar = s.bar ∧ t.legs = s.legs ∧ t.adc.inp = s.adc.inp ∧ t.adc.conv = s.adc.conv) ∧
    (dOp d = 0x42 → ∃ t, Machine.exec (.adcTrig d) s = .next t ∧
      t.adc.hostTrig = s.adc.hostTrig ++ (maskConvs (dP d 0 2)).flatMap (fun c =>
        ((List.finRange 4).filter (fun (j : Fin 4) => decide (s.srcType c.val j.val = 4))).map (fun j =>
          (c, j, s.boundary d.bound + dP d 4 4 * u25))) ∧
      t.bar = s.bar ∧ t.legs = s.legs ∧ t.adc.conv = s.adc.conv ∧ t.adc.pair = s.adc.pair)

/-- TRIP_CLEAR clears the trip latch and empties the trip window of every leg it names (R120), PIER_CLEAR the desaturation
latches (R140); the legs they do not name keep theirs, and nothing beside the legs and the completion changes. -/
def Obligations.LegClearCommands : Prop :=
  ∀ (d : Staged) (s : State), s.deckOpen d → s.partsOk = true →
    (dOp d = 0x51 → ∃ t, Machine.exec (.tripClear d) s = .next t ∧
      (∀ l, (t.leg l).tripLatch = ((s.leg l).tripLatch && !(dLegs d).contains l)) ∧
      (∀ l ∈ dLegs d, (t.leg l).tripTicks = []) ∧
      (∀ l, (t.leg l).desatHs = (s.leg l).desatHs ∧ (t.leg l).desatLs = (s.leg l).desatLs) ∧
      t.bar = s.bar ∧ t.cur = s.cur ∧ t.stage = s.stage ∧ t.adc = s.adc ∧ t.kst = s.kst) ∧
    (dOp d = 0x52 → ∃ t, Machine.exec (.pierClear d) s = .next t ∧
      (∀ l, (t.leg l).desatHs = ((s.leg l).desatHs && !(dLegs d).contains l) ∧
        (t.leg l).desatLs = ((s.leg l).desatLs && !(dLegs d).contains l)) ∧
      (∀ l, (t.leg l).tripLatch = (s.leg l).tripLatch) ∧
      t.bar = s.bar ∧ t.cur = s.cur ∧ t.stage = s.stage ∧ t.adc = s.adc ∧ t.kst = s.kst)

/-- A self-test of the deck's comparators (R149): each unit that failed has its TEST_FAIL bit, every other bit is clear, and
the command completes with success or with the self-test-failed status and the bitmap. With no test waiting, nothing
happens. -/
def Obligations.SelfTestDeck : Prop :=
  (∀ (fails : List (Leg × Fin 10)) (units : List (Fin 4)) (s : State), s.cwy.tests = [] →
    Machine.exec (.selfTest fails units) s = .next s) ∧
  ∀ (fails : List (Leg × Fin 10)) (units : List (Fin 4)) (d : Staged) (s : State), s.cwy.tests = [d] → dIsDeck d = true →
    ∃ t, Machine.exec (.selfTest fails units) s = .next t ∧ t.cwy.tests = [] ∧
      (∀ u : Fin 4, u ∈ t.par.testFail ↔ u ∈ units) ∧ t.par.ovTested = [0, 1, 2, 3] ∧
      (s.inViaduct = false → ∃ k, t.cwy.cmplDue.getLast? = some k ∧ k.seq = d.seq ∧
        k.status = (if units = [] then .success else .selfTestFailed) ∧
        k.result = bitmap 4 (fun i => units.any (fun u => decide (u.val = i)))) ∧
      t.bar = s.bar ∧ t.legs = s.legs ∧ t.cur = s.cur ∧ t.stage = s.stage

/-! ### The opcodes of spans: the compute of a tick stages what becomes current at the next boundary (R353, R354) -/

/-- A command to a span that the span's own rules refuse completes with that status, and one that names the state the span
is in with success; neither changes anything but the list of completions (R352, R353). -/
def Obligations.SpanRefusalChangesNothing : Prop :=
  ∀ (d : Staged) (s : State), s.runs = true → s.prepare.spanOpen d →
    ∀ c ∈ [Instr.mode d, .tqTarget d, .spdTarget d, .tPosRearm d, .cVtgt d, .cItgt d, .cPhases d, .cCrowbarClr d, .qPower d,
      .aHold d, .aShift d, .aPark d, .aRelease d, .aCurrent d, .aHome d, .aPosRearm d],
    let p := s.prepare
    (∀ st, (p.spanRun d).v = .no st → Machine.exec c s = .next (p.spanDone d st 0 false)) ∧
    ((p.spanRun d).v = .same → Machine.exec c s = .next (p.spanDone d .success (p.spanRun d).result false)) ∧
    ∀ st, (p.spanDone d st 0 false).stageless = p.stageless ∧ (p.spanDone d st 0 false).stage.quiet = p.stage.quiet

/-- MODE that its span's transition table accepts (R353, R362): the named state is staged for the boundary with its value,
the span has changed, the command completes with success, and the other spans' staged states are as they were. -/
def Obligations.ModeCommand : Prop :=
  ∀ (d : Staged) (s : State), s.runs = true → s.prepare.spanOpen d → dOp d = 0x100 →
    let p := s.prepare
    let code := dP d 0 1
    (code = 0 ∨ p.cur.disabled (dSpan d) = false ∨ (p.jobAhead ≠ 0x60 ∧ p.jobAhead ≠ 0x61)) →
    let runs := fun (c : Ctl) =>
      ∃ t, Machine.exec (.mode d) s = .next t ∧ t.stage.answered d .success 0 ∧
        t.stage.quiet = (c.changes (dSpan d)).quiet ∧ t.cur = p.cur ∧ t.legs = p.legs ∧ t.bar = p.bar
    (∀ tr : Trac, dSpan d = Span.ofTrac tr → p.tracVerdict tr code = .go →
      ∃ y : TracS, runs (p.stage.putTrac tr y) ∧
        y.st = (match code with | 0 => .disabled | 1 => .standby | 2 => .torque | _ => .speed) ∧
        (code = 2 → y.target = dS d 4) ∧ (3 ≤ code → y.spdTarget = dS d 4)) ∧
    (dSpan d = .c → p.cVerdict code = .go →
      ∃ y : CSpanS, runs { p.stage with cs := y } ∧ y.st = CMode.ofCode code ∧
        (code = 2 ∨ code = 3 → y.vtgt = dS d 4) ∧ (code = 4 → y.itgt = dS d 4)) ∧
    (dSpan d = .q → p.qVerdict code = .go →
      ∃ y : QSpanS, runs { p.stage with qs := y } ∧ y.st = QMode.ofCode code ∧
        (code = 2 ∨ code = 3 → y.pTgt = dS d 4 ∧ y.qTgt = dS d 8)) ∧
    (dSpan d = .b → p.bVerdict code = .go →
      runs { p.stage with bs := { p.stage.bs with st := if code = 0 then .disabled else .armed, mismatchRun := 0 } }) ∧
    (5 ≤ (dSpan d).code → p.aVerdict (dAct d) code = .go →
      (p.stage.actS (dAct d)).st ≠ .shifting → (p.stage.actS (dAct d)).st ≠ .homing → p.aCfg (dAct d) 4 = false →
      runs (p.stage.putAct (dAct d) (if code = 0 then { p.stage.actS (dAct d) with st := .disabled }
        else { p.stage.actS (dAct d) with st := .standby, initAng := true })))

/-- TQ_TARGET and SPD_TARGET set the target of a traction span in a state that takes one (R170, R363); T_POS_REARM, while
the sensor shows no cause, asks for its latched causes to clear at the boundary (R165). -/
def Obligations.TractionCommands : Prop :=
  ∀ (d : Staged) (s : State), s.runs = true → s.prepare.spanOpen d →
    let p := s.prepare
    let tr := dTrac d
    (dOp d = 0x110 → (p.stage.trac tr).takesTarget = true →
      ∃ t, Machine.exec (.tqTarget d) s = .next t ∧ t.stage.answered d .success 0 ∧ t.stageless = p.stageless ∧
        t.stage.quiet = (p.stage.putTrac tr { p.stage.trac tr with target := dS d 0 }).quiet) ∧
    (dOp d = 0x111 → (p.stage.trac tr).takesTarget = true →
      ∃ t, Machine.exec (.spdTarget d) s = .next t ∧ t.stage.answered d .success 0 ∧ t.stageless = p.stageless ∧
        t.stage.quiet = (p.stage.putTrac tr { p.stage.trac tr with spdTarget := dS d 0 }).quiet) ∧
    (dOp d = 0x112 → p.sensorCauseNow tr = false →
      ∃ t, Machine.exec (.tPosRearm d) s = .next t ∧ t.stage.answered d .success 0 ∧ t.stageless = p.stageless ∧
        t.stage.notes = p.stage.notes ++ [.posRearm tr] ∧ t.stage.quiet = p.stage.quiet)

/-- C_VTGT in LINK or BATT and C_ITGT in CURRENT set the converter's target (R184, R185); C_PHASES 0 returns it to automatic
shedding and another count fixes it (R189); C_CROWBAR_CLR releases the crowbar at the boundary while its conditions hold, with RESULT 1 (R195).
Q_POWER sets both power targets, in CHARGE for a power at or above 0 and in EXPORT_GF for one at or below it (R207);
another sign is refused with invalid-parameter. -/
def Obligations.ConverterAndChargerCommands : Prop :=
  (∀ (d : Staged) (s : State), s.runs = true → s.prepare.spanOpen d →
    let p := s.prepare
    let x := p.stage.cs
    (dOp d = 0x120 → x.st = .link ∨ x.st = .batt →
      ∃ t, Machine.exec (.cVtgt d) s = .next t ∧ t.stage.answered d .success 0 ∧ t.stageless = p.stageless ∧
        t.stage.quiet = { p.stage with cs := { x with vtgt := dS d 0 } }.quiet) ∧
    (dOp d = 0x121 → x.st = .current →
      ∃ t, Machine.exec (.cItgt d) s = .next t ∧ t.stage.answered d .success 0 ∧ t.stageless = p.stageless ∧
        t.stage.quiet = { p.stage with cs := { x with itgt := dS d 0 } }.quiet) ∧
    (dOp d = 0x122 → dP d 0 1 = 0 → x.st = .standby ∨ x.st.driven = true →
      ∃ t, Machine.exec (.cPhases d) s = .next t ∧ t.stage.answered d .success 0 ∧ t.stageless = p.stageless ∧
        t.stage.quiet = { p.stage with cs := { x with nFix := 0, auto := true } }.quiet) ∧
    (dOp d = 0x122 → dP d 0 1 ≠ 0 → x.st = .standby ∨ x.st.driven = true →
      ∃ t, Machine.exec (.cPhases d) s = .next t ∧ t.stage.answered d .success 0 ∧ t.stageless = p.stageless ∧
        t.stage.quiet = { p.stage with cs :=
          (p.cCancel { x := { x with nFix := dP d 0 1, auto := false }, notes := [] }).x }.quiet) ∧
    (dOp d = 0x123 → p.cHw.crowbar = true → p.cCrowbarOk = true →
      ∃ t, Machine.exec (.cCrowbarClr d) s = .next t ∧ t.stage.answered d .success 1 ∧ t.stageless = p.stageless ∧
        t.stage.notes = p.stage.notes ++ [.crowbarClear] ∧ t.stage.quiet = p.stage.quiet)) ∧
  ∀ (d : Staged) (s : State), s.runs = true → s.prepare.spanOpen d → dOp d = 0x130 →
    let p := s.prepare
    let x := p.stage.qs
    ((x.st = .charge ∧ 0 ≤ dS d 0) ∨ (x.st = .exportGf ∧ dS d 0 ≤ 0) →
      ∃ t, Machine.exec (.qPower d) s = .next t ∧ t.stage.answered d .success 0 ∧ t.stageless = p.stageless ∧
        t.stage.quiet = { p.stage with qs := { x with pTgt := dS d 0, qTgt := dS d 4 } }.quiet) ∧
    ((x.st = .charge ∧ dS d 0 < 0) ∨ (x.st = .exportGf ∧ 0 < dS d 0) →
      Machine.exec (.qPower d) s = .next (p.spanDone d .invalidParameter 0 false))

/-- A_HOLD, A_CURRENT and A_POS_REARM on an actuator (R229, R236): hold at a position within travel or where it stands,
current mode with the demand clamped to the limit, and the position fault cleared while no cause of it is present. -/
def Obligations.ActuatorSetCommands : Prop :=
  ∀ (d : Staged) (s : State), s.runs = true → s.prepare.spanOpen d →
    let p := s.prepare
    let m := dAct d
    let x := p.stage.actS m
    let put := fun (y : ActS) => if x.st = y.st then p.stage.putAct m y else (p.stage.putAct m y).changes (aSp m)
    (dOp d = 0x150 → x.st = .standby ∨ x.st = .hold ∨ x.st = .current → (dP d 0 1 = 1 → p.aInRange m (dS d 4) = true) →
      x.homed = true → x.st = .hold ∨ aSp m ∉ p.stage.changed →
      ∃ t, Machine.exec (.aHold d) s = .next t ∧ d.seq ∈ t.stage.handled ∧ t.stageless = p.stageless ∧
        t.stage.quiet = (put { x with st := .hold, target := if dP d 0 1 = 1 then dS d 4 else p.aPosNow m x }).quiet) ∧
    (dOp d = 0x154 → x.st = .hold ∨ x.st = .current → x.st = .current ∨ aSp m ∉ p.stage.changed →
      ∃ t, Machine.exec (.aCurrent d) s = .next t ∧ d.seq ∈ t.stage.handled ∧ t.stageless = p.stageless ∧
        t.stage.quiet = (put { x with st := .current, itgt := clampI (dS d 0) (-(p.aIlim m x.peakExh)) (p.aIlim m x.peakExh) }).quiet) ∧
    (dOp d = 0x156 → p.aCauseNow m = false →
      ∃ t, Machine.exec (.aPosRearm d) s = .next t ∧ t.stage.answered d .success x.posCause ∧ t.stageless = p.stageless ∧
        t.stage.quiet = (put { x with posFault := false, causeSkip := false, causeInv := false, causeAna := false }).quiet)

/-- A_SHIFT on a gear actuator, A_PARK and A_RELEASE on a park lock, from STANDBY or HOLD and homed, begin a movement to
their gear position, and A_HOME from STANDBY begins homing; the command is dealt with, and its completion comes when the
movement ends (R235, R239, R242): no completion is added, and of those formed none changes but by SUPERSEDED. -/
def Obligations.ActuatorMoveCommands : Prop :=
  ∀ (d : Staged) (s : State), s.runs = true → s.prepare.spanOpen d →
    let p := s.prepare
    let m := dAct d
    let x := p.stage.actS m
    let moves := fun (c : Instr) (y : ActS) =>
      ∃ t, Machine.exec c s = .next t ∧ t.stageless = p.stageless ∧ t.stage.handled = d.seq :: p.stage.handled ∧
        t.stage.cmpl.map (fun k => { k with superseded := false }) = p.stage.cmpl.map (fun k => { k with superseded := false }) ∧
        t.stage.quiet = ((p.stage.putAct m y).changes (aSp m)).quiet
    let start := fun (slot : Nat) (k : ShiftKind) => { x with
      st := .shifting, target := p.aGear m slot, tag := dTag d, elapsed := 0, slot := slot, out := .running, settle := 0,
      kind := k, startPos := p.aPosNow m x, cmd := some d, abortNow := false }
    (x.st = .standby ∨ x.st = .hold → x.homed = true → aSp m ∉ p.stage.changed →
      (dOp d = 0x151 → p.aParkLock m = false → p.aInRange m (p.aGear m (dP d 0 1)) = true →
        moves (.aShift d) (start (dP d 0 1) .shift)) ∧
      (dOp d = 0x152 → p.aParkLock m = true → p.aInRange m (p.aGear m 1) = true → moves (.aPark d) (start 1 .park)) ∧
      (dOp d = 0x153 → p.aParkLock m = true → p.aInRange m (p.aGear m 0) = true → moves (.aRelease d) (start 0 .release))) ∧
    (x.st = .standby → p.aCfg m 4 = false → aSp m ∉ p.stage.changed → dOp d = 0x155 →
      moves (.aHome d) { x with
        st := .homing, tag := dTag d, elapsed := 0, out := .running, settle := 0, kind := .home,
        startPos := p.aPosNow m x, cmd := some d, abortNow := false, stallRun := 0 })

/-! ### Sensing: references, triggers, sequences, calibration -/

/-- Before deck ready and outside abutment mode the reference is enabled and settles after its settling time, is disabled,
and SEQ_EN takes its value; SETTLED follows at its instant or falls at once, and EVAL follows its condition with it (R79, R83).
After deck ready or in abutment mode each is an access violation of its register (R20). -/
def Obligations.ReferenceControl : Prop :=
  (∀ (ofs : Nat) (s : State), s.start.ready = false → s.start.abut = false → s.adc.refEn = false →
    Machine.exec (.refEnable ofs) s = .next { s.at ofs with adc := { s.adc with
      refEn := true, settled := false, settleAt := (s.at ofs).tk.now + 500000 * uNs } }) ∧
  (∀ s : State, s.partsOk = true → s.start.ready = false → s.start.abut = false →
    ∃ t, Machine.exec .refDisable s = .next t ∧ t.adc.refEn = false ∧ t.adc.settled = false ∧ t.adc.eval = false ∧
      (∀ k, k < 8 → (t.pairS k).run = 0 ∧ (t.pairS k).implausible = (s.pairS k).implausible) ∧
      t.adc.conv = s.adc.conv ∧ t.adc.inp = s.adc.inp ∧ t.tk = s.tk ∧ t.bar = s.bar ∧ t.legs = s.legs ∧ t.cwy = s.cwy) ∧
  (∀ (v : Bool) (s : State), s.start.ready = false → s.start.abut = false →
    Machine.exec (.seqEn v) s = .next { s with adc := { s.adc with seqEn := v } }) ∧
  (∀ s : State, s.adc.refEn = true → s.adc.settled = false →
    (s.reaches s.adc.settleAt = true →
      ∃ t, Machine.exec .refSettled s = .next t ∧ t.adc.settled = true ∧ t.tk.now = max s.tk.now s.adc.settleAt ∧
        t.adc.eval = (List.range 16).all (fun c => (s.conv c).calDone && !(s.conv c).calFail) ∧
        t.tk.count = s.tk.count ∧ t.adc.conv = s.adc.conv ∧ t.adc.inp = s.adc.inp ∧ t.bar = s.bar ∧ t.legs = s.legs ∧ t.cwy = s.cwy) ∧
    (s.reaches s.adc.settleAt = false → Machine.exec .refSettled s = .next s)) ∧
  ∀ (ofs : Nat) (v : Bool) (s : State), s.start.ready = true ∨ s.start.abut = true →
    Machine.exec (.refEnable ofs) s = .next ((s.at ofs).accessViolation 0x4004) ∧
    Machine.exec .refDisable s = .next (s.accessViolation 0x4004) ∧
    Machine.exec (.seqEn v) s = .next (s.accessViolation 0x4000)

/-- A trigger comes at a point of its carrier (type 1), from a pin or a comparator (types 2 and 3), or where ADC_TRIG has
placed one (type 4). It enters its converter's queue behind every waiting trigger of its own or a higher priority and before the
first of a lower one (R72); with four waiting already, the last of the five is dropped, counted, and reported by E046 (R74). A
trigger while SEQ_EN is 0 or its converter calibrates is ignored (R72), and at any other instant there is none. -/
def Obligations.TriggerQueue : Prop :=
  ∀ (c : Conv) (j : Fin 4) (ofs : Nat) (s : State), s.partsOk = true →
    let u := s.at ofs
    let ty := u.srcType c.val j.val
    let new : Trigger := {
      src := j, prio := u.srcPrio c.val j.val, arrived := u.tk.now,
      period := if ty = 1 then (u.leg (u.srcLeg c.val j.val)).pstart else 0, uPeriod := (u.leg (uLegOf c.val)).pstart }
    let comes := (ty = 1 ∧ u.atPoint c.val j.val u.tk.now = true) ∨ ty = 2 ∨ ty = 3 ∨
      (ty = 4 ∧ ∃ h ∈ s.adc.hostTrig, h.1 = c ∧ h.2.1 = j ∧ h.2.2 ≤ u.tk.now)
    (¬ comes → Machine.exec (.injectedTrigger c j ofs) s = .next u) ∧
    (comes → s.adc.seqEn = false ∨ s.sampling c.val = false →
      ∃ t, Machine.exec (.injectedTrigger c j ofs) s = .next t ∧ t.adc.conv = s.adc.conv ∧ t.bar = s.bar ∧ t.legs = s.legs ∧
        t.cwy = s.cwy) ∧
    (comes → s.adc.seqEn = true → s.sampling c.val = true →
      ∃ (t : State) (a b : List Trigger), Machine.exec (.injectedTrigger c j ofs) s = .next t ∧
        (s.conv c.val).queue = a ++ b ∧ (∀ x ∈ a, new.prio ≤ x.prio) ∧ (∀ x, b.head? = some x → x.prio < new.prio) ∧
        ((s.conv c.val).queue.length < 4 → (t.conv c.val).queue = a ++ new :: b ∧ t.cwy = s.cwy) ∧
        ((s.conv c.val).queue.length = 4 → (t.conv c.val).queue = (a ++ new :: b).dropLast ∧
          (t.conv c.val).dropCount = satInc (s.conv c.val).dropCount max32 ∧
          ∃ k : Fin 4, u.reports t 46 u.deckAddr c.val k.val 0) ∧
        (∀ d : Nat, d ≠ c.val → t.conv d = s.conv d) ∧ t.bar = s.bar ∧ t.legs = s.legs)

/-- Slot 0 of the converters of a pair starts at one clock edge, once in a tick and before T0END; a converter that does not
sample has no part in it (R68, R69, R85). A free converter with a waiting trigger starts the sequence at the head of its queue,
on the first edge at or after its arrival, unless slot 0 is pending or the converter calibrates (R69, R73, R85). -/
def Obligations.SequenceStarts : Prop :=
  (∀ (p : Pair) (s : State), s.partsOk = true → s.adc.settled = true → s.tk.phi0Done = false →
    (s.conv (2 * p.val)).busy = .idle → (s.conv (2 * p.val + 1)).busy = .idle →
    s.slot0Edge p.val < s.boundary s.tk.count + s.t0end →
    ∃ t, Machine.exec (.regularSequenceStart p) s = .next t ∧
      (∀ c, c = 2 * p.val ∨ c = 2 * p.val + 1 →
        t.conv c = if s.sampling c = true ∧ (s.conv c).ran = false then
          { s.conv c with busy := .regular 0 (s.slot0Edge p.val), nextSlot := none, ran := true } else s.conv c) ∧
      (∀ c, c ≠ 2 * p.val → c ≠ 2 * p.val + 1 → t.conv c = s.conv c) ∧
      t.adc.inp = s.adc.inp ∧ t.tk = s.tk ∧ t.bar = s.bar ∧ t.legs = s.legs ∧ t.cwy = s.cwy) ∧
  (∀ (p : Pair) (s : State), s.boundary s.tk.count + s.t0end ≤ s.slot0Edge p.val →
    Machine.exec (.regularSequenceStart p) s = .next s) ∧
  ∀ (c : Conv) (s : State) (h : Trigger) (rest : List Trigger), s.partsOk = true → s.adc.settled = true →
    (s.conv c.val).busy = .idle → (s.conv c.val).queue = h :: rest →
    let edge := max (ceilTo h.arrived uEdge) (s.conv c.val).freeAt
    ((s.conv c.val).calRun = true ∨ s.slot0Pending c.val edge = true → Machine.exec (.injectedSequenceStart c) s = .next s) ∧
    ((s.conv c.val).calRun = false → s.slot0Pending c.val edge = false →
      ∃ t, Machine.exec (.injectedSequenceStart c) s = .next t ∧
        (t.conv c.val).busy = .injected h edge 0 ∧ (t.conv c.val).queue = rest ∧ h.arrived ≤ edge ∧
        (∀ d : Nat, d ≠ c.val → t.conv d = s.conv d) ∧
        t.adc.inp = s.adc.inp ∧ t.tk = s.tk ∧ t.bar = s.bar ∧ t.legs = s.legs ∧ t.cwy = s.cwy)

/-- A regular slot that ends delivers its corrected code and its signal to its input, but for the odd converter's result of the
plausibility input (R67, R68, R70), and the converter is free or starts its next slot, which no sequence waiting and no T0END
holds off; a slot that ran on after T0END delivers nothing (R71). The end of an injected sequence delivers its slots and frees
its converter at the end of its last conversion (R75). -/
def Obligations.SequenceEnds : Prop :=
  (∀ (c : Conv) (code : BitVec 16) (s : State) (n : Nat) (start : Instant), s.partsOk = true → s.adc.settled = true →
    (s.conv c.val).busy = .regular n start →
    let i := s.rSlot c.val n
    let cc := correctedCode (s.conv c.val) [code.toInt]
    let e := start + 16 * uEdge
    let goes := (s.conv c.val).queue = [] ∧ e < s.boundary s.tk.count + s.t0end
    ∃ t, Machine.exec (.regularSlotEnd c code) s = .next t ∧
      (c.val % 2 = 0 ∨ i ≠ s.pairInput (c.val / 2) →
        (t.inp i).latest = some { code := cc, s := s.toSignal i cc, ended := e, sync := false, regular := true, ang := none }) ∧
      (c.val % 2 = 1 → i = s.pairInput (c.val / 2) → t.inp i = s.inp i) ∧
      (∀ k : Nat, k ≠ i → t.inp k = s.inp k) ∧
      (t.conv c.val).freeAt = e ∧ (t.conv c.val).slot0 = (if n = 0 then some cc else (s.conv c.val).slot0) ∧
      (goes → (t.conv c.val).busy = (match s.nextSlotFrom c.val (n + 1) with | none => .idle | some m => .regular m e) ∧
        (t.conv c.val).nextSlot = none) ∧
      (¬ goes → (t.conv c.val).busy = .idle ∧ (t.conv c.val).nextSlot = s.nextSlotFrom c.val (n + 1)) ∧
      (∀ d : Nat, d ≠ c.val → t.conv d = s.conv d) ∧ t.bar = s.bar ∧ t.legs = s.legs ∧ t.tk = s.tk) ∧
  (∀ (c : Conv) (code : BitVec 16) (s : State) (n : Nat) (start : Instant), (s.conv c.val).busy = .late n start →
    Machine.exec (.regularSlotEnd c code) s =
      .next (s.updConv c.val (fun k => { k with busy := .idle, freeAt := start + 16 * uEdge, nextSlot := none }))) ∧
  ∀ (c : Conv) (codes : List (BitVec 16)) (s : State) (x : Trigger) (start : Instant) (done : Nat), s.partsOk = true →
    s.adc.settled = true → (s.conv c.val).calRun = false →
    (s.conv c.val).busy = .injected x start done → (s.conv c.val).nextSlot = none →
    let slots := s.srcSlots c.val x.src.val
    ∃ t, Machine.exec (.injectedSequenceEnd c codes) s = .next t ∧
      t.conv c.val = { s.conv c.val with busy := .idle, freeAt := start + slots.length * (16 * uEdge) } ∧
      (∀ (k : Nat) (r : BitVec 16), slots = [k] → codes = [r] → done = 0 → s.srcType c.val x.src.val ≠ 1 →
        c.val % 2 = 0 ∨ s.iSlot c.val k ≠ s.pairInput (c.val / 2) →
        let cc := correctedCode (s.conv c.val) [r.toInt]
        (t.inp (s.iSlot c.val k)).latest =
          some { code := cc, s := s.toSignal (s.iSlot c.val k) cc, ended := start + 16 * uEdge, sync := false, regular := false, ang := none }) ∧
      (∀ d : Nat, d ≠ c.val → t.conv d = s.conv d) ∧ t.bar = s.bar ∧ t.legs = s.legs ∧ t.tk = s.tk

/-- A calibration passes when its gain lies within 0x7333 to 0x8CCD and its offset within −512 to +512 (R86): then the
factors are in force and CAL_DONE is set; otherwise the factors before stay, CAL_FAIL is set, and E104 names the converter.
Every calibration that the converter ran in has its verdict; the last one of a start ends step 8, or fails the start with cause
16 where a converter failed (R408). A converter that does not calibrate ends none. -/
def Obligations.CalibrationVerdict : Prop :=
  (∀ (c : Conv) (gain : Nat) (offset : Int) (s : State), (s.conv c.val).calRun = false →
    Machine.exec (.adcCalEnd c gain offset) s = .next s) ∧
  (∀ (c : Conv) (gain : Nat) (offset : Int) (s : State) (r : CalRun), s.partsOk = true → (s.conv c.val).calRun = true →
    s.adc.cal = [r] → r.cmd = none → r.running = [c] →
    let ok := 0x7333 ≤ gain ∧ gain ≤ 0x8CCD ∧ -512 ≤ offset ∧ offset ≤ 512
    ∃ t, Machine.exec (.adcCalEnd c gain offset) s = .next t ∧ t.adc.cal = [] ∧ (t.conv c.val).calRun = false ∧
      (ok → r.failed = [] → t.start.step = 9 ∧ t.start.step9 = s.tk.now ∧ t.start.running = s.start.running) ∧
      (¬ ok ∨ r.failed ≠ [] → t.start.running = false ∧ t.start.lastCause = 16)) ∧
  ∀ (c : Conv) (gain : Nat) (offset : Int) (s : State), s.partsOk = true → (s.conv c.val).calRun = true →
    (∀ r ∈ s.adc.cal, r.cmd = none → ∃ d ∈ r.running, d ≠ c) →
    let ok := 0x7333 ≤ gain ∧ gain ≤ 0x8CCD ∧ -512 ≤ offset ∧ offset ≤ 512
    ∃ t, Machine.exec (.adcCalEnd c gain offset) s = .next t ∧
      (ok → t.conv c.val = { s.conv c.val with
        calRun := false, calDone := true, calFail := false, gain := gain, offset := offset } ∧ t.cwy = s.cwy) ∧
      (¬ ok → t.conv c.val = { s.conv c.val with calRun := false, calDone := false, calFail := true } ∧
        s.reports t 104 s.deckAddr c.val gain offset) ∧
      t.adc.cal = s.adc.cal.map (fun r => if c ∈ r.running then
        { r with
          running := r.running.filter (fun x => decide (x ≠ c)), passed := if ok then r.passed ++ [c] else r.passed,
          failed := if ok then r.failed else r.failed ++ [c] } else r) ∧
      (∀ d : Nat, d ≠ c.val → t.conv d = s.conv d) ∧ t.bar = s.bar ∧ t.legs = s.legs ∧ t.start = s.start

/-! ### The tick: boundary and phases -/

/-- A boundary that the deck takes opens the next tick, whatever the boundary finds to do (R43, R295); before start step 5, in
abutment mode, without a valid clock or without a period there is no tick, and nothing happens. -/
def Obligations.BoundaryCountsTick : Prop :=
  ∀ (inp : BoundaryIn) (s : State),
    (s.start.ticking = true → s.start.abut = false → s.clocked = true → s.pu ≠ 0 →
      ∃ t, Machine.exec (.tickBoundary inp) s = .next t ∧ t.tk.count = s.tk.count + 1 ∧ t.pending = s.pending) ∧
    (s.start.ticking = false ∨ s.start.abut = true ∨ s.clocked = false ∨ s.pu = 0 →
      Machine.exec (.tickBoundary inp) s = .next s)

/-- Φ0, Φ1 and Φ2 each run once in a tick (R46): the phase is marked as done, the tick stays the same, and a second one in
the tick does nothing. -/
def Obligations.PhasesRunOnce : Prop :=
  (∀ (ov : List (Fin 4)) (inj : List (Conv × List (BitVec 16))) (s : State), s.start.ticking = true → s.start.abut = false → s.clocked = true →
    (s.tk.phi0Done = false → ∃ t, Machine.exec (.phi0Snapshot ov inj) s = .next t ∧ t.tk.phi0Done = true ∧
      t.tk.count = s.tk.count ∧ t.pending = s.pending) ∧
    (s.tk.phi0Done = true → Machine.exec (.phi0Snapshot ov inj) s = .next s)) ∧
  (∀ (page : Option Block64) (descs : List Block64) (s : State),
    s.start.ticking = true → s.start.abut = false → s.clocked = true →
    (s.tk.phi1Done = false → ∃ t, Machine.exec (.doorbellFetch page descs) s = .next t ∧ t.tk.phi1Done = true ∧
      t.tk.count = s.tk.count ∧ t.pending = s.pending) ∧
    (s.tk.phi1Done = false → s.cwy.run = false →
      Machine.exec (.doorbellFetch page descs) s = .next { s with tk := { s.tk with phi1Done := true } }) ∧
    (s.tk.phi1Done = true → Machine.exec (.doorbellFetch page descs) s = .next s)) ∧
  ∀ (endAt : Nat) (tie : List (Fin 4)) (s : State), s.start.abut = false →
    (s.coresRun = true → s.tk.phi2Done = false → s.tk.phi0Done = true → s.tk.phi1Done = true → endAt < s.pu →
      ∃ t, Machine.exec (.phi2Compute endAt tie) s = .next t ∧ t.tk.phi2Done = true ∧ t.tk.count = s.tk.count ∧
        t.pending = s.pending) ∧
    (s.coresRun = false ∨ s.tk.phi2Done = true ∨ s.tk.phi0Done = false ∨ s.tk.phi1Done = false ∨ s.pu ≤ endAt →
      Machine.exec (.phi2Compute endAt tie) s = .next s)

/-- Φ3 of a tick whose compute is done (R46): on a single deck whose rings are open it writes every completion that is due to its
descriptor's slot of the completion ring, where no later one takes the slot, and marks the descriptor as done (R334), writes
the events of the tick (R337), writes an entry of telemetry while one is free (R340), and leaves registers, legs, spans, inputs and
the Keystone alone. A DECK_RESTART that is due starts the count anew. Φ3 runs once in a tick, after its compute. -/
def Obligations.MirrorPhase : Prop :=
  (∀ s : State, s.start.ticking = true → s.start.abut = false → s.clocked = true → s.tk.phi3Done = false →
    (s.coresRun = true → s.tk.phi2Done = true) →
    ∃ t, Machine.exec .phi3Mirror s = .next t ∧ (t.tk.count = s.tk.count ∨ t.tk.count = 0) ∧ t.pending = s.pending) ∧
  (∀ s : State, s.start.ticking = true → s.start.abut = false → s.clocked = true → s.tk.phi3Done = false →
    s.tk.phi2Done = true → s.kst.faultLine = false → s.inViaduct = false → s.ringsOpen = true → s.restartDue = none →
    ∃ t, Machine.exec .phi3Mirror s = .next t ∧ t.tk = { s.tk with phi3Done := true } ∧ t.cwy.cmplDue = [] ∧ t.cwy.evs = [] ∧
      (∀ c ∈ s.cwy.cmplDue, c.seq ∈ t.cwy.cmplDone) ∧
      (∀ pre c post, s.cwy.cmplDue = pre ++ c :: post → (∀ x ∈ post, x.seq % s.cmdEntries ≠ c.seq % s.cmdEntries) →
        s.mrm.trigs = [] → s.vdt.twinDue = [] → Store.wf (fun _ => none) s.cwy.cmplRing = true →
        Store.get (fun _ => none) t.cwy.cmplRing (c.seq % s.cmdEntries) = some c) ∧
      (1 ≤ s.tlmFree → t.cwy.tlmProd = idxNext s.cwy.tlmProd ∧ t.cwy.deckTick = s.tk.count) ∧
      t.bar = s.bar ∧ t.legs = s.legs ∧ t.adc = s.adc ∧ t.cur = s.cur ∧ t.stage = s.stage ∧ t.kst = s.kst) ∧
  ∀ s : State, s.tk.phi3Done = true ∨ (s.coresRun = true ∧ s.tk.phi2Done = false) → Machine.exec .phi3Mirror s = .next s

/-- A service tick of abutment mode (R412) counts on. With the Causeway off it reads nothing and drops the tick's events; with it
on and no command staged before, it reads the page and the new descriptors, each bound two service ticks on, and writes the
completions that are due to the ring while the link is up. Outside abutment mode there is none. -/
def Obligations.ServiceTicks : Prop :=
  ∀ (page : Option Block64) (descs : List Block64) (s : State),
    (s.start.abut = true → s.cwy.staged = [] → bitOf (s.reg 0x2000) 0 = false →
      Machine.exec (.abutmentServiceTick page descs) s = .next { s with
        start := { s.start with service := s.start.service + 1 }, cwy := { s.cwy with run := false, evs := [] } }) ∧
    (s.start.abut = true → s.cwy.staged = [] → bitOf (s.reg 0x2000) 0 = true →
      ∃ t, Machine.exec (.abutmentServiceTick page descs) s = .next t ∧ t.start.service = s.start.service + 1 ∧
        t.start.abut = true ∧ t.cwy.run = true ∧ (∀ d ∈ t.cwy.staged, d.bound = s.start.service + 3 ∧ d.late = false) ∧
        (page = none ∨ s.cwy.linkUp = false → t.cwy.staged = []) ∧
        (s.cwy.linkUp = true → t.cwy.cmplDue = []) ∧
        t.bar = s.bar ∧ t.legs = s.legs ∧ t.cur = s.cur ∧ t.tk.count = s.tk.count) ∧
    (s.start.abut = false → Machine.exec (.abutmentServiceTick page descs) s = .next s)

/-! ### The Truss and the Parapet -/

/-- At a period start of a leg (R113) the period in progress is the one due, the active set takes the shadow set when one was
pending, and PENDING returns to 0; every other leg keeps its sets. With no period due nothing happens. -/
def Obligations.PeriodStartReloads : Prop :=
  ∀ (l : Leg) (s : State), s.partsOk = true →
    (∀ (at0 : Instant) (len idx : Nat), s.periodDue l.val = some (at0, len, idx) →
      ∃ t, Machine.exec (.periodStart l) s = .next t ∧
        (t.leg l.val).plen = len ∧ (t.leg l.val).pstart = at0 ∧ (t.leg l.val).pidx = idx ∧
        (t.leg l.val).act = (if (s.leg l.val).pending then (s.leg l.val).sh else (s.leg l.val).act) ∧
        (t.leg l.val).pending = false ∧ (t.leg l.val).ws = (s.leg l.val).ws ∧ (t.leg l.val).sh = (s.leg l.val).sh ∧
        (∀ k : Nat, k ≠ l.val → (t.leg k).act = (s.leg k).act ∧ (t.leg k).sh = (s.leg k).sh ∧ (t.leg k).pending = (s.leg k).pending) ∧
        t.bar = s.bar ∧ t.adc = s.adc ∧ t.cur = s.cur ∧ t.stage = s.stage) ∧
    (s.periodDue l.val = none → Machine.exec (.periodStart l) s = .next s)

/-- An edge of a leg within its period (R114, R119): with no trip line standing it moves gates and nothing else of the deck,
and it never touches a held register, a set in force or a set posted; an armed switch that no pier fault holds turns on at its
instant (R130). At a carrier centre (R76, R159) the electrical angle is captured with its period, once a period, for its own
traction span; where no period runs, where it is captured already, and in a tick that ends before the centre, nothing
happens. -/
def Obligations.EdgesMoveGates : Prop :=
  (∀ (l : Leg) (tau : Nat) (s : State), s.partsOk = true →
    (tau < (s.leg l.val).plen →
      ∃ t, Machine.exec (.switchingEdge l tau) s = .next t ∧ t.bar = s.bar ∧ t.adc = s.adc ∧ t.cur = s.cur ∧ t.stage = s.stage ∧
        ((s.leg l.val).scLine = false → (s.leg l.val).ocLine = false →
          (∀ k : Nat, (t.leg k).still = (s.leg k).still) ∧ t.cwy = s.cwy ∧ t.kst = s.kst ∧ t.par = s.par)) ∧
    ((s.leg l.val).plen ≤ tau → Machine.exec (.switchingEdge l tau) s = .next s)) ∧
  (∀ (l : Leg) (x : Switch) (s : State) (at0 : Instant), s.partsOk = true → ((s.leg l.val).pier x).onAt = some at0 →
    s.pierHeld l.val x = false →
    ∃ t, Machine.exec (.gateOnEdge l x) s = .next t ∧
      ((t.leg l.val).pier x).gate = true ∧ ((t.leg l.val).pier x).onAt = none ∧
      (t.leg l.val).pier (Switch.other x) = (s.leg l.val).pier (Switch.other x) ∧
      (∀ k : Nat, k ≠ l.val → t.leg k = s.leg k) ∧ t.bar = s.bar ∧ t.adc = s.adc ∧ t.cwy = s.cwy) ∧
  ∀ (tr : Trac) (angle : BitVec 32) (s : State), s.partsOk = true →
    let u := tLeg tr 0
    let g := s.leg u
    (g.plen ≠ 0 → g.centred = false → s.reaches (s.carrierCentre u) = true →
      ∃ t, Machine.exec (.carrierCentre tr angle) s = .next t ∧
        (t.pos tr).caps = ((g.pstart, s.thetaE tr angle) :: (s.pos tr).caps).take 8 ∧ (∀ v, v ≠ tr → t.pos v = s.pos v) ∧
        t.leg u = { g with centred := true } ∧ (∀ k : Nat, k ≠ u → t.leg k = s.leg k) ∧
        t.bar = s.bar ∧ t.adc = s.adc ∧ t.cwy = s.cwy) ∧
    (g.plen = 0 ∨ g.centred = true ∨ s.reaches (s.carrierCentre u) = false →
      Machine.exec (.carrierCentre tr angle) s = .next s)

/-- Direct mode (R115): on a leg in direct mode outside abutment mode a write-set register takes the value at once and COMMIT
marks the span, for the boundary that closes the tick or, within the cutover window, the next; on any other leg, and in
abutment mode, the write is an access violation. -/
def Obligations.DirectMode : Prop :=
  ∀ (l : Leg) (r : WReg) (v : Word) (ofs : Nat) (s : State), s.partsOk = true →
    let u := s.at ofs
    (s.start.abut = false → s.legDirect l.val = true → s.pastCutover ofs = false →
      (∃ t, Machine.exec (.directWrite l r v ofs) s = .next t ∧ (t.leg l.val).ws = (s.leg l.val).ws.put r v.toNat ∧
        (t.leg l.val).wsWritten = true ∧ (t.leg l.val).act = (s.leg l.val).act ∧ (t.leg l.val).sh = (s.leg l.val).sh ∧
        (∀ k : Nat, k ≠ l.val → t.leg k = s.leg k) ∧ t.bar = s.bar ∧ t.par = s.par ∧ t.cwy = s.cwy) ∧
      ∃ t, Machine.exec (.directCommit l ofs) s = .next t ∧ Span.ofLeg l.val ∈ t.par.directCommit ∧
        t.par.directLate = s.par.directLate ∧ (t.leg l.val).ws = (s.leg l.val).ws ∧
        (∀ k : Nat, k ≠ l.val → t.leg k = s.leg k) ∧ t.bar = s.bar ∧ t.cwy = s.cwy) ∧
    (s.start.abut = false → s.legDirect l.val = true → s.pastCutover ofs = true →
      (∃ t, Machine.exec (.directWrite l r v ofs) s = .next t ∧ (t.leg l.val).ws = (s.leg l.val).ws ∧
        (t.leg l.val).late = (s.leg l.val).late ++ [(r, v.toNat)] ∧ (t.leg l.val).cutover = true ∧
        (t.leg l.val).shownSet = (s.leg l.val).shownSet.put r v.toNat) ∧
      ∃ t, Machine.exec (.directCommit l ofs) s = .next t ∧ Span.ofLeg l.val ∈ t.par.directLate ∧
        t.par.directCommit = s.par.directCommit) ∧
    (s.start.abut = true ∨ s.legDirect l.val = false →
      Machine.exec (.directWrite l r v ofs) s = .next (u.accessViolation (0xC000 + 0x200 * l.val + WReg.offset r)) ∧
      Machine.exec (.directCommit l ofs) s = .next (u.accessViolation (0xC044 + 0x200 * l.val)))

/-- The overcurrent line of a leg (R119 to R121): a unit's output moves the line and nothing else while the line is blanked or
the switches freewheel, and so does a release; asserted outside the blanking window, or still asserted at the window's end, the
line makes the period a trip period, counted once, and the leg latches off when the trip periods of its window reach TRIP_N,
with E005. A window's end with the line released only ends the window, and one sent before its time does nothing. -/
def Obligations.OvercurrentTrips : Prop :=
  ∀ (l : Leg) (unit : Fin 2) (ofs : Nat) (s : State), s.partsOk = true →
    let trips := fun (u t : State) =>
      let g := u.leg l.val
      let ticks := u.tk.count :: g.tripTicks.filter (fun m => decide (u.tk.count < m + fld (u.reg (0xC004 + 0x200 * l.val)) 0 16))
      (t.leg l.val).tripCounted = true ∧
      (g.tripCounted = false → (t.leg l.val).tripTotal = satInc g.tripTotal max16 ∧ (t.leg l.val).tripTicks = ticks) ∧
      (g.tripCounted = true → (t.leg l.val).tripTotal = g.tripTotal ∧ (t.leg l.val).tripLatch = g.tripLatch) ∧
      (g.tripCounted = false → g.tripLatch = false → fld (u.reg (0xC000 + 0x200 * l.val)) 20 8 ≤ ticks.length →
        (t.leg l.val).tripLatch = true ∧ t.protects 5 (u.legAddr l.val)) ∧
      (∀ k : Nat, k ≠ l.val → (t.leg k).still = (u.leg k).still) ∧ t.bar = u.bar ∧ t.cur = u.cur ∧ t.stage = u.stage
    let u := s.at ofs
    let g := s.leg l.val
    ((g.blanking = true ∧ u.tk.now < g.blankEnd) ∨ g.fwHs = true ∨ g.fwLs = true →
      Machine.exec (.ocLineAssert l ⟨unit, true, ofs⟩) s = .next (u.updLeg l.val (fun g => g.setOc unit true))) ∧
    Machine.exec (.ocLineAssert l ⟨unit, false, ofs⟩) s = .next (u.updLeg l.val (fun g => g.setOc unit false)) ∧
    ((g.blanking = false ∨ g.blankEnd ≤ u.tk.now) → g.fwHs = false → g.fwLs = false →
      ∃ t, Machine.exec (.ocLineAssert l ⟨unit, true, ofs⟩) s = .next t ∧ (t.leg l.val).ocLine = true ∧ trips u t) ∧
    (g.blanking = true → u.passed g.blankEnd = true → g.ocLine = true → g.fwHs = false → g.fwLs = false →
      ∃ t, Machine.exec (.blankWindowEnd l ofs) s = .next t ∧ trips s t) ∧
    (g.blanking = true → u.passed g.blankEnd = true → g.ocLine = false ∨ g.fwHs = true ∨ g.fwLs = true →
      ∃ t, Machine.exec (.blankWindowEnd l ofs) s = .next t ∧
      t.leg l.val = { g with blanking := false } ∧ (∀ k : Nat, k ≠ l.val → t.leg k = s.leg k) ∧ t.bar = s.bar ∧ t.cwy = s.cwy) ∧
    (g.blanking = false ∨ u.passed g.blankEnd = false → Machine.exec (.blankWindowEnd l ofs) s = .next s)

/-- Short circuits: an SC unit that asserts sets STAT.SC_TRIP and raises E001 where the period has raised none (R141); one that
releases only moves the line. A desaturation of a switched-on HV switch outside its blanking latches the switch's latch,
counts it and raises E000 (R140), and so does one that stands when the blanking ends; an end without one only ends the
blanking (R138); and the plateau's end finishes the soft turn-off (R139). An end sent before its time does nothing. -/
def Obligations.ShortCircuits : Prop :=
  ∀ (l : Leg) (x : Switch) (ofs : Nat) (s : State), s.partsOk = true →
    let u := s.at ofs
    let g := s.leg l.val
    let latched := fun (g : LegS) => match x with | .hs => g.desatHs | .ls => g.desatLs
    let desats := fun (t : State) =>
      latched (t.leg l.val) = true ∧ (t.leg l.val).desatCount = satInc g.desatCount max16 ∧
      t.protects 0 (s.switchAddr l.val x) ∧ t.bar = s.bar ∧ t.cur = s.cur ∧ t.stage = s.stage
    (∀ unit : Fin 2,
      (∃ t, Machine.exec (.scLineAssert l ⟨unit, true, ofs⟩) s = .next t ∧ (t.leg l.val).scTrip = true ∧ (t.leg l.val).scRaised = true ∧
        (g.scRaised = false → t.protects 1 (u.legAddr l.val)) ∧ t.bar = s.bar ∧ t.cur = s.cur ∧ t.stage = s.stage) ∧
      Machine.exec (.scLineAssert l ⟨unit, false, ofs⟩) s = .next (u.updLeg l.val (fun g => g.setSc unit false))) ∧
    (isHvLeg l.val = true → (g.pier x).gate = true → ((g.pier x).desatBlank = false ∨ (g.pier x).desatEnd ≤ u.tk.now) →
      latched g = false → ∃ t, Machine.exec (.desatDetect l x ofs) s = .next t ∧ desats t) ∧
    (isHvLeg l.val = false ∨ (g.pier x).gate = false ∨ ((g.pier x).desatBlank = true ∧ u.tk.now < (g.pier x).desatEnd) ∨ latched g = true →
      Machine.exec (.desatDetect l x ofs) s = .next u) ∧
    ((g.pier x).desatBlank = true → u.passed (g.pier x).desatEnd = true →
      (isHvLeg l.val = true → (g.pier x).gate = true → latched g = false →
        ∃ t, Machine.exec (.desatBlankEnd l x true ofs) s = .next t ∧ desats t) ∧
      ∃ t, Machine.exec (.desatBlankEnd l x false ofs) s = .next t ∧ (t.leg l.val).pier x = { g.pier x with desatBlank := false } ∧
        (∀ k : Nat, k ≠ l.val → t.leg k = s.leg k) ∧ t.bar = s.bar ∧ t.cwy = s.cwy) ∧
    ((g.pier x).desatBlank = false ∨ u.passed (g.pier x).desatEnd = false →
      ∀ asserted, Machine.exec (.desatBlankEnd l x asserted ofs) s = .next s) ∧
    ((g.pier x).soft = true → u.passed (g.pier x).softEnd = true →
      ∃ t, Machine.exec (.softOffPlateauEnd l x ofs) s = .next t ∧ ((t.leg l.val).pier x).soft = false ∧
        (t.leg l.val).still = g.still ∧ (∀ k : Nat, k ≠ l.val → t.leg k = s.leg k) ∧ t.bar = s.bar ∧ t.cwy = s.cwy) ∧
    ((g.pier x).soft = false ∨ u.passed (g.pier x).softEnd = false → Machine.exec (.softOffPlateauEnd l x ofs) s = .next s)

/-- Undervoltage lock-out (R133, R134, R136): a rail that its leg compares and that lies beyond its trip threshold sets its bit
and, on an HV leg or the LS supply of an LV leg, raises E007 at once; a rail within the threshold, or without a comparator,
does nothing. A bootstrap undervoltage that has lasted 1 ms raises E007 for its HS switch and stops nothing else. A leg whose
rails are all at their recovery thresholds is noted for the next boundary, an HV leg only while the Bearing supply is in
regulation (R135). -/
def Obligations.UndervoltageLockout : Prop :=
  ∀ (l : Leg) (rail : Fin 4) (mv : Int) (ofs : Nat) (s : State), s.partsOk = true →
    let u := s.at ofs
    let g := s.leg l.val
    (rail.val ∈ legRails l.val → s.uvLow l.val rail.val mv = true → g.uv rail.val = false →
      ∃ t, Machine.exec (.uvloTrip l ⟨rail, mv⟩ ofs) s = .next t ∧ (t.leg l.val).uv rail.val = true ∧
        (isHvLeg l.val = true ∨ rail.val = 2 → t.protects 7 (u.switchAddr l.val (railSwitch rail.val))) ∧
        (∀ k : Nat, k ≠ l.val → (t.leg k).still = (s.leg k).still) ∧ t.bar = s.bar ∧ t.cur = s.cur ∧ t.stage = s.stage) ∧
    (rail.val ∉ legRails l.val ∨ s.uvLow l.val rail.val mv = false → Machine.exec (.uvloTrip l ⟨rail, mv⟩ ofs) s = .next u) ∧
    (isHvLeg l.val = false → g.uvHsPos = true → g.bootLong = false → u.passed (g.bootAt + 1000000 * uNs) = true →
      ∃ t, Machine.exec (.bootstrapUvloTimeout l ofs) s = .next t ∧ (t.leg l.val).bootLong = true ∧
        t.protects 7 (s.switchAddr l.val .hs) ∧ t.bar = s.bar ∧ t.cur = s.cur ∧ t.stage = s.stage) ∧
    (isHvLeg l.val = true ∨ g.uvHsPos = false ∨ g.bootLong = true ∨ u.passed (g.bootAt + 1000000 * uNs) = false →
      Machine.exec (.bootstrapUvloTimeout l ofs) s = .next s) ∧
    (∀ v : List Int,
      (isHvLeg l.val = false ∨ s.trl.brgRun = true → (∀ r ∈ legRails l.val, s.uvBack l.val r (v.getD r 0) = true) →
        ∃ t, Machine.exec (.uvloRecover ⟨l, v⟩) s = .next t ∧ t.leg l.val = { g with uvClear := true } ∧
          (∀ k : Nat, k ≠ l.val → t.leg k = s.leg k) ∧ t.bar = s.bar ∧ t.cwy = s.cwy ∧ t.tk = s.tk) ∧
      ((isHvLeg l.val = true ∧ s.trl.brgRun = false) ∨ (∃ r ∈ legRails l.val, s.uvBack l.val r (v.getD r 0) = false) →
        Machine.exec (.uvloRecover ⟨l, v⟩) s = .next s))

/-- Overvoltage: a link comparator forces every leg of T0, T1 and Q to its safe pattern until two boundaries on, sets
LINK_OV_LATCH and raises E012 (R144); a converter output comparator starts the crowbar, sets C_OV_LATCH and raises E013,
and moves nothing of a leg but its gates and its soft turn-off (R16, R144). -/
def Obligations.OvervoltageTrips : Prop :=
  ∀ (unit : Fin 2) (ofs : Nat) (s : State), s.partsOk = true →
    (∃ t, Machine.exec (.linkOvTrip unit ofs) s = .next t ∧ t.par.linkOvLatch = true ∧
      t.protects 12 (s.at ofs).deckAddr ∧
      (∀ k : Nat, (t.leg k).parEnd = if k ∈ Span.t0.legs ++ Span.t1.legs ++ Span.q.legs then some (s.tk.count + 2) else (s.leg k).parEnd) ∧
      t.bar = s.bar ∧ t.cHw = s.cHw ∧ t.cur = s.cur ∧ t.stage = s.stage) ∧
    ∃ t, Machine.exec (.cOvTrip unit ofs) s = .next t ∧ t.cHw.crowbar = true ∧ t.par.cOvLatch = true ∧
      (s.cHw.crowbar = false → t.cHw.crowTick = s.tk.count) ∧ t.protects 13 ((s.at ofs).spanAddr .c) ∧
      (∀ k : Nat, { (t.leg k).still with softOff := (s.leg k).softOff } = (s.leg k).still) ∧
      t.bar = s.bar ∧ t.cur = s.cur ∧ t.stage = s.stage

/-- Span C's own hardware: a zero crossing of an active phase in discontinuous mode blocks its conducting switch for the rest
of the period, and an overshoot in LINK or BATT, where truncation is configured, is counted by the phases cut and noted;
elsewhere neither acts. -/
def Obligations.ConverterHardwareActs : Prop :=
  (∀ (k : Fin 8) (ofs : Nat) (s : State), s.partsOk = true →
    let x := s.cur.cs
    let w : Switch := if x.deHs then .hs else .ls
    (x.de = true → (x.phase k.val).active = true → ((s.leg (12 + k.val)).pier w).cmd = true →
      ∃ t, Machine.exec (.zcdDetect k ofs) s = .next t ∧ t.cHw = { s.cHw with zcdNow := true } ∧
        (t.leg (12 + k.val)).isBlocked w = true ∧ (∀ j : Nat, j ≠ 12 + k.val → (t.leg j).still = (s.leg j).still) ∧
        t.bar = s.bar ∧ t.cur = s.cur ∧ t.stage = s.stage ∧ t.cwy = s.cwy) ∧
    (x.de = false ∨ (x.phase k.val).active = false ∨ ((s.leg (12 + k.val)).pier w).cmd = false →
      Machine.exec (.zcdDetect k ofs) s = .next (s.at ofs))) ∧
  ∀ (ofs : Nat) (s : State), s.partsOk = true →
    let x := s.cur.cs
    let cut := (x.active.map (· + 12)).filter (fun l => !((s.leg l).isBlocked (cEnergising x.st)))
    (s.cCfg 2 1 = 1 → x.st = .link ∨ x.st = .batt →
      ∃ t, Machine.exec (.overshootTruncate ofs) s = .next t ∧ t.cHw.truncRaised = true ∧ .cTrunc ∈ t.sticky ∧
        t.cHw.truncCount = satAdd s.cHw.truncCount cut.length max32 ∧ t.bar = s.bar ∧ t.cur = s.cur ∧ t.stage = s.stage) ∧
    (s.cCfg 2 1 ≠ 1 ∨ (x.st ≠ .link ∧ x.st ≠ .batt) → Machine.exec (.overshootTruncate ofs) s = .next (s.at ofs))

/-- Comparator tests: a test that a leg's comparator passes is noted with its tick, one that it fails marks the leg
unprotected and raises E008 (R145, R148); a failed test of a deck comparator sets its TEST_FAIL bit (R149). A round that ends
opens the next with no comparator tested (R145, R146), and a leg whose test is overdue while its switch is used is marked
unprotected with E008 (R257). -/
def Obligations.ComparatorTests : Prop :=
  (∀ (l : Leg) (c : Fin 10) (pass : Bool) (ofs : Nat) (s : State), s.partsOk = true → s.testOpen (.leg l c) = true →
    (legComparators l.val).contains c.val = true → (∀ x, comparatorSwitch c.val = some x → (s.at ofs).offWindow l.val x = true) →
    ∃ t, Machine.exec (.comparatorTest (.leg l c) pass ofs) s = .next t ∧ c.val ∈ (t.leg l.val).tested ∧
      (c.val ∈ (t.leg l.val).testFail ↔ pass = false) ∧
      (pass = true → (t.leg l.val).unprot = (s.leg l.val).unprot) ∧
      (pass = false → (t.leg l.val).unprot = true ∧ t.protects 8 ((s.at ofs).legAddr l.val)) ∧
      t.bar = s.bar ∧ t.cur = s.cur ∧ t.stage = s.stage) ∧
  (∀ (k : Fin 4) (pass : Bool) (ofs : Nat) (s : State), s.testOpen (.deck k) = true →
    ∃ t, Machine.exec (.comparatorTest (.deck k) pass ofs) s = .next t ∧ k ∈ t.par.ovTested ∧
      (pass = true → t.par.testFail = s.par.testFail) ∧
      (pass = false → k ∈ t.par.testFail ∧ t.protects 8 (s.at ofs).deckAddr) ∧ t.legs = s.legs ∧ t.bar = s.bar) ∧
  (∀ s : State, s.partsOk = true →
    (s.start.ready = true → s.par.roundStart + 4096 ≤ s.tk.count →
      ∃ t, Machine.exec .testRoundEnd s = .next t ∧ t.par.roundStart = s.par.roundStart + 4096 ∧ t.par.ovTested = [] ∧
        (∀ l : Leg, (t.leg l.val).tested = []) ∧ t.bar = s.bar ∧ t.tk = s.tk) ∧
    (s.tk.count < s.par.roundStart + 4096 → Machine.exec .testRoundEnd s = .next s)) ∧
  ∀ (l : Leg) (s : State), s.partsOk = true →
    let old := (legComparators l.val).filter (fun k =>
      decide (12288 ≤ s.tk.count - max s.par.testBase (Store.get (fun _ => 0) (s.leg l.val).testTicks k)))
    (s.start.ready = true → 12288 ≤ s.testAge l.val → (s.leg l.val).ageBad = false →
      (∃ k ∈ old, match comparatorSwitch k with
        | some x => s.switches l.val x = true
        | none => s.switches l.val .hs = true ∨ s.switches l.val .ls = true) →
      ∃ t, Machine.exec (.testAgeOverdue l) s = .next t ∧ (t.leg l.val).unprot = true ∧ (t.leg l.val).ageBad = true ∧
        t.protects 8 (s.legAddr l.val) ∧ t.bar = s.bar ∧ t.cur = s.cur ∧ t.stage = s.stage) ∧
    (s.testAge l.val < 12288 → Machine.exec (.testAgeOverdue l) s = .next s)

/-- A Hall state of an actuator (R150, R151): states 0 and 7 set its bit in PIER_HALL_STAT.INVALID, with E052 where the bit was
clear, and any other state clears it; the bits of the other actuators stay. -/
def Obligations.HallStates : Prop :=
  ∀ (m : Act) (v : Fin 8) (ofs : Nat) (s : State), s.partsOk = true →
    ∃ t, Machine.exec (.hallStateChange m v ofs) s = .next t ∧
      (m ∈ t.par.hallInvalid ↔ (v = 0 ∨ v = 7)) ∧ (∀ k, k ≠ m → (k ∈ t.par.hallInvalid ↔ k ∈ s.par.hallInvalid)) ∧
      ((v = 0 ∨ v = 7) → m ∉ s.par.hallInvalid → (s.at ofs).reports t 52 (s.spanAddr (Span.ofAct m)) v.val 0 0) ∧
      (∀ k : Nat, (t.leg k).still = (s.leg k).still) ∧ t.bar = s.bar ∧ t.cur = s.cur ∧ t.stage = s.stage

/-- The clock monitors (R125): the first lost clock, or a debug halt, puts every leg under the clock-safe pattern and is
remembered; a further loss changes nothing. When the clocks are valid again the fault line is asserted and E006 raised. -/
def Obligations.ClockLoss : Prop :=
  (∀ (c : Instr) (code ofs : Nat) (s : State), s.partsOk = true →
    (c = .clockFail .counter ofs ∧ code = 1 ∨ c = .clockFail .fabric ofs ∧ code = 2 ∨ c = .clockFail .halt ofs ∧ code = 3 ∨
      c = .debugHalt ofs ∧ code = 3) →
    (s.par.clockLost = 0 → ∃ t, Machine.exec c s = .next t ∧ t.par.clockLost = code ∧ t.clocked = false ∧
      (∀ l : Leg, (t.leg l.val).clkSafe = true) ∧ t.bar = s.bar ∧ t.cur = s.cur ∧ t.stage = s.stage ∧ t.kst = s.kst) ∧
    (s.par.clockLost ≠ 0 → Machine.exec c s = .next (s.at ofs))) ∧
  ∀ (ofs : Nat) (s : State),
    (s.par.clockLost ≠ 0 → ∃ t, Machine.exec (.clocksValid ofs) s = .next t ∧ t.clocked = true ∧
      t.kst.faultLine = true ∧ t.protects 6 (s.at ofs).deckAddr ∧ t.bar = s.bar) ∧
    (s.par.clockLost = 0 → Machine.exec (.clocksValid ofs) s = .next (s.at ofs))

/-! ### The Keystone -/

/-- R248: a double-bit error in a core's RAM asserts the fault line and sets KST_FAULT.ECC; a single-bit error is counted in
KST_ECC_COUNT for its core and causes no other reaction. -/
def Obligations.RamErrors : Prop :=
  ∀ (trailing : Bool) (ofs : Nat) (s : State),
    (∃ t, Machine.exec (.ramEccError trailing true ofs) s = .next t ∧ t.kst.faultLine = true ∧ t.kst.ecc = true ∧
      (s.kst.faultLine = false → t.protects 22 (s.at ofs).deckAddr)) ∧
    Machine.exec (.ramEccError false false ofs) s =
      .next { s.at ofs with kst := { s.kst with ecc0 := satInc s.kst.ecc0 0xFFFF } } ∧
    Machine.exec (.ramEccError true false ofs) s =
      .next { s.at ofs with kst := { s.kst with ecc1 := satInc s.kst.ecc1 0xFFFF } }

/-- The window watchdog (R247): while the cores run, a service from T0END to P − 1 µs is noted with its offset, and a service
outside the window, or none by P − 1 µs, asserts the fault line and sets KST_FAULT.WDT, with E021 where the line was
released. -/
def Obligations.WindowWatchdog : Prop :=
  ∀ (ofs : Nat) (s : State), s.coresRun = true →
    let fails := fun (c : Instr) => ∃ t, Machine.exec c s = .next t ∧ t.kst.faultLine = true ∧ t.kst.wdt = true ∧
      t.protects 21 s.deckAddr ∧ t.bar = s.bar ∧ t.adc = s.adc ∧ (∀ k : Nat, s.partsOk = true → (t.leg k).still = (s.leg k).still)
    (s.t0end ≤ ofs ∧ ofs + 1000 * uNs ≤ s.pu → Machine.exec (.watchdogService ofs) s =
      .next { s.at ofs with kst := { s.kst with served := some (ofs / u25) } }) ∧
    (ofs < s.t0end ∨ s.pu < ofs + 1000 * uNs → fails (.watchdogService ofs)) ∧
    (s.kst.served = none → fails .watchdogExpiry) ∧
    (s.kst.served ≠ none → Machine.exec .watchdogExpiry s = .next (s.at (s.pu - 1000 * uNs)))

/-- A lockstep mismatch (R246) asserts the fault line, sets KST_FAULT.MISMATCH and records its address and tick, the first
since the last start only, with E018; with the lockstep broken by a debugger, or the line asserted, it does nothing. A
debugger breaks the lockstep, counts the attachment and raises E020, and LS_BROKEN is cleared by its own command. -/
def Obligations.LockstepAndDebug : Prop :=
  ∀ (addr : Word) (ofs : Nat) (s : State), s.partsOk = true →
    (s.kst.lsBroken = false → s.kst.faultLine = false →
      ∃ t, Machine.exec (.lockstepMismatch addr ofs) s = .next t ∧ t.kst.faultLine = true ∧ t.kst.mismatch = true ∧
        t.kst.mmRecorded = true ∧ t.kst.mmAddr = (if s.kst.mmRecorded then s.kst.mmAddr else addr.toNat) ∧
        t.kst.mmTick = (if s.kst.mmRecorded then s.kst.mmTick else s.tk.count) ∧ t.protects 18 (s.at ofs).deckAddr ∧
        t.bar = s.bar ∧ t.adc = s.adc ∧ ∀ k : Nat, (t.leg k).still = (s.leg k).still) ∧
    (s.kst.lsBroken = true ∨ s.kst.faultLine = true →
      Machine.exec (.lockstepMismatch addr ofs) s = .next (s.at ofs)) ∧
    (∃ t, Machine.exec (.debugAttach ofs) s = .next t ∧
      t.kst = { s.kst with lsBroken := true, lockstepOk := false, attaches := satInc s.kst.attaches 255, faultTick := if s.kst.faultLine then s.kst.faultTick else s.tk.count } ∧
      t.protects 20 (s.at ofs).deckAddr ∧ t.bar = s.bar ∧ t.adc = s.adc ∧ t.cur = s.cur ∧
      ∀ k : Nat, (t.leg k).still = (s.leg k).still) ∧
    Machine.exec .lsBrokenClear s = .next { s with kst := { s.kst with lsBroken := false, attaches := 0 } }

/-! ### What time alone brings on the spans -/

/-- Time on the spans. A peak allowance used up (the traction's at 30 s, the brake's at 10 s, an actuator's at 2 s) is marked
on its span with its event, once; with time left, nothing used or the mark already there, nothing happens. A torque dip whose
tick has come is over, a short-circuited traction without an angle leaves it after 256 ticks with E054, a sense fault clears
after 1024 good ticks, an actuator whose movement reaches its timeout holds where it stands with the timeout outcome, its
command answered (R239, R242). -/
def Obligations.SpanTimers : Prop :=
  (∀ (t : Trac) (s : State),
    let x := s.stage.trac t
    (s.reached x.peak 30000 = true → 0 < x.peak → x.peakExh = false →
      ∃ u, Machine.exec (.torquePeakExhaust t) s = .next u ∧ u.stage = s.stage.putTrac t { x with peakExh := true } ∧
        s.reports u 56 (s.spanAddr (Span.ofTrac t)) 0 x.peak 0 ∧ u.bar = s.bar ∧ u.cur = s.cur ∧ u.legs = s.legs ∧ u.tk = s.tk) ∧
    (s.reached x.peak 30000 = false ∨ x.peak = 0 ∨ x.peakExh = true →
      Machine.exec (.torquePeakExhaust t) s = .next s)) ∧
  (∀ s : State,
    let x := s.stage.bs
    (s.reached x.peak 10000 = true → 0 < x.peak → x.peakExh = false →
      ∃ u, Machine.exec .brakePeakExhaust s = .next u ∧ u.stage = { s.stage with bs := { x with peakExh := true } } ∧
        s.reports u 63 (s.spanAddr .b) 2 0 0 ∧ u.bar = s.bar ∧ u.cur = s.cur ∧ u.legs = s.legs ∧ u.tk = s.tk) ∧
    (s.reached x.peak 10000 = false ∨ x.peak = 0 ∨ x.peakExh = true → Machine.exec .brakePeakExhaust s = .next s)) ∧
  (∀ (m : Act) (s : State),
    let x := s.stage.actS m.val
    (s.reached x.peak 2000 = true → 0 < x.peak → x.peakExh = false →
      ∃ u, Machine.exec (.actuatorPeakExhaust m) s = .next u ∧ u.stage = s.stage.putAct m.val { x with peakExh := true } ∧
        s.reports u 43 (s.spanAddr (aSp m.val)) 0 x.peak 0 ∧ u.bar = s.bar ∧ u.cur = s.cur ∧ u.legs = s.legs ∧ u.tk = s.tk) ∧
    (s.reached x.peak 2000 = false ∨ x.peak = 0 ∨ x.peakExh = true →
      Machine.exec (.actuatorPeakExhaust m) s = .next s)) ∧
  (∀ (t : Trac) (e : Tick) (s : State), (s.stage.trac t).dipEnd = some e → e ≤ s.tk.count + 1 →
    Machine.exec (.dipEnd t) s =
      .next { s with stage := s.stage.putTrac t { s.stage.trac t with dip := 0x1000000, dipEnd := none } }) ∧
  (∀ (t : Trac) (s : State),
    let x := s.stage.trac t
    x.st = .safe → x.angSrc = 0 → x.ascZone = true → x.ascRun = 256 →
    ∃ u, Machine.exec (.ascExitNoAngle t) s = .next u ∧
      u.stage = s.stage.putTrac t { x with ascZone := false, safeA := 1, safeB := 1 } ∧
      s.reports u 54 (s.spanAddr (Span.ofTrac t)) 0 1 1 ∧ u.bar = s.bar ∧ u.cur = s.cur ∧ u.legs = s.legs) ∧
  (∀ s : State, s.stage.cs.senseFault = true → 1024 ≤ s.stage.cs.clearRun →
    Machine.exec .senseFaultClear s = .next { s with stage := { s.stage with cs :=
      { s.stage.cs with senseFault := false, senseAi32 := false, senseAi33 := false, senseDis := false, clearRun := 0 } } }) ∧
  ∀ (m : Act) (s : State),
    let x := s.stage.actS m.val
    let held := fun (y : ActS) => s.stage.putAct m.val
      { y with st := .hold, out := .timeout, target := s.aPos m.val, cmd := none, abortNow := false, stallRun := 0 }
    s.aTmo m.val ≤ x.elapsed →
    (x.st = .shifting → ∃ u, Machine.exec (.shiftTimeout m) s = .next u ∧ u.stageless = s.stageless ∧
      u.stage.quiet = (held x).quiet ∧ (∀ d, x.cmd = some d → ∃ c, u.stage.cmpl = s.stage.cmpl ++ [c] ∧ c.seq = d.seq ∧ c.status = .timeout)) ∧
    (x.st = .homing → ∃ u, Machine.exec (.homeTimeout m) s = .next u ∧ u.stageless = s.stageless ∧
      u.stage.quiet = (held { x with homed := false }).quiet ∧
      (∀ d, x.cmd = some d → ∃ c, u.stage.cmpl = s.stage.cmpl ++ [c] ∧ c.seq = d.seq ∧ c.status = .timeout))

/-- The pilot of the charger and its contactor K_AC: with the pilot in use a cycle is judged and a change of its state raises
E061; a feedback that differs for longer than the limit sets its fault, and an output that fails while K_AC is closed sets
its own. -/
def Obligations.PilotAndContactor : Prop :=
  (∀ (p : PilotIn) (s : State), s.qCfg 0 = true →
    ((s.pilot.cycle p).st = s.pilot.st → Machine.exec (.pilotCycle p) s = .next { s with pilot := s.pilot.cycle p }) ∧
    ((s.pilot.cycle p).st ≠ s.pilot.st → ∃ t, Machine.exec (.pilotCycle p) s = .next t ∧ t.pilot = s.pilot.cycle p ∧
      s.reports t 61 (s.spanAddr .q) (s.pilot.cycle p).st.code 0 0 ∧ t.bar = s.bar ∧ t.stage = s.stage ∧ t.legs = s.legs)) ∧
  (∀ (ofs : Nat) (t : Instant) (s : State), s.pilot.diffSince = some t → t + 100000000 * uNs < (s.at ofs).tk.now →
    Machine.exec (.kacFbTimeout ofs) s = .next { s.at ofs with pilot := { s.pilot with fbFault := true } }) ∧
  ∀ s : State, (s.cur.qs.kAc = true → Machine.exec .kAcOutFault s = .next { s with pilot := { s.pilot with outFault := true } }) ∧
    (s.cur.qs.kAc = false → Machine.exec .kAcOutFault s = .next s)

/-! ### The viaduct and the Pylon -/

/-- How two decks pair. A handshake frame that a lane brings while the decks shake hands is checked (R266): it marks the
handshake sound, or the pairing failed with E086 and the number of the first check it fails; one that comes later than 3 µs
into the tick belongs to the tick in progress. A lane that brings nothing valid changes only the record of the lanes. 1.5 s
after the handshake began a deck that has not paired goes alone where the image allows it and no frame was ever seen, and
else fails its start with cause 18 (R267, R407); before, or with nothing to wait for, the timeout does nothing. -/
def Obligations.HandshakeAndPairing : Prop :=
  (∀ (l0 l1 : Option (List Byte)) (ofs : Nat) (s : State),
    let u := s.at ofs
    let r := u.laneFrame 3 (fun _ => true) l0 l1
    let n := if ofs ≤ 3000 * uNs then s.tk.count else s.tk.count + 1
    (s.shaking = false → Machine.exec (.handshakeFrame l0 l1 ofs) s = .next u) ∧
    (s.shaking = true → r.1 = none → Machine.exec (.handshakeFrame l0 l1 ofs) s = .next (u.gotLanes r.2.1 r.2.2)) ∧
    ∀ f, s.shaking = true → r.1 = some f →
      ∃ t, Machine.exec (.handshakeFrame l0 l1 ofs) s = .next t ∧ t.vdt.shakeSeen = true ∧ t.vdt.rxTick = fTick f ∧
        t.vdt.got0 = (s.vdt.got0 || r.2.1) ∧ t.vdt.got1 = (s.vdt.got1 || r.2.2) ∧
        (u.shakeCheck f n = 0 → t.vdt.shakeOk = true ∧ t.cwy = s.cwy) ∧
        (u.shakeCheck f n ≠ 0 → t.vdt.shakeOk = false ∧ t.vdt.shakeRun = 0 ∧ t.vdt.pairFail = u.shakeCheck f n ∧
          u.reports t 86 u.deckAddr (u.shakeCheck f n) 0 0) ∧
        t.vdt.pair = s.vdt.pair ∧ t.bar = s.bar ∧ t.legs = s.legs ∧ t.cur = s.cur ∧ t.stage = s.stage) ∧
  ∀ s : State,
    (∀ t : Instant, s.vdt.shakeAt = some t → s.vdt.pair = 1 → s.start.running = true →
      s.reaches (t + 1500000000 * uNs) = true →
      (bitOf (s.reg 0x31000) 6 = true → s.vdt.shakeSeen = false →
        ∃ u, Machine.exec .pairingTimeout s = .next u ∧ u.vdt.pair = 3 ∧ u.vdt.paired = false ∧ u.vdt.cwyLead = true ∧
          u.vdt.leads = Span.all.filter s.fitted ∧ u.tk.now = max s.tk.now (t + 1500000000 * uNs) ∧ u.tk.count = s.tk.count ∧
          u.start = s.start ∧ u.legs = s.legs ∧ u.bar = s.bar ∧ u.cur = s.cur ∧ u.cwy = s.cwy) ∧
      (bitOf (s.reg 0x31000) 6 = false ∨ s.vdt.shakeSeen = true →
        ∃ u, Machine.exec .pairingTimeout s = .next u ∧ u.start.running = false ∧ u.start.lastCause = 18 ∧
          u.start.failCount = min 3 (s.start.failCount + 1) ∧ u.bar = s.bar)) ∧
    (s.vdt.shakeAt = none ∨ s.vdt.pair ≠ 1 ∨ s.start.running = false ∨
      (∃ t, s.vdt.shakeAt = some t ∧ s.reaches (t + 1500000000 * uNs) = false) →
      Machine.exec .pairingTimeout s = .next s)

/-- The frames of a pair at work (R270, R280 to R283). A mirror frame that is valid and in time is kept for the compute; one
that shows this deck's frames unacknowledged for 4 ticks or more holds every leg and gives every span up, once (R281); a lane
that brings nothing valid changes only the record of the lanes. A relinquish frame in a pair schedules a takeover of the
spans it names that are fitted, not taken over yet and not this deck's already, with the Causeway where the other deck led
it, for the next boundary, or the one after when Φ1 is past (R282). -/
def Obligations.MirrorAndRelinquish : Prop :=
  (∀ (l0 l1 : Option (List Byte)) (ofs : Nat) (s : State),
    let u := s.at ofs
    let r := u.laneFrame 1 (u.inTime ofs) l0 l1
    let g := u.gotLanes r.2.1 r.2.2
    (r.1 = none → Machine.exec (.mirrorFrame l0 l1 ofs) s = .next g) ∧
    ∀ f, r.1 = some f →
      (s.vdt.pair ≠ 2 ∨ fTick f < fw f 24 8 + 4 ∨ s.vdt.staleAck = true →
        Machine.exec (.mirrorFrame l0 l1 ofs) s = .next { g with vdt := { g.vdt with frameNew := some f } }) ∧
      (s.vdt.pair = 2 → fw f 24 8 + 4 ≤ fTick f → s.vdt.staleAck = false →
        ∃ t, Machine.exec (.mirrorFrame l0 l1 ofs) s = .next t ∧ t.vdt.frameNew = some f ∧ t.vdt.staleAck = true ∧
          t.vdt.hold = Span.all ∧ t.bar = s.bar ∧ t.cur = s.cur ∧ t.stage = s.stage ∧
          (s.partsOk = true → ∀ k : Nat, (t.leg k).still = (s.leg k).still))) ∧
  ∀ (l0 l1 : Option (List Byte)) (ofs : Nat) (s : State),
    let u := s.at ofs
    let r := u.laneFrame 2 (fun _ => true) l0 l1
    let g := u.gotLanes r.2.1 r.2.2
    (r.1 = none ∨ s.vdt.pair ≠ 2 → Machine.exec (.relinquishFrame l0 l1 ofs) s = .next g) ∧
    ∀ f, r.1 = some f → s.vdt.pair = 2 →
      ∃ new, (∀ x, x ∈ new ↔ x ∈ fSpans f 18 ∧ s.fitted x = true ∧ x ∉ s.vdt.alone ∧
          (∀ k ∈ s.vdt.takeovers, x ∉ k.2.1) ∧ (x.code ≤ 4 ∨ x ∉ s.vdt.leads)) ∧
        (new = [] → s.vdt.cwyLead = true → Machine.exec (.relinquishFrame l0 l1 ofs) s = .next g) ∧
        (new ≠ [] ∨ s.vdt.cwyLead = false → Machine.exec (.relinquishFrame l0 l1 ofs) s = .next { g with vdt := { g.vdt with
          takeovers := s.vdt.takeovers ++
            [(if s.tk.phi0Done = true ∧ s.tk.phi1Done = true then s.tk.count + 2 else s.tk.count + 1, new, !s.vdt.cwyLead, 1)] } })

/-- The deck's own clock (R299 to R301). A Sync message of the domain, outside abutment mode and away from the
grandmaster's state, is taken with its offset, less the path delay, and its frequency where the line does not steer it, and
moves the clock's state as its offset says; three intervals without Sync lead to holdover; an Announce message makes or
unmakes a grandmaster; a delay exchange sets the path delay; a grandmaster sends Sync at its interval and Announce every
second. -/
def Obligations.SyncAndGrandmaster : Prop :=
  (∀ (m : SyncIn) (ofs : Nat) (s : State),
    let mine := m.domain.toNat = fld (s.reg 0x1104) 0 7 ∧ s.pyl.st ≠ .grandmaster ∧ s.start.abut = false
    let o := m.offset - s.pyl.pathDelay
    let steered := s.pyl.lineValid = true ∧ s.pyl.st = .locked
    (¬ mine → Machine.exec (.syncMessage m ofs) s = .next (s.at ofs)) ∧
    (mine → ∃ t, Machine.exec (.syncMessage m ofs) s = .next t ∧ t.pyl.gmId = m.gm.toNat ∧ t.pyl.offset = sat32 o ∧
      (s.pyl.st ≠ .holdover → ¬ steered → t.pyl.freqAdj = clampI m.adj (-50000) 50000) ∧
      (s.pyl.st = .holdover ∨ steered → t.pyl.freqAdj = s.pyl.freqAdj) ∧
      (s.pyl.st = .free → t.pyl.st = (if s.start.ready then .free else .acquire)) ∧
      (s.pyl.st = .acquire → absI o ≤ 100 → 15 ≤ s.pyl.goodSyncs → t.pyl.st = .locked) ∧
      (s.start.ready = true → s.pyl.st = .locked → farOffset o = true → s.pyl.farSyncs = 3 →
        t.pyl.st = .holdover ∧ t.pyl.ofsFault = true) ∧
      t.bar = s.bar ∧ t.cur = s.cur ∧ t.stage = s.stage ∧ t.kst = s.kst)) ∧
  (∀ (ofs : Nat) (s : State),
    let due := s.pyl.lastSync + 3 * s.syncInterval ≤ (s.at ofs).tk.now
    (s.pyl.st = .locked ∨ s.pyl.st = .acquire → due →
      ∃ t, Machine.exec (.syncLoss ofs) s = .next t ∧ t.pyl.st = .holdover ∧ t.pyl.syncLost = true ∧ t.pyl.mayRejoin = true ∧
        t.pyl.holdCount = satInc s.pyl.holdCount max32 ∧
        (s.at ofs).reports t 73 s.deckAddr 3 PylSt.holdover.code s.pyl.offset ∧ t.bar = s.bar ∧ t.legs = s.legs ∧ t.cur = s.cur) ∧
    ((s.pyl.st ≠ .locked ∧ s.pyl.st ≠ .acquire) ∨ ¬ due → Machine.exec (.syncLoss ofs) s = .next (s.at ofs))) ∧
  (∀ (m : AnnounceIn) (ofs : Nat) (s : State),
    let mine := m.domain.toNat = fld (s.reg 0x1104) 0 7 ∧ bitOf (s.reg 0x1100) 7 = true ∧ s.start.abut = false
    let yields := bitOf (s.reg 0x1100) 8 = false ∨ s.announceBetter m = true
    let toState := fun (st : PylSt) (id cause : Nat) => ∃ t, Machine.exec (.announceMessage m ofs) s = .next t ∧ t.pyl.st = st ∧
      t.pyl.gmId = id ∧ (s.at ofs).reports t 73 s.deckAddr cause st.code s.pyl.offset ∧ t.bar = s.bar ∧ t.cur = s.cur ∧
      t.stage = s.stage ∧ (s.start.first = false ∨ s.start.ready = true → t.legs = s.legs ∧ t.tk = (s.at ofs).tk)
    (mine → yields → s.pyl.st = .grandmaster → toState .holdover m.id.toNat 7) ∧
    (mine → yields → s.pyl.st ≠ .grandmaster →
      Machine.exec (.announceMessage m ofs) s = .next { s.at ofs with pyl := { s.pyl with gmId := m.id.toNat } }) ∧
    (mine → ¬ yields → s.pyl.st = .free → toState .grandmaster Config.clockIdentity.toNat 6) ∧
    (¬ mine ∨ (¬ yields ∧ s.pyl.st ≠ .free) → Machine.exec (.announceMessage m ofs) s = .next (s.at ofs))) ∧
  (∀ (t1 t2 t3 t4 : Int) (s : State), Machine.exec (.pdelayExchange t1 t2 t3 t4) s =
    .next { s with pyl := { s.pyl with pathDelay := ((t4 - t1) - (t3 - t2)) / 2 } }) ∧
  ∀ (ofs : Nat) (s : State),
    let now := (s.at ofs).tk.now
    let due := s.pyl.syncSent = 0 ∨ s.pyl.syncAt + s.syncInterval ≤ now
    let ann := s.pyl.annSent = 0 ∨ s.pyl.annAt + 1000000000 * uNs ≤ now
    (s.pyl.st = .grandmaster →
      ∃ t, Machine.exec (.grandmasterSyncSend ofs) s = .next t ∧
        (due → t.pyl.syncSent = s.pyl.syncSent + 1 ∧ t.pyl.syncAt = now) ∧
        (¬ due → t.pyl.syncSent = s.pyl.syncSent ∧ t.pyl.syncAt = s.pyl.syncAt) ∧
        (ann → t.pyl.annSent = s.pyl.annSent + 1 ∧ t.pyl.annAt = now) ∧
        (¬ ann → t.pyl.annSent = s.pyl.annSent ∧ t.pyl.annAt = s.pyl.annAt) ∧
        t.pyl.st = s.pyl.st ∧ t.tk = (s.at ofs).tk ∧ t.bar = s.bar ∧ t.legs = s.legs ∧ t.cwy = s.cwy) ∧
    (s.pyl.st ≠ .grandmaster → Machine.exec (.grandmasterSyncSend ofs) s = .next (s.at ofs))

/-- The launch line (R302, R303): the deck that drives it sends a marker at every multiple of its period within the tick; a
deck that receives judges each marker by its distance, less the cable's delay, from the nearest multiple: within 1 µs it is
good and gives the line error, else it is bad, as is one that fails to come, and a third bad one in a row makes a valid line
invalid with E074. -/
def Obligations.LaunchLine : Prop :=
  (∀ s : State,
    let at0 := max (ceilTo s.tk.now s.linePer) (if s.pyl.markAt = 0 then 0 else s.pyl.markAt + s.linePer)
    (s.lineDriving = true → s.linePer ≠ 0 → at0 < s.boundary (s.tk.count + 1) →
      Machine.exec .launchMarkerDrive s =
        .next { s with tk := { s.tk with now := max s.tk.now at0 }, pyl := { s.pyl with markAt := at0 } }) ∧
    (s.lineDriving = false ∨ s.linePer = 0 ∨ s.boundary (s.tk.count + 1) ≤ at0 →
      Machine.exec .launchMarkerDrive s = .next s)) ∧
  ∀ (steps ofs : Nat) (s : State),
    let bad := fun (c : Instr) (u : State) => ∃ t, Machine.exec c s = .next t ∧ t.pyl.badMarks = min (s.pyl.badMarks + 1) 3 ∧
      t.pyl.goodMarks = 0 ∧ t.pyl.freqAdj = s.pyl.freqAdj ∧
      (2 ≤ s.pyl.badMarks → t.pyl.lineValid = false ∧ (s.pyl.lineValid = true → u.reports t 74 s.deckAddr 1 0 0)) ∧
      t.bar = s.bar ∧ t.legs = s.legs ∧ t.cur = s.cur
    let at0 : Int := (s.boundary s.tk.count : Int) + (steps * uStep : Nat) - (fld (s.reg 0x110C) 0 16 * uStep : Nat)
    let off := at0 - (2 * at0 + s.linePer) / (2 * s.linePer) * s.linePer
    (s.lineReceives = true → s.linePer ≠ 0 → absI off ≤ 1000 * (uNs : Int) →
      ∃ t, Machine.exec (.launchMarker steps) s = .next t ∧ t.pyl.badMarks = 0 ∧ t.pyl.lineErr = off / uStep ∧
        (s.pyl.lineValid = false ∨ s.pyl.st ≠ .locked → t.pyl.freqAdj = s.pyl.freqAdj) ∧
        (s.pyl.lineValid = false → 15 ≤ s.pyl.goodMarks → t.pyl.lineValid = true) ∧
        t.bar = s.bar ∧ t.legs = s.legs ∧ t.cur = s.cur) ∧
    (s.lineReceives = true → s.linePer ≠ 0 → 1000 * (uNs : Int) < absI off →
      bad (.launchMarker steps) (s.at (steps * uStep))) ∧
    (s.lineReceives = true → bad (.launchMarkerMissing ofs) (s.at ofs)) ∧
    (s.lineReceives = false → Machine.exec (.launchMarker steps) s = .next (s.at (steps * uStep)) ∧
      Machine.exec (.launchMarkerMissing ofs) s = .next (s.at ofs)) ∧
    (s.linePer = 0 → Machine.exec (.launchMarker steps) s = .next (s.at (steps * uStep)))

/-- The census banks and the calendar. A bank that is being taken becomes ready with E078 and the other bank is next (R317); a
release clears READY of the banks it names that are ready and of no other (R318), and is an access violation in abutment
mode. A leap second is inserted once its instant is reached, with E079 cause 2; a trim of the RTC is taken once in 64 s
while the calendar is disciplined and the clock ready (R322); and a low backup battery is noted once, with E079 cause 3. -/
def Obligations.CensusAndCalendar : Prop :=
  (∀ (ofs : Nat) (s : State),
    let k := s.pyl.bankNext
    let b := s.pyl.bank k
    (b.st = 1 → ∃ t, Machine.exec (.censusReady ofs) s = .next t ∧ t.pyl.bank k = { b with st := 2 } ∧
      t.pyl.bankNext = 1 - k ∧ t.pyl.bank (1 - k) = s.pyl.bank (1 - k) ∧ (s.at ofs).reports t 78 s.deckAddr 0 k ((b.id + 2 ^ 32 * b.inst : Nat) : Int) ∧
      t.bar = s.bar ∧ t.legs = s.legs ∧ t.cur = s.cur) ∧
    (b.st ≠ 1 → Machine.exec (.censusReady ofs) s = .next (s.at ofs))) ∧
  (∀ (k : Fin 4) (s : State),
    (s.start.abut = false → ∃ t, Machine.exec (.censusRelease k) s = .next t ∧
      (∀ i : Fin 2, t.pyl.bank i.val = if k.val.testBit i.val ∧ (s.pyl.bank i.val).st = 2 then { s.pyl.bank i.val with st := 0 }
        else s.pyl.bank i.val) ∧
      t.pyl.bankNext = s.pyl.bankNext ∧ t.bar = s.bar ∧ t.legs = s.legs ∧ t.cur = s.cur ∧ t.cwy = s.cwy) ∧
    (s.start.abut = true → Machine.exec (.censusRelease k) s = .next (s.accessViolation 0x1180))) ∧
  (∀ (ofs : Nat) (s : State),
    let u := s.at ofs
    (∀ k, s.cal.leapSec = some k → k * 2 ^ 24 ≤ u.calRaw u.tk.now → s.cal.leapDone = false →
      ∃ t, Machine.exec (.leapSecondInsert ofs) s = .next t ∧ t.cal = { s.cal with leapDone := true } ∧
        u.reports t 79 s.deckAddr 2 0 0 ∧ t.bar = s.bar ∧ t.legs = s.legs ∧ t.cur = s.cur ∧ t.pyl = s.pyl) ∧
    (s.cal.leapSec = none ∨ s.cal.leapDone = true ∨ (∃ k, s.cal.leapSec = some k ∧ u.calRaw u.tk.now < k * 2 ^ 24) →
      Machine.exec (.leapSecondInsert ofs) s = .next u)) ∧
  (∀ (trim : BitVec 16) (ofs : Nat) (s : State),
    let now := (s.at ofs).tk.now
    (s.cal.st = 2 → s.clockReady = true → s.cal.trimAt + 64000000000 * uNs ≤ now →
      Machine.exec (.rtcTrimUpdate trim ofs) s =
        .next { s.at ofs with cal := { s.cal with trim := trim.toInt, trimmed := true, trimAt := now } }) ∧
    (s.cal.st ≠ 2 ∨ s.clockReady = false ∨ now < s.cal.trimAt + 64000000000 * uNs →
      Machine.exec (.rtcTrimUpdate trim ofs) s = .next (s.at ofs))) ∧
  ∀ (ofs : Nat) (s : State),
    (s.cal.vbakLow = false → ∃ t, Machine.exec (.vbakLow ofs) s = .next t ∧ t.cal = { s.cal with vbakLow := true } ∧
      (s.at ofs).reports t 79 s.deckAddr 3 0 0 ∧ t.bar = s.bar ∧ t.legs = s.legs ∧ t.cur = s.cur ∧ t.pyl = s.pyl) ∧
    (s.cal.vbakLow = true → Machine.exec (.vbakLow ofs) s = .next (s.at ofs))

/-! ### The Causeway's own events -/

/-- The Causeway beside its rings' ticks. The oldest protection event is written to the event ring while an entry is free, and
waits otherwise (R337); a change of the PCIe link is reported with E069, and a link that stays down is no event (R324); a hot
reset takes the link down, empties the pending vectors and returns the vector table to its reset values (R324); a fall-back
frame waits for the tick in whose Φ1 it is taken (R365); one that passes its checks is then staged for two ticks on, and one
that does not leaves the counter and the staged frames; and EN is
written before deck ready or in abutment mode, a write at another time being an access violation. -/
def Obligations.CausewayEvents : Prop :=
  (∀ s : State,
    (s.cwy.pq = [] → Machine.exec .protectionEventWrite s = .next s) ∧
    ∀ e rest, s.cwy.pq = e :: rest →
      (1 ≤ s.evtFree → ∃ t, Machine.exec .protectionEventWrite s = .next t ∧ t.cwy.pq = rest ∧
        t.cwy.evtProd = idxNext s.cwy.evtProd ∧
        t.cwy.evtRing = Store.put (fun _ => none) s.cwy.evtRing (s.cwy.evtProd % s.evtEntries)
          (some { e with queued := decide (s.tickOf (e.pylon * uNs) ≠ s.tk.count) }) ∧
        t.bar = s.bar ∧ t.legs = s.legs ∧ t.cur = s.cur ∧ t.stage = s.stage) ∧
      (s.evtFree = 0 → ∃ t, Machine.exec .protectionEventWrite s = .next t ∧ t.cwy.pq = s.cwy.pq ∧
        t.cwy.evtProd = s.cwy.evtProd ∧ t.cwy.evtRing = s.cwy.evtRing ∧ t.bar = s.bar ∧ t.legs = s.legs)) ∧
  (∀ (up : Bool) (speed width : Fin 5) (ofs : Nat) (s : State),
    let c := Instr.pcieLinkChange up speed width ofs
    (up ≠ s.cwy.linkUp → ∃ t, Machine.exec c s = .next t ∧ t.cwy.linkUp = up ∧
      (s.at ofs).reports t 69 s.deckAddr (b2n up) speed.val width.val ∧ t.bar = s.bar ∧ t.legs = s.legs ∧ t.cur = s.cur ∧
      t.stage = s.stage) ∧
    (up = s.cwy.linkUp → up = true → ∃ t, Machine.exec c s = .next t ∧ t.cwy.linkUp = true ∧
      (s.at ofs).reports t 69 s.deckAddr 2 speed.val width.val ∧ t.bar = s.bar ∧ t.legs = s.legs) ∧
    (up = s.cwy.linkUp → up = false → Machine.exec c s = .next (s.at ofs))) ∧
  (∀ (ofs : Nat) (s : State), s.partsOk = true →
    ∃ t, Machine.exec (.pciePerst ofs) s = .next t ∧ t.cwy.linkUp = false ∧ t.cwy.pba = [] ∧
      (∀ k : Fin 32, t.reg (0x3000 + 4 * k.val) = barReset (0x3000 + 4 * k.val)) ∧
      (∀ o, o < 0x3000 ∨ 0x3080 ≤ o → t.reg o = s.reg o) ∧
      (s.cwy.linkUp = true → (s.at ofs).reports t 69 s.deckAddr 0 0 0) ∧
      t.legs = s.legs ∧ t.cur = s.cur ∧ t.stage = s.stage ∧ t.kst = s.kst ∧ t.start = s.start) ∧
  (∀ s : State,
    (s.fp.fbIn = [] → Machine.exec .fallbackFrame s = .next s) ∧
    ∀ f rest, s.fp.fbIn = f :: rest →
      let k := fbNat f.data 2 2
      let due := f.due ≤ s.tk.count
      let pass := s.fbOn = true ∧ s.kst.faultLine = false ∧ s.start.ready = true ∧ f.fd = true ∧
        fbFormOk f.data = true ∧ fbFresh s.cwy.fbCounter k = true
      (¬ due → Machine.exec .fallbackFrame s = .next s) ∧
      (due → pass → ∃ t, Machine.exec .fallbackFrame s = .next t ∧ t.fp.fbIn = rest ∧ t.cwy.fbCounter = some k ∧
        t.cwy.fbStaged = s.cwy.fbStaged ++ [(f.data.map BitVec.toNat, s.tk.count + 2)] ∧
        t.bar = s.bar ∧ t.legs = s.legs ∧ t.cur = s.cur ∧ t.stage = s.stage) ∧
      (due → ¬ pass → ∃ t, Machine.exec .fallbackFrame s = .next t ∧ t.fp.fbIn = rest ∧ t.cwy.fbCounter = s.cwy.fbCounter ∧
        t.cwy.fbStaged = s.cwy.fbStaged ∧ t.bar = s.bar ∧ t.legs = s.legs ∧ t.cur = s.cur ∧ t.stage = s.stage)) ∧
  ∀ (v : Bool) (s : State), s.partsOk = true →
    (s.start.abut = true ∨ s.start.ready = false →
      ∃ t, Machine.exec (.causewayEnable v) s = .next t ∧ t.reg 0x2000 = (if v then 1#32 else 0#32) ∧
        (∀ o, o ≠ 0x2000 → t.reg o = s.reg o) ∧ t.legs = s.legs ∧ t.cur = s.cur ∧ t.stage = s.stage ∧ t.cwy = s.cwy) ∧
    (s.start.abut = false → s.start.ready = true →
      Machine.exec (.causewayEnable v) s = .next ((s.at 0).accessViolation 0x2000))

/-! ### The field ports -/

/-- The field ports. An enabled port joins its bus once the deck is ready (R368); a bus-off port starts its recovery after its
hold with BO_AUTO 1, or at a BO_RECOVER with BO_AUTO 0, and in no other state, and comes back error-active with both counters
at 0 and E089 (R387); error frames and the ends of its own attempts move its error counters, and a frame received is counted.
TXREQ, OBJ_ABORT and RESUME act on the object that the port's selection names, and are access violations in abutment mode, as
BO_RECOVER is. The registers, the legs and the spans are as before throughout (R367). -/
def Obligations.FieldPorts : Prop :=
  ∀ (p : Port) (ofs : Nat) (s : State), s.partsOk = true →
    let u := s.at ofs
    let x := s.port p.val
    let frame := fun (t : State) => t.bar = s.bar ∧ t.legs = s.legs ∧ t.cur = s.cur ∧ t.stage = s.stage ∧ t.kst = s.kst ∧
      t.tk = u.tk ∧ t.start = s.start
    let alone := fun (t : State) => ∀ q : Nat, q ≠ p.val → t.port q = s.port q
    let runs := fun (c : Instr) (post : State → Prop) => ∃ t, Machine.exec c s = .next t ∧ frame t ∧ post t
    let recovers := fun (c : Instr) => runs c (fun t => t.port p.val = { x with st := .recovering } ∧ alone t ∧
      u.reports t 89 s.deckAddr 2 p.val 0)
    let refused := Host.Outcome.next (σ := State) (φ := Fault) (ρ := Refusal) (u.accessViolation (0x20020 + 0x400 * p.val))
    (s.start.ready = true → bitOf (s.fpCfg p.val) 0 = true → x.st = .off →
      runs (.portIntegration p ofs) (fun t => (t.port p.val).st = .active ∧ alone t)) ∧
    (s.start.ready = false ∨ bitOf (s.fpCfg p.val) 0 = false ∨ x.st ≠ .off →
      Machine.exec (.portIntegration p ofs) s = .next u) ∧
    (x.st = .busOff → bitOf (s.fpCfg p.val) 3 = true → x.offAt + fld (s.fpCfg p.val) 4 8 * 1000000 * uNs ≤ u.tk.now →
      recovers (.busOffRecoveryStart p ofs)) ∧
    (x.st ≠ .busOff ∨ bitOf (s.fpCfg p.val) 3 = false ∨ u.tk.now < x.offAt + fld (s.fpCfg p.val) 4 8 * 1000000 * uNs →
      Machine.exec (.busOffRecoveryStart p ofs) s = .next u) ∧
    (s.start.abut = false → x.st = .busOff → bitOf (s.fpCfg p.val) 3 = false → recovers (.boRecover p ofs)) ∧
    (s.start.abut = false → x.st ≠ .busOff ∨ bitOf (s.fpCfg p.val) 3 = true → Machine.exec (.boRecover p ofs) s = .next u) ∧
    (x.st = .recovering → runs (.busOffRecovered p ofs) (fun t => (t.port p.val).st = .active ∧ (t.port p.val).txErr = 0 ∧
      (t.port p.val).rxErr = 0 ∧ alone t ∧ u.reports t 89 s.deckAddr 3 p.val 0)) ∧
    (x.st ≠ .recovering → Machine.exec (.busOffRecovered p ofs) s = .next u) ∧
    (∀ eight, x.onBus = true → runs (.errorFrame p eight ofs) (fun t =>
      (t.port p.val).rxErr = min 255 (x.rxErr + (if eight then 8 else 1)) ∧ (t.port p.val).errCount = satInc x.errCount 0xFFFF)) ∧
    (∀ eight, x.onBus = false → Machine.exec (.errorFrame p eight ofs) s = .next u) ∧
    (∀ e, x.tx = none → Machine.exec (.frameAttemptEnd p e ofs) s = .next u) ∧
    (∀ m f, x.tx = some f → f.queued = false → (∀ d, m = some d → s.measures p.val f = false ∨ d ≤ 127) →
      runs (.frameAttemptEnd p (.success m) ofs) (fun t =>
        (t.port p.val).txErr = x.txErr - 1 ∧ (t.port p.val).txCount = satInc x.txCount 0xFFFF ∧ (t.port p.val).errCount = x.errCount ∧
        (t.port p.val).tdc = match m with | some d => if s.measures p.val f then d else x.tdc | none => x.tdc)) ∧
    (∀ d f, x.tx = some f → s.measures p.val f = true → 127 < d →
      runs (.frameAttemptEnd p (.success (some d)) ofs) (fun t => (t.port p.val).tdc = min 255 d ∧
        (t.port p.val).txErr = min 256 (x.txErr + 8) ∧ (t.port p.val).txCount = x.txCount)) ∧
    (∀ f, x.tx = some f → runs (.frameAttemptEnd p .lostArbitration ofs) (fun t =>
      (t.port p.val).txErr = x.txErr ∧ (t.port p.val).txCount = x.txCount ∧ (t.port p.val).errCount = x.errCount)) ∧
    (∀ e f, e = .bitError ∨ e = .otherError → x.tx = some f → runs (.frameAttemptEnd p e ofs) (fun t =>
      (t.port p.val).txErr = min 256 (x.txErr + 8) ∧ (t.port p.val).errCount = satInc x.errCount 0xFFFF ∧
      (t.port p.val).txCount = x.txCount)) ∧
    (∀ f, x.tx = some f → runs (.frameAttemptEnd p .noAck ofs) (fun t =>
      (t.port p.val).txErr = min 256 (x.txErr + (if x.st = .passive then 0 else 8)) ∧
      (t.port p.val).errCount = satInc x.errCount 0xFFFF)) ∧
    (∀ d f, x.tx = some f → runs (.frameAttemptEnd p (.delayError d) ofs) (fun t =>
      (t.port p.val).tdc = (if s.measures p.val f then min 255 d else x.tdc) ∧ (t.port p.val).txErr = min 256 (x.txErr + 8))) ∧
    (∀ f, x.onBus = true → s.rxFormat p.val f = true →
      runs (.canFrameReceived p f ofs) (fun t => (t.port p.val).rxCount = satInc x.rxCount 0xFFFF)) ∧
    (∀ f, x.onBus = false ∨ s.rxFormat p.val f = false → Machine.exec (.canFrameReceived p f ofs) s = .next u) ∧
    (let o := s.objSel p.val
      let b := s.obj p.val o
      (s.start.abut = true ∨ b.send = false ∨ b.src ≠ 0 → Machine.exec (.txreq p ofs) s = refused) ∧
      (s.start.abut = false → b.send = true → b.src = 0 → runs (.txreq p ofs) (fun t =>
        Store.wf (fun _ => ObjS.init) x.obj = true → x.tx = none → b.rerouted = false → x.st ≠ .busOff → (t.obj p.val o).pend = true)) ∧
      (s.start.abut = true → Machine.exec (.objAbort p ofs) s = refused ∧ Machine.exec (.resume p ofs) s = refused ∧
        Machine.exec (.boRecover p ofs) s = refused) ∧
      (s.start.abut = false → runs (.objAbort p ofs) (fun t => Store.wf (fun _ => ObjS.init) x.obj = true →
        (t.obj p.val o).pend = false ∧ (t.obj p.val o).strand = false)) ∧
      (s.start.abut = false → runs (.resume p ofs) (fun t => Store.wf (fun _ => ObjS.init) x.obj = true →
        (t.obj p.val o).susp = false ∧ alone t)))

/-- The ledger's read buffer, the re-route test and the partners' ages. LDG_SEL reads its slot into the buffer, or the rest of
a frame that runs on into it, and is an access violation in abutment mode (R379); in each new millisecond of Pylon time the
re-routes are tested once (R389) and the partners' ages rise by 1, a partner that reaches its limit being lost with E093,
and one whose heartbeat came in this same millisecond (ALIVE with AGE 0) staying ALIVE (R382). -/
def Obligations.LedgerAndPartners : Prop :=
  (∀ (k : Fin 16384) (ofs : Nat) (s : State), s.partsOk = true →
    (s.start.abut = true → Machine.exec (.ldgSel k ofs) s = .next ((s.at ofs).accessViolation 0x2C010)) ∧
    (s.start.abut = false → ∃ t, Machine.exec (.ldgSel k ofs) s = .next t ∧ t.reg 0x2C010 = wd k.val ∧
      (∀ o, o ≠ 0x2C010 → t.reg o = s.reg o) ∧ t.legs = s.legs ∧ t.cur = s.cur ∧ t.fp.port = s.fp.port ∧
      (s.fp.rangeOf k.val = none → t.fp.rdHdr = s.fp.ldg k.val ∧ t.fp.rdData = (s.fp.ldg k.val).data) ∧
      (∀ c j, s.fp.rangeOf k.val = some (c, j) → t.fp.rdHdr = { s.fp.ldg k.val with k := 1 } ∧
        t.fp.rdData = (c.data.drop (64 * j)).take 64 ∧ t.fp.slot = s.fp.slot))) ∧
  (∀ (ofs : Nat) (s : State),
    let ms := (s.at ofs).tk.now / (1000000 * uNs)
    (s.fp.rrMs < ms → ∃ t, Machine.exec (.rerouteTest ofs) s = .next t ∧ t.fp.rrMs = ms ∧ t.fp.ageMs = s.fp.ageMs ∧
      t.bar = s.bar ∧ t.legs = s.legs ∧ t.cur = s.cur ∧ t.stage = s.stage ∧ t.kst = s.kst) ∧
    (ms ≤ s.fp.rrMs → Machine.exec (.rerouteTest ofs) s = .next (s.at ofs))) ∧
  ∀ (ofs : Nat) (s : State),
    let ms := (s.at ofs).tk.now / (1000000 * uNs)
    (s.start.ready = true → s.fp.ageMs < ms →
      ∃ t, Machine.exec (.partnerAgeTick ofs) s = .next t ∧ t.fp.ageMs = s.fp.ageMs + 1 ∧ t.fp.rrMs = s.fp.rrMs ∧
        t.fp.port = s.fp.port ∧ t.bar = s.bar ∧ t.legs = s.legs ∧ t.cur = s.cur ∧ t.stage = s.stage ∧
        (∀ n r, s.fp.ptn = [(n, r)] → r.st ≠ 0 →
          ((Store.get (fun _ => PtnS.init) t.fp.ptn n).age = satInc r.age 0xFFFF ∧
          (r.tmo ≤ satInc r.age 0xFFFF → ¬ (r.st = 2 ∧ r.age = 0) → (Store.get (fun _ => PtnS.init) t.fp.ptn n).st = 3) ∧
          (r.st = 2 ∧ r.age = 0 → (Store.get (fun _ => PtnS.init) t.fp.ptn n).st = 2) ∧
          (satInc r.age 0xFFFF < r.tmo → (Store.get (fun _ => PtnS.init) t.fp.ptn n).st = r.st)))) ∧
    (s.start.ready = false ∨ ms ≤ s.fp.ageMs → Machine.exec (.partnerAgeTick ofs) s = .next (s.at ofs))

/-! ### The Trestle, the Bearing supply and VSUP -/

/-- The Trestle. Round r is posted at (r + 1) ms + 20 µs, once that instant lies in the tick (R393): the value of a channel,
its warning and its shut-down follow its thresholds and hysteresis (R396, R399). The Bearing supply changes its state with E103 (R400), latching at its
third fault within 10 s, and leaving ON sets the under-voltage of every HV leg (R135). VSUP below its threshold
for 10 µs freezes MRAM writes with E105 (R402), and a dip that ends, by the same filter, is measured, counted and thawed with E106 (R403) unless it was still there after
50 ms, when E107 marks it and orders T0, T1, C, Q and B to a safe stop (R404). -/
def Obligations.TrestleAndSupplies : Prop :=
  (∀ (rs : List (Chan × Reading)) (s : State),
    let r := max (if s.trl.posted then s.trl.round + 1 else 0) ((s.tk.now - 20000 * uNs) / (1000000 * uNs) - 1)
    let due := (r + 1) * (1000000 * uNs) + 20000 * uNs
    (s.reaches due = false → Machine.exec (.trestleRoundPost rs) s = .next s) ∧
    (s.reaches due = true → ∃ t, Machine.exec (.trestleRoundPost rs) s = .next t ∧ t.trl.round = r ∧ t.trl.posted = true ∧
      t.tk.now = max s.tk.now due ∧ t.bar = s.bar ∧ t.adc = s.adc ∧ t.cur = s.cur ∧ (s.start.running = false → t.par = s.par) ∧
      ∀ (c : Chan) (v : Int), rs = [(c, .value v)] → Store.wf (fun _ => ChanS.init) s.trl.chan = true → s.chanUnused c.val = false →
        let x := t.trl.chanS c.val
        let old := s.trl.chanS c.val
        x.value = sat16 v ∧
        (s.chanOn c.val = true →
          x.warn = decide ((if old.warn then s.chanLevel c.val 0 - s.chanHyst c.val 0 else s.chanLevel c.val 0) ≤ sat16 v) ∧
          x.shut = decide ((if old.shut then s.chanLevel c.val 2 - s.chanHyst c.val 2 else s.chanLevel c.val 2) ≤ sat16 v) ∧
          x.brokenOpen = false ∧ x.brokenShort = false))) ∧
  (∀ (ofs : Nat) (s : State), s.partsOk = true →
    let moves := fun (c : Instr) (u : State) (st : BrgSt) (cause : Nat) => ∃ t, Machine.exec c s = .next t ∧ t.trl.brg = st ∧
      t.trl.brgAt = u.tk.now ∧ t.tk = u.tk ∧ t.bar = s.bar ∧ t.adc = s.adc ∧ t.cur = s.cur ∧ t.stage = s.stage ∧ t.par = s.par ∧
      t.kst = s.kst ∧ u.reports t 103 s.deckAddr cause st.code 0 ∧
      (s.trl.brg ≠ .on → t.legs = s.legs) ∧
      (s.trl.brg = .on → ∀ l : Nat, l < 28 → (t.leg l).uvHsPos = true ∧ (t.leg l).uvHsNeg = true ∧ (t.leg l).uvLsPos = true ∧
        (t.leg l).uvLsNeg = true) ∧
      (st = .fault → t.trl.brgFault = true ∧ t.trl.brgCount = satInc s.trl.brgCount 0xFFFF)
    let t20 := s.trl.brgAt + 20000000 * uNs
    let t100 := s.trl.brgAt + 100000000 * uNs
    let seen := (s.at ofs).passed (s.trl.brgAt + 1000000 * uNs)
    (s.trl.brg = .off → seen = true → moves (.bearingLinkPresent ofs) (s.at ofs) .starting 1) ∧
    (s.trl.brg ≠ .off ∨ seen = false → Machine.exec (.bearingLinkPresent ofs) s = .next (s.at ofs)) ∧
    (s.trl.brg = .starting → moves (.bearingOutputInBand ofs) (s.at ofs) .on 2) ∧
    (s.trl.brg ≠ .starting → Machine.exec (.bearingOutputInBand ofs) s = .next (s.at ofs)) ∧
    (s.trl.brg = .starting → s.reaches t20 = true → moves .bearingStartTimeout (s.goto t20) .fault 3) ∧
    (s.trl.brg ≠ .starting ∨ s.reaches t20 = false → Machine.exec .bearingStartTimeout s = .next s) ∧
    (s.trl.brg = .starting ∨ s.trl.brg = .on → moves (.bearingLinkLoss ofs) (s.at ofs) .off 5) ∧
    (s.trl.brg ≠ .starting → s.trl.brg ≠ .on → Machine.exec (.bearingLinkLoss ofs) s = .next (s.at ofs)) ∧
    (s.trl.brg = .fault → s.reaches t100 = true → moves .bearingFaultHoldEnd (s.goto t100)
      (if 3 ≤ (s.goto t100).brgRecent then .latched else .off) 6) ∧
    (s.trl.brg ≠ .fault ∨ s.reaches t100 = false → Machine.exec .bearingFaultHoldEnd s = .next s)) ∧
  ∀ (cross ofs : Nat) (s : State),
    let u := s.at ofs
    let t50 := (s.trl.tw + 50000000) * uNs
    let at7 := min cross (u.tk.now / uNs) / 1000 * 1000
    let still := fun (t : State) => t.bar = s.bar ∧ t.legs = s.legs ∧ t.cur = s.cur ∧ t.stage = s.stage ∧ t.kst = s.kst ∧ t.start = s.start
    let long := u.filtered cross
    (s.trl.vsup = .normal → long = true → ∃ t, Machine.exec (.vsupWarn cross ofs) s = .next t ∧
      t.trl = { s.trl with vsup := .warn, tw := at7, frozen := true } ∧
      (∃ e ∈ t.cwy.evs, e.code = 105 ∧ e.addr = s.deckAddr) ∧ (∃ e ∈ t.cwy.evs, e.code = 112 ∧ e.cause = 1) ∧ still t) ∧
    (s.trl.vsup ≠ .normal ∨ long = false → Machine.exec (.vsupWarn cross ofs) s = .next u) ∧
    (s.trl.vsup ≠ .normal → long = true →
      let d := min ((at7 - s.trl.tw) / 1000) 0xFFFFFFFF
      ∃ t, Machine.exec (.vsupDipEnd cross ofs) s = .next t ∧ t.trl = { s.trl with
        vsup := .normal, frozen := false, dipLast := d, dipMax := max s.trl.dipMax d,
        dipCount := satInc s.trl.dipCount 0xFFFFFFFF, dip := true } ∧
      (∃ e ∈ t.cwy.evs, e.code = 106 ∧ e.addr = s.deckAddr ∧ e.val = d) ∧ t.mrm.dropped = 0 ∧ still t) ∧
    (s.trl.vsup = .normal ∨ long = false → Machine.exec (.vsupDipEnd cross ofs) s = .next u) ∧
    (s.trl.vsup = .warn → s.reaches t50 = true → ∃ t, Machine.exec .vsupLongDip s = .next t ∧
      t.trl = { s.trl with vsup := .long, longDip := true, inLong := true } ∧ t.opened = s.opened.dipped ∧ t.snap = s.snap.dipped ∧ s.reports t 107 s.deckAddr 0 0 0 ∧ still t) ∧
    (s.trl.vsup ≠ .warn ∨ s.reaches t50 = false → Machine.exec .vsupLongDip s = .next s)

/-! ### Start and reset -/

/-- Starting. START runs only when reset is released and nothing runs: it releases the fault line (R251), and where no
start was interrupted by a reset it either fails, counting the failure, with abutment mode at the third (R410), or ticks from
step 6; a fuse error ends it with cause 23. GO is noted while the deck waits in the steps up to 7 and is otherwise without
effect (R408); ABUT is honoured before deck ready or with every span in OFF (R414). A deck reset keeps the MRAM's bytes, the
charter's ledger, the event log, the calibration set, the calendar, the registers that a start holds over and the legs but for
their gates, and notes its cause (R405); an unfinished start times out with its cause (R408); and a failed start restarts by itself after
100 ms while its count is below 3 (R410). -/
def Obligations.StartAndReset : Prop :=
  (∀ (inp : StartIn) (s : State),
    (s.start.released = false ∨ s.start.running = true ∨ s.start.ready = true ∨ s.start.abut = true →
      Machine.exec (.start inp) s = .next s) ∧
    (s.start.released = true → s.start.running = false → s.start.ready = false → s.start.abut = false →
      ∃ t, Machine.exec (.start inp) s = .next t ∧ t.start.released = false ∧ t.kst.faultLine = false ∧
        (s.start.resetDuring = false →
          t.start.abut = decide (t.start.running = false ∧ 2 ≤ s.start.failCount) ∧
          (t.start.running = true → t.start.step = 6 ∧ t.start.ticking = true ∧ t.start.failCount = s.start.failCount) ∧
          (t.start.running = false → t.start.ticking = false ∧ t.start.ready = false ∧
            t.start.failCount = min 3 (s.start.failCount + 1)) ∧
          (inp.fusesOk = false → t.start.running = false ∧ t.start.lastCause = 23)))) ∧
  (∀ (ofs : Nat) (s : State),
    let u := s.at ofs
    (s.start.running = true ∧ s.start.ticking = true ∧ s.start.step ≤ 7 →
      Machine.exec (.go ofs) s = .next { u with start := { s.start with go := true } }) ∧
    (s.start.running = false ∨ s.start.ticking = false ∨ 7 < s.start.step → Machine.exec (.go ofs) s = .next u) ∧
    (s.start.ready = false ∨ (∀ x : Span, s.cur.inOff x = true) →
      Machine.exec (.abut ofs) s = .next { u with start := { s.start with abutDue := true } }) ∧
    (s.start.ready = true → (∃ x : Span, s.cur.inOff x = false) → Machine.exec (.abut ofs) s = .next (u.accessViolation 0x60))) ∧
  (∀ (rail : Option (Fin 5)) (ofs : Nat) (s : State), s.partsOk = true →
    ∃ t, Machine.exec (.deckReset rail ofs) s = .next t ∧ (rail = none → t.trl.rstCause = 1) ∧
      (∀ k, rail = some k → t.trl.rstCause = 2 ∧ t.trl.rstRail = k.val) ∧ t.start.resetDuring = s.start.running ∧
      t.start.running = false ∧ t.start.ready = false ∧ t.start.abut = false ∧ t.start.failCount = s.start.failCount ∧
      t.cal = s.cal ∧ t.tk.now = (s.at ofs).tk.now ∧ t.mrm.mem = s.mrm.mem ∧ t.mrm.ledger = s.mrm.ledger ∧
      t.mrm.log = s.mrm.log ∧ t.mrm.calSet = s.mrm.calSet ∧ t.cur = State.reset.cur ∧ t.stage = State.reset.stage ∧
      t.kst.faultLine = s.kst.faultLine ∧ t.par.clkHold = true ∧ (∀ k : Nat, (t.leg k).still = (s.leg k).still) ∧
      t.cwy.linkUp = s.cwy.linkUp ∧ ∀ off, t.reg off = if heldOver off then s.reg off else barReset off) ∧
  (∀ s : State,
    let x := s.start
    let by2 := x.ts + 2000000000 * uNs
    (x.running = true → s.reaches by2 = true → ∃ t, Machine.exec .startTimeout s = .next t ∧ t.start.running = false ∧
      t.start.ticking = false ∧ t.start.ready = false ∧ t.start.failCount = min 3 (x.failCount + 1) ∧
      (x.clockOk = false → t.start.lastCause = 13) ∧ (x.clockOk = true → x.go = false → t.start.lastCause = 14) ∧
      (x.clockOk = true → x.go = true →
        t.start.lastCause = if s.inViaduct ∧ s.vdt.pair < 2 then 18 else 22) ∧
      t.bar = s.bar ∧ t.adc = s.adc ∧ t.kst = s.kst ∧ t.par.still = s.par.still ∧
      (s.partsOk = true → ∀ k : Nat, (t.leg k).still = (s.leg k).still)) ∧
    (x.running = false ∨ s.reaches by2 = false → Machine.exec .startTimeout s = .next s)) ∧
  ∀ s : State,
    (∀ at0, s.start.failedAt = some at0 → s.start.failCount < 3 → ∃ t, Machine.exec .autoRestart s = .next t ∧
      t.tk.now = max s.tk.now (at0 + 100000000 * uNs) ∧ t.start.released = true ∧ t.start.running = false ∧
      t.start.failedAt = none ∧ t.start.failCount = s.start.failCount ∧ t.start.lastCause = s.start.lastCause ∧
      t.cal = s.cal ∧ t.trl.vsup = s.trl.vsup ∧ t.trl.frozen = s.trl.frozen ∧ t.trl.rstCause = s.trl.rstCause ∧
      t.trl.brg = (if s.trl.brg = .latched then .off else s.trl.brg) ∧ t.mrm.mem = s.mrm.mem ∧ t.mrm.ledger = s.mrm.ledger ∧ t.cur = State.reset.cur ∧
      t.legs = State.reset.legs ∧ t.kst.faultLine = s.kst.faultLine) ∧
    (s.start.failedAt = none ∨ 3 ≤ s.start.failCount → Machine.exec .autoRestart s = .next s)

/-! ### The memory -/

/-- The memory's own work. The write served next is one of the least rank (R423), nothing is written in a freeze (R402), and a failed
readback is noted with E112 cause 3 while an entry of the log or a header is written again. A charter change lands at the first
boundary after both readbacks, with its values in the CH registers and no other register changed (R417); a calibration set's trims land after
its switch (R419). CHARTER, CAL_WRITE and UPDATE queue their writes once their block passes its checks, and end their command otherwise;
a record closes once its last row is due no more, and slots named for release wait for the boundary (R428). -/
def Obligations.MemoryWork : Prop :=
  (∀ (ok : Bool) (s : State),
    let c := Instr.mramWriteDone ok
    (s.trl.frozen = true ∨ s.mrm.writes = [] → Machine.exec c s = .next s) ∧
    (s.trl.frozen = false → s.mrm.writes ≠ [] → ∃ w rest t, takeWrite s.mrm.writes = some (w, rest) ∧
      (∀ v, v ∈ s.mrm.writes ↔ v = w ∨ v ∈ rest) ∧ (∀ v ∈ rest, w.rank ≤ v.rank) ∧ Machine.exec c s = .next t ∧
      t.bar = s.bar ∧ t.legs = s.legs ∧ t.cur = s.cur ∧ t.stage = s.stage ∧ t.kst = s.kst ∧
      (ok = true → t.mrm.writes = rest ∧ t.cwy = s.cwy ∧ t.mrm.wrFail = s.mrm.wrFail ∧
        (∀ e, w = .event e → t.mrm.head = (s.mrm.head + 1) % 2 ^ 32 ∧
          t.mrm.log = Store.put (fun _ => none) s.mrm.log (s.mrm.head % 129024) (some e)) ∧
        (∀ k vals, w = .charter k vals → t.mrm.copy (if k = 0 then 0 else 1) = copyOf vals ∧ t.mrm.copy (if k = 0 then 1 else 0) =
          s.mrm.copy (if k = 0 then 1 else 0)) ∧
        (∀ r, w = .record r → t.mrm.ledger = s.mrm.ledger ++ [{ r with tick := s.tk.count + 1 }] ∧
          t.mrm.lands = some (s.tk.count + 1)) ∧
        (w = .calSwitch → t.mrm.calSet = s.mrm.calStaged ∧ t.mrm.calLands = some (s.tk.count + 1))) ∧
      (ok = false → t.mrm.wrFail = true ∧ s.reports t 112 s.deckAddr 3 w.rank 0 ∧ t.mrm.log = s.mrm.log ∧ t.mrm.mem = s.mrm.mem ∧
        (∀ e, w = .event e → w ∈ t.mrm.writes) ∧ (∀ k, w = .header k → w ∈ t.mrm.writes)))) ∧
  (∀ s : State, Store.wf barReset s.bar = true →
    (s.mrm.lands = none → Machine.exec .charterChangeLands s = .next s) ∧
    (∀ b, s.mrm.lands = some b → s.tk.count < b → Machine.exec .charterChangeLands s = .next s) ∧
    (∀ b, s.mrm.lands = some b → b ≤ s.tk.count → ∃ t, Machine.exec .charterChangeLands s = .next t ∧ t.mrm.lands = none ∧
      (∀ o ∈ chOffsets, t.reg o = copyGet (s.mrm.copy s.charterCopy) o) ∧ (∀ o, o ∉ chOffsets → t.reg o = s.reg o) ∧
      t.cwy.job = none ∧ (∃ e ∈ t.cwy.evs, e.code = 108 ∧ e.val = s.ledgerUsed) ∧ t.cur = s.cur ∧ t.stage = s.stage ∧
      t.kst = s.kst)) ∧
  (∀ s : State, Store.wf barReset s.bar = true →
    (s.mrm.calLands = none → Machine.exec .calSetSwitch s = .next s) ∧
    (∀ b, s.mrm.calLands = some b → s.tk.count < b → Machine.exec .calSetSwitch s = .next s) ∧
    (∀ b, s.mrm.calLands = some b → b ≤ s.tk.count → ∃ t, Machine.exec .calSetSwitch s = .next t ∧ t.mrm.calLands = none ∧
      t.mrm.calUser = true ∧ t.mrm.calCount = satInc s.mrm.calCount 0xFFFF ∧
      (∀ i : Fin 96, t.reg (0x5408 + 0x20 * i.val) = s.mrm.calSet.getD i.val 0#32) ∧
      (∀ o, (∀ i : Fin 96, o ≠ 0x5408 + 0x20 * i.val) → t.reg o = s.reg o) ∧ t.cwy.job = none ∧
      s.reports t 110 s.deckAddr 0 (satInc s.mrm.calCount 0xFFFF : Nat) 0 ∧ t.legs = s.legs ∧ t.cur = s.cur ∧ t.kst = s.kst)) ∧
  (∀ (block : List Byte) (fits : Bool) (proper : Nat) (s : State),
    let cmds : List (Instr × Nat) := [(.charter block fits, 0x60), (.calWrite block, 0x61), (.update block proper, 0x62)]
    (∀ p ∈ cmds, (s.cwy.job = none ∨ s.jobOp ≠ p.2 ∨ s.jobBegun = true) → Machine.exec p.1 s = .next s) ∧
    (∀ p ∈ cmds, s.cwy.job ≠ none → s.jobOp = p.2 → s.jobBegun = false → s.trl.frozen = true →
      Machine.exec p.1 s = .next s.jobFault ∧ s.jobFault.cwy.job = none) ∧
    (∀ p ∈ cmds, ∀ j, s.cwy.job = some j → dOp j.cmd = p.2 → s.jobBegun = false → s.trl.frozen = false →
      blockOk j.cmd block = false →
      Machine.exec p.1 s = .next (s.jobDone .invalidParameter 0 s.tk.count) ∧
        (s.jobDone .invalidParameter 0 s.tk.count).cwy.cmplDue =
          s.cwy.cmplDue ++ [completionOf s j.cmd .invalidParameter 0 s.tk.count]) ∧
    (∀ j es, s.cwy.job = some j → dOp j.cmd = 0x60 → s.jobBegun = false → s.trl.frozen = false → blockOk j.cmd block = true →
      charterEntries block = some es → charterValid (copyGet (copyOf es)) = true → fits = true →
      (s.charterFrozen = true → Machine.exec (.charter block fits) s = .next (s.jobDone .charterFrozen 0 s.tk.count)) ∧
      (s.charterFrozen = false → ∃ r : LedgerRec, r.newDigest = charterDigest (copyGet (copyOf es)) ∧
        r.oldDigest = charterDigest s.reg ∧ r.copy = 1 - s.charterCopy ∧ r.hostId = dP j.cmd 16 8 ∧ r.valid = true ∧
        Machine.exec (.charter block fits) s = .next { s with mrm := { s.mrm with
          writes := s.mrm.writes ++ [.charter (1 - s.charterCopy) es, .record r] } })) ∧
    (∀ j, s.cwy.job = some j → dOp j.cmd = 0x61 → s.jobBegun = false → s.trl.frozen = false → blockOk j.cmd block = true →
      block.length = 4096 →
      let ws : List Word := (List.range 1024).map (fun i => (BitVec.ofNat 32 (blkNat block (4 * i) 4) : Word))
      calSetOk ws = true → Machine.exec (.calWrite block) s = .next { s with mrm := { s.mrm with
        writes := s.mrm.writes ++ [.calStage ws, .calSwitch, .calClear] } }) ∧
    (∀ j, s.cwy.job = some j → dOp j.cmd = 0x62 → s.jobBegun = false → s.trl.frozen = false → blockOk j.cmd block = true →
      let target := dP j.cmd 24 1
      (target = 0 → block.length ≤ 8388608) →
      (target ≠ 0 → proper ≤ 2097152 ∧ proper ≤ block.length ∧ block.length - proper ≤ 8388608) →
      ∃ t, Machine.exec (.update block proper) s = .next t ∧
        t.mrm = { s.mrm with writes := s.mrm.writes ++ [.block target (s.updateCopy target) block proper] } ∧
        (if target = 0 then t.start.fwPend else t.start.imgPend) = false ∧ t.bar = s.bar ∧ t.legs = s.legs ∧ t.cur = s.cur ∧
        t.cwy = s.cwy)) ∧
  (∀ (ok : Bool) (s : State),
    (s.cwy.job = none ∨ s.mrm.blockDone = false → Machine.exec (.updateVerified ok) s = .next s) ∧
    (∀ j, s.cwy.job = some j → s.mrm.blockDone = true →
      let target := dP j.cmd 24 1
      ∃ t, Machine.exec (.updateVerified ok) s = .next t ∧ t.cwy.job = none ∧ t.mrm.blockDone = false ∧
        (ok = true → (if target = 0 then t.start.fwPend else t.start.imgPend) = true ∧
          s.reports t 111 s.deckAddr 1 target (s.updateCopy target : Nat)) ∧
        (ok = false → t.start = s.start ∧ t.cwy.evs = s.cwy.evs) ∧ t.bar = s.bar ∧ t.legs = s.legs ∧ t.cur = s.cur)) ∧
  (∀ s : State,
    let due := ∃ k, s.mrm.open_ = some k ∧ (s.recSlot k).st = 2 ∧ (s.recSlot k).left = 0
    (¬ due → Machine.exec .recordClose s = .next s) ∧
    (∀ k, s.mrm.open_ = some k → (s.recSlot k).st = 2 → (s.recSlot k).left = 0 →
      let s1 := s.updSlot k (fun r => { r with st := 3 })
      ∃ t, Machine.exec .recordClose s = .next t ∧ t.mrm.writes = s.mrm.writes ++ [.header k] ∧ t.mrm.open_ = s1.slotToArm ∧
        t.mrm.records = s.mrm.records ∧ t.mrm.mem = s.mrm.mem ∧ t.bar = s.bar ∧ t.legs = s.legs ∧ t.cur = s.cur ∧ t.cwy = s.cwy ∧
        (Store.wf (fun _ => RecSlot.free) s.mrm.slots = true → s1.slotToArm ≠ some k → t.recSlot k = { s.recSlot k with st := 3 }))) ∧
  ∀ (mask : BitVec 5) (s : State), ∃ l, (∀ k, k ∈ l ↔ k ∈ s.mrm.release ∨ k < 5 ∧ mask.toNat.testBit k = true) ∧
    Machine.exec (.recSlotRelease mask) s = .next { s with mrm := { s.mrm with release := l } }

/-! ### Host accesses to the registers -/

/-- R152: a write of an invalid encoding from Table 06-6 into an LK register before deck ready leaves the register unchanged
and sets the access-violation status. -/
def Obligations.InvalidPierWrites : Prop :=
  ∀ (off : Nat) (v : Word) (be : BitVec 4) (ofs : Nat) (s : State), s.start.ready = false → invalidPierWord off v →
    ∃ t, Machine.exec (.registerWrite off v be ofs) s = .next t ∧ t.bar = s.bar ∧ t.readReg off = s.readReg off ∧
      t.cwy.accViol = true ∧ t.cwy.avAddr = off ∧ t.legs = s.legs ∧ t.par = s.par ∧ t.adc = s.adc ∧ t.cur = s.cur

/-- Host accesses. A reserved offset reads 0 and ignores writes (R432); a write without all byte enables, to a block that
does not answer in abutment mode, to an RO register, or to an LK register after deck ready is an access violation (R20, R431,
R436); a TL write is held for its boundary (R52); a plain RW register takes its defined bits, and an LK register of a pier
takes them before deck ready where they are valid. STAT_RESET resets TICK_SLACK_MIN alone (R63). A read of
a _LO register answers it and latches the words of Table 19-2, and a read of a data window answers it and advances its address
by 4 (R435). -/
def Obligations.RegisterAccess : Prop :=
  (∀ (off : Nat) (v : Word) (be : BitVec 4) (ofs : Nat) (s : State) (c : Instr),
    c = .registerWrite off v be ofs ∨ c = .tlRegisterWrite off v be ofs →
    let u := s.at ofs
    (regRow off = none → Machine.exec c s = .next u ∧ s.readReg off = 0#32) ∧
    ∀ p row, regPlace off = some p → regRow off = some row →
      let live := (!s.start.abut || p.1.inAbutment) && decide (be = 0xF#4)
      let w := v &&& wd row.mask
      (live = false → Machine.exec c s = .next (u.accessViolation off)) ∧
      (row.acc = .ro → Machine.exec c s = .next (u.accessViolation off)) ∧
      (row.acc = .lk → s.start.ready = true → s.start.abut = false → Machine.exec c s = .next (u.accessViolation off)) ∧
      (live = true → row.acc = .tl → ∃ t, Machine.exec c s = .next t ∧
        t.tk.held.getLast? = some { off := off, value := w, lands := s.tk.count + (if ofs + 50 * uNs ≤ s.pu then 1 else 2) } ∧
        (∀ h ∈ s.tk.held, h.off ≠ off → h ∈ t.tk.held) ∧ t.bar = s.bar ∧ t.legs = s.legs ∧ t.cur = s.cur ∧ t.cwy = s.cwy) ∧
      (live = true → row.acc = .rw → p.1 = .tick ∨ p.1 = .mrm → Store.wf barReset s.bar = true → ∃ t, Machine.exec c s = .next t ∧
        t.reg off = w ∧ (∀ o, o ≠ off → t.reg o = s.reg o) ∧ t.legs = s.legs ∧ t.cur = s.cur ∧ t.cwy = s.cwy) ∧
      (live = true → row.acc = .lk → p.1 = .pier ∨ p.1 = .par → s.start.ready = false → s.start.abut = false →
        Store.wf barReset s.bar = true →
        (s.encodingOk p w = true → ∃ t, Machine.exec c s = .next t ∧ t.reg off = w ∧ (∀ o, o ≠ off → t.reg o = s.reg o) ∧
          t.legs = s.legs ∧ t.par = s.par ∧ t.cur = s.cur ∧ t.cwy = s.cwy) ∧
        (s.encodingOk p w = false → Machine.exec c s = .next (u.accessViolation off)))) ∧
  (∀ s : State,
    (s.start.abut = false → Machine.exec .statReset s =
      .next { s.at 0 with tk := { (s.at 0).tk with slackMin := 65535, statReset := true } }) ∧
    (s.start.abut = true → Machine.exec .statReset s = .next ((s.at 0).accessViolation 0x1040))) ∧
  (∀ (off ofs : Nat) (s : State),
    let u := s.at ofs
    ∃ t, Machine.exec (.highWordLatchRead off ofs) s = .next t ∧ t.lastRead = u.readReg off ∧ t.tk = u.tk ∧ t.bar = s.bar ∧
      t.cwy = s.cwy ∧ t.legs = s.legs ∧ t.cur = s.cur ∧
      (Store.wf (fun _ => 0#32) s.hiLatch = true →
        (∀ q ∈ u.latchWords off, s.start.abut = false ∨ off = 0x3000C ∨ off = 0x33000 →
          Store.get (fun _ => 0#32) t.hiLatch q.1 = wd q.2) ∧
        (s.start.abut = false → off = 0x1010 → Store.get (fun _ => 0#32) t.hiLatch 0x1014 = wd (hi32 s.tk.count)) ∧
        (s.start.abut = false → off = 0x1118 → Store.get (fun _ => 0#32) t.hiLatch 0x111C = wd (hi32 (u.tk.now / uNs))) ∧
        (off = 0x3000C → Store.get (fun _ => 0#32) t.hiLatch 0x30010 = wd (hi32 s.kst.mmTick)) ∧
        (off = 0x33000 → Store.get (fun _ => 0#32) t.hiLatch 0x33008 = wd (u.calVal u.tk.now % 2 ^ 24))) ∧
      (u.latchWords off = [] → t.hiLatch = s.hiLatch)) ∧
  ∀ (off : Nat) (ecc : Fin 3) (s : State), Store.wf barReset s.bar = true →
    let c := Instr.dataWindowAccess off none ecc
    let reads := fun (a mask : Nat) (x : Word) => ∃ t, Machine.exec c s = .next t ∧ t.lastRead = x ∧
      t.reg a = wd (((s.reg a).toNat + 4) &&& mask) ∧ (∀ o, o ≠ a → t.reg o = s.reg o) ∧ t.legs = s.legs ∧ t.cur = s.cur ∧
      t.cwy = s.cwy
    (off = 0x11B4 → s.start.abut = false → reads 0x11B0 0xFFFFC (s.readReg off)) ∧
    (off = 0x2C044 → s.start.abut = false → reads 0x2C040 0x7FC (s.readReg off)) ∧
    (off = 0x3320C → reads 0x33208 0x3FFFFFC (if ecc.val = 2 then 0#32 else s.readReg off)) ∧
    (∀ p : Port, off = 0x2009C + 0x400 * p.val → s.start.abut = false → reads (0x20098 + 0x400 * p.val) 0xFFF (s.readReg off)) ∧
    (∀ v, Machine.exec (.dataWindowAccess off (some v) ecc) s = Machine.exec (.registerWrite off v 0xF#4 0) s)
end

