-- ==== Sys2Proof/Laws/Commands.lean ====
section
/-! SUPPORT. What a command of the ring does once its checks pass: one lemma for deck-level commands, one for commands to spans. -/
namespace Sys2Proof.Machine

/-- A state that runs gives a command its own meaning. -/
theorem State.onDeck_runs (s : State) (d : Staged) (run : State → State) (h : s.runs = true) : s.onDeck d run = run s := by
  simp only [State.runs, Bool.and_eq_true, Bool.not_eq_true'] at h
  simp [State.onDeck, h]

theorem State.earlyStatus_none (s : State) (d : Staged) (h : s.deckStatus d = none) : s.earlyStatus d = none := by
  unfold State.deckStatus at h
  unfold State.earlyStatus
  cases hf : d.fail with
  | some a => simp [hf] at h
  | none =>
    cases hs : s.stageCheck d with
    | some a => simp [hf, hs] at h
    | none => simp

/-- Only HANDOVER hands a span over. -/
theorem State.handoverNow_other (s : State) (d : Staged) (h : dOp d ≠ 0x20) : s.handoverNow d = s := by
  unfold State.handoverNow
  simp [h]

/-- A deck-level command whose checks pass has its effect. -/
theorem State.deckRow_open (s : State) (d : Staged) (h : s.deckOpen d) :
    s.deckRow d = (s.handoverNow d).deckEffect s.cur [] false d := by
  obtain ⟨h1, h2, h3⟩ := h
  simp [State.deckRow, State.onDeck_runs s d _ h1, State.runDeck, State.earlyStatus_none s d h3, h2, h3]

/-- The same of every opcode but HANDOVER: the effect is at the state as it stands. -/
theorem State.deckRow_own (s : State) (d : Staged) (h : s.deckOpen d) (e : dOp d ≠ 0x20) :
    s.deckRow d = s.deckEffect s.cur [] false d := by
  rw [State.deckRow_open s d h, State.handoverNow_other s d e]

/-- A command to a span whose gates pass and whose span accepts it: its effect on the stage, the quantities that it sets,
and its completion unless it runs on. -/
theorem State.spanRow_go (s : State) (d : Staged) (h : s.runs = true) (p : s.prepare.spanOpen d)
    (g : (s.prepare.spanRun d).v = .go) :
    s.spanRow d =
      (let r := s.prepare.spanRun d
       let t := (r.quants.foldl (fun (t : State) q => { t with stage := t.stage.quantity (some d.seq) q }) r.s).modeRelinquish d
       if r.long then { t with stage := { t.stage with handled := d.seq :: t.stage.handled } }
       else t.spanDone d .success r.result r.clip) := by
  obtain ⟨h1, h2, h3, h4, h5⟩ := p
  simp only [State.spanRow, State.onDeck_runs s d _ h, State.runSpan, h1, if_false, h2, h3, if_true, State.spanCommand, h4, h5,
    Option.orElse, g]

/-- Only MODE gives a span up. -/
theorem State.modeRelinquish_other (s : State) (d : Staged) (h : dOp d ≠ 0x100) : s.modeRelinquish d = s := by
  unfold State.modeRelinquish
  simp [h]

end Sys2Proof.Machine
end

