-- ==== Sys2Proof/Laws/Frame.lean ====
section
/-! SUPPORT. What the frame lemmas say: the queue of commands and the bytes of MRAM are left alone by a step, by a fold of steps and by an outcome. -/
namespace Sys2Proof.Machine

/-- A fold of steps that each leave it alone leaves it alone. -/
@[simp] theorem foldl_pending {α : Type} (g : State → α → State) (l : List α) (s : State) (h : ∀ t a, (g t a).pending = t.pending) :
    (l.foldl g s).pending = s.pending := by
  induction l generalizing s with
  | nil => rfl
  | cons a l ih => rw [List.foldl_cons, ih, h]

/-- A fold of steps that each leave it alone leaves it alone. -/
@[simp] theorem foldl_mem {α : Type} (g : State → α → State) (l : List α) (s : State) (h : ∀ t a, (g t a).mrm.mem = t.mrm.mem) :
    (l.foldl g s).mrm.mem = s.mrm.mem := by
  induction l generalizing s with
  | nil => rfl
  | cons a l ih => rw [List.foldl_cons, ih, h]

/-- An outcome that leaves the queue and the bytes of MRAM alone. -/
def outKeeps (o : Host.Outcome State Fault Refusal) (s : State) : Prop :=
  match o with
  | .next t => t.pending = s.pending ∧ t.mrm.mem = s.mrm.mem
  | _ => True
@[simp] theorem outKeeps_next (t s : State) :
    outKeeps (Host.Outcome.next t) s ↔ t.pending = s.pending ∧ t.mrm.mem = s.mrm.mem := Iff.rfl
/-- An outcome that leaves the queue alone. -/
def outKeepsQueue (o : Host.Outcome State Fault Refusal) (s : State) : Prop :=
  match o with
  | .next t => t.pending = s.pending
  | _ => True
@[simp] theorem outKeepsQueue_next (t s : State) : outKeepsQueue (Host.Outcome.next t) s ↔ t.pending = s.pending := Iff.rfl
/-- The weaker says less. -/
theorem outKeeps.queue {o : Host.Outcome State Fault Refusal} {s : State} (h : outKeeps o s) : outKeepsQueue o s := by
  cases o
  · exact h.1
  all_goals trivial

/-- `t` has the queue and the bytes of MRAM of `s`. -/
def Kept (s t : State) : Prop := t.pending = s.pending ∧ t.mrm.mem = s.mrm.mem
/-- Nothing has moved. -/
theorem Kept.refl (s : State) : Kept s s := ⟨rfl, rfl⟩
/-- One step after another. -/
theorem Kept.trans {s t u : State} (h : Kept s t) (k : Kept t u) : Kept s u := ⟨k.1.trans h.1, k.2.trans h.2⟩
/-- A fold of steps that each keep them keeps them. -/
theorem Kept.foldl {α : Type} (g : State → α → State) (h : ∀ t a, Kept t (g t a)) (l : List α) (s : State) : Kept s (l.foldl g s) := by
  induction l generalizing s with
  | nil => exact .refl s
  | cons a l ih => exact (h s a).trans (ih _)
/-- The same of a fold that carries more than a state. -/
theorem Kept.foldl_on {α β : Type} (π : β → State) (g : β → α → β) (h : ∀ b a, Kept (π b) (π (g b a))) (l : List α) (b : β) : Kept (π b) (π (l.foldl g b)) := by
  induction l generalizing b with
  | nil => exact .refl _
  | cons a l ih => exact (h b a).trans (ih _)
/-- Either branch. -/
theorem Kept.ite {c : Prop} [Decidable c] {s t u : State} (h : Kept s t) (k : Kept s u) : Kept s (if c then t else u) := by
  split <;> assumption

/-- The two facts. -/
theorem Kept.of {s t : State} (h : t.pending = s.pending ∧ t.mrm.mem = s.mrm.mem) : Kept s t := h
/-- A record that names neither the queue nor the bytes of MRAM. -/
theorem Kept.lit (t : State) (mrm : MrmS) (h : mrm.mem = t.mrm.mem) (x1 x2 x3 x4 x5 x6 x7 x8 x9 x10 x11 x12 x13 x14 x15 x16 x17 x18 x19 x20 x21 x22 x23 x24 x25 x26 x27 x29) :
    Kept t (State.mk t.pending x1 x2 x3 x4 x5 x6 x7 x8 x9 x10 x11 x12 x13 x14 x15 x16 x17 x18 x19 x20 x21 x22 x23 x24 x25 x26 x27 mrm x29) := ⟨rfl, h⟩
/-- The outcome of a state that keeps them. -/
theorem outKeeps.of {s t : State} (h : Kept s t) : outKeeps (.next t) s := h
/-- Either branch of an outcome. -/
theorem outKeeps.ite {c : Prop} [Decidable c] {s : State} {o p : Host.Outcome State Fault Refusal} (h : outKeeps o s) (k : outKeeps p s) : outKeeps (if c then o else p) s := by
  split <;> assumption

end Sys2Proof.Machine
end

