-- ==== Sys2Proof/Laws/FrameParts.lean ====
section
/-! SUPPORT. The frame lemmas, one per operation and command: the parts, the sensing, the legs and the spans leave the queue of commands and the bytes of MRAM alone. -/
namespace Sys2Proof.Machine
set_option linter.all false

@[simp] theorem State.setReg_keeps (s x1 x2) :
    (State.setReg s x1 x2).pending = s.pending ∧ (State.setReg s x1 x2).mrm.mem = s.mrm.mem := by
  exact ⟨rfl, rfl⟩

@[simp] theorem State.updLeg_keeps (s x1 x2) :
    (State.updLeg s x1 x2).pending = s.pending ∧ (State.updLeg s x1 x2).mrm.mem = s.mrm.mem := by
  exact ⟨rfl, rfl⟩

@[simp] theorem State.updLegs_keeps (s x1 x2) :
    (State.updLegs s x1 x2).pending = s.pending ∧ (State.updLegs s x1 x2).mrm.mem = s.mrm.mem := by
  refine ⟨?_, ?_⟩ <;> simp [State.updLegs]

@[simp] theorem State.updConv_keeps (s x1 x2) :
    (State.updConv s x1 x2).pending = s.pending ∧ (State.updConv s x1 x2).mrm.mem = s.mrm.mem := by
  exact ⟨rfl, rfl⟩

@[simp] theorem State.updInp_keeps (s x1 x2) :
    (State.updInp s x1 x2).pending = s.pending ∧ (State.updInp s x1 x2).mrm.mem = s.mrm.mem := by
  exact ⟨rfl, rfl⟩

@[simp] theorem State.updPair_keeps (s x1 x2) :
    (State.updPair s x1 x2).pending = s.pending ∧ (State.updPair s x1 x2).mrm.mem = s.mrm.mem := by
  exact ⟨rfl, rfl⟩

@[simp] theorem State.updRej_keeps (s x1 x2) :
    (State.updRej s x1 x2).pending = s.pending ∧ (State.updRej s x1 x2).mrm.mem = s.mrm.mem := by
  exact ⟨rfl, rfl⟩

@[simp] theorem State.updHall_keeps (s x1 x2) :
    (State.updHall s x1 x2).pending = s.pending ∧ (State.updHall s x1 x2).mrm.mem = s.mrm.mem := by
  exact ⟨rfl, rfl⟩

@[simp] theorem State.updPort_keeps (s x1 x2) :
    (State.updPort s x1 x2).pending = s.pending ∧ (State.updPort s x1 x2).mrm.mem = s.mrm.mem := by
  exact ⟨rfl, rfl⟩

@[simp] theorem State.updPos_keeps (s x1 x2) :
    (State.updPos s x1 x2).pending = s.pending ∧ (State.updPos s x1 x2).mrm.mem = s.mrm.mem := by
  refine ⟨?_, ?_⟩ <;> (simp only [State.updPos]; split <;> simp)

@[simp] theorem State.stick_keeps (s x1) :
    (State.stick s x1).pending = s.pending ∧ (State.stick s x1).mrm.mem = s.mrm.mem := by
  exact ⟨rfl, rfl⟩

@[simp] theorem State.at_keeps (s x1) :
    (State.at s x1).pending = s.pending ∧ (State.at s x1).mrm.mem = s.mrm.mem := by
  exact ⟨rfl, rfl⟩

@[simp] theorem State.goto_keeps (s x1) :
    (State.goto s x1).pending = s.pending ∧ (State.goto s x1).mrm.mem = s.mrm.mem := by
  exact ⟨rfl, rfl⟩

@[simp] theorem State.logEvent_keeps (s x1) :
    (State.logEvent s x1).pending = s.pending ∧ (State.logEvent s x1).mrm.mem = s.mrm.mem := by
  refine ⟨?_, ?_⟩ <;> (simp only [State.logEvent]; (repeat' split) <;> simp_all)

@[simp] theorem State.noteTrigger_keeps (s x1) :
    (State.noteTrigger s x1).pending = s.pending ∧ (State.noteTrigger s x1).mrm.mem = s.mrm.mem := by
  refine ⟨?_, ?_⟩ <;> (simp only [State.noteTrigger]; split <;> simp)

@[simp] theorem State.raise_keeps (s x1 x2 x3 x4 x5) :
    (State.raise s x1 x2 x3 x4 x5).pending = s.pending ∧ (State.raise s x1 x2 x3 x4 x5).mrm.mem = s.mrm.mem := by
  refine ⟨?_, ?_⟩ <;> (simp only [State.raise]; split <;> simp)

@[simp] theorem State.accessViolation_keeps (s x1) :
    (State.accessViolation s x1).pending = s.pending ∧ (State.accessViolation s x1).mrm.mem = s.mrm.mem := by
  refine ⟨?_, ?_⟩ <;> simp [State.accessViolation]

@[simp] theorem State.signal_keeps (s x1) :
    (State.signal s x1).pending = s.pending ∧ (State.signal s x1).mrm.mem = s.mrm.mem := by
  refine ⟨?_, ?_⟩ <;> (simp only [State.signal]; split <;> simp)

@[simp] theorem State.withStage_keeps (s x1) :
    (State.withStage s x1).pending = s.pending ∧ (State.withStage s x1).mrm.mem = s.mrm.mem := by
  exact ⟨rfl, rfl⟩

@[simp] theorem State.windowCompare_keeps (s x1 x2) :
    (State.windowCompare s x1 x2).pending = s.pending ∧ (State.windowCompare s x1 x2).mrm.mem = s.mrm.mem := by
  refine ⟨?_, ?_⟩ <;> (simp only [State.windowCompare]; (repeat' split) <;> simp_all)

@[simp] theorem State.deliver_keeps (s x1 x2 x3 x4 x5 x6 x7) :
    (State.deliver s x1 x2 x3 x4 x5 x6 x7).pending = s.pending ∧ (State.deliver s x1 x2 x3 x4 x5 x6 x7).mrm.mem = s.mrm.mem := by
  refine ⟨?_, ?_⟩ <;> (simp only [State.deliver]; split <;> simp)

@[simp] theorem State.refuse_keeps (s x1 x2) :
    (State.refuse s x1 x2).pending = s.pending ∧ (State.refuse s x1 x2).mrm.mem = s.mrm.mem := by
  refine ⟨?_, ?_⟩ <;> simp [State.refuse]

@[simp] theorem State.startRegular_keeps (s x1 x2) :
    (State.startRegular s x1 x2).pending = s.pending ∧ (State.startRegular s x1 x2).mrm.mem = s.mrm.mem := by
  refine ⟨?_, ?_⟩ <;> (simp only [State.startRegular]; (repeat' split) <;> simp_all)

@[simp] theorem State.startSlot0_keeps (s x1 x2) :
    (State.startSlot0 s x1 x2).pending = s.pending ∧ (State.startSlot0 s x1 x2).mrm.mem = s.mrm.mem := by
  refine ⟨?_, ?_⟩ <;> (simp only [State.startSlot0]; split <;> simp)

theorem execRegularSequenceStart_keeps (x0 s) : outKeeps (execRegularSequenceStart x0 s) s := by
  simp only [execRegularSequenceStart]; (repeat' split) <;> simp

theorem execRegularSlotEnd_keeps (x0 x1 s) : outKeeps (execRegularSlotEnd x0 x1 s) s := by
  unfold execRegularSlotEnd; (repeat' split) <;> simp

@[simp] theorem State.enqueue_keeps (s x1 x2) :
    (State.enqueue s x1 x2).pending = s.pending ∧ (State.enqueue s x1 x2).mrm.mem = s.mrm.mem := by
  refine ⟨?_, ?_⟩ <;> (simp only [State.enqueue]; (repeat' split) <;> simp_all)

theorem execInjectedTrigger_keeps (x0 x1 x2 s) : outKeeps (execInjectedTrigger x0 x1 x2 s) s := by
  simp only [execInjectedTrigger]; (repeat' split) <;> simp

theorem execInjectedSequenceStart_keeps (x0 s) : outKeeps (execInjectedSequenceStart x0 s) s := by
  simp only [execInjectedSequenceStart]; (repeat' split) <;> simp

@[simp] theorem State.injectedCode_keeps (s x1 x2 x3 x4 x5) :
    (State.injectedCode s x1 x2 x3 x4 x5).pending = s.pending ∧ (State.injectedCode s x1 x2 x3 x4 x5).mrm.mem = s.mrm.mem := by
  refine ⟨?_, ?_⟩ <;> (simp only [State.injectedCode]; (repeat' split) <;> simp_all)

theorem State.injectedCodes_kept (s : State) (x1 x2 x3 x4 x5 x6) : Kept s (s.injectedCodes x1 x2 x3 x4 x5 x6) := by
  induction x4 generalizing s x5 x6 with
  | nil => unfold State.injectedCodes; exact .refl s
  | cons k ks ih =>
    cases x5 with
    | nil => unfold State.injectedCodes; exact .refl s
    | cons r rs => unfold State.injectedCodes; exact Kept.trans (State.injectedCode_keeps ..) (ih ..)
@[simp] theorem State.injectedCodes_keeps (s x1 x2 x3 x4 x5 x6) :
    (State.injectedCodes s x1 x2 x3 x4 x5 x6).pending = s.pending ∧ (State.injectedCodes s x1 x2 x3 x4 x5 x6).mrm.mem = s.mrm.mem := by
  exact State.injectedCodes_kept ..

theorem execInjectedSequenceEnd_keeps (x0 x1 s) : outKeeps (execInjectedSequenceEnd x0 x1 s) s := by
  simp only [execInjectedSequenceEnd]; (repeat' split) <;> simp

@[simp] theorem State.injectedEnded_keeps (s x1 x2) :
    (State.injectedEnded s x1 x2).pending = s.pending ∧ (State.injectedEnded s x1 x2).mrm.mem = s.mrm.mem := by
  refine ⟨?_, ?_⟩ <;> (unfold State.injectedEnded; (repeat' split) <;> simp)

@[simp] theorem State.latchInput_keeps (s x1) :
    (State.latchInput s x1).pending = s.pending ∧ (State.latchInput s x1).mrm.mem = s.mrm.mem := by
  exact ⟨rfl, rfl⟩

@[simp] theorem State.evalPair_keeps (s x1) :
    (State.evalPair s x1).pending = s.pending ∧ (State.evalPair s x1).mrm.mem = s.mrm.mem := by
  refine ⟨?_, ?_⟩ <;> (simp only [State.evalPair]; (repeat' split) <;> simp_all)

@[simp] theorem State.lateSequence_keeps (s x1) :
    (State.lateSequence s x1).pending = s.pending ∧ (State.lateSequence s x1).mrm.mem = s.mrm.mem := by
  refine ⟨?_, ?_⟩ <;> (simp only [State.lateSequence]; (repeat' split) <;> simp_all)

@[simp] theorem State.formEval_keeps (s) :
    (State.formEval s).pending = s.pending ∧ (State.formEval s).mrm.mem = s.mrm.mem := by
  refine ⟨?_, ?_⟩ <;> (simp only [State.formEval]; split <;> simp)

theorem State.snapshot_kept (s : State) : Kept s s.snapshot := by
  unfold State.snapshot
  extract_lets s1 s2
  have h1 : Kept s s1 := Kept.trans (State.formEval_keeps ..) (Kept.foldl _ (fun t a => State.evalPair_keeps ..) _ _)
  have h2 : Kept s s2 := h1.trans (Kept.foldl _ (fun t a => State.latchInput_keeps ..) _ _)
  exact h2.trans (Kept.foldl _ (fun t a => State.lateSequence_keeps ..) _ _)
@[simp] theorem State.snapshot_keeps (s) :
    (State.snapshot s).pending = s.pending ∧ (State.snapshot s).mrm.mem = s.mrm.mem := by
  exact State.snapshot_kept ..

theorem execSeqEn_keeps (x0 s) : outKeeps (execSeqEn x0 s) s := by
  unfold execSeqEn; (repeat' split) <;> simp

theorem execRefEnable_keeps (x0 s) : outKeeps (execRefEnable x0 s) s := by
  simp only [execRefEnable]; (repeat' split) <;> simp

theorem execRefSettled_keeps (s) : outKeeps (execRefSettled s) s := by
  unfold execRefSettled; (repeat' split) <;> simp

theorem execRefDisable_keeps (s) : outKeeps (execRefDisable s) s := by
  unfold execRefDisable; (repeat' split) <;> simp

@[simp] theorem State.startCal_keeps (s x1 x2) :
    (State.startCal s x1 x2).pending = s.pending ∧ (State.startCal s x1 x2).mrm.mem = s.mrm.mem := by
  refine ⟨?_, ?_⟩ <;> simp [State.startCal]

@[simp] theorem State.endCal_keeps (s x1 x2 x3) :
    (State.endCal s x1 x2 x3).pending = s.pending ∧ (State.endCal s x1 x2 x3).mrm.mem = s.mrm.mem := by
  refine ⟨?_, ?_⟩ <;> (simp only [State.endCal]; split <;> simp)

theorem State.sensingMoved_kept (s : State) (x1) : Kept s (s.sensingMoved x1) := by
  unfold State.sensingMoved
  extract_lets s1 s2
  have h1 : Kept s s1 := Kept.foldl _ (fun t a => State.updConv_keeps ..) _ _
  have h2 : Kept s s2 := h1.trans (Kept.foldl _ (fun t a => State.updInp_keeps ..) _ _)
  clear_value s2
  exact h2.trans ⟨rfl, rfl⟩
@[simp] theorem State.sensingMoved_keeps (s x1) :
    (State.sensingMoved s x1).pending = s.pending ∧ (State.sensingMoved s x1).mrm.mem = s.mrm.mem := by
  exact State.sensingMoved_kept ..

@[simp] theorem State.blankFrom_keeps (s x1 x2) :
    (State.blankFrom s x1 x2).pending = s.pending ∧ (State.blankFrom s x1 x2).mrm.mem = s.mrm.mem := by
  exact ⟨rfl, rfl⟩

@[simp] theorem State.gateOn_keeps (s x1 x2 x3) :
    (State.gateOn s x1 x2 x3).pending = s.pending ∧ (State.gateOn s x1 x2 x3).mrm.mem = s.mrm.mem := by
  exact ⟨rfl, rfl⟩

@[simp] theorem State.gateOff_keeps (s x1 x2 x3) :
    (State.gateOff s x1 x2 x3).pending = s.pending ∧ (State.gateOff s x1 x2 x3).mrm.mem = s.mrm.mem := by
  exact ⟨rfl, rfl⟩

@[simp] theorem State.arm_keeps (s x1 x2) :
    (State.arm s x1 x2).pending = s.pending ∧ (State.arm s x1 x2).mrm.mem = s.mrm.mem := by
  refine ⟨?_, ?_⟩ <;> (simp only [State.arm]; (repeat' split) <;> simp_all)

@[simp] theorem State.cmdOff_keeps (s x1 x2) :
    (State.cmdOff s x1 x2).pending = s.pending ∧ (State.cmdOff s x1 x2).mrm.mem = s.mrm.mem := by
  refine ⟨?_, ?_⟩ <;> (simp only [State.cmdOff]; (repeat' split) <;> simp_all)

@[simp] theorem State.holdOff_keeps (s x1 x2) :
    (State.holdOff s x1 x2).pending = s.pending ∧ (State.holdOff s x1 x2).mrm.mem = s.mrm.mem := by
  refine ⟨?_, ?_⟩ <;> (simp only [State.holdOff]; (repeat' split) <;> simp_all)

@[simp] theorem State.command_keeps (s x1 x2 x3) :
    (State.command s x1 x2 x3).pending = s.pending ∧ (State.command s x1 x2 x3).mrm.mem = s.mrm.mem := by
  refine ⟨?_, ?_⟩ <;> (simp only [State.command]; split <;> simp)

@[simp] theorem State.settleGate_keeps (s x1 x2) :
    (State.settleGate s x1 x2).pending = s.pending ∧ (State.settleGate s x1 x2).mrm.mem = s.mrm.mem := by
  refine ⟨?_, ?_⟩ <;> (unfold State.settleGate; (repeat' split) <;> simp)

@[simp] theorem State.driveLeg_keeps (s x1) :
    (State.driveLeg s x1).pending = s.pending ∧ (State.driveLeg s x1).mrm.mem = s.mrm.mem := by
  refine ⟨?_, ?_⟩ <;> (unfold State.driveLeg; (repeat' split) <;> simp)

@[simp] theorem State.drive_keeps (s x1) :
    (State.drive s x1).pending = s.pending ∧ (State.drive s x1).mrm.mem = s.mrm.mem := by
  refine ⟨?_, ?_⟩ <;> (simp only [State.drive]; split <;> simp)

@[simp] theorem State.driveAll_keeps (s x1) :
    (State.driveAll s x1).pending = s.pending ∧ (State.driveAll s x1).mrm.mem = s.mrm.mem := by
  refine ⟨?_, ?_⟩ <;> simp [State.driveAll]

@[simp] theorem State.softOff_keeps (s x1 x2) :
    (State.softOff s x1 x2).pending = s.pending ∧ (State.softOff s x1 x2).mrm.mem = s.mrm.mem := by
  refine ⟨?_, ?_⟩ <;> (simp only [State.softOff]; split <;> simp)

@[simp] theorem State.softIfOff_keeps (s x1 x2 x3) :
    (State.softIfOff s x1 x2 x3).pending = s.pending ∧ (State.softIfOff s x1 x2 x3).mrm.mem = s.mrm.mem := by
  refine ⟨?_, ?_⟩ <;> (simp only [State.softIfOff]; split <;> simp)

@[simp] theorem State.driveSoft_keeps (s x1) :
    (State.driveSoft s x1).pending = s.pending ∧ (State.driveSoft s x1).mrm.mem = s.mrm.mem := by
  refine ⟨?_, ?_⟩ <;> (simp [State.driveSoft])

@[simp] theorem State.countTrip_keeps (s x1) :
    (State.countTrip s x1).pending = s.pending ∧ (State.countTrip s x1).mrm.mem = s.mrm.mem := by
  refine ⟨?_, ?_⟩ <;> (simp only [State.countTrip]; (repeat' split) <;> simp_all)

@[simp] theorem State.tripLeg_keeps (s x1 x2) :
    (State.tripLeg s x1 x2).pending = s.pending ∧ (State.tripLeg s x1 x2).mrm.mem = s.mrm.mem := by
  refine ⟨?_, ?_⟩ <;> (unfold State.tripLeg; (repeat' split) <;> simp)

@[simp] theorem State.ocAct_keeps (s x1) :
    (State.ocAct s x1).pending = s.pending ∧ (State.ocAct s x1).mrm.mem = s.mrm.mem := by
  refine ⟨?_, ?_⟩ <;> (simp only [State.ocAct]; split <;> simp)

@[simp] theorem State.reportShort_keeps (s x1) :
    (State.reportShort s x1).pending = s.pending ∧ (State.reportShort s x1).mrm.mem = s.mrm.mem := by
  refine ⟨?_, ?_⟩ <;> (simp only [State.reportShort]; (repeat' split) <;> simp_all)

@[simp] theorem State.scAct_keeps (s x1) :
    (State.scAct s x1).pending = s.pending ∧ (State.scAct s x1).mrm.mem = s.mrm.mem := by
  refine ⟨?_, ?_⟩ <;> (simp only [State.scAct]; (repeat' split) <;> simp_all)

@[simp] theorem State.lineAct_keeps (s x1) :
    (State.lineAct s x1).pending = s.pending ∧ (State.lineAct s x1).mrm.mem = s.mrm.mem := by
  refine ⟨?_, ?_⟩ <;> (simp only [State.lineAct]; (repeat' split) <;> simp_all)

@[simp] theorem State.interlock_keeps (s x1) :
    (State.interlock s x1).pending = s.pending ∧ (State.interlock s x1).mrm.mem = s.mrm.mem := by
  refine ⟨?_, ?_⟩ <;> (simp only [State.interlock]; (repeat' split) <;> simp_all)

theorem execPeriodStart_keeps (x0 s) : outKeeps (execPeriodStart x0 s) s := by
  simp only [execPeriodStart]; (repeat' split) <;> simp

theorem execSwitchingEdge_keeps (x0 x1 s) : outKeeps (execSwitchingEdge x0 x1 s) s := by
  unfold execSwitchingEdge; (repeat' split) <;> simp

theorem execGateOnEdge_keeps (x0 x1 s) : outKeeps (execGateOnEdge x0 x1 s) s := by
  simp only [execGateOnEdge]; (repeat' split) <;> simp

theorem execSoftOffPlateauEnd_keeps (x0 x1 x2 s) : outKeeps (execSoftOffPlateauEnd x0 x1 x2 s) s := by
  simp only [execSoftOffPlateauEnd]; (repeat' split) <;> simp

@[simp] theorem State.assigned_keeps (s x1 x2) :
    (State.assigned s x1 x2).pending = s.pending ∧ (State.assigned s x1 x2).mrm.mem = s.mrm.mem := by
  exact ⟨rfl, rfl⟩

theorem execDirectWrite_keeps (x0 x1 x2 x3 s) : outKeeps (execDirectWrite x0 x1 x2 x3 s) s := by
  simp only [execDirectWrite]; (repeat' split) <;> simp

theorem execDirectCommit_keeps (x0 x1 s) : outKeeps (execDirectCommit x0 x1 s) s := by
  simp only [execDirectCommit]; (repeat' split) <;> simp

theorem State.moveSpan_kept (s : State) (x1 x2) : Kept s (s.moveSpan x1 x2) := by
  unfold State.moveSpan
  extract_lets step
  have h : Kept s ((x2.legs.foldl step (s, [], [])).1) :=
    Kept.foldl_on (fun b : State × List Nat × List Nat => b.1) step (fun b a => ⟨rfl, rfl⟩) x2.legs (s, [], [])
  generalize x2.legs.foldl step (s, [], []) = r at *
  obtain ⟨t, per, unc⟩ := r
  refine h.trans ?_
  refine Kept.ite (State.raise_keeps ..) (Kept.ite (State.raise_keeps ..) (.refl _))
@[simp] theorem State.moveSpan_keeps (s x1 x2) :
    (State.moveSpan s x1 x2).pending = s.pending ∧ (State.moveSpan s x1 x2).mrm.mem = s.mrm.mem := by
  exact State.moveSpan_kept ..

@[simp] theorem State.moveSets_keeps (s x1 x2) :
    (State.moveSets s x1 x2).pending = s.pending ∧ (State.moveSets s x1 x2).mrm.mem = s.mrm.mem := by
  refine ⟨?_, ?_⟩ <;> (simp only [State.moveSets]; split <;> simp)

@[simp] theorem State.latchPatterns_keeps (s x1) :
    (State.latchPatterns s x1).pending = s.pending ∧ (State.latchPatterns s x1).mrm.mem = s.mrm.mem := by
  refine ⟨?_, ?_⟩ <;> simp [State.latchPatterns]

theorem State.syncCheck_kept (s : State) (x1 x2) : Kept s (s.syncCheck x1 x2) := by
  unfold State.syncCheck
  extract_lets fails t
  have h : Kept s t := by
    refine Kept.foldl _ (fun t l => ?_) _ _
    dsimp only
    refine Kept.ite (Kept.trans (State.updLeg_keeps ..) (State.raise_keeps ..)) (Kept.ite (.refl _) (State.updLeg_keeps ..))
  exact h
@[simp] theorem State.syncCheck_keeps (s x1 x2) :
    (State.syncCheck s x1 x2).pending = s.pending ∧ (State.syncCheck s x1 x2).mrm.mem = s.mrm.mem := by
  exact State.syncCheck_kept ..

@[simp] theorem State.boundaryLegs_keeps (s x1) :
    (State.boundaryLegs s x1).pending = s.pending ∧ (State.boundaryLegs s x1).mrm.mem = s.mrm.mem := by
  refine ⟨?_, ?_⟩ <;> simp [State.boundaryLegs]

theorem State.capture_kept (s : State) (x1 x2) : Kept s (s.capture x1 x2) := by
  unfold State.capture
  extract_lets q b amp trk exc newA newT newE s1 addr s2 s3 s4
  have h1 : Kept s s1 := State.updPos_keeps ..
  have h2 : Kept s s2 := h1.trans (Kept.ite (State.stick_keeps ..) (.refl _))
  have h3 : Kept s s3 := h2.trans (Kept.ite (State.raise_keeps ..) (.refl _))
  have h4 : Kept s s4 := h3.trans (Kept.ite (State.raise_keeps ..) (.refl _))
  exact h4.trans (Kept.ite (State.raise_keeps ..) (.refl _))
@[simp] theorem State.capture_keeps (s x1 x2) :
    (State.capture s x1 x2).pending = s.pending ∧ (State.capture s x1 x2).mrm.mem = s.mrm.mem := by
  exact State.capture_kept ..

theorem execCarrierCentre_keeps (x0 x1 s) : outKeeps (execCarrierCentre x0 x1 s) s := by
  simp only [execCarrierCentre]; (repeat' split) <;> simp

@[simp] theorem State.tracSafe_keeps (s x1 x2) :
    (State.tracSafe s x1 x2).pending = s.pending ∧ (State.tracSafe s x1 x2).mrm.mem = s.mrm.mem := by
  exact ⟨rfl, rfl⟩

theorem execTorquePeakExhaust_keeps (x0 s) : outKeeps (execTorquePeakExhaust x0 s) s := by
  simp only [execTorquePeakExhaust]; (repeat' split) <;> simp

theorem execDipEnd_keeps (x0 s) : outKeeps (execDipEnd x0 s) s := by
  simp [execDipEnd]

theorem execAscExitNoAngle_keeps (x0 s) : outKeeps (execAscExitNoAngle x0 s) s := by
  simp only [execAscExitNoAngle]; (repeat' split) <;> simp

@[simp] theorem State.tracMode_keeps (x0 x1 x2 s) :
    (State.tracMode x0 x1 x2 s).2.pending = s.pending ∧ (State.tracMode x0 x1 x2 s).2.mrm.mem = s.mrm.mem := by
  refine ⟨?_, ?_⟩ <;> (simp only [State.tracMode]; split <;> simp)

@[simp] theorem State.tqTarget_keeps (x0 x1 s) :
    (State.tqTarget x0 x1 s).2.pending = s.pending ∧ (State.tqTarget x0 x1 s).2.mrm.mem = s.mrm.mem := by
  refine ⟨?_, ?_⟩ <;> (simp only [State.tqTarget]; split <;> simp)

@[simp] theorem State.spdTargetCmd_keeps (x0 x1 s) :
    (State.spdTargetCmd x0 x1 s).2.pending = s.pending ∧ (State.spdTargetCmd x0 x1 s).2.mrm.mem = s.mrm.mem := by
  refine ⟨?_, ?_⟩ <;> (simp only [State.spdTargetCmd]; split <;> simp)

@[simp] theorem State.posRearmCmd_keeps (x0 s) :
    (State.posRearmCmd x0 s).2.pending = s.pending ∧ (State.posRearmCmd x0 s).2.mrm.mem = s.mrm.mem := by
  refine ⟨?_, ?_⟩ <;> (simp only [State.posRearmCmd]; split <;> simp)

@[simp] theorem State.tracDip_keeps (x0 x1 x2 s) :
    (State.tracDip x0 x1 x2 s).pending = s.pending ∧ (State.tracDip x0 x1 x2 s).mrm.mem = s.mrm.mem := by
  exact ⟨rfl, rfl⟩

theorem execSenseFaultClear_keeps (s) : outKeeps (execSenseFaultClear s) s := by
  simp [execSenseFaultClear]

@[simp] theorem State.cSafe_keeps (s x1) :
    (State.cSafe s x1).pending = s.pending ∧ (State.cSafe s x1).mrm.mem = s.mrm.mem := by
  exact ⟨rfl, rfl⟩

@[simp] theorem State.cBypassExit_keeps (s) :
    (State.cBypassExit s).pending = s.pending ∧ (State.cBypassExit s).mrm.mem = s.mrm.mem := by
  refine ⟨?_, ?_⟩ <;> (simp only [State.cBypassExit]; split <;> simp)

@[simp] theorem State.cMode_keeps (x0 x1 s) :
    (State.cMode x0 x1 s).2.pending = s.pending ∧ (State.cMode x0 x1 s).2.mrm.mem = s.mrm.mem := by
  refine ⟨?_, ?_⟩ <;> (simp only [State.cMode]; split <;> simp)

@[simp] theorem State.cVtgtCmd_keeps (x0 s) :
    (State.cVtgtCmd x0 s).2.pending = s.pending ∧ (State.cVtgtCmd x0 s).2.mrm.mem = s.mrm.mem := by
  refine ⟨?_, ?_⟩ <;> (simp only [State.cVtgtCmd]; split <;> simp)

@[simp] theorem State.cItgtCmd_keeps (x0 s) :
    (State.cItgtCmd x0 s).2.pending = s.pending ∧ (State.cItgtCmd x0 s).2.mrm.mem = s.mrm.mem := by
  refine ⟨?_, ?_⟩ <;> (simp only [State.cItgtCmd]; split <;> simp)

@[simp] theorem State.cSetPhases_keeps (x0 s) :
    (State.cSetPhases x0 s).pending = s.pending ∧ (State.cSetPhases x0 s).mrm.mem = s.mrm.mem := by
  refine ⟨?_, ?_⟩ <;> (simp only [State.cSetPhases]; split <;> simp)

@[simp] theorem State.cPhasesCmd_keeps (x0 s) :
    (State.cPhasesCmd x0 s).2.pending = s.pending ∧ (State.cPhasesCmd x0 s).2.mrm.mem = s.mrm.mem := by
  refine ⟨?_, ?_⟩ <;> (simp only [State.cPhasesCmd]; split <;> simp)

@[simp] theorem State.cCrowbarCmd_keeps (s) :
    (State.cCrowbarCmd s).2.pending = s.pending ∧ (State.cCrowbarCmd s).2.mrm.mem = s.mrm.mem := by
  refine ⟨?_, ?_⟩ <;> (unfold State.cCrowbarCmd; (repeat' split) <;> simp)

@[simp] theorem State.qSafe_keeps (s x1) :
    (State.qSafe s x1).pending = s.pending ∧ (State.qSafe s x1).mrm.mem = s.mrm.mem := by
  exact ⟨rfl, rfl⟩

@[simp] theorem State.qPilotExit_keeps (s) :
    (State.qPilotExit s).pending = s.pending ∧ (State.qPilotExit s).mrm.mem = s.mrm.mem := by
  refine ⟨?_, ?_⟩ <;> (simp only [State.qPilotExit]; split <;> simp)

@[simp] theorem State.qMode_keeps (x0 x1 x2 s) :
    (State.qMode x0 x1 x2 s).2.pending = s.pending ∧ (State.qMode x0 x1 x2 s).2.mrm.mem = s.mrm.mem := by
  refine ⟨?_, ?_⟩ <;> (simp only [State.qMode]; split <;> simp)

@[simp] theorem State.qPowerCmd_keeps (x0 x1 s) :
    (State.qPowerCmd x0 x1 s).2.pending = s.pending ∧ (State.qPowerCmd x0 x1 s).2.mrm.mem = s.mrm.mem := by
  refine ⟨?_, ?_⟩ <;> (simp only [State.qPowerCmd]; (repeat' split) <;> simp_all)

theorem execPilotCycle_keeps (x0 s) : outKeeps (execPilotCycle x0 s) s := by
  simp only [execPilotCycle]; (repeat' split) <;> simp

@[simp] theorem State.sampleContactor_keeps (s x1 x2) :
    (State.sampleContactor s x1 x2).pending = s.pending ∧ (State.sampleContactor s x1 x2).mrm.mem = s.mrm.mem := by
  exact ⟨rfl, rfl⟩

theorem execKacFbTimeout_keeps (x0 s) : outKeeps (execKacFbTimeout x0 s) s := by
  simp only [execKacFbTimeout]; (repeat' split) <;> simp

theorem execKAcOutFault_keeps (s) : outKeeps (execKAcOutFault s) s := by
  unfold execKAcOutFault; (repeat' split) <;> simp

@[simp] theorem State.thetaInit_keeps (s) :
    (State.thetaInit s).pending = s.pending ∧ (State.thetaInit s).mrm.mem = s.mrm.mem := by
  exact ⟨rfl, rfl⟩

theorem execBrakePeakExhaust_keeps (s) : outKeeps (execBrakePeakExhaust s) s := by
  simp only [execBrakePeakExhaust]; (repeat' split) <;> simp

@[simp] theorem State.bSafe_keeps (s x1) :
    (State.bSafe s x1).pending = s.pending ∧ (State.bSafe s x1).mrm.mem = s.mrm.mem := by
  exact ⟨rfl, rfl⟩

@[simp] theorem State.bMode_keeps (x0 s) :
    (State.bMode x0 s).2.pending = s.pending ∧ (State.bMode x0 s).2.mrm.mem = s.mrm.mem := by
  refine ⟨?_, ?_⟩ <;> (simp only [State.bMode]; split <;> simp)

@[simp] theorem State.stageDone_keeps (s x1 x2 x3) :
    (State.stageDone s x1 x2 x3).pending = s.pending ∧ (State.stageDone s x1 x2 x3).mrm.mem = s.mrm.mem := by
  exact ⟨rfl, rfl⟩

@[simp] theorem State.deckDone_keeps (s x1 x2 x3) :
    (State.deckDone s x1 x2 x3).pending = s.pending ∧ (State.deckDone s x1 x2 x3).mrm.mem = s.mrm.mem := by
  exact ⟨rfl, rfl⟩

theorem execShiftTimeout_keeps (x0 s) : outKeeps (execShiftTimeout x0 s) s := by
  simp only [execShiftTimeout]; (repeat' split) <;> simp

theorem execHomeTimeout_keeps (x0 s) : outKeeps (execHomeTimeout x0 s) s := by
  simp only [execHomeTimeout]; (repeat' split) <;> simp

@[simp] theorem State.aScan_keeps (s x1) :
    (State.aScan s x1).pending = s.pending ∧ (State.aScan s x1).mrm.mem = s.mrm.mem := by
  refine ⟨?_, ?_⟩ <;> (simp only [State.aScan]; split <;> simp)

@[simp] theorem State.aOps_keeps (s x1) :
    (State.aOps s x1).pending = s.pending ∧ (State.aOps s x1).mrm.mem = s.mrm.mem := by
  refine ⟨?_, ?_⟩ <;> (simp only [State.aOps]; (repeat' split) <;> simp_all)

theorem execActuatorPeakExhaust_keeps (x0 s) : outKeeps (execActuatorPeakExhaust x0 s) s := by
  simp only [execActuatorPeakExhaust]; (repeat' split) <;> simp

@[simp] theorem State.aSafe_keeps (s x1 x2) :
    (State.aSafe s x1 x2).pending = s.pending ∧ (State.aSafe s x1 x2).mrm.mem = s.mrm.mem := by
  exact ⟨rfl, rfl⟩

@[simp] theorem State.aMode_keeps (x0 x1 s) :
    (State.aMode x0 x1 s).2.pending = s.pending ∧ (State.aMode x0 x1 s).2.mrm.mem = s.mrm.mem := by
  refine ⟨?_, ?_⟩ <;> (simp only [State.aMode]; split <;> simp)

@[simp] theorem State.aTo_keeps (s x1 x2) :
    (State.aTo s x1 x2).2.pending = s.pending ∧ (State.aTo s x1 x2).2.mrm.mem = s.mrm.mem := by
  refine ⟨?_, ?_⟩ <;> (unfold State.aTo; (repeat' split) <;> simp)

@[simp] theorem State.aHoldCmd_keeps (x0 x1 x2 s) :
    (State.aHoldCmd x0 x1 x2 s).2.pending = s.pending ∧ (State.aHoldCmd x0 x1 x2 s).2.mrm.mem = s.mrm.mem := by
  refine ⟨?_, ?_⟩ <;> (simp only [State.aHoldCmd]; (repeat' split) <;> simp_all)

@[simp] theorem State.aHoldHere_keeps (x0 s) :
    (State.aHoldHere x0 s).2.pending = s.pending ∧ (State.aHoldHere x0 s).2.mrm.mem = s.mrm.mem := by
  refine ⟨?_, ?_⟩ <;> (simp only [State.aHoldHere]; (repeat' split) <;> simp_all)

@[simp] theorem State.aStart_keeps (x0 x1 x2 x3 x4 s) :
    (State.aStart x0 x1 x2 x3 x4 s).2.pending = s.pending ∧ (State.aStart x0 x1 x2 x3 x4 s).2.mrm.mem = s.mrm.mem := by
  refine ⟨?_, ?_⟩ <;> (simp only [State.aStart]; (repeat' split) <;> simp_all)

@[simp] theorem State.aShiftCmd_keeps (x0 x1 x2 x3 s) :
    (State.aShiftCmd x0 x1 x2 x3 s).2.pending = s.pending ∧ (State.aShiftCmd x0 x1 x2 x3 s).2.mrm.mem = s.mrm.mem := by
  refine ⟨?_, ?_⟩ <;> (unfold State.aShiftCmd; (repeat' split) <;> simp)

@[simp] theorem State.aParkCmd_keeps (x0 x1 x2 s) :
    (State.aParkCmd x0 x1 x2 s).2.pending = s.pending ∧ (State.aParkCmd x0 x1 x2 s).2.mrm.mem = s.mrm.mem := by
  refine ⟨?_, ?_⟩ <;> (unfold State.aParkCmd; (repeat' split) <;> simp)

@[simp] theorem State.aReleaseCmd_keeps (x0 x1 x2 s) :
    (State.aReleaseCmd x0 x1 x2 s).2.pending = s.pending ∧ (State.aReleaseCmd x0 x1 x2 s).2.mrm.mem = s.mrm.mem := by
  refine ⟨?_, ?_⟩ <;> (unfold State.aReleaseCmd; (repeat' split) <;> simp)

@[simp] theorem State.aCurrentCmd_keeps (x0 x1 s) :
    (State.aCurrentCmd x0 x1 s).2.pending = s.pending ∧ (State.aCurrentCmd x0 x1 s).2.mrm.mem = s.mrm.mem := by
  refine ⟨?_, ?_⟩ <;> (simp only [State.aCurrentCmd]; split <;> simp)

@[simp] theorem State.aHomeCmd_keeps (x0 x1 x2 s) :
    (State.aHomeCmd x0 x1 x2 s).2.pending = s.pending ∧ (State.aHomeCmd x0 x1 x2 s).2.mrm.mem = s.mrm.mem := by
  refine ⟨?_, ?_⟩ <;> (simp only [State.aHomeCmd]; (repeat' split) <;> simp_all)

@[simp] theorem State.aRearmCmd_keeps (x0 s) :
    (State.aRearmCmd x0 s).2.pending = s.pending ∧ (State.aRearmCmd x0 s).2.mrm.mem = s.mrm.mem := by
  refine ⟨?_, ?_⟩ <;> (simp only [State.aRearmCmd]; split <;> simp)

end Sys2Proof.Machine
end

