-- ==== Sys2Proof/Laws/FrameUnits.lean ====
section
/-! SUPPORT. The frame lemmas, one per operation and command: Parapet, MRAM, Pylon, Trestle, ports, registers and Keystone leave the queue of commands and the bytes of MRAM alone. -/
namespace Sys2Proof.Machine
set_option linter.all false

theorem execOcLineAssert_keeps (x0 x1 s) : outKeeps (execOcLineAssert x0 x1 s) s := by
  simp only [execOcLineAssert]; (repeat' split) <;> simp

theorem execBlankWindowEnd_keeps (x0 x1 s) : outKeeps (execBlankWindowEnd x0 x1 s) s := by
  simp only [execBlankWindowEnd]; (repeat' split) <;> simp

theorem execScLineAssert_keeps (x0 x1 s) : outKeeps (execScLineAssert x0 x1 s) s := by
  unfold execScLineAssert; (repeat' split) <;> simp

@[simp] theorem State.desat_keeps (s x1 x2) :
    (State.desat s x1 x2).pending = s.pending ∧ (State.desat s x1 x2).mrm.mem = s.mrm.mem := by
  refine ⟨?_, ?_⟩ <;> (simp only [State.desat]; (repeat' split) <;> simp_all)

theorem execDesatDetect_keeps (x0 x1 x2 s) : outKeeps (execDesatDetect x0 x1 x2 s) s := by
  simp [execDesatDetect]

theorem execDesatBlankEnd_keeps (x0 x1 x2 x3 s) : outKeeps (execDesatBlankEnd x0 x1 x2 x3 s) s := by
  simp only [execDesatBlankEnd]; (repeat' split) <;> simp

theorem execUvloTrip_keeps (x0 x1 x2 s) : outKeeps (execUvloTrip x0 x1 x2 s) s := by
  simp only [execUvloTrip]; (repeat' split) <;> simp

theorem execUvloRecover_keeps (x0 s) : outKeeps (execUvloRecover x0 s) s := by
  unfold execUvloRecover; (repeat' split) <;> simp

@[simp] theorem State.uvBoundary_keeps (s) :
    (State.uvBoundary s).pending = s.pending ∧ (State.uvBoundary s).mrm.mem = s.mrm.mem := by
  refine ⟨?_, ?_⟩ <;> simp [State.uvBoundary]

@[simp] theorem State.hvSupplyLost_keeps (s) :
    (State.hvSupplyLost s).pending = s.pending ∧ (State.hvSupplyLost s).mrm.mem = s.mrm.mem := by
  refine ⟨?_, ?_⟩ <;> simp [State.hvSupplyLost]

theorem execBootstrapUvloTimeout_keeps (x0 x1 s) : outKeeps (execBootstrapUvloTimeout x0 x1 s) s := by
  simp only [execBootstrapUvloTimeout]; (repeat' split) <;> simp

theorem execLinkOvTrip_keeps (x0 x1 s) : outKeeps (execLinkOvTrip x0 x1 s) s := by
  simp [execLinkOvTrip]

theorem execCOvTrip_keeps (x0 x1 s) : outKeeps (execCOvTrip x0 x1 s) s := by
  simp [execCOvTrip]

theorem execZcdDetect_keeps (x0 x1 s) : outKeeps (execZcdDetect x0 x1 s) s := by
  simp only [execZcdDetect]; (repeat' split) <;> simp

theorem execOvershootTruncate_keeps (x0 s) : outKeeps (execOvershootTruncate x0 s) s := by
  simp only [execOvershootTruncate]; (repeat' split) <;> simp

@[simp] theorem State.markUnprotected_keeps (s x1 x2) :
    (State.markUnprotected s x1 x2).pending = s.pending ∧ (State.markUnprotected s x1 x2).mrm.mem = s.mrm.mem := by
  refine ⟨?_, ?_⟩ <;> simp [State.markUnprotected]

@[simp] theorem State.testResult_keeps (s x1 x2 x3) :
    (State.testResult s x1 x2 x3).pending = s.pending ∧ (State.testResult s x1 x2 x3).mrm.mem = s.mrm.mem := by
  refine ⟨?_, ?_⟩ <;> (simp only [State.testResult]; split <;> simp)

theorem execComparatorTest_keeps (x0 x1 x2 s) : outKeeps (execComparatorTest x0 x1 x2 s) s := by
  simp only [execComparatorTest]; (repeat' split) <;> simp

theorem execTestRoundEnd_keeps (s : State) : outKeeps (execTestRoundEnd s) s := by
  unfold execTestRoundEnd
  extract_lets s1
  have h : Kept s s1 := by
    refine Kept.foldl _ (fun t l => ?_) _ _
    dsimp only
    refine Kept.trans (t := if (legComparators l).all (fun k => (t.leg l).tested.contains k) then t
        else (t.updLeg l (fun g => { g with testOverdue := true })).raise 15 (t.legAddr l) 0 0 0) ?_ (Kept.ite (.refl _) (State.updLeg_keeps ..))
    exact Kept.ite (.refl _) (Kept.trans (State.updLeg_keeps ..) (State.raise_keeps ..))
  clear_value s1
  split
  · exact Kept.trans h ⟨rfl, rfl⟩
  · exact Kept.refl s

theorem execTestAgeOverdue_keeps (x0 s) : outKeeps (execTestAgeOverdue x0 s) s := by
  simp only [execTestAgeOverdue]; (repeat' split) <;> simp

@[simp] theorem State.commandedTest_keeps (s x1 x2) :
    (State.commandedTest s x1 x2).pending = s.pending ∧ (State.commandedTest s x1 x2).mrm.mem = s.mrm.mem := by
  refine ⟨?_, ?_⟩ <;> (simp only [State.commandedTest]; split <;> simp)

@[simp] theorem State.commandedDeckTest_keeps (s x1) :
    (State.commandedDeckTest s x1).pending = s.pending ∧ (State.commandedDeckTest s x1).mrm.mem = s.mrm.mem := by
  refine ⟨?_, ?_⟩ <;> simp [State.commandedDeckTest]

@[simp] theorem State.dtUpset_keeps (s x1) :
    (State.dtUpset s x1).pending = s.pending ∧ (State.dtUpset s x1).mrm.mem = s.mrm.mem := by
  refine ⟨?_, ?_⟩ <;> simp [State.dtUpset]

@[simp] theorem State.dtReadback_keeps (s x1) :
    (State.dtReadback s x1).pending = s.pending ∧ (State.dtReadback s x1).mrm.mem = s.mrm.mem := by
  refine ⟨?_, ?_⟩ <;> (simp only [State.dtReadback]; (repeat' split) <;> simp_all)

theorem State.dtBoundary_kept (s : State) : Kept s s.dtBoundary.1 := by
  unfold State.dtBoundary
  extract_lets s1
  have h1 : Kept s s1 := Kept.foldl State.dtReadback State.dtReadback_keeps allLegs s
  clear_value s1
  exact h1
@[simp] theorem State.dtBoundary_keeps (s) :
    (State.dtBoundary s).1.pending = s.pending ∧ (State.dtBoundary s).1.mrm.mem = s.mrm.mem := by
  exact State.dtBoundary_kept ..

@[simp] theorem State.hallCount_keeps (s x1 x2) :
    (State.hallCount s x1 x2).pending = s.pending ∧ (State.hallCount s x1 x2).mrm.mem = s.mrm.mem := by
  refine ⟨?_, ?_⟩ <;> (simp only [State.hallCount]; split <;> simp)

theorem execHallStateChange_keeps (x0 x1 x2 s) : outKeeps (execHallStateChange x0 x1 x2 s) s := by
  simp only [execHallStateChange]; (repeat' split) <;> simp

@[simp] theorem State.hallBoundary_keeps (s) :
    (State.hallBoundary s).pending = s.pending ∧ (State.hallBoundary s).mrm.mem = s.mrm.mem := by
  exact ⟨rfl, rfl⟩

@[simp] theorem State.loseClock_keeps (s x1) :
    (State.loseClock s x1).pending = s.pending ∧ (State.loseClock s x1).mrm.mem = s.mrm.mem := by
  refine ⟨?_, ?_⟩ <;> (simp only [State.loseClock]; split <;> simp)

theorem execClockFail_keeps (x0 x1 s) : outKeeps (execClockFail x0 x1 s) s := by
  simp [execClockFail]

theorem execDebugHalt_keeps (x0 s) : outKeeps (execDebugHalt x0 s) s := by
  simp [execDebugHalt]

@[simp] theorem State.jobDone_keeps (s x1 x2 x3) :
    (State.jobDone s x1 x2 x3).pending = s.pending ∧ (State.jobDone s x1 x2 x3).mrm.mem = s.mrm.mem := by
  refine ⟨?_, ?_⟩ <;> (simp only [State.jobDone]; split <;> simp)

@[simp] theorem State.jobFault_keeps (s) :
    (State.jobFault s).pending = s.pending ∧ (State.jobFault s).mrm.mem = s.mrm.mem := by
  refine ⟨?_, ?_⟩ <;> simp [State.jobFault]

theorem State.charterInForce_kept (s : State) (x1) : Kept s (s.charterInForce x1) := by
  unfold State.charterInForce
  extract_lets s1 s2
  have h1 : Kept s s1 := by
    refine Kept.foldl (fun t o => t.setReg o (copyGet x1 o)) ?_ chOffsets s
    exact fun t o => State.setReg_keeps ..
  have h2 : Kept s s2 := h1.trans (State.updLegs_keeps ..)
  clear_value s1 s2
  exact h2.trans ⟨rfl, rfl⟩
@[simp] theorem State.charterInForce_keeps (s x1) :
    (State.charterInForce s x1).pending = s.pending ∧ (State.charterInForce s x1).mrm.mem = s.mrm.mem := by
  exact State.charterInForce_kept ..

theorem execCharter_keeps (x0 x1 s) : outKeeps (execCharter x0 x1 s) s := by
  simp only [execCharter]; (repeat' split) <;> simp

theorem execCharterChangeLands_keeps (s) : outKeeps (execCharterChangeLands s) s := by
  simp only [execCharterChangeLands]; (repeat' split) <;> simp

theorem State.landTrims_kept (s : State) (x1) : Kept s (s.landTrims x1) := by
  unfold State.landTrims
  exact Kept.foldl _ (fun t i => State.setReg_keeps ..) _ _
@[simp] theorem State.landTrims_keeps (s x1) :
    (State.landTrims s x1).pending = s.pending ∧ (State.landTrims s x1).mrm.mem = s.mrm.mem := by
  exact State.landTrims_kept ..

theorem execCalWrite_keeps (x0 s) : outKeeps (execCalWrite x0 s) s := by
  simp only [execCalWrite]; (repeat' split) <;> simp

@[simp] theorem State.calOverwritten_keeps (s) :
    (State.calOverwritten s).pending = s.pending ∧ (State.calOverwritten s).mrm.mem = s.mrm.mem := by
  exact ⟨rfl, rfl⟩

theorem execCalSetSwitch_keeps (s) : outKeeps (execCalSetSwitch s) s := by
  unfold execCalSetSwitch; (repeat' split) <;> simp

theorem execUpdate_keeps (x0 x1 s) : outKeeps (execUpdate x0 x1 s) s := by
  simp only [execUpdate]; (repeat' split) <;> simp

theorem execUpdateVerified_keeps (x0 s) : outKeeps (execUpdateVerified x0 s) s := by
  unfold execUpdateVerified; (repeat' split) <;> simp

@[simp] theorem State.updSlot_keeps (s x1 x2) :
    (State.updSlot s x1 x2).pending = s.pending ∧ (State.updSlot s x1 x2).mrm.mem = s.mrm.mem := by
  exact ⟨rfl, rfl⟩

@[simp] theorem State.rowMissed_keeps (s x1 x2) :
    (State.rowMissed s x1 x2).pending = s.pending ∧ (State.rowMissed s x1 x2).mrm.mem = s.mrm.mem := by
  exact ⟨rfl, rfl⟩

@[simp] theorem State.written_keeps (s x1) :
    (State.written s x1).pending = s.pending := by
  unfold State.written; (repeat' split) <;> simp

@[simp] theorem State.writeFailed_keeps (s x1) :
    (State.writeFailed s x1).pending = s.pending ∧ (State.writeFailed s x1).mrm.mem = s.mrm.mem := by
  refine ⟨?_, ?_⟩ <;> (simp only [State.writeFailed]; split <;> simp)

theorem execMramWriteDone_keeps (x0 s) : outKeepsQueue (execMramWriteDone x0 s) s := by
  unfold execMramWriteDone; (repeat' split) <;> simp

@[simp] theorem State.armSlot_keeps (s) :
    (State.armSlot s).pending = s.pending ∧ (State.armSlot s).mrm.mem = s.mrm.mem := by
  refine ⟨?_, ?_⟩ <;> (simp only [State.armSlot]; split <;> simp)

@[simp] theorem State.closeRecord_keeps (s) :
    (State.closeRecord s).pending = s.pending ∧ (State.closeRecord s).mrm.mem = s.mrm.mem := by
  refine ⟨?_, ?_⟩ <;> (unfold State.closeRecord; (repeat' split) <;> simp)

theorem execRecordClose_keeps (s) : outKeeps (execRecordClose s) s := by
  simp [execRecordClose]

@[simp] theorem State.recTrigDone_keeps (s x1 x2) :
    (State.recTrigDone s x1 x2).pending = s.pending ∧ (State.recTrigDone s x1 x2).mrm.mem = s.mrm.mem := by
  refine ⟨?_, ?_⟩ <;> (simp only [State.recTrigDone]; split <;> simp)

@[simp] theorem State.recTrigger_keeps (s x1) :
    (State.recTrigger s x1).pending = s.pending ∧ (State.recTrigger s x1).mrm.mem = s.mrm.mem := by
  refine ⟨?_, ?_⟩ <;> (simp only [State.recTrigger]; (repeat' split) <;> simp_all)

@[simp] theorem State.recorder_keeps (s x1) :
    (State.recorder s x1).pending = s.pending ∧ (State.recorder s x1).mrm.mem = s.mrm.mem := by
  refine ⟨?_, ?_⟩ <;> (simp only [State.recorder]; (repeat' split) <;> simp_all)

theorem execRecSlotRelease_keeps (x0 s) : outKeeps (execRecSlotRelease x0 s) s := by
  simp [execRecSlotRelease]

@[simp] theorem State.releaseBoundary_keeps (s) :
    (State.releaseBoundary s).pending = s.pending ∧ (State.releaseBoundary s).mrm.mem = s.mrm.mem := by
  refine ⟨?_, ?_⟩ <;> (simp only [State.releaseBoundary]; (repeat' split) <;> simp_all)

@[simp] theorem State.rejectPending_keeps (s) :
    (State.rejectPending s).pending = s.pending ∧ (State.rejectPending s).mrm.mem = s.mrm.mem := by
  refine ⟨?_, ?_⟩ <;> (simp only [State.rejectPending]; (repeat' split) <;> simp_all)

@[simp] theorem State.abutment_keeps (s x1) :
    (State.abutment s x1).pending = s.pending ∧ (State.abutment s x1).mrm.mem = s.mrm.mem := by
  refine ⟨?_, ?_⟩ <;> (simp [State.abutment])

@[simp] theorem State.startFail_keeps (s x1) :
    (State.startFail s x1).pending = s.pending ∧ (State.startFail s x1).mrm.mem = s.mrm.mem := by
  refine ⟨?_, ?_⟩ <;> (simp only [State.startFail]; split <;> simp)

@[simp] theorem State.pylTo_keeps (s x1 x2) :
    (State.pylTo s x1 x2).pending = s.pending ∧ (State.pylTo s x1 x2).mrm.mem = s.mrm.mem := by
  refine ⟨?_, ?_⟩ <;> simp [State.pylTo]

theorem State.stepCount_kept (s : State) (x1) : Kept s (s.stepCount x1) := by
  unfold State.stepCount
  dsimp only
  refine Kept.trans ?_ (State.updLegs_keeps ..)
  refine Kept.trans ?_ (State.sensingMoved_keeps ..)
  exact ⟨rfl, rfl⟩
@[simp] theorem State.stepCount_keeps (s x1) :
    (State.stepCount s x1).pending = s.pending ∧ (State.stepCount s x1).mrm.mem = s.mrm.mem := by
  exact State.stepCount_kept ..

@[simp] theorem State.stepBy_keeps (s x1) :
    (State.stepBy s x1).pending = s.pending ∧ (State.stepBy s x1).mrm.mem = s.mrm.mem := by
  refine ⟨?_, ?_⟩ <;> simp [State.stepBy]

@[simp] theorem State.syncTracked_keeps (s x1) :
    (State.syncTracked s x1).pending = s.pending ∧ (State.syncTracked s x1).mrm.mem = s.mrm.mem := by
  refine ⟨?_, ?_⟩ <;> (simp only [State.syncTracked]; (repeat' split) <;> simp_all)

theorem execSyncMessage_keeps (x0 x1 s) : outKeeps (execSyncMessage x0 x1 s) s := by
  simp only [execSyncMessage]; (repeat' split) <;> simp

theorem execSyncLoss_keeps (x0 s) : outKeeps (execSyncLoss x0 s) s := by
  simp only [execSyncLoss]; (repeat' split) <;> simp

theorem State.setCount_kept (s : State) : Kept s s.setCount := by
  unfold State.setCount
  exact State.stepCount_keeps ..
@[simp] theorem State.setCount_keeps (s) :
    (State.setCount s).pending = s.pending ∧ (State.setCount s).mrm.mem = s.mrm.mem := by
  exact State.setCount_kept ..

theorem execAnnounceMessage_keeps (x0 x1 s) : outKeeps (execAnnounceMessage x0 x1 s) s := by
  simp only [execAnnounceMessage]; (repeat' split) <;> simp

theorem execPdelayExchange_keeps (x0 x1 x2 x3 s) : outKeeps (execPdelayExchange x0 x1 x2 x3 s) s := by
  simp [execPdelayExchange]

theorem execGrandmasterSyncSend_keeps (x0 s) : outKeeps (execGrandmasterSyncSend x0 s) s := by
  simp only [execGrandmasterSyncSend]; (repeat' split) <;> simp

theorem execLaunchMarkerDrive_keeps (s) : outKeeps (execLaunchMarkerDrive s) s := by
  simp only [execLaunchMarkerDrive]; (repeat' split) <;> simp

@[simp] theorem State.lineInvalid_keeps (s x1) :
    (State.lineInvalid s x1).pending = s.pending ∧ (State.lineInvalid s x1).mrm.mem = s.mrm.mem := by
  refine ⟨?_, ?_⟩ <;> simp [State.lineInvalid]

@[simp] theorem State.markBad_keeps (s x1) :
    (State.markBad s x1).pending = s.pending ∧ (State.markBad s x1).mrm.mem = s.mrm.mem := by
  refine ⟨?_, ?_⟩ <;> (simp only [State.markBad]; (repeat' split) <;> simp_all)

@[simp] theorem State.markGood_keeps (s x1) :
    (State.markGood s x1).pending = s.pending ∧ (State.markGood s x1).mrm.mem = s.mrm.mem := by
  refine ⟨?_, ?_⟩ <;> (simp only [State.markGood]; (repeat' split) <;> simp_all)

theorem execLaunchMarker_keeps (x0 s) : outKeeps (execLaunchMarker x0 s) s := by
  simp only [execLaunchMarker]; (repeat' split) <;> simp

theorem execLaunchMarkerMissing_keeps (x0 s) : outKeeps (execLaunchMarkerMissing x0 s) s := by
  simp only [execLaunchMarkerMissing]; (repeat' split) <;> simp

theorem execCensusReady_keeps (x0 s) : outKeeps (execCensusReady x0 s) s := by
  simp only [execCensusReady]; (repeat' split) <;> simp

theorem execCensusRelease_keeps (x0 s) : outKeeps (execCensusRelease x0 s) s := by
  unfold execCensusRelease; (repeat' split) <;> simp

@[simp] theorem State.census_keeps (s x1 x2 x3) :
    (State.census s x1 x2 x3).pending = s.pending ∧ (State.census s x1 x2 x3).mrm.mem = s.mrm.mem := by
  refine ⟨?_, ?_⟩ <;> (simp only [State.census]; split <;> simp)

theorem execLeapSecondInsert_keeps (x0 s) : outKeeps (execLeapSecondInsert x0 s) s := by
  simp only [execLeapSecondInsert]; (repeat' split) <;> simp

theorem execRtcTrimUpdate_keeps (x0 x1 s) : outKeeps (execRtcTrimUpdate x0 x1 s) s := by
  simp only [execRtcTrimUpdate]; (repeat' split) <;> simp

theorem execVbakLow_keeps (x0 s) : outKeeps (execVbakLow x0 s) s := by
  simp only [execVbakLow]; (repeat' split) <;> simp

@[simp] theorem State.calMap_keeps (s x1 x2 x3) :
    (State.calMap s x1 x2 x3).pending = s.pending ∧ (State.calMap s x1 x2 x3).mrm.mem = s.mrm.mem := by
  refine ⟨?_, ?_⟩ <;> simp [State.calMap]

@[simp] theorem State.chanEvent_keeps (s x1 x2 x3 x4) :
    (State.chanEvent s x1 x2 x3 x4).pending = s.pending ∧ (State.chanEvent s x1 x2 x3 x4).mrm.mem = s.mrm.mem := by
  refine ⟨?_, ?_⟩ <;> simp [State.chanEvent]

theorem State.postChannel_kept (s : State) (x1 x2) : Kept s (s.postChannel x1 x2) := by
  unfold State.postChannel
  extract_lets old
  refine Kept.ite (.refl _) ?_
  generalize readingOf _ _ _ = r
  obtain ⟨v, bo, bs⟩ := r
  dsimp -zeta only
  refine Kept.ite ⟨rfl, rfl⟩ ?_
  generalize throttleFactor _ _ _ _ _ = r
  obtain ⟨e, f⟩ := r
  dsimp -zeta only
  extract_lets warn shut throt broke t s1 s2 s3 s4
  have h1 : Kept s s1 := ⟨rfl, rfl⟩
  have h2 : Kept s s2 := h1.trans (Kept.ite (State.chanEvent_keeps ..) (.refl _))
  have h3 : Kept s s3 := h2.trans (Kept.ite (.refl _) (State.chanEvent_keeps ..))
  have h4 : Kept s s4 := h3.trans (Kept.ite (.refl _) (State.chanEvent_keeps ..))
  exact h4.trans (Kept.ite (State.chanEvent_keeps ..) (.refl _))
@[simp] theorem State.postChannel_keeps (s x1 x2) :
    (State.postChannel s x1 x2).pending = s.pending ∧ (State.postChannel s x1 x2).mrm.mem = s.mrm.mem := by
  exact State.postChannel_kept ..

@[simp] theorem State.derateEvent_keeps (s x1 x2 x3) :
    (State.derateEvent s x1 x2 x3).pending = s.pending ∧ (State.derateEvent s x1 x2 x3).mrm.mem = s.mrm.mem := by
  refine ⟨?_, ?_⟩ <;> (unfold State.derateEvent; (repeat' split) <;> simp)

@[simp] theorem State.postFactors_keeps (s) :
    (State.postFactors s).pending = s.pending ∧ (State.postFactors s).mrm.mem = s.mrm.mem := by
  refine ⟨?_, ?_⟩ <;> simp [State.postFactors]

@[simp] theorem State.brgTo_keeps (s x1 x2) :
    (State.brgTo s x1 x2).pending = s.pending ∧ (State.brgTo s x1 x2).mrm.mem = s.mrm.mem := by
  refine ⟨?_, ?_⟩ <;> (simp only [State.brgTo]; split <;> simp)

theorem execBearingLinkPresent_keeps (x0 s) : outKeeps (execBearingLinkPresent x0 s) s := by
  simp only [execBearingLinkPresent]; (repeat' split) <;> simp

theorem execBearingOutputInBand_keeps (x0 s) : outKeeps (execBearingOutputInBand x0 s) s := by
  simp only [execBearingOutputInBand]; (repeat' split) <;> simp

theorem execBearingStartTimeout_keeps (s) : outKeeps (execBearingStartTimeout s) s := by
  simp only [execBearingStartTimeout]; (repeat' split) <;> simp

theorem execBearingLinkLoss_keeps (x0 s) : outKeeps (execBearingLinkLoss x0 s) s := by
  simp only [execBearingLinkLoss]; (repeat' split) <;> simp

theorem execBearingFaultHoldEnd_keeps (s) : outKeeps (execBearingFaultHoldEnd s) s := by
  simp only [execBearingFaultHoldEnd]; (repeat' split) <;> simp

@[simp] theorem State.postBearing_keeps (s) :
    (State.postBearing s).pending = s.pending ∧ (State.postBearing s).mrm.mem = s.mrm.mem := by
  refine ⟨?_, ?_⟩ <;> (simp only [State.postBearing]; (repeat' split) <;> simp_all)

theorem execTrestleRoundPost_keeps (x0) (s : State) : outKeeps (execTrestleRoundPost x0 s) s := by
  unfold execTrestleRoundPost
  extract_lets ms late r t s1 _ s2 s3 s4 die
  have h1 : Kept s s1 := State.goto_keeps ..
  have h2 : Kept s s2 := h1.trans ⟨rfl, rfl⟩
  have h3 : Kept s s3 := by
    refine h2.trans (Kept.foldl _ (fun t c => ?_) _ _)
    dsimp only
    split
    · exact State.postChannel_keeps ..
    · exact Kept.ite (State.postChannel_keeps ..) (.refl _)
  have h4 : Kept s s4 := h3.trans (Kept.trans (State.postBearing_keeps s3) (State.postFactors_keeps _))
  split
  · exact h4.trans (Kept.ite (State.startFail_keeps ..) (.refl _))
  · exact Kept.refl s

@[simp] theorem State.trestleInputs_keeps (s) :
    (State.trestleInputs s).pending = s.pending ∧ (State.trestleInputs s).mrm.mem = s.mrm.mem := by
  exact ⟨rfl, rfl⟩

theorem execVsupWarn_keeps (x0 x1 s) : outKeeps (execVsupWarn x0 x1 s) s := by
  simp only [execVsupWarn]; (repeat' split) <;> simp

@[simp] theorem State.thaw_keeps (s) :
    (State.thaw s).pending = s.pending ∧ (State.thaw s).mrm.mem = s.mrm.mem := by
  refine ⟨?_, ?_⟩ <;> simp [State.thaw]

theorem execVsupDipEnd_keeps (x0 x1 s) : outKeeps (execVsupDipEnd x0 x1 s) s := by
  simp only [execVsupDipEnd]; (repeat' split) <;> simp

theorem execVsupLongDip_keeps (s) : outKeeps (execVsupLongDip s) s := by
  unfold execVsupLongDip; (repeat' split) <;> simp

@[simp] theorem State.updObj_keeps (s x1 x2 x3) :
    (State.updObj s x1 x2 x3).pending = s.pending ∧ (State.updObj s x1 x2 x3).mrm.mem = s.mrm.mem := by
  exact ⟨rfl, rfl⟩

theorem State.mapObjs_kept (s : State) (x1 x2) : Kept s (s.mapObjs x1 x2) := by
  unfold State.mapObjs
  exact Kept.foldl _ (fun t o => Kept.ite (.refl _) (State.updObj_keeps ..)) _ _
@[simp] theorem State.mapObjs_keeps (s x1 x2) :
    (State.mapObjs s x1 x2).pending = s.pending ∧ (State.mapObjs s x1 x2).mrm.mem = s.mrm.mem := by
  exact State.mapObjs_kept ..

@[simp] theorem State.updPartner_keeps (s x1 x2) :
    (State.updPartner s x1 x2).pending = s.pending ∧ (State.updPartner s x1 x2).mrm.mem = s.mrm.mem := by
  exact ⟨rfl, rfl⟩

@[simp] theorem State.objEvent_keeps (s x1 x2 x3 x4) :
    (State.objEvent s x1 x2 x3 x4).pending = s.pending ∧ (State.objEvent s x1 x2 x3 x4).mrm.mem = s.mrm.mem := by
  refine ⟨?_, ?_⟩ <;> simp [State.objEvent]

@[simp] theorem State.offer_keeps (s x1) :
    (State.offer s x1).pending = s.pending ∧ (State.offer s x1).mrm.mem = s.mrm.mem := by
  refine ⟨?_, ?_⟩ <;> (simp only [State.offer]; (repeat' split) <;> simp_all)

@[simp] theorem State.reroute_keeps (s x1 x2) :
    (State.reroute s x1 x2).pending = s.pending ∧ (State.reroute s x1 x2).mrm.mem = s.mrm.mem := by
  refine ⟨?_, ?_⟩ <;> (simp only [State.reroute]; split <;> simp)

@[simp] theorem State.strandObj_keeps (s x1 x2) :
    (State.strandObj s x1 x2).pending = s.pending ∧ (State.strandObj s x1 x2).mrm.mem = s.mrm.mem := by
  refine ⟨?_, ?_⟩ <;> simp [State.strandObj]

@[simp] theorem State.request_keeps (s x1 x2) :
    (State.request s x1 x2).pending = s.pending ∧ (State.request s x1 x2).mrm.mem = s.mrm.mem := by
  refine ⟨?_, ?_⟩ <;> (simp only [State.request]; split <;> simp)

theorem State.unqueue_kept (s : State) (x1 x2) : Kept s (s.unqueue x1 x2) := by
  unfold State.unqueue
  refine Kept.ite ?_ (.refl _)
  extract_lets hit s1
  have h1 : Kept s s1 := Kept.foldl _ (fun t a => Kept.ite (State.updPort_keeps ..) (.refl _)) _ _
  exact h1.trans (State.updObj_keeps ..)
@[simp] theorem State.unqueue_keeps (s x1 x2) :
    (State.unqueue s x1 x2).pending = s.pending ∧ (State.unqueue s x1 x2).mrm.mem = s.mrm.mem := by
  exact State.unqueue_kept ..

@[simp] theorem State.withdraw_keeps (s x1 x2) :
    (State.withdraw s x1 x2).pending = s.pending ∧ (State.withdraw s x1 x2).mrm.mem = s.mrm.mem := by
  refine ⟨?_, ?_⟩ <;> (simp only [State.withdraw]; split <;> simp)

theorem State.enterBusOff_kept (s : State) (x1) : Kept s (s.enterBusOff x1) := by
  unfold State.enterBusOff
  extract_lets back s1 s2 s3
  have h1 : Kept s s1 := State.updPort_keeps ..
  have h2 : Kept s s2 := h1.trans (Kept.trans (State.mapObjs_keeps ..) (State.raise_keeps ..))
  have h3 : Kept s s3 := by
    refine h2.trans (Kept.foldl _ (fun t e => ?_) _ _)
    exact Kept.trans (State.updObj_keeps t ..) (State.offer_keeps ..)
  exact h3.trans (Kept.foldl _ (fun t o => Kept.ite (State.strandObj_keeps ..) (.refl _)) _ _)
@[simp] theorem State.enterBusOff_keeps (s x1) :
    (State.enterBusOff s x1).pending = s.pending ∧ (State.enterBusOff s x1).mrm.mem = s.mrm.mem := by
  exact State.enterBusOff_kept ..

@[simp] theorem State.confine_keeps (s x1) :
    (State.confine s x1).pending = s.pending ∧ (State.confine s x1).mrm.mem = s.mrm.mem := by
  refine ⟨?_, ?_⟩ <;> (simp only [State.confine]; (repeat' split) <;> simp_all)

@[simp] theorem State.frameDone_keeps (s x1) :
    (State.frameDone s x1).pending = s.pending ∧ (State.frameDone s x1).mrm.mem = s.mrm.mem := by
  refine ⟨?_, ?_⟩ <;> (simp [State.frameDone])

@[simp] theorem State.sentFrame_keeps (s x1 x2) :
    (State.sentFrame s x1 x2).pending = s.pending ∧ (State.sentFrame s x1 x2).mrm.mem = s.mrm.mem := by
  refine ⟨?_, ?_⟩ <;> (simp only [State.sentFrame]; (repeat' split) <;> simp_all)

@[simp] theorem State.collision_keeps (s x1 x2) :
    (State.collision s x1 x2).pending = s.pending ∧ (State.collision s x1 x2).mrm.mem = s.mrm.mem := by
  refine ⟨?_, ?_⟩ <;> (simp only [State.collision]; split <;> simp)

@[simp] theorem State.failedFrame_keeps (s x1 x2 x3 x4) :
    (State.failedFrame s x1 x2 x3 x4).pending = s.pending ∧ (State.failedFrame s x1 x2 x3 x4).mrm.mem = s.mrm.mem := by
  refine ⟨?_, ?_⟩ <;> (simp only [State.failedFrame]; (repeat' split) <;> simp_all)

@[simp] theorem State.measured_keeps (s x1 x2 x3) :
    (State.measured s x1 x2 x3).pending = s.pending ∧ (State.measured s x1 x2 x3).mrm.mem = s.mrm.mem := by
  refine ⟨?_, ?_⟩ <;> (simp only [State.measured]; split <;> simp)

theorem execFrameAttemptEnd_keeps (x0 x1 x2 s) : outKeeps (execFrameAttemptEnd x0 x1 x2 s) s := by
  simp only [execFrameAttemptEnd]; (repeat' split) <;> simp

theorem execTxreq_keeps (x0 x1 s) : outKeeps (execTxreq x0 x1 s) s := by
  simp only [execTxreq]; (repeat' split) <;> simp

theorem execObjAbort_keeps (x0 x1 s) : outKeeps (execObjAbort x0 x1 s) s := by
  simp only [execObjAbort]; (repeat' split) <;> simp

theorem execResume_keeps (x0 x1 s) : outKeeps (execResume x0 x1 s) s := by
  simp only [execResume]; (repeat' split) <;> simp

theorem State.fillObj_kept (s : State) (x1 x2 x3) : Kept s (s.fillObj x1 x2 x3) := by
  unfold State.fillObj
  extract_lets b s1 hit s2
  have h1 : Kept s s1 := State.updObj_keeps ..
  have h2 : Kept s s2 := h1.trans (Kept.ite (Kept.foldl _ (fun t a => Kept.ite (State.updPort_keeps ..) (.refl _)) _ _) (.refl _))
  exact h2.trans (Kept.ite (.refl _) (State.request_keeps ..))
@[simp] theorem State.fillObj_keeps (s x1 x2 x3) :
    (State.fillObj s x1 x2 x3).pending = s.pending ∧ (State.fillObj s x1 x2 x3).mrm.mem = s.mrm.mem := by
  exact State.fillObj_kept ..

theorem execPortIntegration_keeps (x0 x1 s) : outKeeps (execPortIntegration x0 x1 s) s := by
  simp only [execPortIntegration]; (repeat' split) <;> simp

@[simp] theorem State.startRecovery_keeps (s x1) :
    (State.startRecovery s x1).pending = s.pending ∧ (State.startRecovery s x1).mrm.mem = s.mrm.mem := by
  refine ⟨?_, ?_⟩ <;> simp [State.startRecovery]

theorem execBusOffRecoveryStart_keeps (x0 x1 s) : outKeeps (execBusOffRecoveryStart x0 x1 s) s := by
  simp only [execBusOffRecoveryStart]; (repeat' split) <;> simp

theorem execBoRecover_keeps (x0 x1 s) : outKeeps (execBoRecover x0 x1 s) s := by
  simp only [execBoRecover]; (repeat' split) <;> simp

theorem execBusOffRecovered_keeps (x0 x1 s) : outKeeps (execBusOffRecovered x0 x1 s) s := by
  simp only [execBusOffRecovered]; (repeat' split) <;> simp

theorem execErrorFrame_keeps (x0 x1 x2 s) : outKeeps (execErrorFrame x0 x1 x2 s) s := by
  simp only [execErrorFrame]; (repeat' split) <;> simp

theorem execRerouteTest_keeps (x0) (s : State) : outKeeps (execRerouteTest x0 s) s := by
  unfold execRerouteTest
  extract_lets s1 ms _ s2
  have h1 : Kept s s1 := State.at_keeps ..
  clear_value s1
  split
  · refine (h1.trans (t := s1) ⟨rfl, rfl⟩ : Kept s s2).trans (Kept.foldl _ (fun t p => ?_) _ _)
    exact Kept.ite (.refl _) (Kept.foldl _ (fun t o => State.reroute_keeps ..) _ _)
  · exact h1

@[simp] theorem State.store_keeps (s x1 x2 x3) :
    (State.store s x1 x2 x3).pending = s.pending ∧ (State.store s x1 x2 x3).mrm.mem = s.mrm.mem := by
  refine ⟨?_, ?_⟩ <;> (simp only [State.store]; (repeat' split) <;> simp_all)

theorem State.heartbeats_kept (s : State) (x1 x2) : Kept s (s.heartbeats x1 x2) := by
  unfold State.heartbeats
  refine Kept.foldl _ (fun t e => ?_) _ _
  refine Kept.ite ?_ (.refl _)
  extract_lets t1
  have h1 : Kept t t1 := State.updPartner_keeps ..
  exact h1.trans (Kept.ite (State.raise_keeps ..) (.refl _))
@[simp] theorem State.heartbeats_keeps (s x1 x2) :
    (State.heartbeats s x1 x2).pending = s.pending ∧ (State.heartbeats s x1 x2).mrm.mem = s.mrm.mem := by
  exact State.heartbeats_kept ..

@[simp] theorem State.rxOk_keeps (s x1) :
    (State.rxOk s x1).pending = s.pending ∧ (State.rxOk s x1).mrm.mem = s.mrm.mem := by
  refine ⟨?_, ?_⟩ <;> (simp only [State.rxOk]; (repeat' split) <;> simp_all)

theorem execCanFrameReceived_keeps (x0 x1 x2 s) : outKeeps (execCanFrameReceived x0 x1 x2 s) s := by
  simp only [execCanFrameReceived]; (repeat' split) <;> simp

theorem execLdgSel_keeps (x0 x1 s) : outKeeps (execLdgSel x0 x1 s) s := by
  simp only [execLdgSel]; (repeat' split) <;> simp

theorem execPartnerAgeTick_keeps (x0) (s : State) : outKeeps (execPartnerAgeTick x0 s) s := by
  unfold execPartnerAgeTick
  extract_lets s1 _ s2
  have h1 : Kept s s1 := State.at_keeps ..
  clear_value s1
  split
  · refine (h1.trans (t := s1) ⟨rfl, rfl⟩ : Kept s s2).trans (Kept.foldl _ (fun t e => ?_) _ _)
    refine Kept.ite (.refl _) ?_
    extract_lets age t1
    have h2 : Kept t t1 := State.updPartner_keeps ..
    exact h2.trans (Kept.ite (Kept.trans (State.updPartner_keeps ..) (State.raise_keeps ..)) (.refl _))
  · exact h1

@[simp] theorem State.updateAvail_keeps (s) :
    (State.updateAvail s).pending = s.pending ∧ (State.updateAvail s).mrm.mem = s.mrm.mem := by
  refine ⟨?_, ?_⟩ <;> (simp only [State.updateAvail]; split <;> simp)

@[simp] theorem State.unstick_keeps (s x1 x2) :
    (State.unstick s x1 x2).pending = s.pending ∧ (State.unstick s x1 x2).mrm.mem = s.mrm.mem := by
  exact ⟨rfl, rfl⟩

theorem State.clearBits_kept (s : State) (x1 x2) : Kept s (s.clearBits x1 x2) := by
  unfold State.clearBits
  extract_lets k r keep
  clear_value k r keep
  split
  case h_3 => exact Kept.foldl _ (fun t b => Kept.ite (State.updInp_keeps ..) (.refl _)) _ _
  case h_13 => split <;> exact State.updPort_keeps ..
  case h_14 => split <;> exact .refl _
  all_goals first
    | exact ⟨rfl, rfl⟩
    | exact State.unstick_keeps ..
    | exact State.updLeg_keeps ..
    | exact State.updRej_keeps ..
    | (split <;> exact ⟨rfl, rfl⟩)
@[simp] theorem State.clearBits_keeps (s x1 x2) :
    (State.clearBits s x1 x2).pending = s.pending ∧ (State.clearBits s x1 x2).mrm.mem = s.mrm.mem := by
  exact State.clearBits_kept ..

@[simp] theorem State.holdWrite_keeps (s x1 x2 x3) :
    (State.holdWrite s x1 x2 x3).pending = s.pending ∧ (State.holdWrite s x1 x2 x3).mrm.mem = s.mrm.mem := by
  exact ⟨rfl, rfl⟩

@[simp] theorem State.go_keeps (s) :
    (State.go s).pending = s.pending ∧ (State.go s).mrm.mem = s.mrm.mem := by
  refine ⟨?_, ?_⟩ <;> (simp only [State.go]; split <;> simp)

@[simp] theorem State.askAbut_keeps (s) :
    (State.askAbut s).pending = s.pending ∧ (State.askAbut s).mrm.mem = s.mrm.mem := by
  refine ⟨?_, ?_⟩ <;> (simp only [State.askAbut]; split <;> simp)

/-- Going on keeps what the outcome keeps. -/
theorem goOn_kept {s : State} {o : Host.Outcome State Fault Refusal} (h : outKeeps o s) : Kept s (goOn s o) := by
  cases o
  · exact h
  all_goals exact .refl s

/-- One bit of a W1S register. -/
theorem onBit_kept (s : State) (v i) (f : State → State) (h : ∀ t, Kept t (f t)) : Kept s (s.onBit v i f) := Kept.ite (h s) (.refl _)

theorem State.setBits_kept (s : State) (x1 x2 x3) : Kept s (s.setBits x1 x2 x3) := by
  unfold State.setBits
  extract_lets -merge +onlyGivenNames k r
  split
  · exact (onBit_kept _ _ _ _ fun t => State.go_keeps ..).trans (onBit_kept _ _ _ _ fun t => State.askAbut_keeps ..)
  · exact Kept.ite (onBit_kept _ _ _ _ fun t => ⟨rfl, rfl⟩) (goOn_kept (execCensusRelease_keeps ..))
  · exact Kept.ite (onBit_kept _ _ _ _ fun t => goOn_kept (execDirectCommit_keeps ..)) (State.accessViolation_keeps ..)
  · exact (((onBit_kept _ _ _ _ fun t => goOn_kept (execTxreq_keeps ..)).trans (onBit_kept _ _ _ _ fun t => goOn_kept (execObjAbort_keeps ..))).trans
      (onBit_kept _ _ _ _ fun t => goOn_kept (execResume_keeps ..))).trans (onBit_kept _ _ _ _ fun t => goOn_kept (execBoRecover_keeps ..))
  · exact goOn_kept (execRecSlotRelease_keeps ..)
  · exact .refl _
@[simp] theorem State.setBits_keeps (s x1 x2 x3) :
    (State.setBits s x1 x2 x3).pending = s.pending ∧ (State.setBits s x1 x2 x3).mrm.mem = s.mrm.mem := by
  exact State.setBits_kept ..

@[simp] theorem State.unmask_keeps (s x1) :
    (State.unmask s x1).pending = s.pending ∧ (State.unmask s x1).mrm.mem = s.mrm.mem := by
  refine ⟨?_, ?_⟩ <;> (simp only [State.unmask]; split <;> simp)

@[simp] theorem State.stepDaddr_keeps (s x1) :
    (State.stepDaddr s x1).pending = s.pending ∧ (State.stepDaddr s x1).mrm.mem = s.mrm.mem := by
  exact ⟨rfl, rfl⟩

@[simp] theorem State.writeObjData_keeps (s x1 x2) :
    (State.writeObjData s x1 x2).pending = s.pending ∧ (State.writeObjData s x1 x2).mrm.mem = s.mrm.mem := by
  refine ⟨?_, ?_⟩ <;> (simp only [State.writeObjData]; (repeat' split) <;> simp_all)

theorem State.writeRw_kept (s : State) (x1 x2 x3 x4) : Kept s (s.writeRw x1 x2 x3 x4) := by
  unfold State.writeRw
  split
  · exact Kept.ite (State.writeObjData_keeps ..) (State.setReg_keeps ..)
  · exact Kept.ite (goOn_kept (execLdgSel_keeps ..)) (State.setReg_keeps ..)
  · exact Kept.ite (Kept.trans (State.setReg_keeps ..) (State.unmask_keeps ..)) (State.setReg_keeps ..)
  · exact State.setReg_keeps ..
@[simp] theorem State.writeRw_keeps (s x1 x2 x3 x4) :
    (State.writeRw s x1 x2 x3 x4).pending = s.pending ∧ (State.writeRw s x1 x2 x3 x4).mrm.mem = s.mrm.mem := by
  exact State.writeRw_kept ..

theorem State.writeLk_kept (s : State) (x1 x2 x3 x4 x5) : Kept s (s.writeLk x1 x2 x3 x4 x5) := by
  unfold State.writeLk
  extract_lets -merge +onlyGivenNames k r obj
  have h : ∀ f, Kept s (obj f) := fun f => State.updObj_keeps ..
  split
  · exact Kept.ite ⟨rfl, rfl⟩ (Kept.ite (goOn_kept (execRefEnable_keeps ..)) (goOn_kept (execRefDisable_keeps ..)))
  · exact Kept.ite (h _) (Kept.ite (h _) (Kept.ite (h _) (Kept.ite (h _) (State.setReg_keeps ..))))
  · exact Kept.ite (State.updPartner_keeps ..) (State.setReg_keeps ..)
  · exact Kept.ite (State.setReg_keeps ..) (State.setReg_keeps ..)
@[simp] theorem State.writeLk_keeps (s x1 x2 x3 x4 x5) :
    (State.writeLk s x1 x2 x3 x4 x5).pending = s.pending ∧ (State.writeLk s x1 x2 x3 x4 x5).mrm.mem = s.mrm.mem := by
  exact State.writeLk_kept ..

theorem State.hostWrite_kept (s : State) (x1 x2 x3 x4) : Kept s (s.hostWrite x1 x2 x3 x4) := by
  unfold State.hostWrite
  extract_lets -merge +onlyGivenNames s1
  have h1 : Kept s s1 := State.at_keeps ..
  split
  · refine h1.trans ?_
    refine Kept.ite (State.accessViolation_keeps ..) ?_
    split
    all_goals first
      | exact State.accessViolation_keeps ..
      | exact State.writeRw_keeps ..
      | exact Kept.ite (State.writeLk_keeps ..) (State.accessViolation_keeps ..)
      | exact State.holdWrite_keeps ..
      | exact State.setBits_keeps ..
      | exact State.clearBits_keeps ..
      | exact goOn_kept (execDirectWrite_keeps ..)
  · exact h1
@[simp] theorem State.hostWrite_keeps (s x1 x2 x3 x4) :
    (State.hostWrite s x1 x2 x3 x4).pending = s.pending ∧ (State.hostWrite s x1 x2 x3 x4).mrm.mem = s.mrm.mem := by
  exact State.hostWrite_kept ..

theorem execTlRegisterWrite_keeps (x0 x1 x2 x3 s) : outKeeps (execTlRegisterWrite x0 x1 x2 x3 s) s := by
  simp [execTlRegisterWrite]

theorem execRegisterWrite_keeps (x0 x1 x2 x3 s) : outKeeps (execRegisterWrite x0 x1 x2 x3 s) s := by
  simp [execRegisterWrite]

theorem execStatReset_keeps (s) : outKeeps (execStatReset s) s := by
  simp [execStatReset]

theorem execCausewayEnable_keeps (x0 s) : outKeeps (execCausewayEnable x0 s) s := by
  simp [execCausewayEnable]

theorem execGo_keeps (x0 s) : outKeeps (execGo x0 s) s := by
  simp [execGo]

theorem execAbut_keeps (x0 s) : outKeeps (execAbut x0 s) s := by
  simp [execAbut]

@[simp] theorem State.readsBack_keeps (s x1) :
    (State.readsBack s x1).pending = s.pending ∧ (State.readsBack s x1).mrm.mem = s.mrm.mem := by
  exact ⟨rfl, rfl⟩

theorem execHighWordLatchRead_keeps (x0 x1 s) : outKeeps (execHighWordLatchRead x0 x1 s) s := by
  simp only [execHighWordLatchRead]; (repeat' split) <;> simp

@[simp] theorem State.readEcc_keeps (s x1) :
    (State.readEcc s x1).pending = s.pending ∧ (State.readEcc s x1).mrm.mem = s.mrm.mem := by
  refine ⟨?_, ?_⟩ <;> (unfold State.readEcc; (repeat' split) <;> simp)

@[simp] theorem State.advance_keeps (s x1 x2) :
    (State.advance s x1 x2).pending = s.pending ∧ (State.advance s x1 x2).mrm.mem = s.mrm.mem := by
  exact ⟨rfl, rfl⟩

theorem execDataWindowAccess_keeps (x0 x1 x2 s) : outKeeps (execDataWindowAccess x0 x1 x2 s) s := by
  simp only [execDataWindowAccess]; (repeat' split) <;> simp

@[simp] theorem State.keystoneSafe_keeps (s) :
    (State.keystoneSafe s).pending = s.pending ∧ (State.keystoneSafe s).mrm.mem = s.mrm.mem := by
  refine ⟨?_, ?_⟩ <;> simp [State.keystoneSafe]

@[simp] theorem State.giveUpAll_keeps (s x1) :
    (State.giveUpAll s x1).pending = s.pending ∧ (State.giveUpAll s x1).mrm.mem = s.mrm.mem := by
  refine ⟨?_, ?_⟩ <;> (simp only [State.giveUpAll]; split <;> simp)

@[simp] theorem State.sendRelinquish_keeps (s x1) :
    (State.sendRelinquish s x1).pending = s.pending ∧ (State.sendRelinquish s x1).mrm.mem = s.mrm.mem := by
  refine ⟨?_, ?_⟩ <;> (simp only [State.sendRelinquish]; split <;> simp)

@[simp] theorem State.assertFault_keeps (s x1 x2) :
    (State.assertFault s x1 x2).pending = s.pending ∧ (State.assertFault s x1 x2).mrm.mem = s.mrm.mem := by
  refine ⟨?_, ?_⟩ <;> (simp only [State.assertFault]; (repeat' split) <;> simp_all)

theorem execLockstepMismatch_keeps (x0 x1 s) : outKeeps (execLockstepMismatch x0 x1 s) s := by
  simp only [execLockstepMismatch]; (repeat' split) <;> simp

@[simp] theorem State.watchdogFault_keeps (s) :
    (State.watchdogFault s).pending = s.pending ∧ (State.watchdogFault s).mrm.mem = s.mrm.mem := by
  refine ⟨?_, ?_⟩ <;> simp [State.watchdogFault]

theorem execWatchdogService_keeps (x0 s) : outKeeps (execWatchdogService x0 s) s := by
  simp only [execWatchdogService]; (repeat' split) <;> simp

theorem execWatchdogExpiry_keeps (s) : outKeeps (execWatchdogExpiry s) s := by
  simp only [execWatchdogExpiry]; (repeat' split) <;> simp

@[simp] theorem State.watchdogBoundary_keeps (s) :
    (State.watchdogBoundary s).pending = s.pending ∧ (State.watchdogBoundary s).mrm.mem = s.mrm.mem := by
  exact ⟨rfl, rfl⟩

theorem execRamEccError_keeps (x0 x1 x2 s) : outKeeps (execRamEccError x0 x1 x2 s) s := by
  unfold execRamEccError; (repeat' split) <;> simp

@[simp] theorem State.digestFault_keeps (s) :
    (State.digestFault s).pending = s.pending ∧ (State.digestFault s).mrm.mem = s.mrm.mem := by
  refine ⟨?_, ?_⟩ <;> (simp only [State.digestFault]; split <;> simp)

theorem execClocksValid_keeps (x0 s) : outKeeps (execClocksValid x0 s) s := by
  simp only [execClocksValid]; (repeat' split) <;> simp

theorem execDebugAttach_keeps (x0 s) : outKeeps (execDebugAttach x0 s) s := by
  simp [execDebugAttach]

theorem execLsBrokenClear_keeps (s) : outKeeps (execLsBrokenClear s) s := by
  simp [execLsBrokenClear]

end Sys2Proof.Machine
end

