-- ==== Sys2Proof/Laws/FrameDeck.lean ====
section
/-! SUPPORT. The frame lemmas, one per operation and command: the viaduct, landing, launches, the Causeway and the start leave the queue of commands and the bytes of MRAM alone. -/
namespace Sys2Proof.Machine
set_option linter.all false

@[simp] theorem State.gotLanes_keeps (s x1 x2) :
    (State.gotLanes s x1 x2).pending = s.pending ∧ (State.gotLanes s x1 x2).mrm.mem = s.mrm.mem := by
  exact ⟨rfl, rfl⟩

@[simp] theorem State.judgeLane_keeps (s x1) :
    (State.judgeLane s x1).pending = s.pending ∧ (State.judgeLane s x1).mrm.mem = s.mrm.mem := by
  refine ⟨?_, ?_⟩ <;> (simp only [State.judgeLane]; (repeat' split) <;> simp_all)

@[simp] theorem State.e086_keeps (s x1) :
    (State.e086 s x1).pending = s.pending ∧ (State.e086 s x1).mrm.mem = s.mrm.mem := by
  refine ⟨?_, ?_⟩ <;> simp [State.e086]

theorem execHandshakeFrame_keeps (x0 x1 x2 s) : outKeeps (execHandshakeFrame x0 x1 x2 s) s := by
  simp only [execHandshakeFrame]; (repeat' split) <;> simp

@[simp] theorem State.shakeCount_keeps (s) :
    (State.shakeCount s).pending = s.pending ∧ (State.shakeCount s).mrm.mem = s.mrm.mem := by
  refine ⟨?_, ?_⟩ <;> (simp only [State.shakeCount]; split <;> simp)

@[simp] theorem State.shakeBoundary_keeps (s) :
    (State.shakeBoundary s).pending = s.pending ∧ (State.shakeBoundary s).mrm.mem = s.mrm.mem := by
  refine ⟨?_, ?_⟩ <;> (simp only [State.shakeBoundary]; split <;> simp)

@[simp] theorem State.pairBoundary_keeps (s) :
    (State.pairBoundary s).pending = s.pending ∧ (State.pairBoundary s).mrm.mem = s.mrm.mem := by
  refine ⟨?_, ?_⟩ <;> (simp only [State.pairBoundary]; (repeat' split) <;> simp_all)

@[simp] theorem State.goAlone_keeps (s) :
    (State.goAlone s).pending = s.pending ∧ (State.goAlone s).mrm.mem = s.mrm.mem := by
  exact ⟨rfl, rfl⟩

theorem execPairingTimeout_keeps (s) : outKeeps (execPairingTimeout s) s := by
  simp only [execPairingTimeout]; (repeat' split) <;> simp

@[simp] theorem State.staleAcknowledged_keeps (s) :
    (State.staleAcknowledged s).pending = s.pending ∧ (State.staleAcknowledged s).mrm.mem = s.mrm.mem := by
  refine ⟨?_, ?_⟩ <;> simp [State.staleAcknowledged]

theorem execMirrorFrame_keeps (x0 x1 x2 s) : outKeeps (execMirrorFrame x0 x1 x2 s) s := by
  simp only [execMirrorFrame]; (repeat' split) <;> simp

@[simp] theorem State.scheduleTakeover_keeps (s x1 x2 x3 x4) :
    (State.scheduleTakeover s x1 x2 x3 x4).pending = s.pending ∧ (State.scheduleTakeover s x1 x2 x3 x4).mrm.mem = s.mrm.mem := by
  refine ⟨?_, ?_⟩ <;> (simp only [State.scheduleTakeover]; split <;> simp)

theorem execRelinquishFrame_keeps (x0 x1 x2 s) : outKeeps (execRelinquishFrame x0 x1 x2 s) s := by
  simp only [execRelinquishFrame]; (repeat' split) <;> simp

@[simp] theorem State.judgePosition_keeps (s x1 x2) :
    (State.judgePosition s x1 x2).pending = s.pending ∧ (State.judgePosition s x1 x2).mrm.mem = s.mrm.mem := by
  refine ⟨?_, ?_⟩ <;> (simp only [State.judgePosition]; (repeat' split) <;> simp_all)

@[simp] theorem State.judgeOverlap_keeps (s x1) :
    (State.judgeOverlap s x1).pending = s.pending ∧ (State.judgeOverlap s x1).mrm.mem = s.mrm.mem := by
  refine ⟨?_, ?_⟩ <;> (simp only [State.judgeOverlap]; (repeat' split) <;> simp_all)

theorem State.judgeWarnings_kept (s : State) (x1) : Kept s (s.judgeWarnings x1) := by
  unfold State.judgeWarnings
  extract_lets g tol w sp run at5 car crun at6 stg v t t1 t2
  refine Kept.ite (.refl _) ?_
  have h : Kept s t := ⟨rfl, rfl⟩
  have h1 : Kept s t1 := h.trans (Kept.ite (State.e086_keeps ..) (.refl _))
  have h2 : Kept s t2 := h1.trans (Kept.ite (State.e086_keeps ..) (.refl _))
  exact h2.trans (Kept.ite (State.e086_keeps ..) (.refl _))
@[simp] theorem State.judgeWarnings_keeps (s x1) :
    (State.judgeWarnings s x1).pending = s.pending ∧ (State.judgeWarnings s x1).mrm.mem = s.mrm.mem := by
  exact State.judgeWarnings_kept ..

@[simp] theorem State.judgeDigest_keeps (s x1) :
    (State.judgeDigest s x1).pending = s.pending ∧ (State.judgeDigest s x1).mrm.mem = s.mrm.mem := by
  refine ⟨?_, ?_⟩ <;> (simp only [State.judgeDigest]; split <;> simp)

@[simp] theorem State.judgeCompletions_keeps (s x1) :
    (State.judgeCompletions s x1).pending = s.pending ∧ (State.judgeCompletions s x1).mrm.mem = s.mrm.mem := by
  exact ⟨rfl, rfl⟩

@[simp] theorem State.judgeRelq_keeps (s x1) :
    (State.judgeRelq s x1).pending = s.pending ∧ (State.judgeRelq s x1).mrm.mem = s.mrm.mem := by
  refine ⟨?_, ?_⟩ <;> (simp only [State.judgeRelq]; split <;> simp)

@[simp] theorem State.useFrame_keeps (s x1) :
    (State.useFrame s x1).pending = s.pending ∧ (State.useFrame s x1).mrm.mem = s.mrm.mem := by
  refine ⟨?_, ?_⟩ <;> (unfold State.useFrame; (repeat' split) <;> simp)

@[simp] theorem State.missFrame_keeps (s) :
    (State.missFrame s).pending = s.pending ∧ (State.missFrame s).mrm.mem = s.mrm.mem := by
  refine ⟨?_, ?_⟩ <;> (simp only [State.missFrame]; (repeat' split) <;> simp_all)

@[simp] theorem State.judgeFrame_keeps (s) :
    (State.judgeFrame s).pending = s.pending ∧ (State.judgeFrame s).mrm.mem = s.mrm.mem := by
  refine ⟨?_, ?_⟩ <;> (simp only [State.judgeFrame]; (repeat' split) <;> simp_all)

@[simp] theorem State.tieSelfCheck_keeps (s x1) :
    (State.tieSelfCheck s x1).pending = s.pending ∧ (State.tieSelfCheck s x1).mrm.mem = s.mrm.mem := by
  refine ⟨?_, ?_⟩ <;> (simp only [State.tieSelfCheck]; (repeat' split) <;> simp_all)

@[simp] theorem State.shadowMismatch_keeps (s x1 x2 x3) :
    (State.shadowMismatch s x1 x2 x3).pending = s.pending ∧ (State.shadowMismatch s x1 x2 x3).mrm.mem = s.mrm.mem := by
  refine ⟨?_, ?_⟩ <;> simp [State.shadowMismatch]

@[simp] theorem State.shadowVerdict_keeps (s x1) :
    (State.shadowVerdict s x1).pending = s.pending ∧ (State.shadowVerdict s x1).mrm.mem = s.mrm.mem := by
  refine ⟨?_, ?_⟩ <;> (simp only [State.shadowVerdict]; split <;> simp)

@[simp] theorem State.shadow_keeps (s) :
    (State.shadow s).1.pending = s.pending ∧ (State.shadow s).1.mrm.mem = s.mrm.mem := by
  refine ⟨?_, ?_⟩ <;> (simp only [State.shadow]; split <;> simp)

@[simp] theorem State.followInputs_keeps (s) :
    (State.followInputs s).pending = s.pending ∧ (State.followInputs s).mrm.mem = s.mrm.mem := by
  exact ⟨rfl, rfl⟩

@[simp] theorem State.adoptStandby_keeps (s) :
    (State.adoptStandby s).pending = s.pending ∧ (State.adoptStandby s).mrm.mem = s.mrm.mem := by
  show Kept s _; unfold State.adoptStandby; (try extract_lets); (repeat' first | split | exact Kept.refl _ | with_reducible exact (Kept.of (State.withStage_keeps ..)) | with_reducible refine Kept.ite ?_ ?_ | with_reducible refine Kept.trans ?_ (Kept.of (State.withStage_keeps ..)) | with_reducible refine Kept.trans ?_ (Kept.foldl _ (fun _ _ => ?_) _ _) | with_reducible refine Kept.trans ?_ (Kept.ite ?_ ?_) | with_reducible refine Kept.trans ?_ (Kept.lit _ _ (by rfl) ..))

@[simp] theorem State.copyStandby_keeps (s) :
    (State.copyStandby s).pending = s.pending ∧ (State.copyStandby s).mrm.mem = s.mrm.mem := by
  show Kept s _; unfold State.copyStandby; (try extract_lets); (repeat' first | split | exact Kept.refl _ | with_reducible exact (Kept.of (State.withStage_keeps ..)) | with_reducible refine Kept.ite ?_ ?_ | with_reducible refine Kept.trans ?_ (Kept.of (State.withStage_keeps ..)) | with_reducible refine Kept.trans ?_ (Kept.foldl _ (fun _ _ => ?_) _ _) | with_reducible refine Kept.trans ?_ (Kept.ite ?_ ?_) | with_reducible refine Kept.trans ?_ (Kept.lit _ _ (by rfl) ..))

@[simp] theorem State.relinquish_keeps (s) :
    (State.relinquish s).pending = s.pending ∧ (State.relinquish s).mrm.mem = s.mrm.mem := by
  refine ⟨?_, ?_⟩ <;> (simp only [State.relinquish]; split <;> simp)

@[simp] theorem State.claim_keeps (s x1) :
    (State.claim s x1).pending = s.pending ∧ (State.claim s x1).mrm.mem = s.mrm.mem := by
  exact ⟨rfl, rfl⟩

@[simp] theorem State.claimNext_keeps (s) :
    (State.claimNext s).pending = s.pending ∧ (State.claimNext s).mrm.mem = s.mrm.mem := by
  exact ⟨rfl, rfl⟩

@[simp] theorem State.takeOne_keeps (s x1) :
    (State.takeOne s x1).pending = s.pending ∧ (State.takeOne s x1).mrm.mem = s.mrm.mem := by
  refine ⟨?_, ?_⟩ <;> (simp [State.takeOne])

@[simp] theorem State.takeOver_keeps (s) :
    (State.takeOver s).pending = s.pending ∧ (State.takeOver s).mrm.mem = s.mrm.mem := by
  refine ⟨?_, ?_⟩ <;> (simp [State.takeOver])

@[simp] theorem State.rebindOpen_keeps (s) :
    (State.rebindOpen s).pending = s.pending ∧ (State.rebindOpen s).mrm.mem = s.mrm.mem := by
  refine ⟨?_, ?_⟩ <;> (simp only [State.rebindOpen]; split <;> simp)

@[simp] theorem State.closeOpen_keeps (s) :
    (State.closeOpen s).pending = s.pending ∧ (State.closeOpen s).mrm.mem = s.mrm.mem := by
  refine ⟨?_, ?_⟩ <;> (simp only [State.closeOpen]; split <;> simp)

@[simp] theorem State.stageHandover_keeps (s x1) :
    (State.stageHandover s x1).pending = s.pending ∧ (State.stageHandover s x1).mrm.mem = s.mrm.mem := by
  refine ⟨?_, ?_⟩ <;> (simp only [State.stageHandover]; split <;> simp)

@[simp] theorem State.handover_keeps (s x1) :
    (State.handover s x1).pending = s.pending ∧ (State.handover s x1).mrm.mem = s.mrm.mem := by
  refine ⟨?_, ?_⟩ <;> (simp only [State.handover]; (repeat' split) <;> simp_all)

@[simp] theorem State.setRegs_keeps (s x1) :
    (State.setRegs s x1).pending = s.pending ∧ (State.setRegs s x1).mrm.mem = s.mrm.mem := by
  refine ⟨?_, ?_⟩ <;> simp [State.setRegs]

@[simp] theorem State.setLanded_keeps (s x1) :
    (State.setLanded s x1).pending = s.pending ∧ (State.setLanded s x1).mrm.mem = s.mrm.mem := by
  refine ⟨?_, ?_⟩ <;> (simp only [State.setLanded]; split <;> simp)

@[simp] theorem State.setRefused_keeps (s x1) :
    (State.setRefused s x1).pending = s.pending ∧ (State.setRefused s x1).mrm.mem = s.mrm.mem := by
  refine ⟨?_, ?_⟩ <;> (simp only [State.setRefused]; split <;> simp)

@[simp] theorem State.landSet_keeps (s x1 x2) :
    (State.landSet s x1 x2).pending = s.pending ∧ (State.landSet s x1 x2).mrm.mem = s.mrm.mem := by
  refine ⟨?_, ?_⟩ <;> (simp only [State.landSet]; split <;> simp)

@[simp] theorem State.landWrites_keeps (s x1) :
    (State.landWrites s x1).pending = s.pending ∧ (State.landWrites s x1).mrm.mem = s.mrm.mem := by
  refine ⟨?_, ?_⟩ <;> simp [State.landWrites]

@[simp] theorem State.landTl_keeps (s x1) :
    (State.landTl s x1).pending = s.pending ∧ (State.landTl s x1).mrm.mem = s.mrm.mem := by
  refine ⟨?_, ?_⟩ <;> (simp only [State.landTl]; split <;> simp)

@[simp] theorem State.overrideTl_keeps (s x1 x2) :
    (State.overrideTl s x1 x2).pending = s.pending ∧ (State.overrideTl s x1 x2).mrm.mem = s.mrm.mem := by
  exact ⟨rfl, rfl⟩

@[simp] theorem State.putSlot_keeps (s x1 x2) :
    (State.putSlot s x1 x2).pending = s.pending ∧ (State.putSlot s x1 x2).mrm.mem = s.mrm.mem := by
  exact ⟨rfl, rfl⟩

@[simp] theorem State.armImage_keeps (s x1) :
    (State.armImage s x1).pending = s.pending ∧ (State.armImage s x1).mrm.mem = s.mrm.mem := by
  refine ⟨?_, ?_⟩ <;> simp [State.armImage]

@[simp] theorem State.ltDone_keeps (s x1 x2 x3) :
    (State.ltDone s x1 x2 x3).pending = s.pending ∧ (State.ltDone s x1 x2 x3).mrm.mem = s.mrm.mem := by
  refine ⟨?_, ?_⟩ <;> (simp only [State.ltDone]; split <;> simp)

@[simp] theorem State.ltAdvance_keeps (s x1) :
    (State.ltAdvance s x1).pending = s.pending ∧ (State.ltAdvance s x1).mrm.mem = s.mrm.mem := by
  exact ⟨rfl, rfl⟩

@[simp] theorem State.ltEvent_keeps (s x1 x2 x3) :
    (State.ltEvent s x1 x2 x3).pending = s.pending ∧ (State.ltEvent s x1 x2 x3).mrm.mem = s.mrm.mem := by
  refine ⟨?_, ?_⟩ <;> simp [State.ltEvent]

@[simp] theorem State.realignLeg_keeps (s x1 x2) :
    (State.realignLeg s x1 x2).pending = s.pending ∧ (State.realignLeg s x1 x2).mrm.mem = s.mrm.mem := by
  exact ⟨rfl, rfl⟩

@[simp] theorem State.realign_keeps (s x1 x2) :
    (State.realign s x1 x2).1.pending = s.pending ∧ (State.realign s x1 x2).1.mrm.mem = s.mrm.mem := by
  refine ⟨?_, ?_⟩ <;> simp [State.realign]

@[simp] theorem State.putCmpl_keeps (s x1) :
    (State.putCmpl s x1).pending = s.pending ∧ (State.putCmpl s x1).mrm.mem = s.mrm.mem := by
  exact ⟨rfl, rfl⟩

@[simp] theorem State.writeCompletions_keeps (s) :
    (State.writeCompletions s).pending = s.pending ∧ (State.writeCompletions s).mrm.mem = s.mrm.mem := by
  refine ⟨?_, ?_⟩ <;> (simp only [State.writeCompletions]; split <;> simp)

@[simp] theorem State.advanceProd_keeps (s) :
    (State.advanceProd s).pending = s.pending ∧ (State.advanceProd s).mrm.mem = s.mrm.mem := by
  refine ⟨?_, ?_⟩ <;> (simp only [State.advanceProd]; (repeat' split) <;> simp_all)

@[simp] theorem State.judgeRsv_keeps (s) :
    (State.judgeRsv s).pending = s.pending ∧ (State.judgeRsv s).mrm.mem = s.mrm.mem := by
  refine ⟨?_, ?_⟩ <;> (simp only [State.judgeRsv]; split <;> simp)

@[simp] theorem State.putEvent_keeps (s x1) :
    (State.putEvent s x1).pending = s.pending ∧ (State.putEvent s x1).mrm.mem = s.mrm.mem := by
  refine ⟨?_, ?_⟩ <;> simp [State.putEvent]

@[simp] theorem State.endStorm_keeps (s) :
    (State.endStorm s).pending = s.pending ∧ (State.endStorm s).mrm.mem = s.mrm.mem := by
  refine ⟨?_, ?_⟩ <;> (simp only [State.endStorm]; split <;> simp)

@[simp] theorem State.writeEvents_keeps (s) :
    (State.writeEvents s).pending = s.pending ∧ (State.writeEvents s).mrm.mem = s.mrm.mem := by
  refine ⟨?_, ?_⟩ <;> (simp only [State.writeEvents]; (repeat' split) <;> simp_all)

theorem execProtectionEventWrite_keeps (s) : outKeeps (execProtectionEventWrite s) s := by
  unfold execProtectionEventWrite; (repeat' split) <;> simp

@[simp] theorem State.writeTelemetry_keeps (s) :
    (State.writeTelemetry s).pending = s.pending ∧ (State.writeTelemetry s).mrm.mem = s.mrm.mem := by
  refine ⟨?_, ?_⟩ <;> (simp only [State.writeTelemetry]; (repeat' split) <;> simp_all)

@[simp] theorem State.publishObj_keeps (s x1 x2) :
    (State.publishObj s x1 x2).pending = s.pending ∧ (State.publishObj s x1 x2).mrm.mem = s.mrm.mem := by
  refine ⟨?_, ?_⟩ <;> (simp only [State.publishObj]; (repeat' split) <;> simp_all)

@[simp] theorem State.publish_keeps (s) :
    (State.publish s).pending = s.pending ∧ (State.publish s).mrm.mem = s.mrm.mem := by
  refine ⟨?_, ?_⟩ <;> (simp only [State.publish]; split <;> simp)

@[simp] theorem State.judgeFb_keeps (s) :
    (State.judgeFb s).pending = s.pending ∧ (State.judgeFb s).mrm.mem = s.mrm.mem := by
  exact ⟨rfl, rfl⟩

@[simp] theorem State.linkTo_keeps (s x1 x2 x3) :
    (State.linkTo s x1 x2 x3).pending = s.pending ∧ (State.linkTo s x1 x2 x3).mrm.mem = s.mrm.mem := by
  refine ⟨?_, ?_⟩ <;> simp [State.linkTo]

theorem execPcieLinkChange_keeps (x0 x1 x2 x3 s) : outKeeps (execPcieLinkChange x0 x1 x2 x3 s) s := by
  simp only [execPcieLinkChange]; (repeat' split) <;> simp

theorem execPciePerst_keeps (x0 s) : outKeeps (execPciePerst x0 s) s := by
  simp only [execPciePerst]; (repeat' split) <;> simp

@[simp] theorem State.restart_keeps (s) :
    (State.restart s).pending = s.pending ∧ (State.restart s).mrm.mem = s.mrm.mem := by
  exact ⟨rfl, rfl⟩

theorem execDeckReset_keeps (x0 x1 s) : outKeeps (execDeckReset x0 x1 s) s := by
  simp [execDeckReset]

theorem execAutoRestart_keeps (s) : outKeeps (execAutoRestart s) s := by
  unfold execAutoRestart; (repeat' split) <;> simp

@[simp] theorem State.step1_keeps (s x1) :
    (State.step1 s x1).1.pending = s.pending ∧ (State.step1 s x1).1.mrm.mem = s.mrm.mem := by
  refine ⟨?_, ?_⟩ <;> (simp only [State.step1]; (repeat' split) <;> simp_all)

@[simp] theorem State.step2_keeps (s x1) :
    (State.step2 s x1).1.pending = s.pending ∧ (State.step2 s x1).1.mrm.mem = s.mrm.mem := by
  refine ⟨?_, ?_⟩ <;> (simp only [State.step2]; (repeat' split) <;> simp_all)

@[simp] theorem State.adoptFactory_keeps (s x1) :
    (State.adoptFactory s x1).pending = s.pending ∧ (State.adoptFactory s x1).mrm.mem = s.mrm.mem := by
  refine ⟨?_, ?_⟩ <;> (simp only [State.adoptFactory]; split <;> simp)

@[simp] theorem State.step3_keeps (s x1) :
    (State.step3 s x1).1.pending = s.pending ∧ (State.step3 s x1).1.mrm.mem = s.mrm.mem := by
  refine ⟨?_, ?_⟩ <;> (simp only [State.step3]; (repeat' split) <;> simp_all)

@[simp] theorem State.clearStaged_keeps (s) :
    (State.clearStaged s).pending = s.pending ∧ (State.clearStaged s).mrm.mem = s.mrm.mem := by
  exact ⟨rfl, rfl⟩

@[simp] theorem State.step4_keeps (s x1) :
    (State.step4 s x1).1.pending = s.pending ∧ (State.step4 s x1).1.mrm.mem = s.mrm.mem := by
  refine ⟨?_, ?_⟩ <;> (simp only [State.step4]; (repeat' split) <;> simp_all)

@[simp] theorem State.imagePer_keeps (s x1 x2) :
    (State.imagePer s x1 x2).pending = s.pending ∧ (State.imagePer s x1 x2).mrm.mem = s.mrm.mem := by
  refine ⟨?_, ?_⟩ <;> (simp only [State.imagePer]; split <;> simp)

@[simp] theorem State.loadImage_keeps (s x1) :
    (State.loadImage s x1).pending = s.pending ∧ (State.loadImage s x1).mrm.mem = s.mrm.mem := by
  refine ⟨?_, ?_⟩ <;> simp [State.loadImage]

@[simp] theorem State.copyMap_keeps (s x1 x2 x3) :
    (State.copyMap s x1 x2 x3).1.pending = s.pending ∧ (State.copyMap s x1 x2 x3).1.mrm.mem = s.mrm.mem := by
  exact ⟨rfl, rfl⟩

theorem State.copyMaps_kept (s : State) (x1 x2) : Kept s (s.copyMaps x1 x2).1 := by
  unfold State.copyMaps
  extract_lets one
  refine Kept.foldl_on (fun r : State × Bool => r.1) one (fun r q => ?_) _ (s, true)
  unfold one
  split
  · have h := State.copyMap_keeps r.1 x1 q.2 q.1
    generalize r.1.copyMap x1 q.2 q.1 = c at *
    obtain ⟨t, ok⟩ := c
    exact Kept.trans h ⟨rfl, rfl⟩
  · exact .refl _
@[simp] theorem State.copyMaps_keeps (s x1 x2) :
    (State.copyMaps s x1 x2).1.pending = s.pending ∧ (State.copyMaps s x1 x2).1.mrm.mem = s.mrm.mem := by
  exact State.copyMaps_kept ..

@[simp] theorem State.step5_keeps (s x1) :
    (State.step5 s x1).1.pending = s.pending ∧ (State.step5 s x1).1.mrm.mem = s.mrm.mem := by
  refine ⟨?_, ?_⟩ <;> (simp only [State.step5]; (repeat' split) <;> simp_all)

@[simp] theorem State.steps_keeps (s x1) :
    (State.steps s x1).1.pending = s.pending ∧ (State.steps s x1).1.mrm.mem = s.mrm.mem := by
  refine ⟨?_, ?_⟩ <;> (simp only [State.steps]; (repeat' split) <;> simp_all)

@[simp] theorem State.startClock_keeps (s) :
    (State.startClock s).pending = s.pending ∧ (State.startClock s).mrm.mem = s.mrm.mem := by
  refine ⟨?_, ?_⟩ <;> (unfold State.startClock; (repeat' split) <;> simp)

@[simp] theorem State.ticksRun_keeps (s) :
    (State.ticksRun s).pending = s.pending ∧ (State.ticksRun s).mrm.mem = s.mrm.mem := by
  refine ⟨?_, ?_⟩ <;> simp [State.ticksRun]

@[simp] theorem State.startFinds_keeps (s x1) :
    (State.startFinds s x1).pending = s.pending ∧ (State.startFinds s x1).mrm.mem = s.mrm.mem := by
  refine ⟨?_, ?_⟩ <;> (simp only [State.startFinds]; (repeat' split) <;> simp_all)

theorem execStart_keeps (x0 s) : outKeeps (execStart x0 s) s := by
  simp only [execStart]; (repeat' split) <;> simp

theorem State.activate_kept (s : State) : Kept s s.activate := by
  unfold State.activate
  extract_lets -merge +onlyGivenNames one s1
  have h : ∀ t a b c d, Kept t (one t a b c d) := by
    intro t a b c d
    refine Kept.ite (Kept.ite ?_ ?_) (Kept.ite ⟨rfl, rfl⟩ ⟨rfl, rfl⟩)
    all_goals
      refine Kept.trans ?_ (State.raise_keeps ..)
      exact Kept.ite ⟨rfl, rfl⟩ ⟨rfl, rfl⟩
  exact (h ..).trans (h ..)
@[simp] theorem State.activate_keeps (s) :
    (State.activate s).pending = s.pending ∧ (State.activate s).mrm.mem = s.mrm.mem := by
  exact State.activate_kept ..

@[simp] theorem State.takeOwners_keeps (s) :
    (State.takeOwners s).pending = s.pending ∧ (State.takeOwners s).mrm.mem = s.mrm.mem := by
  exact ⟨rfl, rfl⟩

@[simp] theorem State.takeAuto_keeps (s) :
    (State.takeAuto s).pending = s.pending ∧ (State.takeAuto s).mrm.mem = s.mrm.mem := by
  exact ⟨rfl, rfl⟩

@[simp] theorem State.deckReady_keeps (s) :
    (State.deckReady s).pending = s.pending ∧ (State.deckReady s).mrm.mem = s.mrm.mem := by
  refine ⟨?_, ?_⟩ <;> (simp only [State.deckReady]; split <;> simp)

@[simp] theorem State.startBoundary_keeps (s) :
    (State.startBoundary s).pending = s.pending ∧ (State.startBoundary s).mrm.mem = s.mrm.mem := by
  refine ⟨?_, ?_⟩ <;> (simp only [State.startBoundary]; (repeat' split) <;> simp_all)

theorem execStartTimeout_keeps (s) : outKeeps (execStartTimeout s) s := by
  simp only [execStartTimeout]; (repeat' split) <;> simp

theorem execAdcCalEnd_keeps (x0 x1 x2 s) : outKeeps (execAdcCalEnd x0 x1 x2 s) s := by
  simp only [execAdcCalEnd]; (repeat' split) <;> simp

@[simp] theorem State.calBoundary_keeps (s) :
    (State.calBoundary s).pending = s.pending ∧ (State.calBoundary s).mrm.mem = s.mrm.mem := by
  refine ⟨?_, ?_⟩ <;> (unfold State.calBoundary; (repeat' split) <;> simp)

@[simp] theorem State.deckRestart_keeps (s x1 x2) :
    (State.deckRestart s x1 x2).pending = s.pending ∧ (State.deckRestart s x1 x2).mrm.mem = s.mrm.mem := by
  refine ⟨?_, ?_⟩ <;> simp [State.deckRestart]

end Sys2Proof.Machine
end

