-- ==== Sys2Proof/Laws/FrameTick.lean ====
section
/-! SUPPORT. The frame lemmas, one per operation and command: the command reference, the fetch and the tick leave the queue of commands and the bytes of MRAM alone. -/
namespace Sys2Proof.Machine
set_option linter.all false

@[simp] theorem State.route_keeps (s x1) :
    (State.route s x1).pending = s.pending ∧ (State.route s x1).mrm.mem = s.mrm.mem := by
  refine ⟨?_, ?_⟩ <;> (simp only [State.route]; split <;> simp)

@[simp] theorem State.unstage_keeps (s x1) :
    (State.unstage s x1).pending = s.pending ∧ (State.unstage s x1).mrm.mem = s.mrm.mem := by
  exact ⟨rfl, rfl⟩

@[simp] theorem State.deckFinish_keeps (s x1 x2 x3) :
    (State.deckFinish s x1 x2 x3).pending = s.pending ∧ (State.deckFinish s x1 x2 x3).mrm.mem = s.mrm.mem := by
  refine ⟨?_, ?_⟩ <;> simp [State.deckFinish]

@[simp] theorem State.leaveToTwin_keeps (s x1) :
    (State.leaveToTwin s x1).pending = s.pending ∧ (State.leaveToTwin s x1).mrm.mem = s.mrm.mem := by
  exact ⟨rfl, rfl⟩

@[simp] theorem State.safeOf_keeps (s x1 x2) :
    (State.safeOf s x1 x2).pending = s.pending ∧ (State.safeOf s x1 x2).mrm.mem = s.mrm.mem := by
  refine ⟨?_, ?_⟩ <;> (simp only [State.safeOf]; split <;> simp)

@[simp] theorem State.giveUpSpan_keeps (s x1 x2) :
    (State.giveUpSpan s x1 x2).pending = s.pending ∧ (State.giveUpSpan s x1 x2).mrm.mem = s.mrm.mem := by
  refine ⟨?_, ?_⟩ <;> (simp only [State.giveUpSpan]; split <;> simp)

@[simp] theorem State.judgeSpan_keeps (s x1) :
    (State.judgeSpan s x1).pending = s.pending ∧ (State.judgeSpan s x1).mrm.mem = s.mrm.mem := by
  refine ⟨?_, ?_⟩ <;> (unfold State.judgeSpan; (repeat' split) <;> simp)

theorem State.prepare_kept (s : State) : Kept s s.prepare := by
  unfold State.prepare
  refine Kept.ite (.refl _) ?_
  extract_lets -merge +onlyGivenNames _ s1 b _ s2 s3 r _ s4 s5 s6
  have h1 : Kept s s1 := ⟨rfl, rfl⟩
  have h2 : Kept s s2 := h1.trans (State.withStage_keeps ..)
  have h3 : Kept s s3 := h2.trans (Kept.foldl _ (fun t m => Kept.ite (State.aScan_keeps ..) (.refl _)) _ _)
  have h4 : Kept s s4 := h3.trans (Kept.ite (State.withStage_keeps ..) (.refl _))
  have h5 : Kept s s5 := h4.trans (Kept.foldl State.judgeSpan State.judgeSpan_keeps _ _)
  have h6 : Kept s s6 := h5.trans (Kept.trans (State.cBypassExit_keeps ..) (State.qPilotExit_keeps ..))
  exact h6.trans (Kept.foldl _ (fun t m => Kept.ite (State.aOps_keeps ..) (.refl _)) _ _)
@[simp] theorem State.prepare_keeps (s) :
    (State.prepare s).pending = s.pending ∧ (State.prepare s).mrm.mem = s.mrm.mem := by
  exact State.prepare_kept ..

@[simp] theorem State.modeSpan_keeps (s x1 x2 x3 x4) :
    (State.modeSpan s x1 x2 x3 x4).2.pending = s.pending ∧ (State.modeSpan s x1 x2 x3 x4).2.mrm.mem = s.mrm.mem := by
  refine ⟨?_, ?_⟩ <;> (unfold State.modeSpan; (repeat' split) <;> simp)

theorem State.spanRun_kept (s : State) (d : Staged) : Kept s (s.spanRun d).s := by
  unfold State.spanRun
  extract_lets x t m q0 long
  split
  all_goals first
    | exact State.modeSpan_keeps ..
    | exact State.tqTarget_keeps ..
    | exact State.spdTargetCmd_keeps ..
    | exact State.posRearmCmd_keeps ..
    | exact State.cVtgtCmd_keeps ..
    | exact State.cItgtCmd_keeps ..
    | exact State.cPhasesCmd_keeps ..
    | exact State.cCrowbarCmd_keeps ..
    | exact State.qPowerCmd_keeps ..
    | exact State.aHoldCmd_keeps ..
    | exact State.aShiftCmd_keeps ..
    | exact State.aParkCmd_keeps ..
    | exact State.aReleaseCmd_keeps ..
    | exact State.aCurrentCmd_keeps ..
    | exact State.aHomeCmd_keeps ..
    | exact State.aRearmCmd_keeps ..
@[simp] theorem State.spanRun_keeps (s x1) :
    (State.spanRun s x1).s.pending = s.pending ∧ (State.spanRun s x1).s.mrm.mem = s.mrm.mem := by
  exact State.spanRun_kept ..

@[simp] theorem State.spanDone_keeps (s x1 x2 x3 x4) :
    (State.spanDone s x1 x2 x3 x4).pending = s.pending ∧ (State.spanDone s x1 x2 x3 x4).mrm.mem = s.mrm.mem := by
  exact ⟨rfl, rfl⟩

@[simp] theorem State.modeRelinquish_keeps (s x1) :
    (State.modeRelinquish s x1).pending = s.pending ∧ (State.modeRelinquish s x1).mrm.mem = s.mrm.mem := by
  refine ⟨?_, ?_⟩ <;> (simp only [State.modeRelinquish]; (repeat' split) <;> simp_all)

@[simp] theorem State.spanCommand_keeps (s x1) :
    (State.spanCommand s x1).pending = s.pending ∧ (State.spanCommand s x1).mrm.mem = s.mrm.mem := by
  refine ⟨?_, ?_⟩ <;> (simp only [State.spanCommand]; (repeat' split) <;> simp_all)

@[simp] theorem State.abortCommand_keeps (s x1 x2) :
    (State.abortCommand s x1 x2).pending = s.pending ∧ (State.abortCommand s x1 x2).mrm.mem = s.mrm.mem := by
  refine ⟨?_, ?_⟩ <;> (simp only [State.abortCommand]; (repeat' split) <;> simp_all)

theorem State.ltWriteCommand_kept (s : State) (d) : Kept s (s.ltWriteCommand d) := by
  unfold State.ltWriteCommand
  extract_lets k b x
  split
  · exact State.deckFinish_keeps ..
  · exact Kept.trans (State.putSlot_keeps ..) (State.deckFinish_keeps ..)
@[simp] theorem State.ltWriteCommand_keeps (s x1) :
    (State.ltWriteCommand s x1).pending = s.pending ∧ (State.ltWriteCommand s x1).mrm.mem = s.mrm.mem := by
  exact State.ltWriteCommand_kept ..

@[simp] theorem State.ltClearCommand_keeps (s x1) :
    (State.ltClearCommand s x1).pending = s.pending ∧ (State.ltClearCommand s x1).mrm.mem = s.mrm.mem := by
  refine ⟨?_, ?_⟩ <;> simp [State.ltClearCommand]

@[simp] theorem State.calMapCommand_keeps (s x1) :
    (State.calMapCommand s x1).pending = s.pending ∧ (State.calMapCommand s x1).mrm.mem = s.mrm.mem := by
  refine ⟨?_, ?_⟩ <;> simp [State.calMapCommand]

@[simp] theorem State.registerCommand_keeps (s x1 x2 x3) :
    (State.registerCommand s x1 x2 x3).pending = s.pending ∧ (State.registerCommand s x1 x2 x3).mrm.mem = s.mrm.mem := by
  refine ⟨?_, ?_⟩ <;> simp [State.registerCommand]

@[simp] theorem State.pairRearmCommand_keeps (s x1) :
    (State.pairRearmCommand s x1).pending = s.pending ∧ (State.pairRearmCommand s x1).mrm.mem = s.mrm.mem := by
  refine ⟨?_, ?_⟩ <;> simp [State.pairRearmCommand]

@[simp] theorem State.adcTrigCommand_keeps (s x1) :
    (State.adcTrigCommand s x1).pending = s.pending ∧ (State.adcTrigCommand s x1).mrm.mem = s.mrm.mem := by
  refine ⟨?_, ?_⟩ <;> simp [State.adcTrigCommand]

@[simp] theorem State.tripClearCommand_keeps (s x1) :
    (State.tripClearCommand s x1).pending = s.pending ∧ (State.tripClearCommand s x1).mrm.mem = s.mrm.mem := by
  refine ⟨?_, ?_⟩ <;> simp [State.tripClearCommand]

@[simp] theorem State.pierClearCommand_keeps (s x1) :
    (State.pierClearCommand s x1).pending = s.pending ∧ (State.pierClearCommand s x1).mrm.mem = s.mrm.mem := by
  refine ⟨?_, ?_⟩ <;> simp [State.pierClearCommand]

@[simp] theorem State.jobCommand_keeps (s x1) :
    (State.jobCommand s x1).pending = s.pending ∧ (State.jobCommand s x1).mrm.mem = s.mrm.mem := by
  exact ⟨rfl, rfl⟩

@[simp] theorem State.deckEffect_keeps (s x1 x2 x3 x4) :
    (State.deckEffect s x1 x2 x3 x4).pending = s.pending ∧ (State.deckEffect s x1 x2 x3 x4).mrm.mem = s.mrm.mem := by
  refine ⟨?_, ?_⟩ <;> (simp only [State.deckEffect]; split <;> simp)

@[simp] theorem State.runSpan_keeps (s x1) :
    (State.runSpan s x1).pending = s.pending ∧ (State.runSpan s x1).mrm.mem = s.mrm.mem := by
  refine ⟨?_, ?_⟩ <;> (unfold State.runSpan; (repeat' split) <;> simp)

@[simp] theorem State.handoverNow_keeps (s x1) :
    (State.handoverNow s x1).pending = s.pending ∧ (State.handoverNow s x1).mrm.mem = s.mrm.mem := by
  refine ⟨?_, ?_⟩ <;> (simp only [State.handoverNow]; split <;> simp)

@[simp] theorem State.runDeck_keeps (s x1) :
    (State.runDeck s x1).pending = s.pending ∧ (State.runDeck s x1).mrm.mem = s.mrm.mem := by
  refine ⟨?_, ?_⟩ <;> (unfold State.runDeck; (repeat' split) <;> simp)

@[simp] theorem State.abutCommand_keeps (s x1) :
    (State.abutCommand s x1).pending = s.pending ∧ (State.abutCommand s x1).mrm.mem = s.mrm.mem := by
  refine ⟨?_, ?_⟩ <;> (unfold State.abutCommand; (repeat' split) <;> simp)

@[simp] theorem State.faultCommand_keeps (s x1) :
    (State.faultCommand s x1).pending = s.pending ∧ (State.faultCommand s x1).mrm.mem = s.mrm.mem := by
  refine ⟨?_, ?_⟩ <;> (unfold State.faultCommand; (repeat' split) <;> simp)

/-- A command on the deck keeps what its own run keeps. -/
theorem onDeck_kept (s : State) (d) (run : State → State) (h : ∀ t, Kept t (run t)) : Kept s (s.onDeck d run) := by
  unfold State.onDeck
  exact Kept.ite (State.abutCommand_keeps ..) (Kept.ite (State.faultCommand_keeps ..) (Kept.ite (h s) (.refl _)))

theorem State.spanRow_kept (s : State) (d) : Kept s (s.spanRow d) := by
  unfold State.spanRow
  exact onDeck_kept _ _ _ fun t => Kept.trans (State.prepare_keeps ..) (State.runSpan_keeps ..)
@[simp] theorem State.spanRow_keeps (s x1) :
    (State.spanRow s x1).pending = s.pending ∧ (State.spanRow s x1).mrm.mem = s.mrm.mem := by
  exact State.spanRow_kept ..

theorem State.deckRow_kept (s : State) (d) : Kept s (s.deckRow d) := by
  unfold State.deckRow
  exact onDeck_kept _ _ _ fun t => State.runDeck_keeps ..
@[simp] theorem State.deckRow_keeps (s x1) :
    (State.deckRow s x1).pending = s.pending ∧ (State.deckRow s x1).mrm.mem = s.mrm.mem := by
  exact State.deckRow_kept ..

theorem execNop_keeps (x0 s) : outKeeps (execNop x0 s) s := by
  simp [execNop]

theorem execAbortCmd_keeps (x0 s) : outKeeps (execAbortCmd x0 s) s := by
  simp [execAbortCmd]

theorem execDeckRestart_keeps (d) (s : State) : outKeeps (execDeckRestart d s) s := by
  unfold execDeckRestart
  refine onDeck_kept _ _ _ fun t => Kept.ite (Kept.trans (State.leaveToTwin_keeps ..) (State.unstage_keeps ..)) ?_
  split
  · exact State.deckFinish_keeps ..
  · exact State.deckRestart_keeps ..

theorem execLtWrite_keeps (x0 s) : outKeeps (execLtWrite x0 s) s := by
  simp [execLtWrite]

theorem execLtClear_keeps (x0 s) : outKeeps (execLtClear x0 s) s := by
  simp [execLtClear]

theorem execCalMap_keeps (x0 s) : outKeeps (execCalMap x0 s) s := by
  simp [execCalMap]

theorem execHandover_keeps (x0 s) : outKeeps (execHandover x0 s) s := by
  simp [execHandover]

theorem execTlSet_keeps (x0 s) : outKeeps (execTlSet x0 s) s := by
  simp [execTlSet]

theorem execEngCoef_keeps (x0 s) : outKeeps (execEngCoef x0 s) s := by
  simp [execEngCoef]

theorem execEngLimit_keeps (x0 s) : outKeeps (execEngLimit x0 s) s := by
  simp [execEngLimit]

theorem execAdcCal_keeps (x0 s) : outKeeps (execAdcCal x0 s) s := by
  simp [execAdcCal]

theorem execPairRearm_keeps (x0 s) : outKeeps (execPairRearm x0 s) s := by
  simp [execPairRearm]

theorem execAdcTrig_keeps (x0 s) : outKeeps (execAdcTrig x0 s) s := by
  simp [execAdcTrig]

theorem execTripClear_keeps (x0 s) : outKeeps (execTripClear x0 s) s := by
  simp [execTripClear]

theorem execPierClear_keeps (x0 s) : outKeeps (execPierClear x0 s) s := by
  simp [execPierClear]

theorem execRecTrig_keeps (x0 s) : outKeeps (execRecTrig x0 s) s := by
  simp [execRecTrig]

theorem execMode_keeps (x0 s) : outKeeps (execMode x0 s) s := by
  simp [execMode]

theorem execTqTarget_keeps (x0 s) : outKeeps (execTqTarget x0 s) s := by
  simp [execTqTarget]

theorem execSpdTarget_keeps (x0 s) : outKeeps (execSpdTarget x0 s) s := by
  simp [execSpdTarget]

theorem execTPosRearm_keeps (x0 s) : outKeeps (execTPosRearm x0 s) s := by
  simp [execTPosRearm]

theorem execCVtgt_keeps (x0 s) : outKeeps (execCVtgt x0 s) s := by
  simp [execCVtgt]

theorem execCItgt_keeps (x0 s) : outKeeps (execCItgt x0 s) s := by
  simp [execCItgt]

theorem execCPhases_keeps (x0 s) : outKeeps (execCPhases x0 s) s := by
  simp [execCPhases]

theorem execCCrowbarClr_keeps (x0 s) : outKeeps (execCCrowbarClr x0 s) s := by
  simp [execCCrowbarClr]

theorem execQPower_keeps (x0 s) : outKeeps (execQPower x0 s) s := by
  simp [execQPower]

theorem execAHold_keeps (x0 s) : outKeeps (execAHold x0 s) s := by
  simp [execAHold]

theorem execAShift_keeps (x0 s) : outKeeps (execAShift x0 s) s := by
  simp [execAShift]

theorem execAPark_keeps (x0 s) : outKeeps (execAPark x0 s) s := by
  simp [execAPark]

theorem execARelease_keeps (x0 s) : outKeeps (execARelease x0 s) s := by
  simp [execARelease]

theorem execACurrent_keeps (x0 s) : outKeeps (execACurrent x0 s) s := by
  simp [execACurrent]

theorem execAHome_keeps (x0 s) : outKeeps (execAHome x0 s) s := by
  simp [execAHome]

theorem execAPosRearm_keeps (x0 s) : outKeeps (execAPosRearm x0 s) s := by
  simp [execAPosRearm]

@[simp] theorem State.testDone_keeps (s x1 x2 x3) :
    (State.testDone s x1 x2 x3).pending = s.pending ∧ (State.testDone s x1 x2 x3).mrm.mem = s.mrm.mem := by
  refine ⟨?_, ?_⟩ <;> (simp only [State.testDone]; split <;> simp)

theorem execSelfTest_keeps (x0 x1 s) : outKeeps (execSelfTest x0 x1 s) s := by
  simp [execSelfTest]

@[simp] theorem State.actionSpan_keeps (s x1 x2) :
    (State.actionSpan s x1 x2).2.pending = s.pending ∧ (State.actionSpan s x1 x2).2.mrm.mem = s.mrm.mem := by
  refine ⟨?_, ?_⟩ <;> (simp only [State.actionSpan]; (repeat' split) <;> simp_all)

theorem State.runAction_kept (s : State) (x1) : Kept s (s.runAction x1) := by
  unfold State.runAction
  extract_lets -merge +onlyGivenNames b v xs
  refine Kept.ite ⟨rfl, rfl⟩ ?_
  extract_lets step
  have h : Kept s (xs.foldl step (s, 0, 0)).1 := by
    refine Kept.foldl_on (fun b : State × Nat × Nat => b.1) step (fun q x => ?_) _ (s, 0, 0)
    dsimp only [step]
    split
    · exact .refl _
    · exact Kept.trans (State.actionSpan_keeps ..) (Kept.foldl (fun (t : State) q => { t with stage := t.stage.quantity none q }) (fun t q => ⟨rfl, rfl⟩) _ _)
  generalize xs.foldl step (s, 0, 0) = r at *
  obtain ⟨t, st, no⟩ := r
  exact Kept.trans h ⟨rfl, rfl⟩
@[simp] theorem State.runAction_keeps (s x1) :
    (State.runAction s x1).pending = s.pending ∧ (State.runAction s x1).mrm.mem = s.mrm.mem := by
  exact State.runAction_kept ..

theorem State.runProfile_kept (s : State) (x1) : Kept s (s.runProfile x1) := by
  unfold State.runProfile
  extract_lets x m y act
  have h : ∀ r, act = some r → Kept s r.2 := by
    intro r hr
    dsimp only [act] at hr
    repeat' split at hr
    all_goals first
      | (cases hr; done)
      | (cases hr
         first
           | exact State.modeSpan_keeps ..
           | exact State.aHoldHere_keeps ..
           | exact State.aParkCmd_keeps ..)
  clear_value act
  split
  · exact .refl _
  · exact State.withStage_keeps ..
  · exact Kept.trans (h _ rfl) (State.withStage_keeps ..)
@[simp] theorem State.runProfile_keeps (s x1) :
    (State.runProfile s x1).pending = s.pending ∧ (State.runProfile s x1).mrm.mem = s.mrm.mem := by
  exact State.runProfile_kept ..

@[simp] theorem State.fetchSlip_keeps (s) :
    (State.fetchSlip s).pending = s.pending ∧ (State.fetchSlip s).mrm.mem = s.mrm.mem := by
  refine ⟨?_, ?_⟩ <;> (simp only [State.fetchSlip]; split <;> simp)

@[simp] theorem State.pageFailed_keeps (s) :
    (State.pageFailed s).pending = s.pending ∧ (State.pageFailed s).mrm.mem = s.mrm.mem := by
  refine ⟨?_, ?_⟩ <;> simp [State.pageFailed]

@[simp] theorem State.takePage_keeps (s x1) :
    (State.takePage s x1).pending = s.pending ∧ (State.takePage s x1).mrm.mem = s.mrm.mem := by
  exact ⟨rfl, rfl⟩

@[simp] theorem State.judgeFull_keeps (s) :
    (State.judgeFull s).pending = s.pending ∧ (State.judgeFull s).mrm.mem = s.mrm.mem := by
  refine ⟨?_, ?_⟩ <;> (simp only [State.judgeFull]; split <;> simp)

@[simp] theorem State.fetchError_keeps (s x1 x2 x3) :
    (State.fetchError s x1 x2 x3).pending = s.pending ∧ (State.fetchError s x1 x2 x3).mrm.mem = s.mrm.mem := by
  refine ⟨?_, ?_⟩ <;> simp [State.fetchError]

@[simp] theorem State.fetchOne_keeps (s x1) :
    (State.fetchOne s x1).pending = s.pending ∧ (State.fetchOne s x1).mrm.mem = s.mrm.mem := by
  refine ⟨?_, ?_⟩ <;> (simp only [State.fetchOne]; split <;> simp)

@[simp] theorem State.hostLoss_keeps (s x1) :
    (State.hostLoss s x1).pending = s.pending ∧ (State.hostLoss s x1).mrm.mem = s.mrm.mem := by
  refine ⟨?_, ?_⟩ <;> simp [State.hostLoss]

@[simp] theorem State.hostBack_keeps (s) :
    (State.hostBack s).pending = s.pending ∧ (State.hostBack s).mrm.mem = s.mrm.mem := by
  refine ⟨?_, ?_⟩ <;> simp [State.hostBack]

@[simp] theorem State.judgeHost_keeps (s x1 x2) :
    (State.judgeHost s x1 x2).pending = s.pending ∧ (State.judgeHost s x1 x2).mrm.mem = s.mrm.mem := by
  refine ⟨?_, ?_⟩ <;> (unfold State.judgeHost; (repeat' split) <;> simp)

@[simp] theorem State.takeDescs_keeps (s x1) :
    (State.takeDescs s x1).pending = s.pending ∧ (State.takeDescs s x1).mrm.mem = s.mrm.mem := by
  refine ⟨?_, ?_⟩ <;> simp [State.takeDescs]

@[simp] theorem State.fetchPage_keeps (s x1 x2) :
    (State.fetchPage s x1 x2).pending = s.pending ∧ (State.fetchPage s x1 x2).mrm.mem = s.mrm.mem := by
  refine ⟨?_, ?_⟩ <;> (simp only [State.fetchPage]; (repeat' split) <;> simp_all)

theorem execDoorbellFetch_keeps (x0 x1 s) : outKeeps (execDoorbellFetch x0 x1 s) s := by
  unfold execDoorbellFetch; (repeat' split) <;> simp

theorem execAbutmentServiceTick_keeps (x0 x1) (s : State) : outKeeps (execAbutmentServiceTick x0 x1 s) s := by
  unfold execAbutmentServiceTick
  refine outKeeps.ite (outKeeps.of (.refl _)) ?_
  extract_lets -merge +onlyGivenNames m _ _ s1 due s2
  have h1 : Kept s s1 := ⟨rfl, rfl⟩
  have h2 : Kept s s2 := h1.trans (Kept.foldl _ (fun t d => Kept.ite (State.abutCommand_keeps ..) (.refl _)) _ _)
  clear_value s2
  refine outKeeps.ite (outKeeps.of h2) ?_
  extract_lets -merge +onlyGivenNames s3 old s4
  have h3 : Kept s s3 := h2.trans (Kept.trans (State.writeCompletions_keeps ..) (State.writeEvents_keeps ..))
  have h4 : Kept s s4 := h3.trans (Kept.ite (Kept.trans (State.advanceProd_keeps ..) (State.fetchPage_keeps ..)) (.refl _))
  clear_value s4
  exact outKeeps.of (h4.trans ⟨rfl, rfl⟩)

@[simp] theorem State.fbReply_keeps (s x1 x2 x3 x4) :
    (State.fbReply s x1 x2 x3 x4).pending = s.pending ∧ (State.fbReply s x1 x2 x3 x4).mrm.mem = s.mrm.mem := by
  refine ⟨?_, ?_⟩ <;> simp [State.fbReply]

@[simp] theorem State.fbRefuse_keeps (s x1 x2 x3) :
    (State.fbRefuse s x1 x2 x3).pending = s.pending ∧ (State.fbRefuse s x1 x2 x3).mrm.mem = s.mrm.mem := by
  refine ⟨?_, ?_⟩ <;> simp [State.fbRefuse]

theorem execFallbackFrame_keeps (s) : outKeeps (execFallbackFrame s) s := by
  simp only [execFallbackFrame]; (repeat' split) <;> simp

theorem State.fbApply_kept (s : State) (x1) : Kept s (s.fbApply x1) := by
  unfold State.fbApply
  extract_lets stopNo step
  have ha : ∀ act ∈ s.fbActs x1, ∀ t, Kept t (act t).2 := by
    intro act h t
    unfold State.fbActs at h
    extract_lets at h
    split at h
    · rcases List.mem_append.mp h with h | h
      all_goals
        obtain ⟨x, -, rfl⟩ := List.mem_map.mp h
        first | exact State.modeSpan_keeps .. | exact State.aHoldHere_keeps ..
    · obtain ⟨x, -, rfl⟩ := List.mem_map.mp h
      exact State.modeSpan_keeps ..
    · obtain ⟨x, -, rfl⟩ := List.mem_map.mp h
      exact State.aParkCmd_keeps ..
    · exact absurd h List.not_mem_nil
  have h : ∀ (l : List (State → Verdict × State)) (q : State × Bool), (∀ act ∈ l, ∀ t, Kept t (act t).2) → Kept q.1 (l.foldl step q).1 := by
    intro l
    induction l with
    | nil => exact fun q _ => .refl _
    | cons a l ih =>
      intro q hl
      refine Kept.trans ?_ (ih _ fun b hb => hl b (List.mem_cons_of_mem _ hb))
      dsimp only [step]
      split
      · exact .refl _
      · exact hl a List.mem_cons_self q.1
  have h := h _ (s, stopNo) ha
  generalize (s.fbActs x1).foldl step (s, stopNo) = r at *
  obtain ⟨t, no⟩ := r
  exact Kept.trans h (State.withStage_keeps ..)
@[simp] theorem State.fbApply_keeps (s x1) :
    (State.fbApply s x1).pending = s.pending ∧ (State.fbApply s x1).mrm.mem = s.mrm.mem := by
  exact State.fbApply_kept ..

theorem execPhi0Snapshot_keeps (x0 x1 s) : outKeeps (execPhi0Snapshot x0 x1 s) s := by
  unfold execPhi0Snapshot; (repeat' split) <;> simp

@[simp] theorem State.derateLink_keeps (s) :
    (State.derateLink s).pending = s.pending ∧ (State.derateLink s).mrm.mem = s.mrm.mem := by
  exact ⟨rfl, rfl⟩

@[simp] theorem State.keepS3_keeps (s x1 x2 x3 x4) :
    (State.keepS3 s x1 x2 x3 x4).pending = s.pending ∧ (State.keepS3 s x1 x2 x3 x4).mrm.mem = s.mrm.mem := by
  refine ⟨?_, ?_⟩ <;> (simp only [State.keepS3]; split <;> simp)

@[simp] theorem State.engines_keeps (s x1 x2 x3) :
    (State.engines s x1 x2 x3).1.pending = s.pending ∧ (State.engines s x1 x2 x3).1.mrm.mem = s.mrm.mem := by
  refine ⟨?_, ?_⟩ <;> simp [State.engines]

@[simp] theorem State.computeTrac_keeps (s x1 x2) :
    (State.computeTrac s x1 x2).pending = s.pending ∧ (State.computeTrac s x1 x2).mrm.mem = s.mrm.mem := by
  refine ⟨?_, ?_⟩ <;> (simp only [State.computeTrac]; split <;> simp)

@[simp] theorem State.computeC_keeps (s x1) :
    (State.computeC s x1).pending = s.pending ∧ (State.computeC s x1).mrm.mem = s.mrm.mem := by
  refine ⟨?_, ?_⟩ <;> (simp only [State.computeC]; split <;> simp)

@[simp] theorem State.computeQ_keeps (s x1) :
    (State.computeQ s x1).pending = s.pending ∧ (State.computeQ s x1).mrm.mem = s.mrm.mem := by
  refine ⟨?_, ?_⟩ <;> (simp only [State.computeQ]; split <;> simp)

@[simp] theorem State.computeB_keeps (s) :
    (State.computeB s).pending = s.pending ∧ (State.computeB s).mrm.mem = s.mrm.mem := by
  refine ⟨?_, ?_⟩ <;> (simp only [State.computeB]; split <;> simp)

@[simp] theorem State.computeA_keeps (s x1 x2) :
    (State.computeA s x1 x2).pending = s.pending ∧ (State.computeA s x1 x2).mrm.mem = s.mrm.mem := by
  refine ⟨?_, ?_⟩ <;> (unfold State.computeA; (repeat' split) <;> simp)

@[simp] theorem State.computeSpans_keeps (s) :
    (State.computeSpans s).pending = s.pending ∧ (State.computeSpans s).mrm.mem = s.mrm.mem := by
  refine ⟨?_, ?_⟩ <;> simp [State.computeSpans]

@[simp] theorem State.putOff_keeps (s x1 x2) :
    (State.putOff s x1 x2).2.pending = s.pending ∧ (State.putOff s x1 x2).2.mrm.mem = s.mrm.mem := by
  refine ⟨?_, ?_⟩ <;> (simp only [State.putOff]; split <;> simp)

/-- One staged command of the scan. -/
theorem runStaged_kept (p : State × Nat) (d : Staged) : Kept p.1 (State.runStaged p d).1 := by
  unfold State.runStaged
  extract_lets -merge +onlyGivenNames s std
  have h : Kept s (s.putOff d p.2).2 := State.putOff_keeps ..
  generalize s.putOff d p.2 = r at *
  obtain ⟨off, t⟩ := r
  dsimp -zeta only
  split
  · exact h
  extract_lets -merge +onlyGivenNames k
  split
  · exact State.runSpan_keeps ..
  split
  · exact .refl _
  split
  · exact ⟨rfl, rfl⟩
  split
  · exact State.leaveToTwin_keeps ..
  split
  · exact ⟨rfl, rfl⟩
  · extract_lets -merge +onlyGivenNames u
    have hu : Kept s u := Kept.ite (State.stageHandover_keeps ..) (.refl _)
    clear_value u
    exact Kept.trans hu ⟨rfl, rfl⟩

theorem State.runCommands_kept (s : State) : Kept s s.runCommands := by
  unfold State.runCommands
  extract_lets -merge +onlyGivenNames b s1 s2 s3
  have h1 : Kept s s1 := Kept.foldl State.runProfile State.runProfile_keeps _ _
  have h2 : Kept s s2 := h1.trans (Kept.foldl_on (fun b : State × Nat => b.1) State.runStaged (runStaged_kept) _ (s1, 0))
  have h3 : Kept s s3 := h2.trans (Kept.foldl _ (fun t f => State.fbApply_keeps ..) _ _)
  exact h3.trans (Kept.foldl State.runAction State.runAction_keeps _ _)
@[simp] theorem State.runCommands_keeps (s) :
    (State.runCommands s).pending = s.pending ∧ (State.runCommands s).mrm.mem = s.mrm.mem := by
  exact State.runCommands_kept ..

@[simp] theorem State.judgeSlack_keeps (s x1) :
    (State.judgeSlack s x1).pending = s.pending ∧ (State.judgeSlack s x1).mrm.mem = s.mrm.mem := by
  refine ⟨?_, ?_⟩ <;> (simp only [State.judgeSlack]; split <;> simp)

@[simp] theorem State.doNote_keeps (s x1) :
    (State.doNote s x1).pending = s.pending ∧ (State.doNote s x1).mrm.mem = s.mrm.mem := by
  refine ⟨?_, ?_⟩ <;> (unfold State.doNote; (repeat' split) <;> simp)

@[simp] theorem State.raiseFound_keeps (s) :
    (State.raiseFound s).pending = s.pending ∧ (State.raiseFound s).mrm.mem = s.mrm.mem := by
  refine ⟨?_, ?_⟩ <;> simp [State.raiseFound]

theorem execPhi2Compute_keeps (x0 x1 s) : outKeeps (execPhi2Compute x0 x1 s) s := by
  unfold execPhi2Compute; (repeat' split) <;> simp

@[simp] theorem State.dropRunning_keeps (s) :
    (State.dropRunning s).pending = s.pending ∧ (State.dropRunning s).mrm.mem = s.mrm.mem := by
  exact ⟨rfl, rfl⟩

@[simp] theorem State.faultCompletions_keeps (s) :
    (State.faultCompletions s).pending = s.pending ∧ (State.faultCompletions s).mrm.mem = s.mrm.mem := by
  refine ⟨?_, ?_⟩ <;> (simp only [State.faultCompletions]; split <;> simp)

@[simp] theorem State.sendFrame_keeps (s x1) :
    (State.sendFrame s x1).pending = s.pending ∧ (State.sendFrame s x1).mrm.mem = s.mrm.mem := by
  refine ⟨?_, ?_⟩ <;> (simp only [State.sendFrame]; (repeat' split) <;> simp_all)

@[simp] theorem State.dropEvents_keeps (s) :
    (State.dropEvents s).pending = s.pending ∧ (State.dropEvents s).mrm.mem = s.mrm.mem := by
  exact ⟨rfl, rfl⟩

@[simp] theorem State.writeRings_keeps (s) :
    (State.writeRings s).pending = s.pending ∧ (State.writeRings s).mrm.mem = s.mrm.mem := by
  refine ⟨?_, ?_⟩ <;> (unfold State.writeRings; (repeat' split) <;> simp)

theorem execPhi3Mirror_keeps (s : State) : outKeeps (execPhi3Mirror s) s := by
  unfold execPhi3Mirror
  refine outKeeps.ite (outKeeps.of (.refl _)) ?_
  extract_lets -merge +onlyGivenNames _ s1 s2
  have h1 : Kept s s1 := Kept.trans (t := { s with tk := { s.tk with phi3Done := true } }) ⟨rfl, rfl⟩ (State.writeRings_keeps ..)
  have h2 : Kept s s2 := h1.trans (State.sendFrame_keeps ..)
  clear_value s2
  split
  · exact outKeeps.of (h2.trans (State.deckRestart_keeps ..))
  · exact outKeeps.of h2

@[simp] theorem State.commitStage_keeps (s x1) :
    (State.commitStage s x1).pending = s.pending ∧ (State.commitStage s x1).mrm.mem = s.mrm.mem := by
  refine ⟨?_, ?_⟩ <;> simp [State.commitStage]

@[simp] theorem State.actionAt_keeps (s x1 x2 x3 x4) :
    (State.actionAt s x1 x2 x3 x4).pending = s.pending ∧ (State.actionAt s x1 x2 x3 x4).mrm.mem = s.mrm.mem := by
  refine ⟨?_, ?_⟩ <;> (simp only [State.actionAt]; (repeat' split) <;> simp_all)

@[simp] theorem State.launchAt_keeps (s x1 x2 x3 x4) :
    (State.launchAt s x1 x2 x3 x4).pending = s.pending ∧ (State.launchAt s x1 x2 x3 x4).mrm.mem = s.mrm.mem := by
  refine ⟨?_, ?_⟩ <;> simp [State.launchAt]

theorem State.deckCommands_kept (s : State) (x1 x2 x3 x4) : Kept s (s.deckCommands x1 x2 x3 x4) := by
  unfold State.deckCommands
  extract_lets due isReg later one
  have h : ∀ t d, Kept t (one t d) := by
    intro t d
    dsimp only [one]
    split
    · exact State.deckFinish_keeps ..
    · exact Kept.ite (.refl _) (Kept.ite (State.unstage_keeps ..) (State.deckEffect_keeps ..))
  exact (Kept.foldl one h _ _).trans (Kept.foldl one h _ _)
@[simp] theorem State.deckCommands_keeps (s x1 x2 x3 x4) :
    (State.deckCommands s x1 x2 x3 x4).pending = s.pending ∧ (State.deckCommands s x1 x2 x3 x4).mrm.mem = s.mrm.mem := by
  exact State.deckCommands_kept ..

@[simp] theorem State.overdue_keeps (s x1 x2) :
    (State.overdue s x1 x2).pending = s.pending ∧ (State.overdue s x1 x2).mrm.mem = s.mrm.mem := by
  exact ⟨rfl, rfl⟩

@[simp] theorem State.overrun_keeps (s x1) :
    (State.overrun s x1).pending = s.pending ∧ (State.overrun s x1).mrm.mem = s.mrm.mem := by
  refine ⟨?_, ?_⟩ <;> (simp only [State.overrun]; (repeat' split) <;> simp_all)

@[simp] theorem State.overrunEvents_keeps (s x1 x2) :
    (State.overrunEvents s x1 x2).pending = s.pending ∧ (State.overrunEvents s x1 x2).mrm.mem = s.mrm.mem := by
  refine ⟨?_, ?_⟩ <;> (simp only [State.overrunEvents]; split <;> simp)

@[simp] theorem State.capacityBoundary_keeps (s) :
    (State.capacityBoundary s).pending = s.pending ∧ (State.capacityBoundary s).mrm.mem = s.mrm.mem := by
  show Kept s _; unfold State.capacityBoundary; (try extract_lets); (repeat' first | split | exact Kept.refl _ | with_reducible exact (Kept.of (State.raise_keeps ..)) | with_reducible exact (Kept.of (State.updateAvail_keeps ..)) | with_reducible refine Kept.ite ?_ ?_ | with_reducible refine Kept.trans ?_ (Kept.of (State.raise_keeps ..)) | with_reducible refine Kept.trans ?_ (Kept.of (State.updateAvail_keeps ..)) | with_reducible refine Kept.trans ?_ (Kept.foldl _ (fun _ _ => ?_) _ _) | with_reducible refine Kept.trans ?_ (Kept.ite ?_ ?_) | with_reducible refine Kept.trans ?_ (Kept.lit _ _ (by rfl) ..))

theorem State.forgetRefusals_kept (s : State) : Kept s s.forgetRefusals := by
  unfold State.forgetRefusals
  exact Kept.foldl _ (fun t c => Kept.ite (State.updConv_keeps ..) (.refl _)) _ _
@[simp] theorem State.forgetRefusals_keeps (s) :
    (State.forgetRefusals s).pending = s.pending ∧ (State.forgetRefusals s).mrm.mem = s.mrm.mem := by
  exact State.forgetRefusals_kept ..

@[simp] theorem State.openTick_keeps (s x1) :
    (State.openTick s x1).pending = s.pending ∧ (State.openTick s x1).mrm.mem = s.mrm.mem := by
  exact ⟨rfl, rfl⟩

@[simp] theorem State.captures_keeps (s x1) :
    (State.captures s x1).pending = s.pending ∧ (State.captures s x1).mrm.mem = s.mrm.mem := by
  refine ⟨?_, ?_⟩ <;> simp [State.captures]

@[simp] theorem State.giveUpSafe_keeps (s) :
    (State.giveUpSafe s).pending = s.pending ∧ (State.giveUpSafe s).mrm.mem = s.mrm.mem := by
  refine ⟨?_, ?_⟩ <;> simp [State.giveUpSafe]

theorem State.trussBoundary_kept (s : State) (x1 x2 x3) : Kept s (s.trussBoundary x1 x2 x3) := by
  unfold State.trussBoundary
  extract_lets s1 s2
  have h1 : Kept s s1 := Kept.trans (State.moveSets_keeps ..) (State.latchPatterns_keeps ..)
  have h2 : Kept s s2 := h1.trans (State.syncCheck_keeps ..)
  have h3 : Kept s (s2.dtUpset x2.dtUpset).dtBoundary.1 := h2.trans (Kept.trans (State.dtUpset_keeps ..) (State.dtBoundary_keeps ..))
  clear_value s2
  generalize (s2.dtUpset x2.dtUpset).dtBoundary = r at *
  obtain ⟨t, bad⟩ := r
  exact Kept.trans h3 (Kept.ite (State.digestFault_keeps ..) (.refl _))
@[simp] theorem State.trussBoundary_keeps (s x1 x2 x3) :
    (State.trussBoundary s x1 x2 x3).pending = s.pending ∧ (State.trussBoundary s x1 x2 x3).mrm.mem = s.mrm.mem := by
  exact State.trussBoundary_kept ..

@[simp] theorem State.startAndPair_keeps (s) :
    (State.startAndPair s).pending = s.pending ∧ (State.startAndPair s).mrm.mem = s.mrm.mem := by
  refine ⟨?_, ?_⟩ <;> (simp only [State.startAndPair]; split <;> simp)

@[simp] theorem State.lateLong_keeps (s) :
    (State.lateLong s).pending = s.pending ∧ (State.lateLong s).mrm.mem = s.mrm.mem := by
  refine ⟨?_, ?_⟩ <;> (simp only [State.lateLong]; split <;> simp)

@[simp] theorem State.endTick_keeps (s x1 x2) :
    (State.endTick s x1 x2).pending = s.pending ∧ (State.endTick s x1 x2).mrm.mem = s.mrm.mem := by
  refine ⟨?_, ?_⟩ <;> (simp only [State.endTick]; (repeat' split) <;> simp_all)

theorem State.landTick_kept (s : State) (x1 x2 x3 x4 x5) : Kept s (s.landTick x1 x2 x3 x4 x5) := by
  unfold State.landTick
  extract_lets -merge +onlyGivenNames b old posted landed s1 s2 s3
  have h1 : Kept s s1 := Kept.trans (State.landTl_keeps ..) (Kept.trans (State.commitStage_keeps ..) (State.launchAt_keeps ..))
  have h2 : Kept s s2 := h1.trans (Kept.ite (.refl _) (Kept.trans (State.deckCommands_keeps ..) (State.overdue_keeps ..)))
  have h3 : Kept s s3 := h2.trans (Kept.ite (State.keystoneSafe_keeps ..) (.refl _))
  exact h3.trans (Kept.trans (State.giveUpSafe_keeps ..) (State.trussBoundary_keeps ..))
@[simp] theorem State.landTick_keeps (s x1 x2 x3 x4 x5) :
    (State.landTick s x1 x2 x3 x4 x5).pending = s.pending ∧ (State.landTick s x1 x2 x3 x4 x5).mrm.mem = s.mrm.mem := by
  exact State.landTick_kept ..

@[simp] theorem State.beginTick_keeps (s x1 x2) :
    (State.beginTick s x1 x2).pending = s.pending ∧ (State.beginTick s x1 x2).mrm.mem = s.mrm.mem := by
  refine ⟨?_, ?_⟩ <;> (simp [State.beginTick])

theorem execTickBoundary_keeps (x0 s) : outKeeps (execTickBoundary x0 s) s := by
  unfold execTickBoundary; (repeat' split) <;> simp

end Sys2Proof.Machine
end

