-- ==== Sys2Proof/Laws/Line.lean ====
section
/-! SUPPORT. What the lemmas of the fault line say: a step, a fold of steps and an outcome hold the fault line once it is asserted (R251). -/
namespace Sys2Proof.Machine

/-- The fault line stands at `t` where it stands at `s`. -/
structure Held (s t : State) : Prop where
  go : s.kst.faultLine = true → t.kst.faultLine = true
/-- A fold of steps that each hold the line holds it. -/
@[simp] theorem foldl_line {α : Type} (g : State → α → State) (l : List α) (s : State)
    (h : ∀ t a, t.kst.faultLine = true → (g t a).kst.faultLine = true) (hs : s.kst.faultLine = true) :
    (l.foldl g s).kst.faultLine = true := by
  induction l generalizing s with
  | nil => exact hs
  | cons a l ih => exact ih _ (h s a hs)
/-- Nothing has moved. -/
theorem Held.refl (s : State) : Held s s := ⟨fun h => h⟩
/-- One step after another. -/
theorem Held.trans {s t u : State} (h : Held s t) (k : Held t u) : Held s u := ⟨fun x => k.go (h.go x)⟩
/-- A fold of steps. -/
theorem Held.foldl {α : Type} (g : State → α → State) (h : ∀ t a, Held t (g t a)) (l : List α) (s : State) : Held s (l.foldl g s) :=
  ⟨fun x => foldl_line g l s (fun t a => (h t a).go) x⟩
/-- The same of a fold that carries more than a state. -/
theorem Held.foldl_on {α β : Type} (π : β → State) (g : β → α → β) (h : ∀ b a, Held (π b) (π (g b a))) (l : List α) (b : β) :
    Held (π b) (π (l.foldl g b)) := by
  induction l generalizing b with
  | nil => exact .refl _
  | cons a l ih => exact (h b a).trans (ih _)
/-- Either branch. -/
theorem Held.ite {c : Prop} [Decidable c] {s t u : State} (h : Held s t) (k : Held s u) : Held s (if c then t else u) := by
  split <;> assumption
/-- A record that does not differ in the fault line. -/
theorem Held.same {s t : State} (h : t.kst.faultLine = s.kst.faultLine) : Held s t := ⟨fun x => h.trans x⟩
/-- A record that leaves the fault line alone. -/
theorem Held.lit (t : State) (kst : KstS) (h : kst.faultLine = t.kst.faultLine) (x0 x1 x2 x3 x4 x5 x6 x7 x8 x9 x10 x11 x12 x13 x14 x15 x16 x17 x19 x20 x21 x22 x23 x24 x25 x26 x27 x28 x29) :
    Held t (State.mk x0 x1 x2 x3 x4 x5 x6 x7 x8 x9 x10 x11 x12 x13 x14 x15 x16 x17 kst x19 x20 x21 x22 x23 x24 x25 x26 x27 x28 x29) := Held.same h
/-- An outcome whose next state holds the line. -/
def outHeld (o : Host.Outcome State Fault Refusal) (s : State) : Prop :=
  match o with
  | .next t => Held s t
  | _ => True
@[simp] theorem outHeld_next (t s : State) :
    outHeld (Host.Outcome.next t) s ↔ (s.kst.faultLine = true → t.kst.faultLine = true) := ⟨Held.go, Held.mk⟩
/-- The outcome of a state that holds it. -/
theorem outHeld.of {s t : State} (h : Held s t) : outHeld (.next t) s := h
/-- Either branch of an outcome. -/
theorem outHeld.ite {c : Prop} [Decidable c] {s : State} {o p : Host.Outcome State Fault Refusal} (h : outHeld o s)
    (k : outHeld p s) : outHeld (if c then o else p) s := by
  split <;> assumption

end Sys2Proof.Machine
end

