-- ==== Sys2Proof/Laws/LineSpans.lean ====
section
/-! SUPPORT. One lemma per operation and command: the parts, the sensing, the legs and the spans hold the fault line once it is asserted (R251). -/
namespace Sys2Proof.Machine
set_option linter.all false

theorem State.setReg_held (s x1 x2) : Held s (State.setReg s x1 x2) := by
  exact ⟨fun h => h⟩

@[simp] theorem State.setReg_line (s x1 x2) (h : s.kst.faultLine = true) :
    (State.setReg s x1 x2).kst.faultLine = true := (State.setReg_held _ _ _).go h

theorem State.updLeg_held (s x1 x2) : Held s (State.updLeg s x1 x2) := by
  exact ⟨fun h => h⟩

@[simp] theorem State.updLeg_line (s x1 x2) (h : s.kst.faultLine = true) :
    (State.updLeg s x1 x2).kst.faultLine = true := (State.updLeg_held _ _ _).go h

theorem State.updLegs_held (s x1 x2) : Held s (State.updLegs s x1 x2) := by
  constructor; intro h; simp only [State.updLegs]; (repeat' split) <;> simp_all (maxDischargeDepth := 12)

@[simp] theorem State.updLegs_line (s x1 x2) (h : s.kst.faultLine = true) :
    (State.updLegs s x1 x2).kst.faultLine = true := (State.updLegs_held _ _ _).go h

theorem State.updConv_held (s x1 x2) : Held s (State.updConv s x1 x2) := by
  exact ⟨fun h => h⟩

@[simp] theorem State.updConv_line (s x1 x2) (h : s.kst.faultLine = true) :
    (State.updConv s x1 x2).kst.faultLine = true := (State.updConv_held _ _ _).go h

theorem State.updInp_held (s x1 x2) : Held s (State.updInp s x1 x2) := by
  exact ⟨fun h => h⟩

@[simp] theorem State.updInp_line (s x1 x2) (h : s.kst.faultLine = true) :
    (State.updInp s x1 x2).kst.faultLine = true := (State.updInp_held _ _ _).go h

theorem State.updPair_held (s x1 x2) : Held s (State.updPair s x1 x2) := by
  exact ⟨fun h => h⟩

@[simp] theorem State.updPair_line (s x1 x2) (h : s.kst.faultLine = true) :
    (State.updPair s x1 x2).kst.faultLine = true := (State.updPair_held _ _ _).go h

theorem State.updRej_held (s x1 x2) : Held s (State.updRej s x1 x2) := by
  exact ⟨fun h => h⟩

@[simp] theorem State.updRej_line (s x1 x2) (h : s.kst.faultLine = true) :
    (State.updRej s x1 x2).kst.faultLine = true := (State.updRej_held _ _ _).go h

theorem State.updHall_held (s x1 x2) : Held s (State.updHall s x1 x2) := by
  exact ⟨fun h => h⟩

@[simp] theorem State.updHall_line (s x1 x2) (h : s.kst.faultLine = true) :
    (State.updHall s x1 x2).kst.faultLine = true := (State.updHall_held _ _ _).go h

theorem State.updPort_held (s x1 x2) : Held s (State.updPort s x1 x2) := by
  exact ⟨fun h => h⟩

@[simp] theorem State.updPort_line (s x1 x2) (h : s.kst.faultLine = true) :
    (State.updPort s x1 x2).kst.faultLine = true := (State.updPort_held _ _ _).go h

theorem State.updPos_held (s x1 x2) : Held s (State.updPos s x1 x2) := by
  constructor; intro h; simp only [State.updPos]; split <;> simp (maxDischargeDepth := 12) [h]

@[simp] theorem State.updPos_line (s x1 x2) (h : s.kst.faultLine = true) :
    (State.updPos s x1 x2).kst.faultLine = true := (State.updPos_held _ _ _).go h

theorem State.stick_held (s x1) : Held s (State.stick s x1) := by
  exact ⟨fun h => h⟩

@[simp] theorem State.stick_line (s x1) (h : s.kst.faultLine = true) :
    (State.stick s x1).kst.faultLine = true := (State.stick_held _ _).go h

theorem State.at_held (s x1) : Held s (State.at s x1) := by
  exact ⟨fun h => h⟩

@[simp] theorem State.at_line (s x1) (h : s.kst.faultLine = true) :
    (State.at s x1).kst.faultLine = true := (State.at_held _ _).go h

theorem State.goto_held (s x1) : Held s (State.goto s x1) := by
  exact ⟨fun h => h⟩

@[simp] theorem State.goto_line (s x1) (h : s.kst.faultLine = true) :
    (State.goto s x1).kst.faultLine = true := (State.goto_held _ _).go h

theorem State.logEvent_held (s x1) : Held s (State.logEvent s x1) := by
  constructor; intro h; simp only [State.logEvent]; (repeat' split) <;> simp_all (maxDischargeDepth := 12)

@[simp] theorem State.logEvent_line (s x1) (h : s.kst.faultLine = true) :
    (State.logEvent s x1).kst.faultLine = true := (State.logEvent_held _ _).go h

theorem State.noteTrigger_held (s x1) : Held s (State.noteTrigger s x1) := by
  constructor; intro h; simp only [State.noteTrigger]; split <;> simp (maxDischargeDepth := 12) [h]

@[simp] theorem State.noteTrigger_line (s x1) (h : s.kst.faultLine = true) :
    (State.noteTrigger s x1).kst.faultLine = true := (State.noteTrigger_held _ _).go h

theorem State.raise_held (s x1 x2 x3 x4 x5) : Held s (State.raise s x1 x2 x3 x4 x5) := by
  constructor; intro h; simp only [State.raise]; split <;> simp (maxDischargeDepth := 12) [h]

@[simp] theorem State.raise_line (s x1 x2 x3 x4 x5) (h : s.kst.faultLine = true) :
    (State.raise s x1 x2 x3 x4 x5).kst.faultLine = true := (State.raise_held _ _ _ _ _ _).go h

theorem State.accessViolation_held (s x1) : Held s (State.accessViolation s x1) := by
  constructor; intro h; simp (maxDischargeDepth := 12) [State.accessViolation, h]

@[simp] theorem State.accessViolation_line (s x1) (h : s.kst.faultLine = true) :
    (State.accessViolation s x1).kst.faultLine = true := (State.accessViolation_held _ _).go h

theorem State.signal_held (s x1) : Held s (State.signal s x1) := by
  constructor; intro h; simp only [State.signal]; split <;> simp (maxDischargeDepth := 12) [h]

@[simp] theorem State.signal_line (s x1) (h : s.kst.faultLine = true) :
    (State.signal s x1).kst.faultLine = true := (State.signal_held _ _).go h

theorem State.withStage_held (s x1) : Held s (State.withStage s x1) := by
  exact ⟨fun h => h⟩

@[simp] theorem State.withStage_line (s x1) (h : s.kst.faultLine = true) :
    (State.withStage s x1).kst.faultLine = true := (State.withStage_held _ _).go h

theorem State.windowCompare_held (s x1 x2) : Held s (State.windowCompare s x1 x2) := by
  constructor; intro h; simp only [State.windowCompare]; (repeat' split) <;> simp_all (maxDischargeDepth := 12)

@[simp] theorem State.windowCompare_line (s x1 x2) (h : s.kst.faultLine = true) :
    (State.windowCompare s x1 x2).kst.faultLine = true := (State.windowCompare_held _ _ _).go h

theorem State.deliver_held (s x1 x2 x3 x4 x5 x6 x7) : Held s (State.deliver s x1 x2 x3 x4 x5 x6 x7) := by
  constructor; intro h; simp only [State.deliver]; split <;> simp (maxDischargeDepth := 12) [h]

@[simp] theorem State.deliver_line (s x1 x2 x3 x4 x5 x6 x7) (h : s.kst.faultLine = true) :
    (State.deliver s x1 x2 x3 x4 x5 x6 x7).kst.faultLine = true := (State.deliver_held _ _ _ _ _ _ _ _).go h

theorem State.refuse_held (s x1 x2) : Held s (State.refuse s x1 x2) := by
  constructor; intro h; simp only [State.refuse]; (repeat' split) <;> simp_all (maxDischargeDepth := 12)

@[simp] theorem State.refuse_line (s x1 x2) (h : s.kst.faultLine = true) :
    (State.refuse s x1 x2).kst.faultLine = true := (State.refuse_held _ _ _).go h

theorem State.startRegular_held (s x1 x2) : Held s (State.startRegular s x1 x2) := by
  constructor; intro h; simp only [State.startRegular]; (repeat' split) <;> simp_all (maxDischargeDepth := 12)

@[simp] theorem State.startRegular_line (s x1 x2) (h : s.kst.faultLine = true) :
    (State.startRegular s x1 x2).kst.faultLine = true := (State.startRegular_held _ _ _).go h

theorem State.startSlot0_held (s x1 x2) : Held s (State.startSlot0 s x1 x2) := by
  constructor; intro h; simp only [State.startSlot0]; split <;> simp (maxDischargeDepth := 12) [h]

@[simp] theorem State.startSlot0_line (s x1 x2) (h : s.kst.faultLine = true) :
    (State.startSlot0 s x1 x2).kst.faultLine = true := (State.startSlot0_held _ _ _).go h

theorem execRegularSequenceStart_line (x0 s) : outHeld (execRegularSequenceStart x0 s) s := by
  simp only [execRegularSequenceStart]; (repeat' split) <;> simp (maxDischargeDepth := 12) +contextual

theorem execRegularSlotEnd_line (x0 x1 s) : outHeld (execRegularSlotEnd x0 x1 s) s := by
  unfold execRegularSlotEnd; (repeat' split) <;> simp (maxDischargeDepth := 12) +contextual

theorem State.enqueue_held (s x1 x2) : Held s (State.enqueue s x1 x2) := by
  constructor; intro h; simp only [State.enqueue]; (repeat' split) <;> simp_all (maxDischargeDepth := 12) 

@[simp] theorem State.enqueue_line (s x1 x2) (h : s.kst.faultLine = true) :
    (State.enqueue s x1 x2).kst.faultLine = true := (State.enqueue_held _ _ _).go h

theorem execInjectedTrigger_line (x0 x1 x2 s) : outHeld (execInjectedTrigger x0 x1 x2 s) s := by
  simp only [execInjectedTrigger]; (repeat' split) <;> simp (maxDischargeDepth := 12) +contextual

theorem execInjectedSequenceStart_line (x0 s) : outHeld (execInjectedSequenceStart x0 s) s := by
  simp only [execInjectedSequenceStart]; (repeat' split) <;> simp (maxDischargeDepth := 12) +contextual

theorem State.injectedCode_held (s x1 x2 x3 x4 x5) : Held s (State.injectedCode s x1 x2 x3 x4 x5) := by
  constructor; intro h; simp only [State.injectedCode]; (repeat' split) <;> simp_all (maxDischargeDepth := 12) 

@[simp] theorem State.injectedCode_line (s x1 x2 x3 x4 x5) (h : s.kst.faultLine = true) :
    (State.injectedCode s x1 x2 x3 x4 x5).kst.faultLine = true := (State.injectedCode_held _ _ _ _ _ _).go h

theorem State.injectedCodes_held (s : State) (x1 x2 x3 x4 x5 x6) : Held s (s.injectedCodes x1 x2 x3 x4 x5 x6) := by
  induction x4 generalizing s x5 x6 with
  | nil => unfold State.injectedCodes; exact .refl s
  | cons k ks ih =>
    cases x5 with
    | nil => unfold State.injectedCodes; exact .refl s
    | cons r rs => unfold State.injectedCodes; exact Held.trans (State.injectedCode_held ..) (ih ..)

@[simp] theorem State.injectedCodes_line (s x1 x2 x3 x4 x5 x6) (h : s.kst.faultLine = true) :
    (State.injectedCodes s x1 x2 x3 x4 x5 x6).kst.faultLine = true := (State.injectedCodes_held _ _ _ _ _ _ _).go h

theorem execInjectedSequenceEnd_line (x0 x1 s) : outHeld (execInjectedSequenceEnd x0 x1 s) s := by
  simp only [execInjectedSequenceEnd]; (repeat' split) <;> simp (maxDischargeDepth := 12) +contextual

theorem State.injectedEnded_held (s x1 x2) : Held s (State.injectedEnded s x1 x2) := by
  constructor; intro h; unfold State.injectedEnded; (repeat' split) <;> simp (maxDischargeDepth := 12) [h]

@[simp] theorem State.injectedEnded_line (s x1 x2) (h : s.kst.faultLine = true) :
    (State.injectedEnded s x1 x2).kst.faultLine = true := (State.injectedEnded_held _ _ _).go h

theorem State.latchInput_held (s x1) : Held s (State.latchInput s x1) := by
  exact ⟨fun h => h⟩

@[simp] theorem State.latchInput_line (s x1) (h : s.kst.faultLine = true) :
    (State.latchInput s x1).kst.faultLine = true := (State.latchInput_held _ _).go h

theorem State.evalPair_held (s x1) : Held s (State.evalPair s x1) := by
  constructor; intro h; simp only [State.evalPair]; (repeat' split) <;> simp_all (maxDischargeDepth := 12)

@[simp] theorem State.evalPair_line (s x1) (h : s.kst.faultLine = true) :
    (State.evalPair s x1).kst.faultLine = true := (State.evalPair_held _ _).go h

theorem State.lateSequence_held (s x1) : Held s (State.lateSequence s x1) := by
  constructor; intro h; simp only [State.lateSequence]; (repeat' split) <;> simp_all (maxDischargeDepth := 12)

@[simp] theorem State.lateSequence_line (s x1) (h : s.kst.faultLine = true) :
    (State.lateSequence s x1).kst.faultLine = true := (State.lateSequence_held _ _).go h

theorem State.formEval_held (s) : Held s (State.formEval s) := by
  constructor; intro h; simp only [State.formEval]; (repeat' split) <;> simp_all (maxDischargeDepth := 12) 

@[simp] theorem State.formEval_line (s) (h : s.kst.faultLine = true) :
    (State.formEval s).kst.faultLine = true := (State.formEval_held _).go h

theorem State.snapshot_held (s : State) : Held s s.snapshot := by
  unfold State.snapshot
  extract_lets s1 s2
  have h1 : Held s s1 := Held.trans (State.formEval_held ..) (Held.foldl _ (fun t a => State.evalPair_held ..) _ _)
  have h2 : Held s s2 := h1.trans (Held.foldl _ (fun t a => State.latchInput_held ..) _ _)
  exact h2.trans (Held.foldl _ (fun t a => State.lateSequence_held ..) _ _)

@[simp] theorem State.snapshot_line (s) (h : s.kst.faultLine = true) :
    (State.snapshot s).kst.faultLine = true := (State.snapshot_held _).go h

theorem execSeqEn_line (x0 s) : outHeld (execSeqEn x0 s) s := by
  unfold execSeqEn; (repeat' split) <;> simp (maxDischargeDepth := 12) +contextual

theorem execRefEnable_line (x0 s) : outHeld (execRefEnable x0 s) s := by
  simp only [execRefEnable]; (repeat' split) <;> simp (maxDischargeDepth := 12) +contextual

theorem execRefSettled_line (s) : outHeld (execRefSettled s) s := by
  unfold execRefSettled; (repeat' split) <;> simp (maxDischargeDepth := 12) +contextual

theorem execRefDisable_line (s) : outHeld (execRefDisable s) s := by
  unfold execRefDisable; (repeat' split) <;> simp (maxDischargeDepth := 12) +contextual

theorem State.startCal_held (s x1 x2) : Held s (State.startCal s x1 x2) := by
  constructor; intro h; simp only [State.startCal]; (repeat' split) <;> simp_all (maxDischargeDepth := 12)

@[simp] theorem State.startCal_line (s x1 x2) (h : s.kst.faultLine = true) :
    (State.startCal s x1 x2).kst.faultLine = true := (State.startCal_held _ _ _).go h

theorem State.endCal_held (s x1 x2 x3) : Held s (State.endCal s x1 x2 x3) := by
  constructor; intro h; simp only [State.endCal]; split <;> simp (maxDischargeDepth := 12) [h]

@[simp] theorem State.endCal_line (s x1 x2 x3) (h : s.kst.faultLine = true) :
    (State.endCal s x1 x2 x3).kst.faultLine = true := (State.endCal_held _ _ _ _).go h

theorem State.sensingMoved_held (s : State) (x1) : Held s (s.sensingMoved x1) := by
  unfold State.sensingMoved
  extract_lets s1 s2
  have h1 : Held s s1 := Held.foldl _ (fun t a => State.updConv_held ..) _ _
  have h2 : Held s s2 := h1.trans (Held.foldl _ (fun t a => State.updInp_held ..) _ _)
  clear_value s2
  exact h2.trans ⟨fun h => h⟩

@[simp] theorem State.sensingMoved_line (s x1) (h : s.kst.faultLine = true) :
    (State.sensingMoved s x1).kst.faultLine = true := (State.sensingMoved_held _ _).go h

theorem State.blankFrom_held (s x1 x2) : Held s (State.blankFrom s x1 x2) := by
  exact ⟨fun h => h⟩

@[simp] theorem State.blankFrom_line (s x1 x2) (h : s.kst.faultLine = true) :
    (State.blankFrom s x1 x2).kst.faultLine = true := (State.blankFrom_held _ _ _).go h

theorem State.gateOn_held (s x1 x2 x3) : Held s (State.gateOn s x1 x2 x3) := by
  exact ⟨fun h => h⟩

@[simp] theorem State.gateOn_line (s x1 x2 x3) (h : s.kst.faultLine = true) :
    (State.gateOn s x1 x2 x3).kst.faultLine = true := (State.gateOn_held _ _ _ _).go h

theorem State.gateOff_held (s x1 x2 x3) : Held s (State.gateOff s x1 x2 x3) := by
  exact ⟨fun h => h⟩

@[simp] theorem State.gateOff_line (s x1 x2 x3) (h : s.kst.faultLine = true) :
    (State.gateOff s x1 x2 x3).kst.faultLine = true := (State.gateOff_held _ _ _ _).go h

theorem State.arm_held (s x1 x2) : Held s (State.arm s x1 x2) := by
  constructor; intro h; simp only [State.arm]; (repeat' split) <;> simp_all (maxDischargeDepth := 12)

@[simp] theorem State.arm_line (s x1 x2) (h : s.kst.faultLine = true) :
    (State.arm s x1 x2).kst.faultLine = true := (State.arm_held _ _ _).go h

theorem State.cmdOff_held (s x1 x2) : Held s (State.cmdOff s x1 x2) := by
  constructor; intro h; simp only [State.cmdOff]; (repeat' split) <;> simp_all (maxDischargeDepth := 12)

@[simp] theorem State.cmdOff_line (s x1 x2) (h : s.kst.faultLine = true) :
    (State.cmdOff s x1 x2).kst.faultLine = true := (State.cmdOff_held _ _ _).go h

theorem State.holdOff_held (s x1 x2) : Held s (State.holdOff s x1 x2) := by
  constructor; intro h; simp only [State.holdOff]; (repeat' split) <;> simp_all (maxDischargeDepth := 12)

@[simp] theorem State.holdOff_line (s x1 x2) (h : s.kst.faultLine = true) :
    (State.holdOff s x1 x2).kst.faultLine = true := (State.holdOff_held _ _ _).go h

theorem State.command_held (s x1 x2 x3) : Held s (State.command s x1 x2 x3) := by
  constructor; intro h; simp only [State.command]; split <;> simp (maxDischargeDepth := 12) [h]

@[simp] theorem State.command_line (s x1 x2 x3) (h : s.kst.faultLine = true) :
    (State.command s x1 x2 x3).kst.faultLine = true := (State.command_held _ _ _ _).go h

theorem State.settleGate_held (s x1 x2) : Held s (State.settleGate s x1 x2) := by
  constructor; intro h; unfold State.settleGate; (repeat' split) <;> simp (maxDischargeDepth := 12) [h]

@[simp] theorem State.settleGate_line (s x1 x2) (h : s.kst.faultLine = true) :
    (State.settleGate s x1 x2).kst.faultLine = true := (State.settleGate_held _ _ _).go h

theorem State.driveLeg_held (s x1) : Held s (State.driveLeg s x1) := by
  constructor; intro h; unfold State.driveLeg; (repeat' split) <;> simp (maxDischargeDepth := 12) [h]

@[simp] theorem State.driveLeg_line (s x1) (h : s.kst.faultLine = true) :
    (State.driveLeg s x1).kst.faultLine = true := (State.driveLeg_held _ _).go h

theorem State.drive_held (s x1) : Held s (State.drive s x1) := by
  constructor; intro h; simp only [State.drive]; split <;> simp (maxDischargeDepth := 12) [h]

@[simp] theorem State.drive_line (s x1) (h : s.kst.faultLine = true) :
    (State.drive s x1).kst.faultLine = true := (State.drive_held _ _).go h

theorem State.driveAll_held (s x1) : Held s (State.driveAll s x1) := by
  constructor; intro h; simp only [State.driveAll]; (repeat' split) <;> simp_all (maxDischargeDepth := 12)

@[simp] theorem State.driveAll_line (s x1) (h : s.kst.faultLine = true) :
    (State.driveAll s x1).kst.faultLine = true := (State.driveAll_held _ _).go h

theorem State.softOff_held (s x1 x2) : Held s (State.softOff s x1 x2) := by
  constructor; intro h; simp only [State.softOff]; split <;> simp (maxDischargeDepth := 12) [h]

@[simp] theorem State.softOff_line (s x1 x2) (h : s.kst.faultLine = true) :
    (State.softOff s x1 x2).kst.faultLine = true := (State.softOff_held _ _ _).go h

theorem State.softIfOff_held (s x1 x2 x3) : Held s (State.softIfOff s x1 x2 x3) := by
  constructor; intro h; simp only [State.softIfOff]; split <;> simp (maxDischargeDepth := 12) [h]

@[simp] theorem State.softIfOff_line (s x1 x2 x3) (h : s.kst.faultLine = true) :
    (State.softIfOff s x1 x2 x3).kst.faultLine = true := (State.softIfOff_held _ _ _ _).go h

theorem State.driveSoft_held (s x1) : Held s (State.driveSoft s x1) := by
  unfold State.driveSoft; (try extract_lets); (repeat' first | split | exact Held.refl _ | with_reducible exact (State.driveLeg_held ..) | with_reducible exact (State.softIfOff_held ..) | with_reducible refine Held.ite ?_ ?_ | with_reducible refine Held.trans ?_ (State.driveLeg_held ..) | with_reducible refine Held.trans ?_ (State.softIfOff_held ..) | with_reducible refine Held.trans ?_ (Held.foldl _ (fun _ _ => ?_) _ _) | with_reducible refine Held.trans ?_ (Held.ite ?_ ?_) | with_reducible refine Held.trans ?_ (Held.lit _ _ (by rfl) ..))

@[simp] theorem State.driveSoft_line (s x1) (h : s.kst.faultLine = true) :
    (State.driveSoft s x1).kst.faultLine = true := (State.driveSoft_held _ _).go h

theorem State.countTrip_held (s x1) : Held s (State.countTrip s x1) := by
  constructor; intro h; simp only [State.countTrip]; (repeat' split) <;> simp_all (maxDischargeDepth := 12)

@[simp] theorem State.countTrip_line (s x1) (h : s.kst.faultLine = true) :
    (State.countTrip s x1).kst.faultLine = true := (State.countTrip_held _ _).go h

theorem State.tripLeg_held (s x1 x2) : Held s (State.tripLeg s x1 x2) := by
  constructor; intro h; unfold State.tripLeg; (repeat' split) <;> simp (maxDischargeDepth := 12) [h]

@[simp] theorem State.tripLeg_line (s x1 x2) (h : s.kst.faultLine = true) :
    (State.tripLeg s x1 x2).kst.faultLine = true := (State.tripLeg_held _ _ _).go h

theorem State.ocAct_held (s x1) : Held s (State.ocAct s x1) := by
  constructor; intro h; simp only [State.ocAct]; split <;> simp (maxDischargeDepth := 12) [h]

@[simp] theorem State.ocAct_line (s x1) (h : s.kst.faultLine = true) :
    (State.ocAct s x1).kst.faultLine = true := (State.ocAct_held _ _).go h

theorem State.reportShort_held (s x1) : Held s (State.reportShort s x1) := by
  constructor; intro h; simp only [State.reportShort]; (repeat' split) <;> simp_all (maxDischargeDepth := 12)

@[simp] theorem State.reportShort_line (s x1) (h : s.kst.faultLine = true) :
    (State.reportShort s x1).kst.faultLine = true := (State.reportShort_held _ _).go h

theorem State.scAct_held (s x1) : Held s (State.scAct s x1) := by
  unfold State.scAct; (try extract_lets); (repeat' first | split | exact Held.refl _ | with_reducible exact (State.updLeg_held ..) | with_reducible exact (State.raise_held ..) | with_reducible exact (State.countTrip_held ..) | with_reducible exact (State.tripLeg_held ..) | with_reducible exact (State.reportShort_held ..) | with_reducible refine Held.ite ?_ ?_ | with_reducible refine Held.trans ?_ (State.updLeg_held ..) | with_reducible refine Held.trans ?_ (State.raise_held ..) | with_reducible refine Held.trans ?_ (State.countTrip_held ..) | with_reducible refine Held.trans ?_ (State.tripLeg_held ..) | with_reducible refine Held.trans ?_ (State.reportShort_held ..) | with_reducible refine Held.trans ?_ (Held.foldl _ (fun _ _ => ?_) _ _) | with_reducible refine Held.trans ?_ (Held.ite ?_ ?_) | with_reducible refine Held.trans ?_ (Held.lit _ _ (by rfl) ..))

@[simp] theorem State.scAct_line (s x1) (h : s.kst.faultLine = true) :
    (State.scAct s x1).kst.faultLine = true := (State.scAct_held _ _).go h

theorem State.lineAct_held (s x1) : Held s (State.lineAct s x1) := by
  constructor; intro h; simp only [State.lineAct]; (repeat' split) <;> simp_all (maxDischargeDepth := 12) 

@[simp] theorem State.lineAct_line (s x1) (h : s.kst.faultLine = true) :
    (State.lineAct s x1).kst.faultLine = true := (State.lineAct_held _ _).go h

theorem State.interlock_held (s x1) : Held s (State.interlock s x1) := by
  constructor; intro h; simp only [State.interlock]; (repeat' split) <;> simp_all (maxDischargeDepth := 12)

@[simp] theorem State.interlock_line (s x1) (h : s.kst.faultLine = true) :
    (State.interlock s x1).kst.faultLine = true := (State.interlock_held _ _).go h

theorem execPeriodStart_line (x0 s) : outHeld (execPeriodStart x0 s) s := by
  simp only [execPeriodStart]; (repeat' split) <;> simp (maxDischargeDepth := 12) +contextual

theorem execSwitchingEdge_line (x0 x1 s) : outHeld (execSwitchingEdge x0 x1 s) s := by
  unfold execSwitchingEdge; (repeat' split) <;> simp (maxDischargeDepth := 12) +contextual

theorem execGateOnEdge_line (x0 x1 s) : outHeld (execGateOnEdge x0 x1 s) s := by
  simp only [execGateOnEdge]; (repeat' split) <;> simp (maxDischargeDepth := 12) +contextual

theorem execSoftOffPlateauEnd_line (x0 x1 x2 s) : outHeld (execSoftOffPlateauEnd x0 x1 x2 s) s := by
  simp only [execSoftOffPlateauEnd]; (repeat' split) <;> simp (maxDischargeDepth := 12) +contextual

theorem State.assigned_held (s x1 x2) : Held s (State.assigned s x1 x2) := by
  exact ⟨fun h => h⟩

@[simp] theorem State.assigned_line (s x1 x2) (h : s.kst.faultLine = true) :
    (State.assigned s x1 x2).kst.faultLine = true := (State.assigned_held _ _ _).go h

theorem execDirectWrite_line (x0 x1 x2 x3 s) : outHeld (execDirectWrite x0 x1 x2 x3 s) s := by
  simp only [execDirectWrite]; (repeat' split) <;> simp (maxDischargeDepth := 12) +contextual

theorem execDirectCommit_line (x0 x1 s) : outHeld (execDirectCommit x0 x1 s) s := by
  simp only [execDirectCommit]; (repeat' split) <;> simp (maxDischargeDepth := 12) +contextual

theorem State.moveSpan_held (s : State) (x1 x2) : Held s (s.moveSpan x1 x2) := by
  unfold State.moveSpan
  extract_lets step
  have h : Held s ((x2.legs.foldl step (s, [], [])).1) :=
    Held.foldl_on (fun b : State × List Nat × List Nat => b.1) step (fun b a => State.updLeg_held ..) x2.legs (s, [], [])
  generalize x2.legs.foldl step (s, [], []) = r at *
  obtain ⟨t, per, unc⟩ := r
  refine h.trans ?_
  refine Held.ite (State.raise_held ..) (Held.ite (State.raise_held ..) (.refl _))

@[simp] theorem State.moveSpan_line (s x1 x2) (h : s.kst.faultLine = true) :
    (State.moveSpan s x1 x2).kst.faultLine = true := (State.moveSpan_held _ _ _).go h

theorem State.moveSets_held (s x1 x2) : Held s (State.moveSets s x1 x2) := by
  constructor; intro h; simp only [State.moveSets]; (repeat' split) <;> simp_all (maxDischargeDepth := 12) 

@[simp] theorem State.moveSets_line (s x1 x2) (h : s.kst.faultLine = true) :
    (State.moveSets s x1 x2).kst.faultLine = true := (State.moveSets_held _ _ _).go h

theorem State.latchPatterns_held (s x1) : Held s (State.latchPatterns s x1) := by
  constructor; intro h; simp (maxDischargeDepth := 12) [State.latchPatterns, h]

@[simp] theorem State.latchPatterns_line (s x1) (h : s.kst.faultLine = true) :
    (State.latchPatterns s x1).kst.faultLine = true := (State.latchPatterns_held _ _).go h

theorem State.syncCheck_held (s : State) (x1 x2) : Held s (s.syncCheck x1 x2) := by
  unfold State.syncCheck
  extract_lets fails t
  have h : Held s t := by
    refine Held.foldl _ (fun t l => ?_) _ _
    dsimp only
    refine Held.ite (Held.trans (State.updLeg_held ..) (State.raise_held ..)) (Held.ite (.refl _) (State.updLeg_held ..))
  exact h.trans (Held.same rfl)

@[simp] theorem State.syncCheck_line (s x1 x2) (h : s.kst.faultLine = true) :
    (State.syncCheck s x1 x2).kst.faultLine = true := (State.syncCheck_held _ _ _).go h

theorem State.boundaryLegs_held (s x1) : Held s (State.boundaryLegs s x1) := by
  constructor; intro h; simp (maxDischargeDepth := 12) [State.boundaryLegs, h]

@[simp] theorem State.boundaryLegs_line (s x1) (h : s.kst.faultLine = true) :
    (State.boundaryLegs s x1).kst.faultLine = true := (State.boundaryLegs_held _ _).go h

theorem State.capture_held (s : State) (x1 x2) : Held s (s.capture x1 x2) := by
  unfold State.capture
  extract_lets q b amp trk exc newA newT newE s1 addr s2 s3 s4
  have h1 : Held s s1 := State.updPos_held ..
  have h2 : Held s s2 := h1.trans (Held.ite (State.stick_held ..) (.refl _))
  have h3 : Held s s3 := h2.trans (Held.ite (State.raise_held ..) (.refl _))
  have h4 : Held s s4 := h3.trans (Held.ite (State.raise_held ..) (.refl _))
  exact h4.trans (Held.ite (State.raise_held ..) (.refl _))

@[simp] theorem State.capture_line (s x1 x2) (h : s.kst.faultLine = true) :
    (State.capture s x1 x2).kst.faultLine = true := (State.capture_held _ _ _).go h

theorem execCarrierCentre_line (x0 x1 s) : outHeld (execCarrierCentre x0 x1 s) s := by
  simp only [execCarrierCentre]; (repeat' split) <;> simp (maxDischargeDepth := 12) +contextual

theorem State.tracSafe_held (s x1 x2) : Held s (State.tracSafe s x1 x2) := by
  exact ⟨fun h => h⟩

@[simp] theorem State.tracSafe_line (s x1 x2) (h : s.kst.faultLine = true) :
    (State.tracSafe s x1 x2).kst.faultLine = true := (State.tracSafe_held _ _ _).go h

theorem execTorquePeakExhaust_line (x0 s) : outHeld (execTorquePeakExhaust x0 s) s := by
  simp only [execTorquePeakExhaust]; (repeat' split) <;> simp (maxDischargeDepth := 12) +contextual

theorem execDipEnd_line (x0 s) : outHeld (execDipEnd x0 s) s := by
  simp (maxDischargeDepth := 12) +contextual [execDipEnd]

theorem execAscExitNoAngle_line (x0 s) : outHeld (execAscExitNoAngle x0 s) s := by
  simp only [execAscExitNoAngle]; (repeat' split) <;> simp (maxDischargeDepth := 12) +contextual

theorem State.tracMode_held (x0 x1 x2 s) : Held s (State.tracMode x0 x1 x2 s).2 := by
  constructor; intro h; simp only [State.tracMode]; split <;> simp (maxDischargeDepth := 12) [h]

@[simp] theorem State.tracMode_line (x0 x1 x2 s) (h : s.kst.faultLine = true) :
    (State.tracMode x0 x1 x2 s).2.kst.faultLine = true := (State.tracMode_held _ _ _ _).go h

theorem State.tqTarget_held (x0 x1 s) : Held s (State.tqTarget x0 x1 s).2 := by
  constructor; intro h; simp only [State.tqTarget]; split <;> simp (maxDischargeDepth := 12) [h]

@[simp] theorem State.tqTarget_line (x0 x1 s) (h : s.kst.faultLine = true) :
    (State.tqTarget x0 x1 s).2.kst.faultLine = true := (State.tqTarget_held _ _ _).go h

theorem State.spdTargetCmd_held (x0 x1 s) : Held s (State.spdTargetCmd x0 x1 s).2 := by
  constructor; intro h; simp only [State.spdTargetCmd]; split <;> simp (maxDischargeDepth := 12) [h]

@[simp] theorem State.spdTargetCmd_line (x0 x1 s) (h : s.kst.faultLine = true) :
    (State.spdTargetCmd x0 x1 s).2.kst.faultLine = true := (State.spdTargetCmd_held _ _ _).go h

theorem State.posRearmCmd_held (x0 s) : Held s (State.posRearmCmd x0 s).2 := by
  constructor; intro h; simp only [State.posRearmCmd]; split <;> simp (maxDischargeDepth := 12) [h]

@[simp] theorem State.posRearmCmd_line (x0 s) (h : s.kst.faultLine = true) :
    (State.posRearmCmd x0 s).2.kst.faultLine = true := (State.posRearmCmd_held _ _).go h

theorem State.tracDip_held (x0 x1 x2 s) : Held s (State.tracDip x0 x1 x2 s) := by
  exact ⟨fun h => h⟩

@[simp] theorem State.tracDip_line (x0 x1 x2 s) (h : s.kst.faultLine = true) :
    (State.tracDip x0 x1 x2 s).kst.faultLine = true := (State.tracDip_held _ _ _ _).go h

theorem execSenseFaultClear_line (s) : outHeld (execSenseFaultClear s) s := by
  simp (maxDischargeDepth := 12) +contextual [execSenseFaultClear]

theorem State.cSafe_held (s x1) : Held s (State.cSafe s x1) := by
  exact ⟨fun h => h⟩

@[simp] theorem State.cSafe_line (s x1) (h : s.kst.faultLine = true) :
    (State.cSafe s x1).kst.faultLine = true := (State.cSafe_held _ _).go h

theorem State.cBypassExit_held (s) : Held s (State.cBypassExit s) := by
  constructor; intro h; simp only [State.cBypassExit]; split <;> simp (maxDischargeDepth := 12) [h]

@[simp] theorem State.cBypassExit_line (s) (h : s.kst.faultLine = true) :
    (State.cBypassExit s).kst.faultLine = true := (State.cBypassExit_held _).go h

theorem State.cMode_held (x0 x1 s) : Held s (State.cMode x0 x1 s).2 := by
  constructor; intro h; simp only [State.cMode]; split <;> simp (maxDischargeDepth := 12) [h]

@[simp] theorem State.cMode_line (x0 x1 s) (h : s.kst.faultLine = true) :
    (State.cMode x0 x1 s).2.kst.faultLine = true := (State.cMode_held _ _ _).go h

theorem State.cVtgtCmd_held (x0 s) : Held s (State.cVtgtCmd x0 s).2 := by
  constructor; intro h; simp only [State.cVtgtCmd]; split <;> simp (maxDischargeDepth := 12) [h]

@[simp] theorem State.cVtgtCmd_line (x0 s) (h : s.kst.faultLine = true) :
    (State.cVtgtCmd x0 s).2.kst.faultLine = true := (State.cVtgtCmd_held _ _).go h

theorem State.cItgtCmd_held (x0 s) : Held s (State.cItgtCmd x0 s).2 := by
  constructor; intro h; simp only [State.cItgtCmd]; split <;> simp (maxDischargeDepth := 12) [h]

@[simp] theorem State.cItgtCmd_line (x0 s) (h : s.kst.faultLine = true) :
    (State.cItgtCmd x0 s).2.kst.faultLine = true := (State.cItgtCmd_held _ _).go h

theorem State.cSetPhases_held (x0 s) : Held s (State.cSetPhases x0 s) := by
  constructor; intro h; simp only [State.cSetPhases]; split <;> simp (maxDischargeDepth := 12) [h]

@[simp] theorem State.cSetPhases_line (x0 s) (h : s.kst.faultLine = true) :
    (State.cSetPhases x0 s).kst.faultLine = true := (State.cSetPhases_held _ _).go h

theorem State.cPhasesCmd_held (x0 s) : Held s (State.cPhasesCmd x0 s).2 := by
  constructor; intro h; simp only [State.cPhasesCmd]; split <;> simp (maxDischargeDepth := 12) [h]

@[simp] theorem State.cPhasesCmd_line (x0 s) (h : s.kst.faultLine = true) :
    (State.cPhasesCmd x0 s).2.kst.faultLine = true := (State.cPhasesCmd_held _ _).go h

theorem State.cCrowbarCmd_held (s) : Held s (State.cCrowbarCmd s).2 := by
  constructor; intro h; unfold State.cCrowbarCmd; (repeat' split) <;> simp (maxDischargeDepth := 12) [h]

@[simp] theorem State.cCrowbarCmd_line (s) (h : s.kst.faultLine = true) :
    (State.cCrowbarCmd s).2.kst.faultLine = true := (State.cCrowbarCmd_held _).go h

theorem State.qSafe_held (s x1) : Held s (State.qSafe s x1) := by
  exact ⟨fun h => h⟩

@[simp] theorem State.qSafe_line (s x1) (h : s.kst.faultLine = true) :
    (State.qSafe s x1).kst.faultLine = true := (State.qSafe_held _ _).go h

theorem State.qPilotExit_held (s) : Held s (State.qPilotExit s) := by
  constructor; intro h; simp only [State.qPilotExit]; split <;> simp (maxDischargeDepth := 12) [h]

@[simp] theorem State.qPilotExit_line (s) (h : s.kst.faultLine = true) :
    (State.qPilotExit s).kst.faultLine = true := (State.qPilotExit_held _).go h

theorem State.qMode_held (x0 x1 x2 s) : Held s (State.qMode x0 x1 x2 s).2 := by
  constructor; intro h; simp only [State.qMode]; split <;> simp (maxDischargeDepth := 12) [h]

@[simp] theorem State.qMode_line (x0 x1 x2 s) (h : s.kst.faultLine = true) :
    (State.qMode x0 x1 x2 s).2.kst.faultLine = true := (State.qMode_held _ _ _ _).go h

theorem State.qPowerCmd_held (x0 x1 s) : Held s (State.qPowerCmd x0 x1 s).2 := by
  constructor; intro h; simp only [State.qPowerCmd]; (repeat' split) <;> simp_all (maxDischargeDepth := 12)

@[simp] theorem State.qPowerCmd_line (x0 x1 s) (h : s.kst.faultLine = true) :
    (State.qPowerCmd x0 x1 s).2.kst.faultLine = true := (State.qPowerCmd_held _ _ _).go h

theorem execPilotCycle_line (x0 s) : outHeld (execPilotCycle x0 s) s := by
  simp only [execPilotCycle]; (repeat' split) <;> simp (maxDischargeDepth := 12) +contextual

theorem State.sampleContactor_held (s x1 x2) : Held s (State.sampleContactor s x1 x2) := by
  exact ⟨fun h => h⟩

@[simp] theorem State.sampleContactor_line (s x1 x2) (h : s.kst.faultLine = true) :
    (State.sampleContactor s x1 x2).kst.faultLine = true := (State.sampleContactor_held _ _ _).go h

theorem execKacFbTimeout_line (x0 s) : outHeld (execKacFbTimeout x0 s) s := by
  simp only [execKacFbTimeout]; (repeat' split) <;> simp (maxDischargeDepth := 12) +contextual

theorem execKAcOutFault_line (s) : outHeld (execKAcOutFault s) s := by
  unfold execKAcOutFault; (repeat' split) <;> simp (maxDischargeDepth := 12) +contextual

theorem State.thetaInit_held (s) : Held s (State.thetaInit s) := by
  exact ⟨fun h => h⟩

@[simp] theorem State.thetaInit_line (s) (h : s.kst.faultLine = true) :
    (State.thetaInit s).kst.faultLine = true := (State.thetaInit_held _).go h

theorem execBrakePeakExhaust_line (s) : outHeld (execBrakePeakExhaust s) s := by
  simp only [execBrakePeakExhaust]; (repeat' split) <;> simp (maxDischargeDepth := 12) +contextual

theorem State.bSafe_held (s x1) : Held s (State.bSafe s x1) := by
  exact ⟨fun h => h⟩

@[simp] theorem State.bSafe_line (s x1) (h : s.kst.faultLine = true) :
    (State.bSafe s x1).kst.faultLine = true := (State.bSafe_held _ _).go h

theorem State.bMode_held (x0 s) : Held s (State.bMode x0 s).2 := by
  constructor; intro h; simp only [State.bMode]; split <;> simp (maxDischargeDepth := 12) [h]

@[simp] theorem State.bMode_line (x0 s) (h : s.kst.faultLine = true) :
    (State.bMode x0 s).2.kst.faultLine = true := (State.bMode_held _ _).go h

theorem State.stageDone_held (s x1 x2 x3) : Held s (State.stageDone s x1 x2 x3) := by
  exact ⟨fun h => h⟩

@[simp] theorem State.stageDone_line (s x1 x2 x3) (h : s.kst.faultLine = true) :
    (State.stageDone s x1 x2 x3).kst.faultLine = true := (State.stageDone_held _ _ _ _).go h

theorem State.deckDone_held (s x1 x2 x3) : Held s (State.deckDone s x1 x2 x3) := by
  exact ⟨fun h => h⟩

@[simp] theorem State.deckDone_line (s x1 x2 x3) (h : s.kst.faultLine = true) :
    (State.deckDone s x1 x2 x3).kst.faultLine = true := (State.deckDone_held _ _ _ _).go h

theorem execShiftTimeout_line (x0 s) : outHeld (execShiftTimeout x0 s) s := by
  simp only [execShiftTimeout]; (repeat' split) <;> simp (maxDischargeDepth := 12) +contextual

theorem execHomeTimeout_line (x0 s) : outHeld (execHomeTimeout x0 s) s := by
  simp only [execHomeTimeout]; (repeat' split) <;> simp (maxDischargeDepth := 12) +contextual

theorem State.aScan_held (s x1) : Held s (State.aScan s x1) := by
  constructor; intro h; simp only [State.aScan]; split <;> simp (maxDischargeDepth := 12) [h]

@[simp] theorem State.aScan_line (s x1) (h : s.kst.faultLine = true) :
    (State.aScan s x1).kst.faultLine = true := (State.aScan_held _ _).go h

theorem State.aOps_held (s x1) : Held s (State.aOps s x1) := by
  constructor; intro h; simp only [State.aOps]; (repeat' split) <;> simp_all (maxDischargeDepth := 12)

@[simp] theorem State.aOps_line (s x1) (h : s.kst.faultLine = true) :
    (State.aOps s x1).kst.faultLine = true := (State.aOps_held _ _).go h

theorem execActuatorPeakExhaust_line (x0 s) : outHeld (execActuatorPeakExhaust x0 s) s := by
  simp only [execActuatorPeakExhaust]; (repeat' split) <;> simp (maxDischargeDepth := 12) +contextual

theorem State.aSafe_held (s x1 x2) : Held s (State.aSafe s x1 x2) := by
  exact ⟨fun h => h⟩

@[simp] theorem State.aSafe_line (s x1 x2) (h : s.kst.faultLine = true) :
    (State.aSafe s x1 x2).kst.faultLine = true := (State.aSafe_held _ _ _).go h

theorem State.aMode_held (x0 x1 s) : Held s (State.aMode x0 x1 s).2 := by
  constructor; intro h; simp only [State.aMode]; split <;> simp (maxDischargeDepth := 12) [h]

@[simp] theorem State.aMode_line (x0 x1 s) (h : s.kst.faultLine = true) :
    (State.aMode x0 x1 s).2.kst.faultLine = true := (State.aMode_held _ _ _).go h

theorem State.aTo_held (s x1 x2) : Held s (State.aTo s x1 x2).2 := by
  constructor; intro h; unfold State.aTo; (repeat' split) <;> simp (maxDischargeDepth := 12) [h]

@[simp] theorem State.aTo_line (s x1 x2) (h : s.kst.faultLine = true) :
    (State.aTo s x1 x2).2.kst.faultLine = true := (State.aTo_held _ _ _).go h

theorem State.aHoldCmd_held (x0 x1 x2 s) : Held s (State.aHoldCmd x0 x1 x2 s).2 := by
  constructor; intro h; simp only [State.aHoldCmd]; (repeat' split) <;> simp_all (maxDischargeDepth := 12)

@[simp] theorem State.aHoldCmd_line (x0 x1 x2 s) (h : s.kst.faultLine = true) :
    (State.aHoldCmd x0 x1 x2 s).2.kst.faultLine = true := (State.aHoldCmd_held _ _ _ _).go h

theorem State.aHoldHere_held (x0 s) : Held s (State.aHoldHere x0 s).2 := by
  constructor; intro h; simp only [State.aHoldHere]; (repeat' split) <;> simp_all (maxDischargeDepth := 12)

@[simp] theorem State.aHoldHere_line (x0 s) (h : s.kst.faultLine = true) :
    (State.aHoldHere x0 s).2.kst.faultLine = true := (State.aHoldHere_held _ _).go h

theorem State.aStart_held (x0 x1 x2 x3 x4 s) : Held s (State.aStart x0 x1 x2 x3 x4 s).2 := by
  constructor; intro h; simp only [State.aStart]; (repeat' split) <;> simp_all (maxDischargeDepth := 12)

@[simp] theorem State.aStart_line (x0 x1 x2 x3 x4 s) (h : s.kst.faultLine = true) :
    (State.aStart x0 x1 x2 x3 x4 s).2.kst.faultLine = true := (State.aStart_held _ _ _ _ _ _).go h

theorem State.aShiftCmd_held (x0 x1 x2 x3 s) : Held s (State.aShiftCmd x0 x1 x2 x3 s).2 := by
  constructor; intro h; unfold State.aShiftCmd; (repeat' split) <;> simp (maxDischargeDepth := 12) [h]

@[simp] theorem State.aShiftCmd_line (x0 x1 x2 x3 s) (h : s.kst.faultLine = true) :
    (State.aShiftCmd x0 x1 x2 x3 s).2.kst.faultLine = true := (State.aShiftCmd_held _ _ _ _ _).go h

theorem State.aParkCmd_held (x0 x1 x2 s) : Held s (State.aParkCmd x0 x1 x2 s).2 := by
  constructor; intro h; unfold State.aParkCmd; (repeat' split) <;> simp (maxDischargeDepth := 12) [h]

@[simp] theorem State.aParkCmd_line (x0 x1 x2 s) (h : s.kst.faultLine = true) :
    (State.aParkCmd x0 x1 x2 s).2.kst.faultLine = true := (State.aParkCmd_held _ _ _ _).go h

theorem State.aReleaseCmd_held (x0 x1 x2 s) : Held s (State.aReleaseCmd x0 x1 x2 s).2 := by
  constructor; intro h; unfold State.aReleaseCmd; (repeat' split) <;> simp (maxDischargeDepth := 12) [h]

@[simp] theorem State.aReleaseCmd_line (x0 x1 x2 s) (h : s.kst.faultLine = true) :
    (State.aReleaseCmd x0 x1 x2 s).2.kst.faultLine = true := (State.aReleaseCmd_held _ _ _ _).go h

theorem State.aCurrentCmd_held (x0 x1 s) : Held s (State.aCurrentCmd x0 x1 s).2 := by
  constructor; intro h; simp only [State.aCurrentCmd]; split <;> simp (maxDischargeDepth := 12) [h]

@[simp] theorem State.aCurrentCmd_line (x0 x1 s) (h : s.kst.faultLine = true) :
    (State.aCurrentCmd x0 x1 s).2.kst.faultLine = true := (State.aCurrentCmd_held _ _ _).go h

theorem State.aHomeCmd_held (x0 x1 x2 s) : Held s (State.aHomeCmd x0 x1 x2 s).2 := by
  constructor; intro h; simp only [State.aHomeCmd]; (repeat' split) <;> simp_all (maxDischargeDepth := 12)

@[simp] theorem State.aHomeCmd_line (x0 x1 x2 s) (h : s.kst.faultLine = true) :
    (State.aHomeCmd x0 x1 x2 s).2.kst.faultLine = true := (State.aHomeCmd_held _ _ _ _).go h

theorem State.aRearmCmd_held (x0 s) : Held s (State.aRearmCmd x0 s).2 := by
  constructor; intro h; simp only [State.aRearmCmd]; split <;> simp (maxDischargeDepth := 12) [h]

@[simp] theorem State.aRearmCmd_line (x0 s) (h : s.kst.faultLine = true) :
    (State.aRearmCmd x0 s).2.kst.faultLine = true := (State.aRearmCmd_held _ _).go h

end Sys2Proof.Machine
end

