-- ==== Sys2Proof/Laws/LineUnits.lean ====
section
/-! SUPPORT. One lemma per operation and command: Parapet, MRAM, Pylon, Trestle, ports, registers and Keystone hold the fault line once it is asserted (R251). -/
namespace Sys2Proof.Machine
set_option linter.all false

theorem execOcLineAssert_line (x0 x1 s) : outHeld (execOcLineAssert x0 x1 s) s := by
  simp only [execOcLineAssert]; (repeat' split) <;> simp (maxDischargeDepth := 12) +contextual

theorem execBlankWindowEnd_line (x0 x1 s) : outHeld (execBlankWindowEnd x0 x1 s) s := by
  simp only [execBlankWindowEnd]; (repeat' split) <;> simp (maxDischargeDepth := 12) +contextual

theorem execScLineAssert_line (x0 x1 s) : outHeld (execScLineAssert x0 x1 s) s := by
  unfold execScLineAssert; (repeat' split) <;> simp (maxDischargeDepth := 12) +contextual

theorem State.desat_held (s x1 x2) : Held s (State.desat s x1 x2) := by
  constructor; intro h; simp only [State.desat]; (repeat' split) <;> simp_all (maxDischargeDepth := 12)

@[simp] theorem State.desat_line (s x1 x2) (h : s.kst.faultLine = true) :
    (State.desat s x1 x2).kst.faultLine = true := (State.desat_held _ _ _).go h

theorem execDesatDetect_line (x0 x1 x2 s) : outHeld (execDesatDetect x0 x1 x2 s) s := by
  simp (maxDischargeDepth := 12) +contextual [execDesatDetect]

theorem execDesatBlankEnd_line (x0 x1 x2 x3 s) : outHeld (execDesatBlankEnd x0 x1 x2 x3 s) s := by
  simp only [execDesatBlankEnd]; (repeat' split) <;> simp (maxDischargeDepth := 12) +contextual

theorem execUvloTrip_line (x0 x1 x2 s) : outHeld (execUvloTrip x0 x1 x2 s) s := by
  simp only [execUvloTrip]; (repeat' split) <;> simp (maxDischargeDepth := 12) +contextual

theorem execUvloRecover_line (x0 s) : outHeld (execUvloRecover x0 s) s := by
  unfold execUvloRecover; (repeat' split) <;> simp (maxDischargeDepth := 12) +contextual

theorem State.uvBoundary_held (s) : Held s (State.uvBoundary s) := by
  constructor; intro h; simp (maxDischargeDepth := 12) [State.uvBoundary, h]

@[simp] theorem State.uvBoundary_line (s) (h : s.kst.faultLine = true) :
    (State.uvBoundary s).kst.faultLine = true := (State.uvBoundary_held _).go h

theorem State.hvSupplyLost_held (s) : Held s (State.hvSupplyLost s) := by
  constructor; intro h; simp (maxDischargeDepth := 12) [State.hvSupplyLost, h]

@[simp] theorem State.hvSupplyLost_line (s) (h : s.kst.faultLine = true) :
    (State.hvSupplyLost s).kst.faultLine = true := (State.hvSupplyLost_held _).go h

theorem execBootstrapUvloTimeout_line (x0 x1 s) : outHeld (execBootstrapUvloTimeout x0 x1 s) s := by
  simp only [execBootstrapUvloTimeout]; (repeat' split) <;> simp (maxDischargeDepth := 12) +contextual

theorem execLinkOvTrip_line (x0 x1 s) : outHeld (execLinkOvTrip x0 x1 s) s := by
  simp (maxDischargeDepth := 12) +contextual [execLinkOvTrip]

theorem execCOvTrip_line (x0 x1 s) : outHeld (execCOvTrip x0 x1 s) s := by
  simp (maxDischargeDepth := 12) +contextual [execCOvTrip]

theorem execZcdDetect_line (x0 x1 s) : outHeld (execZcdDetect x0 x1 s) s := by
  simp only [execZcdDetect]; (repeat' split) <;> simp (maxDischargeDepth := 12) +contextual

theorem execOvershootTruncate_line (x0 s) : outHeld (execOvershootTruncate x0 s) s := by
  simp only [execOvershootTruncate]; (repeat' split) <;> simp (maxDischargeDepth := 12) +contextual

theorem State.markUnprotected_held (s x1 x2) : Held s (State.markUnprotected s x1 x2) := by
  constructor; intro h; simp (maxDischargeDepth := 12) [State.markUnprotected, h]

@[simp] theorem State.markUnprotected_line (s x1 x2) (h : s.kst.faultLine = true) :
    (State.markUnprotected s x1 x2).kst.faultLine = true := (State.markUnprotected_held _ _ _).go h

theorem State.testResult_held (s x1 x2 x3) : Held s (State.testResult s x1 x2 x3) := by
  constructor; intro h; simp only [State.testResult]; split <;> simp (maxDischargeDepth := 12) [h]

@[simp] theorem State.testResult_line (s x1 x2 x3) (h : s.kst.faultLine = true) :
    (State.testResult s x1 x2 x3).kst.faultLine = true := (State.testResult_held _ _ _ _).go h

theorem execComparatorTest_line (x0 x1 x2 s) : outHeld (execComparatorTest x0 x1 x2 s) s := by
  simp only [execComparatorTest]; (repeat' split) <;> simp (maxDischargeDepth := 12) +contextual

theorem execTestRoundEnd_line (s : State) : outHeld (execTestRoundEnd s) s := by
  unfold execTestRoundEnd
  extract_lets s1
  have h : Held s s1 := by
    refine Held.foldl _ (fun t l => ?_) _ _
    dsimp only
    refine Held.trans (t := if (legComparators l).all (fun k => (t.leg l).tested.contains k) then t
        else (t.updLeg l (fun g => { g with testOverdue := true })).raise 15 (t.legAddr l) 0 0 0) ?_ (Held.ite (.refl _) (State.updLeg_held ..))
    exact Held.ite (.refl _) (Held.trans (State.updLeg_held ..) (State.raise_held ..))
  clear_value s1
  split
  · exact Held.trans h (Held.same rfl)
  · exact Held.refl s

theorem execTestAgeOverdue_line (x0 s) : outHeld (execTestAgeOverdue x0 s) s := by
  simp only [execTestAgeOverdue]; (repeat' split) <;> simp (maxDischargeDepth := 12) +contextual

theorem State.commandedTest_held (s x1 x2) : Held s (State.commandedTest s x1 x2) := by
  constructor; intro h; simp only [State.commandedTest]; split <;> simp (maxDischargeDepth := 12) [h]

@[simp] theorem State.commandedTest_line (s x1 x2) (h : s.kst.faultLine = true) :
    (State.commandedTest s x1 x2).kst.faultLine = true := (State.commandedTest_held _ _ _).go h

theorem State.commandedDeckTest_held (s x1) : Held s (State.commandedDeckTest s x1) := by
  constructor; intro h; simp only [State.commandedDeckTest]; (repeat' split) <;> simp_all (maxDischargeDepth := 12)

@[simp] theorem State.commandedDeckTest_line (s x1) (h : s.kst.faultLine = true) :
    (State.commandedDeckTest s x1).kst.faultLine = true := (State.commandedDeckTest_held _ _).go h

theorem State.dtUpset_held (s x1) : Held s (State.dtUpset s x1) := by
  constructor; intro h; simp only [State.dtUpset]; (repeat' split) <;> simp_all (maxDischargeDepth := 12)

@[simp] theorem State.dtUpset_line (s x1) (h : s.kst.faultLine = true) :
    (State.dtUpset s x1).kst.faultLine = true := (State.dtUpset_held _ _).go h

theorem State.dtReadback_held (s x1) : Held s (State.dtReadback s x1) := by
  constructor; intro h; simp only [State.dtReadback]; (repeat' split) <;> simp_all (maxDischargeDepth := 12)

@[simp] theorem State.dtReadback_line (s x1) (h : s.kst.faultLine = true) :
    (State.dtReadback s x1).kst.faultLine = true := (State.dtReadback_held _ _).go h

theorem State.dtBoundary_held (s) : Held s (State.dtBoundary s).1 := by
  constructor; intro h; simp only [State.dtBoundary]; (repeat' split) <;> simp_all (maxDischargeDepth := 12)

@[simp] theorem State.dtBoundary_line (s) (h : s.kst.faultLine = true) :
    (State.dtBoundary s).1.kst.faultLine = true := (State.dtBoundary_held _).go h

theorem State.hallCount_held (s x1 x2) : Held s (State.hallCount s x1 x2) := by
  constructor; intro h; simp only [State.hallCount]; split <;> simp (maxDischargeDepth := 12) [h]

@[simp] theorem State.hallCount_line (s x1 x2) (h : s.kst.faultLine = true) :
    (State.hallCount s x1 x2).kst.faultLine = true := (State.hallCount_held _ _ _).go h

theorem execHallStateChange_line (x0 x1 x2 s) : outHeld (execHallStateChange x0 x1 x2 s) s := by
  simp only [execHallStateChange]; (repeat' split) <;> simp (maxDischargeDepth := 12) +contextual

theorem State.hallBoundary_held (s) : Held s (State.hallBoundary s) := by
  unfold State.hallBoundary
  exact Held.foldl _ (fun t m => State.updHall_held ..) _ _

@[simp] theorem State.hallBoundary_line (s) (h : s.kst.faultLine = true) :
    (State.hallBoundary s).kst.faultLine = true := (State.hallBoundary_held _).go h

theorem State.loseClock_held (s x1) : Held s (State.loseClock s x1) := by
  constructor; intro h; simp only [State.loseClock]; split <;> simp (maxDischargeDepth := 12) [h]

@[simp] theorem State.loseClock_line (s x1) (h : s.kst.faultLine = true) :
    (State.loseClock s x1).kst.faultLine = true := (State.loseClock_held _ _).go h

theorem execClockFail_line (x0 x1 s) : outHeld (execClockFail x0 x1 s) s := by
  simp (maxDischargeDepth := 12) +contextual [execClockFail]

theorem execDebugHalt_line (x0 s) : outHeld (execDebugHalt x0 s) s := by
  simp (maxDischargeDepth := 12) +contextual [execDebugHalt]

theorem State.jobDone_held (s x1 x2 x3) : Held s (State.jobDone s x1 x2 x3) := by
  constructor; intro h; simp only [State.jobDone]; split <;> simp (maxDischargeDepth := 12) [h]

@[simp] theorem State.jobDone_line (s x1 x2 x3) (h : s.kst.faultLine = true) :
    (State.jobDone s x1 x2 x3).kst.faultLine = true := (State.jobDone_held _ _ _ _).go h

theorem State.jobFault_held (s) : Held s (State.jobFault s) := by
  constructor; intro h; simp (maxDischargeDepth := 12) [State.jobFault, h]

@[simp] theorem State.jobFault_line (s) (h : s.kst.faultLine = true) :
    (State.jobFault s).kst.faultLine = true := (State.jobFault_held _).go h

theorem State.charterInForce_held (s : State) (x1) : Held s (s.charterInForce x1) := by
  unfold State.charterInForce
  extract_lets s1 s2
  have h1 : Held s s1 := by
    refine Held.foldl (fun t o => t.setReg o (copyGet x1 o)) ?_ chOffsets s
    exact fun t o => State.setReg_held ..
  have h2 : Held s s2 := h1.trans (State.updLegs_held ..)
  clear_value s1 s2
  exact h2.trans (Held.same rfl)

@[simp] theorem State.charterInForce_line (s x1) (h : s.kst.faultLine = true) :
    (State.charterInForce s x1).kst.faultLine = true := (State.charterInForce_held _ _).go h

theorem execCharter_line (x0 x1 s) : outHeld (execCharter x0 x1 s) s := by
  simp only [execCharter]; (repeat' split) <;> simp (maxDischargeDepth := 12) +contextual

theorem execCharterChangeLands_line (s) : outHeld (execCharterChangeLands s) s := by
  simp only [execCharterChangeLands]; (repeat' split) <;> simp (maxDischargeDepth := 12) +contextual

theorem State.landTrims_held (s x1) : Held s (State.landTrims s x1) := by
  constructor; intro h; simp only [State.landTrims]; (repeat' split) <;> simp_all (maxDischargeDepth := 12)

@[simp] theorem State.landTrims_line (s x1) (h : s.kst.faultLine = true) :
    (State.landTrims s x1).kst.faultLine = true := (State.landTrims_held _ _).go h

theorem execCalWrite_line (x0 s) : outHeld (execCalWrite x0 s) s := by
  simp only [execCalWrite]; (repeat' split) <;> simp (maxDischargeDepth := 12) +contextual

theorem State.calOverwritten_held (s) : Held s (State.calOverwritten s) := by
  exact ⟨fun h => h⟩

@[simp] theorem State.calOverwritten_line (s) (h : s.kst.faultLine = true) :
    (State.calOverwritten s).kst.faultLine = true := (State.calOverwritten_held _).go h

theorem execCalSetSwitch_line (s) : outHeld (execCalSetSwitch s) s := by
  unfold execCalSetSwitch; (repeat' split) <;> simp (maxDischargeDepth := 12) +contextual

theorem execUpdate_line (x0 x1 s) : outHeld (execUpdate x0 x1 s) s := by
  simp only [execUpdate]; (repeat' split) <;> simp (maxDischargeDepth := 12) +contextual

theorem execUpdateVerified_line (x0 s) : outHeld (execUpdateVerified x0 s) s := by
  unfold execUpdateVerified; (repeat' split) <;> simp (maxDischargeDepth := 12) +contextual

theorem State.updSlot_held (s x1 x2) : Held s (State.updSlot s x1 x2) := by
  exact ⟨fun h => h⟩

@[simp] theorem State.updSlot_line (s x1 x2) (h : s.kst.faultLine = true) :
    (State.updSlot s x1 x2).kst.faultLine = true := (State.updSlot_held _ _ _).go h

theorem State.rowMissed_held (s x1 x2) : Held s (State.rowMissed s x1 x2) := by
  exact ⟨fun h => h⟩

@[simp] theorem State.rowMissed_line (s x1 x2) (h : s.kst.faultLine = true) :
    (State.rowMissed s x1 x2).kst.faultLine = true := (State.rowMissed_held _ _ _).go h

theorem State.written_held (s x1) : Held s (State.written s x1) := by
  constructor; intro h; unfold State.written; (repeat' split) <;> simp (maxDischargeDepth := 12) [h]

@[simp] theorem State.written_line (s x1) (h : s.kst.faultLine = true) :
    (State.written s x1).kst.faultLine = true := (State.written_held _ _).go h

theorem State.writeFailed_held (s x1) : Held s (State.writeFailed s x1) := by
  constructor; intro h; simp only [State.writeFailed]; split <;> simp (maxDischargeDepth := 12) [h]

@[simp] theorem State.writeFailed_line (s x1) (h : s.kst.faultLine = true) :
    (State.writeFailed s x1).kst.faultLine = true := (State.writeFailed_held _ _).go h

theorem execMramWriteDone_line (x0 s) : outHeld (execMramWriteDone x0 s) s := by
  unfold execMramWriteDone; (repeat' split) <;> simp (maxDischargeDepth := 12) +contextual

theorem State.armSlot_held (s) : Held s (State.armSlot s) := by
  constructor; intro h; simp only [State.armSlot]; split <;> simp (maxDischargeDepth := 12) [h]

@[simp] theorem State.armSlot_line (s) (h : s.kst.faultLine = true) :
    (State.armSlot s).kst.faultLine = true := (State.armSlot_held _).go h

theorem State.closeRecord_held (s) : Held s (State.closeRecord s) := by
  constructor; intro h; unfold State.closeRecord; (repeat' split) <;> simp (maxDischargeDepth := 12) [h]

@[simp] theorem State.closeRecord_line (s) (h : s.kst.faultLine = true) :
    (State.closeRecord s).kst.faultLine = true := (State.closeRecord_held _).go h

theorem execRecordClose_line (s) : outHeld (execRecordClose s) s := by
  simp (maxDischargeDepth := 12) +contextual [execRecordClose]

theorem State.recTrigDone_held (s x1 x2) : Held s (State.recTrigDone s x1 x2) := by
  constructor; intro h; simp only [State.recTrigDone]; split <;> simp (maxDischargeDepth := 12) [h]

@[simp] theorem State.recTrigDone_line (s x1 x2) (h : s.kst.faultLine = true) :
    (State.recTrigDone s x1 x2).kst.faultLine = true := (State.recTrigDone_held _ _ _).go h

theorem State.recTrigger_held (s x1) : Held s (State.recTrigger s x1) := by
  constructor; intro h; simp only [State.recTrigger]; (repeat' split) <;> simp_all (maxDischargeDepth := 12)

@[simp] theorem State.recTrigger_line (s x1) (h : s.kst.faultLine = true) :
    (State.recTrigger s x1).kst.faultLine = true := (State.recTrigger_held _ _).go h

theorem State.recorder_held (s x1) : Held s (State.recorder s x1) := by
  constructor; intro h; simp only [State.recorder]; (repeat' split) <;> simp_all (maxDischargeDepth := 12)

@[simp] theorem State.recorder_line (s x1) (h : s.kst.faultLine = true) :
    (State.recorder s x1).kst.faultLine = true := (State.recorder_held _ _).go h

theorem execRecSlotRelease_line (x0 s) : outHeld (execRecSlotRelease x0 s) s := by
  simp (maxDischargeDepth := 12) +contextual [execRecSlotRelease]

theorem State.releaseBoundary_held (s) : Held s (State.releaseBoundary s) := by
  constructor; intro h; simp only [State.releaseBoundary]; (repeat' split) <;> simp_all (maxDischargeDepth := 12)

@[simp] theorem State.releaseBoundary_line (s) (h : s.kst.faultLine = true) :
    (State.releaseBoundary s).kst.faultLine = true := (State.releaseBoundary_held _).go h

theorem State.rejectPending_held (s) : Held s (State.rejectPending s) := by
  constructor; intro h; simp only [State.rejectPending]; (repeat' split) <;> simp_all (maxDischargeDepth := 12)

@[simp] theorem State.rejectPending_line (s) (h : s.kst.faultLine = true) :
    (State.rejectPending s).kst.faultLine = true := (State.rejectPending_held _).go h

theorem State.abutment_held (s x1) : Held s (State.abutment s x1) := by
  constructor; intro h; simp only [State.abutment]; (repeat' split) <;> simp_all (maxDischargeDepth := 12)

@[simp] theorem State.abutment_line (s x1) (h : s.kst.faultLine = true) :
    (State.abutment s x1).kst.faultLine = true := (State.abutment_held _ _).go h

theorem State.startFail_held (s x1) : Held s (State.startFail s x1) := by
  constructor; intro h; simp only [State.startFail]; split <;> simp (maxDischargeDepth := 12) [h]

@[simp] theorem State.startFail_line (s x1) (h : s.kst.faultLine = true) :
    (State.startFail s x1).kst.faultLine = true := (State.startFail_held _ _).go h

theorem State.pylTo_held (s x1 x2) : Held s (State.pylTo s x1 x2) := by
  constructor; intro h; simp (maxDischargeDepth := 12) [State.pylTo, h]

@[simp] theorem State.pylTo_line (s x1 x2) (h : s.kst.faultLine = true) :
    (State.pylTo s x1 x2).kst.faultLine = true := (State.pylTo_held _ _ _).go h

theorem State.stepCount_held (s : State) (x1) : Held s (s.stepCount x1) := by
  unfold State.stepCount
  dsimp only
  refine Held.trans ?_ (State.updLegs_held ..)
  refine Held.trans ?_ (State.sensingMoved_held ..)
  exact ⟨fun h => h⟩

@[simp] theorem State.stepCount_line (s x1) (h : s.kst.faultLine = true) :
    (State.stepCount s x1).kst.faultLine = true := (State.stepCount_held _ _).go h

theorem State.stepBy_held (s x1) : Held s (State.stepBy s x1) := by
  constructor; intro h; simp (maxDischargeDepth := 12) [State.stepBy, h]

@[simp] theorem State.stepBy_line (s x1) (h : s.kst.faultLine = true) :
    (State.stepBy s x1).kst.faultLine = true := (State.stepBy_held _ _).go h

theorem State.syncTracked_held (s x1) : Held s (State.syncTracked s x1) := by
  constructor; intro h; simp only [State.syncTracked]; (repeat' split) <;> simp_all (maxDischargeDepth := 12)

@[simp] theorem State.syncTracked_line (s x1) (h : s.kst.faultLine = true) :
    (State.syncTracked s x1).kst.faultLine = true := (State.syncTracked_held _ _).go h

theorem execSyncMessage_line (x0 x1 s) : outHeld (execSyncMessage x0 x1 s) s := by
  simp only [execSyncMessage]; (repeat' split) <;> simp (maxDischargeDepth := 12) +contextual

theorem execSyncLoss_line (x0 s) : outHeld (execSyncLoss x0 s) s := by
  simp only [execSyncLoss]; (repeat' split) <;> simp (maxDischargeDepth := 12) +contextual

theorem State.setCount_held (s : State) : Held s s.setCount := by
  unfold State.setCount
  exact State.stepCount_held ..

@[simp] theorem State.setCount_line (s) (h : s.kst.faultLine = true) :
    (State.setCount s).kst.faultLine = true := (State.setCount_held _).go h

theorem execAnnounceMessage_line (x0 x1 s) : outHeld (execAnnounceMessage x0 x1 s) s := by
  simp only [execAnnounceMessage]; (repeat' split) <;> simp (maxDischargeDepth := 12) +contextual

theorem execPdelayExchange_line (x0 x1 x2 x3 s) : outHeld (execPdelayExchange x0 x1 x2 x3 s) s := by
  simp (maxDischargeDepth := 12) +contextual [execPdelayExchange]

theorem execGrandmasterSyncSend_line (x0 s) : outHeld (execGrandmasterSyncSend x0 s) s := by
  simp only [execGrandmasterSyncSend]; (repeat' split) <;> simp (maxDischargeDepth := 12) +contextual

theorem execLaunchMarkerDrive_line (s) : outHeld (execLaunchMarkerDrive s) s := by
  simp only [execLaunchMarkerDrive]; (repeat' split) <;> simp (maxDischargeDepth := 12) +contextual

theorem State.lineInvalid_held (s x1) : Held s (State.lineInvalid s x1) := by
  constructor; intro h; simp (maxDischargeDepth := 12) [State.lineInvalid, h]

@[simp] theorem State.lineInvalid_line (s x1) (h : s.kst.faultLine = true) :
    (State.lineInvalid s x1).kst.faultLine = true := (State.lineInvalid_held _ _).go h

theorem State.markBad_held (s x1) : Held s (State.markBad s x1) := by
  constructor; intro h; simp only [State.markBad]; (repeat' split) <;> simp_all (maxDischargeDepth := 12) 

@[simp] theorem State.markBad_line (s x1) (h : s.kst.faultLine = true) :
    (State.markBad s x1).kst.faultLine = true := (State.markBad_held _ _).go h

theorem State.markGood_held (s x1) : Held s (State.markGood s x1) := by
  constructor; intro h; simp only [State.markGood]; (repeat' split) <;> simp_all (maxDischargeDepth := 12)

@[simp] theorem State.markGood_line (s x1) (h : s.kst.faultLine = true) :
    (State.markGood s x1).kst.faultLine = true := (State.markGood_held _ _).go h

theorem execLaunchMarker_line (x0 s) : outHeld (execLaunchMarker x0 s) s := by
  simp only [execLaunchMarker]; (repeat' split) <;> simp (maxDischargeDepth := 12) +contextual

theorem execLaunchMarkerMissing_line (x0 s) : outHeld (execLaunchMarkerMissing x0 s) s := by
  simp only [execLaunchMarkerMissing]; (repeat' split) <;> simp (maxDischargeDepth := 12) +contextual

theorem execCensusReady_line (x0 s) : outHeld (execCensusReady x0 s) s := by
  simp only [execCensusReady]; (repeat' split) <;> simp (maxDischargeDepth := 12) +contextual

theorem execCensusRelease_line (x0 s) : outHeld (execCensusRelease x0 s) s := by
  unfold execCensusRelease; (repeat' split) <;> simp (maxDischargeDepth := 12) +contextual

theorem State.census_held (s x1 x2 x3) : Held s (State.census s x1 x2 x3) := by
  constructor; intro h; simp only [State.census]; split <;> simp (maxDischargeDepth := 12) [h]

@[simp] theorem State.census_line (s x1 x2 x3) (h : s.kst.faultLine = true) :
    (State.census s x1 x2 x3).kst.faultLine = true := (State.census_held _ _ _ _).go h

theorem execLeapSecondInsert_line (x0 s) : outHeld (execLeapSecondInsert x0 s) s := by
  simp only [execLeapSecondInsert]; (repeat' split) <;> simp (maxDischargeDepth := 12) +contextual

theorem execRtcTrimUpdate_line (x0 x1 s) : outHeld (execRtcTrimUpdate x0 x1 s) s := by
  simp only [execRtcTrimUpdate]; (repeat' split) <;> simp (maxDischargeDepth := 12) +contextual

theorem execVbakLow_line (x0 s) : outHeld (execVbakLow x0 s) s := by
  simp only [execVbakLow]; (repeat' split) <;> simp (maxDischargeDepth := 12) +contextual

theorem State.calMap_held (s x1 x2 x3) : Held s (State.calMap s x1 x2 x3) := by
  constructor; intro h; simp (maxDischargeDepth := 12) [State.calMap, h]

@[simp] theorem State.calMap_line (s x1 x2 x3) (h : s.kst.faultLine = true) :
    (State.calMap s x1 x2 x3).kst.faultLine = true := (State.calMap_held _ _ _ _).go h

theorem State.chanEvent_held (s x1 x2 x3 x4) : Held s (State.chanEvent s x1 x2 x3 x4) := by
  constructor; intro h; simp (maxDischargeDepth := 12) [State.chanEvent, h]

@[simp] theorem State.chanEvent_line (s x1 x2 x3 x4) (h : s.kst.faultLine = true) :
    (State.chanEvent s x1 x2 x3 x4).kst.faultLine = true := (State.chanEvent_held _ _ _ _ _).go h

theorem State.postChannel_held (s : State) (x1 x2) : Held s (s.postChannel x1 x2) := by
  unfold State.postChannel
  extract_lets old
  refine Held.ite (.refl _) ?_
  generalize readingOf _ _ _ = r
  obtain ⟨v, bo, bs⟩ := r
  dsimp -zeta only
  refine Held.ite (Held.same rfl) ?_
  generalize throttleFactor _ _ _ _ _ = r
  obtain ⟨e, f⟩ := r
  dsimp -zeta only
  extract_lets warn shut throt broke t s1 s2 s3 s4
  have h1 : Held s s1 := (Held.same rfl)
  have h2 : Held s s2 := h1.trans (Held.ite (State.chanEvent_held ..) (.refl _))
  have h3 : Held s s3 := h2.trans (Held.ite (.refl _) (State.chanEvent_held ..))
  have h4 : Held s s4 := h3.trans (Held.ite (.refl _) (State.chanEvent_held ..))
  exact h4.trans (Held.ite (State.chanEvent_held ..) (.refl _))

@[simp] theorem State.postChannel_line (s x1 x2) (h : s.kst.faultLine = true) :
    (State.postChannel s x1 x2).kst.faultLine = true := (State.postChannel_held _ _ _).go h

theorem State.derateEvent_held (s x1 x2 x3) : Held s (State.derateEvent s x1 x2 x3) := by
  constructor; intro h; simp only [State.derateEvent]; (repeat' split) <;> simp_all (maxDischargeDepth := 12)

@[simp] theorem State.derateEvent_line (s x1 x2 x3) (h : s.kst.faultLine = true) :
    (State.derateEvent s x1 x2 x3).kst.faultLine = true := (State.derateEvent_held _ _ _ _).go h

theorem State.postFactors_held (s) : Held s (State.postFactors s) := by
  constructor; intro h; simp (maxDischargeDepth := 12) [State.postFactors, h]

@[simp] theorem State.postFactors_line (s) (h : s.kst.faultLine = true) :
    (State.postFactors s).kst.faultLine = true := (State.postFactors_held _).go h

theorem State.brgTo_held (s x1 x2) : Held s (State.brgTo s x1 x2) := by
  constructor; intro h; simp only [State.brgTo]; split <;> simp (maxDischargeDepth := 12) [h]

@[simp] theorem State.brgTo_line (s x1 x2) (h : s.kst.faultLine = true) :
    (State.brgTo s x1 x2).kst.faultLine = true := (State.brgTo_held _ _ _).go h

theorem execBearingLinkPresent_line (x0 s) : outHeld (execBearingLinkPresent x0 s) s := by
  simp only [execBearingLinkPresent]; (repeat' split) <;> simp (maxDischargeDepth := 12) +contextual

theorem execBearingOutputInBand_line (x0 s) : outHeld (execBearingOutputInBand x0 s) s := by
  simp only [execBearingOutputInBand]; (repeat' split) <;> simp (maxDischargeDepth := 12) +contextual

theorem execBearingStartTimeout_line (s) : outHeld (execBearingStartTimeout s) s := by
  simp only [execBearingStartTimeout]; (repeat' split) <;> simp (maxDischargeDepth := 12) +contextual

theorem execBearingLinkLoss_line (x0 s) : outHeld (execBearingLinkLoss x0 s) s := by
  simp only [execBearingLinkLoss]; (repeat' split) <;> simp (maxDischargeDepth := 12) +contextual

theorem execBearingFaultHoldEnd_line (s) : outHeld (execBearingFaultHoldEnd s) s := by
  simp only [execBearingFaultHoldEnd]; (repeat' split) <;> simp (maxDischargeDepth := 12) +contextual

theorem State.postBearing_held (s) : Held s (State.postBearing s) := by
  constructor; intro h; simp only [State.postBearing]; (repeat' split) <;> simp_all (maxDischargeDepth := 12)

@[simp] theorem State.postBearing_line (s) (h : s.kst.faultLine = true) :
    (State.postBearing s).kst.faultLine = true := (State.postBearing_held _).go h

theorem execTrestleRoundPost_line (x0) (s : State) : outHeld (execTrestleRoundPost x0 s) s := by
  unfold execTrestleRoundPost
  extract_lets ms late r t s1 _ s2 s3 s4 die
  have h1 : Held s s1 := State.goto_held ..
  have h2 : Held s s2 := h1.trans (Held.same rfl)
  have h3 : Held s s3 := by
    refine h2.trans (Held.foldl _ (fun t c => ?_) _ _)
    dsimp only
    split
    · exact State.postChannel_held ..
    · exact Held.ite (State.postChannel_held ..) (.refl _)
  have h4 : Held s s4 := h3.trans (Held.trans (State.postBearing_held s3) (State.postFactors_held _))
  split
  · exact h4.trans (Held.ite (State.startFail_held ..) (.refl _))
  · exact Held.refl s

theorem State.trestleInputs_held (s) : Held s (State.trestleInputs s) := by
  exact ⟨fun h => h⟩

@[simp] theorem State.trestleInputs_line (s) (h : s.kst.faultLine = true) :
    (State.trestleInputs s).kst.faultLine = true := (State.trestleInputs_held _).go h

theorem execVsupWarn_line (x0 x1 s) : outHeld (execVsupWarn x0 x1 s) s := by
  simp only [execVsupWarn]; (repeat' split) <;> simp (maxDischargeDepth := 12) +contextual

theorem State.thaw_held (s) : Held s (State.thaw s) := by
  constructor; intro h; simp (maxDischargeDepth := 12) [State.thaw, h]

@[simp] theorem State.thaw_line (s) (h : s.kst.faultLine = true) :
    (State.thaw s).kst.faultLine = true := (State.thaw_held _).go h

theorem execVsupDipEnd_line (x0 x1 s) : outHeld (execVsupDipEnd x0 x1 s) s := by
  simp only [execVsupDipEnd]; (repeat' split) <;> simp (maxDischargeDepth := 12) +contextual

theorem execVsupLongDip_line (s) : outHeld (execVsupLongDip s) s := by
  simp only [execVsupLongDip]; (repeat' split) <;> simp (maxDischargeDepth := 12) +contextual

theorem State.updObj_held (s x1 x2 x3) : Held s (State.updObj s x1 x2 x3) := by
  exact ⟨fun h => h⟩

@[simp] theorem State.updObj_line (s x1 x2 x3) (h : s.kst.faultLine = true) :
    (State.updObj s x1 x2 x3).kst.faultLine = true := (State.updObj_held _ _ _ _).go h

theorem State.mapObjs_held (s : State) (x1 x2) : Held s (s.mapObjs x1 x2) := by
  unfold State.mapObjs
  exact Held.foldl _ (fun t o => Held.ite (.refl _) (State.updObj_held ..)) _ _

@[simp] theorem State.mapObjs_line (s x1 x2) (h : s.kst.faultLine = true) :
    (State.mapObjs s x1 x2).kst.faultLine = true := (State.mapObjs_held _ _ _).go h

theorem State.updPartner_held (s x1 x2) : Held s (State.updPartner s x1 x2) := by
  exact ⟨fun h => h⟩

@[simp] theorem State.updPartner_line (s x1 x2) (h : s.kst.faultLine = true) :
    (State.updPartner s x1 x2).kst.faultLine = true := (State.updPartner_held _ _ _).go h

theorem State.objEvent_held (s x1 x2 x3 x4) : Held s (State.objEvent s x1 x2 x3 x4) := by
  constructor; intro h; simp (maxDischargeDepth := 12) [State.objEvent, h]

@[simp] theorem State.objEvent_line (s x1 x2 x3 x4) (h : s.kst.faultLine = true) :
    (State.objEvent s x1 x2 x3 x4).kst.faultLine = true := (State.objEvent_held _ _ _ _ _).go h

theorem State.offer_held (s x1) : Held s (State.offer s x1) := by
  constructor; intro h; simp only [State.offer]; (repeat' split) <;> simp_all (maxDischargeDepth := 12)

@[simp] theorem State.offer_line (s x1) (h : s.kst.faultLine = true) :
    (State.offer s x1).kst.faultLine = true := (State.offer_held _ _).go h

theorem State.reroute_held (s x1 x2) : Held s (State.reroute s x1 x2) := by
  constructor; intro h; simp only [State.reroute]; split <;> simp (maxDischargeDepth := 12) [h]

@[simp] theorem State.reroute_line (s x1 x2) (h : s.kst.faultLine = true) :
    (State.reroute s x1 x2).kst.faultLine = true := (State.reroute_held _ _ _).go h

theorem State.strandObj_held (s x1 x2) : Held s (State.strandObj s x1 x2) := by
  constructor; intro h; simp (maxDischargeDepth := 12) [State.strandObj, h]

@[simp] theorem State.strandObj_line (s x1 x2) (h : s.kst.faultLine = true) :
    (State.strandObj s x1 x2).kst.faultLine = true := (State.strandObj_held _ _ _).go h

theorem State.request_held (s x1 x2) : Held s (State.request s x1 x2) := by
  constructor; intro h; simp only [State.request]; split <;> simp (maxDischargeDepth := 12) [h]

@[simp] theorem State.request_line (s x1 x2) (h : s.kst.faultLine = true) :
    (State.request s x1 x2).kst.faultLine = true := (State.request_held _ _ _).go h

theorem State.unqueue_held (s : State) (x1 x2) : Held s (s.unqueue x1 x2) := by
  unfold State.unqueue
  refine Held.ite ?_ (.refl _)
  extract_lets hit s1
  have h1 : Held s s1 := Held.foldl _ (fun t a => Held.ite (State.updPort_held ..) (.refl _)) _ _
  exact h1.trans (State.updObj_held ..)

@[simp] theorem State.unqueue_line (s x1 x2) (h : s.kst.faultLine = true) :
    (State.unqueue s x1 x2).kst.faultLine = true := (State.unqueue_held _ _ _).go h

theorem State.withdraw_held (s x1 x2) : Held s (State.withdraw s x1 x2) := by
  constructor; intro h; simp only [State.withdraw]; split <;> simp (maxDischargeDepth := 12) [h]

@[simp] theorem State.withdraw_line (s x1 x2) (h : s.kst.faultLine = true) :
    (State.withdraw s x1 x2).kst.faultLine = true := (State.withdraw_held _ _ _).go h

theorem State.enterBusOff_held (s : State) (x1) : Held s (s.enterBusOff x1) := by
  unfold State.enterBusOff
  extract_lets back s1 s2 s3
  have h1 : Held s s1 := State.updPort_held ..
  have h2 : Held s s2 := h1.trans (Held.trans (State.mapObjs_held ..) (State.raise_held ..))
  have h3 : Held s s3 := by
    refine h2.trans (Held.foldl _ (fun t e => ?_) _ _)
    exact Held.trans (State.updObj_held t ..) (State.offer_held ..)
  exact h3.trans (Held.foldl _ (fun t o => Held.ite (State.strandObj_held ..) (.refl _)) _ _)

@[simp] theorem State.enterBusOff_line (s x1) (h : s.kst.faultLine = true) :
    (State.enterBusOff s x1).kst.faultLine = true := (State.enterBusOff_held _ _).go h

theorem State.confine_held (s x1) : Held s (State.confine s x1) := by
  constructor; intro h; simp only [State.confine]; (repeat' split) <;> simp_all (maxDischargeDepth := 12)

@[simp] theorem State.confine_line (s x1) (h : s.kst.faultLine = true) :
    (State.confine s x1).kst.faultLine = true := (State.confine_held _ _).go h

theorem State.frameDone_held (s x1) : Held s (State.frameDone s x1) := by
  constructor; intro h; simp only [State.frameDone]; (repeat' split) <;> simp_all (maxDischargeDepth := 12) 

@[simp] theorem State.frameDone_line (s x1) (h : s.kst.faultLine = true) :
    (State.frameDone s x1).kst.faultLine = true := (State.frameDone_held _ _).go h

theorem State.sentFrame_held (s x1 x2) : Held s (State.sentFrame s x1 x2) := by
  constructor; intro h; simp only [State.sentFrame]; (repeat' split) <;> simp_all (maxDischargeDepth := 12)

@[simp] theorem State.sentFrame_line (s x1 x2) (h : s.kst.faultLine = true) :
    (State.sentFrame s x1 x2).kst.faultLine = true := (State.sentFrame_held _ _ _).go h

theorem State.collision_held (s x1 x2) : Held s (State.collision s x1 x2) := by
  unfold State.collision; (try extract_lets); (repeat' first | split | exact Held.refl _ | with_reducible exact (State.updPort_held ..) | with_reducible exact (State.updObj_held ..) | with_reducible exact (State.objEvent_held ..) | with_reducible refine Held.ite ?_ ?_ | with_reducible refine Held.trans ?_ (State.updPort_held ..) | with_reducible refine Held.trans ?_ (State.updObj_held ..) | with_reducible refine Held.trans ?_ (State.objEvent_held ..) | with_reducible refine Held.trans ?_ (Held.foldl _ (fun _ _ => ?_) _ _) | with_reducible refine Held.trans ?_ (Held.ite ?_ ?_) | with_reducible refine Held.trans ?_ (Held.lit _ _ (by rfl) ..))

@[simp] theorem State.collision_line (s x1 x2) (h : s.kst.faultLine = true) :
    (State.collision s x1 x2).kst.faultLine = true := (State.collision_held _ _ _).go h

theorem State.failedFrame_held (s x1 x2 x3 x4) : Held s (State.failedFrame s x1 x2 x3 x4) := by
  constructor; intro h; simp only [State.failedFrame]; (repeat' split) <;> simp_all (maxDischargeDepth := 12)

@[simp] theorem State.failedFrame_line (s x1 x2 x3 x4) (h : s.kst.faultLine = true) :
    (State.failedFrame s x1 x2 x3 x4).kst.faultLine = true := (State.failedFrame_held _ _ _ _ _).go h

theorem State.measured_held (s x1 x2 x3) : Held s (State.measured s x1 x2 x3) := by
  constructor; intro h; simp only [State.measured]; split <;> simp (maxDischargeDepth := 12) [h]

@[simp] theorem State.measured_line (s x1 x2 x3) (h : s.kst.faultLine = true) :
    (State.measured s x1 x2 x3).kst.faultLine = true := (State.measured_held _ _ _ _).go h

theorem execFrameAttemptEnd_line (x0 x1 x2 s) : outHeld (execFrameAttemptEnd x0 x1 x2 s) s := by
  simp only [execFrameAttemptEnd]; (repeat' split) <;> simp (maxDischargeDepth := 12) +contextual

theorem execTxreq_line (x0 x1 s) : outHeld (execTxreq x0 x1 s) s := by
  simp only [execTxreq]; (repeat' split) <;> simp (maxDischargeDepth := 12) +contextual

theorem execObjAbort_line (x0 x1 s) : outHeld (execObjAbort x0 x1 s) s := by
  simp only [execObjAbort]; (repeat' split) <;> simp (maxDischargeDepth := 12) +contextual

theorem execResume_line (x0 x1 s) : outHeld (execResume x0 x1 s) s := by
  simp only [execResume]; (repeat' split) <;> simp (maxDischargeDepth := 12) +contextual

theorem State.fillObj_held (s : State) (x1 x2 x3) : Held s (s.fillObj x1 x2 x3) := by
  unfold State.fillObj
  extract_lets b s1 hit s2
  have h1 : Held s s1 := State.updObj_held ..
  have h2 : Held s s2 := h1.trans (Held.ite (Held.foldl _ (fun t a => Held.ite (State.updPort_held ..) (.refl _)) _ _) (.refl _))
  exact h2.trans (Held.ite (.refl _) (State.request_held ..))

@[simp] theorem State.fillObj_line (s x1 x2 x3) (h : s.kst.faultLine = true) :
    (State.fillObj s x1 x2 x3).kst.faultLine = true := (State.fillObj_held _ _ _ _).go h

theorem execPortIntegration_line (x0 x1 s) : outHeld (execPortIntegration x0 x1 s) s := by
  simp only [execPortIntegration]; (repeat' split) <;> simp (maxDischargeDepth := 12) +contextual

theorem State.startRecovery_held (s x1) : Held s (State.startRecovery s x1) := by
  constructor; intro h; simp (maxDischargeDepth := 12) [State.startRecovery, h]

@[simp] theorem State.startRecovery_line (s x1) (h : s.kst.faultLine = true) :
    (State.startRecovery s x1).kst.faultLine = true := (State.startRecovery_held _ _).go h

theorem execBusOffRecoveryStart_line (x0 x1 s) : outHeld (execBusOffRecoveryStart x0 x1 s) s := by
  simp only [execBusOffRecoveryStart]; (repeat' split) <;> simp (maxDischargeDepth := 12) +contextual

theorem execBoRecover_line (x0 x1 s) : outHeld (execBoRecover x0 x1 s) s := by
  simp only [execBoRecover]; (repeat' split) <;> simp (maxDischargeDepth := 12) +contextual

theorem execBusOffRecovered_line (x0 x1 s) : outHeld (execBusOffRecovered x0 x1 s) s := by
  simp only [execBusOffRecovered]; (repeat' split) <;> simp (maxDischargeDepth := 12) +contextual

theorem execErrorFrame_line (x0 x1 x2 s) : outHeld (execErrorFrame x0 x1 x2 s) s := by
  simp only [execErrorFrame]; (repeat' split) <;> simp (maxDischargeDepth := 12) +contextual

theorem execRerouteTest_line (x0) (s : State) : outHeld (execRerouteTest x0 s) s := by
  unfold execRerouteTest
  extract_lets s1 ms _ s2
  have h1 : Held s s1 := State.at_held ..
  clear_value s1
  split
  · refine (h1.trans (t := s1) (Held.same rfl) : Held s s2).trans (Held.foldl _ (fun t p => ?_) _ _)
    exact Held.ite (.refl _) (Held.foldl _ (fun t o => State.reroute_held ..) _ _)
  · exact h1

theorem State.store_held (s x1 x2 x3) : Held s (State.store s x1 x2 x3) := by
  constructor; intro h; simp only [State.store]; (repeat' split) <;> simp_all (maxDischargeDepth := 12)

@[simp] theorem State.store_line (s x1 x2 x3) (h : s.kst.faultLine = true) :
    (State.store s x1 x2 x3).kst.faultLine = true := (State.store_held _ _ _ _).go h

theorem State.heartbeats_held (s : State) (x1 x2) : Held s (s.heartbeats x1 x2) := by
  unfold State.heartbeats
  refine Held.foldl _ (fun t e => ?_) _ _
  refine Held.ite ?_ (.refl _)
  extract_lets t1
  have h1 : Held t t1 := State.updPartner_held ..
  exact h1.trans (Held.ite (State.raise_held ..) (.refl _))

@[simp] theorem State.heartbeats_line (s x1 x2) (h : s.kst.faultLine = true) :
    (State.heartbeats s x1 x2).kst.faultLine = true := (State.heartbeats_held _ _ _).go h

theorem State.rxOk_held (s x1) : Held s (State.rxOk s x1) := by
  constructor; intro h; simp only [State.rxOk]; (repeat' split) <;> simp_all (maxDischargeDepth := 12)

@[simp] theorem State.rxOk_line (s x1) (h : s.kst.faultLine = true) :
    (State.rxOk s x1).kst.faultLine = true := (State.rxOk_held _ _).go h

theorem execCanFrameReceived_line (x0 x1 x2 s) : outHeld (execCanFrameReceived x0 x1 x2 s) s := by
  simp only [execCanFrameReceived]; (repeat' split) <;> simp (maxDischargeDepth := 12) +contextual

theorem execLdgSel_line (x0 x1 s) : outHeld (execLdgSel x0 x1 s) s := by
  simp only [execLdgSel]; (repeat' split) <;> simp (maxDischargeDepth := 12) +contextual

theorem execPartnerAgeTick_line (x0) (s : State) : outHeld (execPartnerAgeTick x0 s) s := by
  unfold execPartnerAgeTick
  extract_lets s1 _ s2
  have h1 : Held s s1 := State.at_held ..
  clear_value s1
  split
  · refine (h1.trans (t := s1) (Held.same rfl) : Held s s2).trans (Held.foldl _ (fun t e => ?_) _ _)
    refine Held.ite (.refl _) ?_
    extract_lets age t1
    have h2 : Held t t1 := State.updPartner_held ..
    exact h2.trans (Held.ite (Held.trans (State.updPartner_held ..) (State.raise_held ..)) (.refl _))
  · exact h1

theorem State.updateAvail_held (s) : Held s (State.updateAvail s) := by
  constructor; intro h; simp only [State.updateAvail]; split <;> simp (maxDischargeDepth := 12) [h]

@[simp] theorem State.updateAvail_line (s) (h : s.kst.faultLine = true) :
    (State.updateAvail s).kst.faultLine = true := (State.updateAvail_held _).go h

theorem State.unstick_held (s x1 x2) : Held s (State.unstick s x1 x2) := by
  exact ⟨fun h => h⟩

@[simp] theorem State.unstick_line (s x1 x2) (h : s.kst.faultLine = true) :
    (State.unstick s x1 x2).kst.faultLine = true := (State.unstick_held _ _ _).go h

theorem State.clearBits_held (s : State) (x1 x2) : Held s (s.clearBits x1 x2) := by
  unfold State.clearBits
  extract_lets k r keep
  clear_value k r keep
  split
  case h_3 => exact Held.foldl _ (fun t b => Held.ite (State.updInp_held ..) (.refl _)) _ _
  case h_13 => split <;> exact State.updPort_held ..
  case h_14 =>
    split
    · exact .refl _
    · exact Held.same (by dsimp only; split <;> rfl)
  all_goals first
    | exact (Held.same rfl)
    | exact State.unstick_held ..
    | exact State.updLeg_held ..
    | exact State.updRej_held ..
    | (split <;> exact (Held.same rfl))

@[simp] theorem State.clearBits_line (s x1 x2) (h : s.kst.faultLine = true) :
    (State.clearBits s x1 x2).kst.faultLine = true := (State.clearBits_held _ _ _).go h

theorem State.holdWrite_held (s x1 x2 x3) : Held s (State.holdWrite s x1 x2 x3) := by
  exact ⟨fun h => h⟩

@[simp] theorem State.holdWrite_line (s x1 x2 x3) (h : s.kst.faultLine = true) :
    (State.holdWrite s x1 x2 x3).kst.faultLine = true := (State.holdWrite_held _ _ _ _).go h

theorem State.go_held (s) : Held s (State.go s) := by
  constructor; intro h; simp only [State.go]; split <;> simp (maxDischargeDepth := 12) [h]

@[simp] theorem State.go_line (s) (h : s.kst.faultLine = true) :
    (State.go s).kst.faultLine = true := (State.go_held _).go h

theorem State.askAbut_held (s) : Held s (State.askAbut s) := by
  constructor; intro h; simp only [State.askAbut]; split <;> simp (maxDischargeDepth := 12) [h]

@[simp] theorem State.askAbut_line (s) (h : s.kst.faultLine = true) :
    (State.askAbut s).kst.faultLine = true := (State.askAbut_held _).go h

/-- Going on keeps what the outcome keeps. -/
theorem goOn_held {s : State} {o : Host.Outcome State Fault Refusal} (h : outHeld o s) : Held s (goOn s o) := by
  cases o
  · exact h
  all_goals exact .refl s

/-- One bit of a W1S register. -/
theorem onBit_held (s : State) (v i) (f : State → State) (h : ∀ t, Held t (f t)) : Held s (s.onBit v i f) := Held.ite (h s) (.refl _)

theorem State.setBits_held (s : State) (x1 x2 x3) : Held s (s.setBits x1 x2 x3) := by
  unfold State.setBits
  extract_lets -merge +onlyGivenNames k r
  split
  · exact (onBit_held _ _ _ _ fun t => State.go_held ..).trans (onBit_held _ _ _ _ fun t => State.askAbut_held ..)
  · exact Held.ite (onBit_held _ _ _ _ fun t => ⟨fun h => h⟩) (goOn_held (execCensusRelease_line ..))
  · exact Held.ite (onBit_held _ _ _ _ fun t => goOn_held (execDirectCommit_line ..)) (State.accessViolation_held ..)
  · exact (((onBit_held _ _ _ _ fun t => goOn_held (execTxreq_line ..)).trans (onBit_held _ _ _ _ fun t => goOn_held (execObjAbort_line ..))).trans
      (onBit_held _ _ _ _ fun t => goOn_held (execResume_line ..))).trans (onBit_held _ _ _ _ fun t => goOn_held (execBoRecover_line ..))
  · exact goOn_held (execRecSlotRelease_line ..)
  · exact .refl _

@[simp] theorem State.setBits_line (s x1 x2 x3) (h : s.kst.faultLine = true) :
    (State.setBits s x1 x2 x3).kst.faultLine = true := (State.setBits_held _ _ _ _).go h

theorem State.unmask_held (s x1) : Held s (State.unmask s x1) := by
  constructor; intro h; simp only [State.unmask]; split <;> simp (maxDischargeDepth := 12) [h]

@[simp] theorem State.unmask_line (s x1) (h : s.kst.faultLine = true) :
    (State.unmask s x1).kst.faultLine = true := (State.unmask_held _ _).go h

theorem State.stepDaddr_held (s x1) : Held s (State.stepDaddr s x1) := by
  exact ⟨fun h => h⟩

@[simp] theorem State.stepDaddr_line (s x1) (h : s.kst.faultLine = true) :
    (State.stepDaddr s x1).kst.faultLine = true := (State.stepDaddr_held _ _).go h

theorem State.writeObjData_held (s x1 x2) : Held s (State.writeObjData s x1 x2) := by
  constructor; intro h; simp only [State.writeObjData]; (repeat' split) <;> simp_all (maxDischargeDepth := 12)

@[simp] theorem State.writeObjData_line (s x1 x2) (h : s.kst.faultLine = true) :
    (State.writeObjData s x1 x2).kst.faultLine = true := (State.writeObjData_held _ _ _).go h

theorem State.writeRw_held (s : State) (x1 x2 x3 x4) : Held s (s.writeRw x1 x2 x3 x4) := by
  unfold State.writeRw
  split
  · exact Held.ite (State.writeObjData_held ..) (State.setReg_held ..)
  · exact Held.ite (goOn_held (execLdgSel_line ..)) (State.setReg_held ..)
  · exact Held.ite (Held.trans (State.setReg_held ..) (State.unmask_held ..)) (State.setReg_held ..)
  · exact State.setReg_held ..

@[simp] theorem State.writeRw_line (s x1 x2 x3 x4) (h : s.kst.faultLine = true) :
    (State.writeRw s x1 x2 x3 x4).kst.faultLine = true := (State.writeRw_held _ _ _ _ _).go h

theorem State.writeLk_held (s : State) (x1 x2 x3 x4 x5) : Held s (s.writeLk x1 x2 x3 x4 x5) := by
  unfold State.writeLk
  extract_lets -merge +onlyGivenNames k r obj
  have h : ∀ f, Held s (obj f) := fun f => State.updObj_held ..
  split
  · exact Held.ite (Held.same rfl) (Held.ite (goOn_held (execRefEnable_line ..)) (goOn_held (execRefDisable_line ..)))
  · exact Held.ite (h _) (Held.ite (h _) (Held.ite (h _) (Held.ite (h _) (State.setReg_held ..))))
  · exact Held.ite (State.updPartner_held ..) (State.setReg_held ..)
  · exact Held.ite (State.setReg_held ..) (State.setReg_held ..)

@[simp] theorem State.writeLk_line (s x1 x2 x3 x4 x5) (h : s.kst.faultLine = true) :
    (State.writeLk s x1 x2 x3 x4 x5).kst.faultLine = true := (State.writeLk_held _ _ _ _ _ _).go h

theorem State.hostWrite_held (s : State) (x1 x2 x3 x4) : Held s (s.hostWrite x1 x2 x3 x4) := by
  unfold State.hostWrite
  extract_lets -merge +onlyGivenNames s1
  have h1 : Held s s1 := State.at_held ..
  split
  · refine h1.trans ?_
    refine Held.ite (State.accessViolation_held ..) ?_
    split
    all_goals first
      | exact State.accessViolation_held ..
      | exact State.writeRw_held ..
      | exact Held.ite (State.writeLk_held ..) (State.accessViolation_held ..)
      | exact State.holdWrite_held ..
      | exact State.setBits_held ..
      | exact State.clearBits_held ..
      | exact goOn_held (execDirectWrite_line ..)
  · exact h1

@[simp] theorem State.hostWrite_line (s x1 x2 x3 x4) (h : s.kst.faultLine = true) :
    (State.hostWrite s x1 x2 x3 x4).kst.faultLine = true := (State.hostWrite_held _ _ _ _ _).go h

theorem execTlRegisterWrite_line (x0 x1 x2 x3 s) : outHeld (execTlRegisterWrite x0 x1 x2 x3 s) s := by
  simp (maxDischargeDepth := 12) +contextual [execTlRegisterWrite]

theorem execRegisterWrite_line (x0 x1 x2 x3 s) : outHeld (execRegisterWrite x0 x1 x2 x3 s) s := by
  simp (maxDischargeDepth := 12) +contextual [execRegisterWrite]

theorem execStatReset_line (s) : outHeld (execStatReset s) s := by
  simp (maxDischargeDepth := 12) +contextual [execStatReset]

theorem execCausewayEnable_line (x0 s) : outHeld (execCausewayEnable x0 s) s := by
  simp (maxDischargeDepth := 12) +contextual [execCausewayEnable]

theorem execGo_line (x0 s) : outHeld (execGo x0 s) s := by
  simp (maxDischargeDepth := 12) +contextual [execGo]

theorem execAbut_line (x0 s) : outHeld (execAbut x0 s) s := by
  simp (maxDischargeDepth := 12) +contextual [execAbut]

theorem State.readsBack_held (s x1) : Held s (State.readsBack s x1) := by
  exact ⟨fun h => h⟩

@[simp] theorem State.readsBack_line (s x1) (h : s.kst.faultLine = true) :
    (State.readsBack s x1).kst.faultLine = true := (State.readsBack_held _ _).go h

theorem execHighWordLatchRead_line (x0 x1 s) : outHeld (execHighWordLatchRead x0 x1 s) s := by
  simp only [execHighWordLatchRead]; (repeat' split) <;> simp (maxDischargeDepth := 12) +contextual

theorem State.readEcc_held (s x1) : Held s (State.readEcc s x1) := by
  constructor; intro h; unfold State.readEcc; (repeat' split) <;> simp (maxDischargeDepth := 12) [h]

@[simp] theorem State.readEcc_line (s x1) (h : s.kst.faultLine = true) :
    (State.readEcc s x1).kst.faultLine = true := (State.readEcc_held _ _).go h

theorem State.advance_held (s x1 x2) : Held s (State.advance s x1 x2) := by
  exact ⟨fun h => h⟩

@[simp] theorem State.advance_line (s x1 x2) (h : s.kst.faultLine = true) :
    (State.advance s x1 x2).kst.faultLine = true := (State.advance_held _ _ _).go h

theorem execDataWindowAccess_line (x0 x1 x2 s) : outHeld (execDataWindowAccess x0 x1 x2 s) s := by
  simp only [execDataWindowAccess]; (repeat' split) <;> simp (maxDischargeDepth := 12) +contextual

theorem State.keystoneSafe_held (s) : Held s (State.keystoneSafe s) := by
  constructor; intro h; simp only [State.keystoneSafe]; (repeat' split) <;> simp_all (maxDischargeDepth := 12)

@[simp] theorem State.keystoneSafe_line (s) (h : s.kst.faultLine = true) :
    (State.keystoneSafe s).kst.faultLine = true := (State.keystoneSafe_held _).go h

theorem State.giveUpAll_held (s x1) : Held s (State.giveUpAll s x1) := by
  constructor; intro h; simp only [State.giveUpAll]; split <;> simp (maxDischargeDepth := 12) [h]

@[simp] theorem State.giveUpAll_line (s x1) (h : s.kst.faultLine = true) :
    (State.giveUpAll s x1).kst.faultLine = true := (State.giveUpAll_held _ _).go h

theorem State.sendRelinquish_held (s x1) : Held s (State.sendRelinquish s x1) := by
  constructor; intro h; simp only [State.sendRelinquish]; split <;> simp (maxDischargeDepth := 12) [h]

@[simp] theorem State.sendRelinquish_line (s x1) (h : s.kst.faultLine = true) :
    (State.sendRelinquish s x1).kst.faultLine = true := (State.sendRelinquish_held _ _).go h

theorem State.assertFault_held (s x1 x2) : Held s (State.assertFault s x1 x2) := by
  constructor; intro h; simp only [State.assertFault]; (repeat' split) <;> simp_all (maxDischargeDepth := 12)

@[simp] theorem State.assertFault_line (s x1 x2) (h : s.kst.faultLine = true) :
    (State.assertFault s x1 x2).kst.faultLine = true := (State.assertFault_held _ _ _).go h

theorem execLockstepMismatch_line (x0 x1 s) : outHeld (execLockstepMismatch x0 x1 s) s := by
  simp only [execLockstepMismatch]; (repeat' split) <;> simp (maxDischargeDepth := 12) +contextual

theorem State.watchdogFault_held (s) : Held s (State.watchdogFault s) := by
  constructor; intro h; simp (maxDischargeDepth := 12) [State.watchdogFault, h]

@[simp] theorem State.watchdogFault_line (s) (h : s.kst.faultLine = true) :
    (State.watchdogFault s).kst.faultLine = true := (State.watchdogFault_held _).go h

theorem execWatchdogService_line (x0 s) : outHeld (execWatchdogService x0 s) s := by
  simp only [execWatchdogService]; (repeat' split) <;> simp (maxDischargeDepth := 12) +contextual

theorem execWatchdogExpiry_line (s) : outHeld (execWatchdogExpiry s) s := by
  simp only [execWatchdogExpiry]; (repeat' split) <;> simp (maxDischargeDepth := 12) +contextual

theorem State.watchdogBoundary_held (s) : Held s (State.watchdogBoundary s) := by
  exact ⟨fun h => h⟩

@[simp] theorem State.watchdogBoundary_line (s) (h : s.kst.faultLine = true) :
    (State.watchdogBoundary s).kst.faultLine = true := (State.watchdogBoundary_held _).go h

theorem execRamEccError_line (x0 x1 x2 s) : outHeld (execRamEccError x0 x1 x2 s) s := by
  unfold execRamEccError; (repeat' split) <;> simp (maxDischargeDepth := 12) +contextual

theorem State.digestFault_held (s) : Held s (State.digestFault s) := by
  constructor; intro h; simp only [State.digestFault]; split <;> simp (maxDischargeDepth := 12) [h]

@[simp] theorem State.digestFault_line (s) (h : s.kst.faultLine = true) :
    (State.digestFault s).kst.faultLine = true := (State.digestFault_held _).go h

theorem execClocksValid_line (x0 s) : outHeld (execClocksValid x0 s) s := by
  simp only [execClocksValid]; (repeat' split) <;> simp (maxDischargeDepth := 12) +contextual

theorem execDebugAttach_line (x0 s) : outHeld (execDebugAttach x0 s) s := by
  simp (maxDischargeDepth := 12) +contextual [execDebugAttach]

theorem execLsBrokenClear_line (s) : outHeld (execLsBrokenClear s) s := by
  simp (maxDischargeDepth := 12) +contextual [execLsBrokenClear]

end Sys2Proof.Machine
end

