-- ==== Sys2Proof/Laws/LineDeck.lean ====
section
/-! SUPPORT. One lemma per operation and command: the viaduct, landing, launches, the Causeway and the start hold the fault line once it is asserted (R251). -/
namespace Sys2Proof.Machine
set_option linter.all false

theorem State.gotLanes_held (s x1 x2) : Held s (State.gotLanes s x1 x2) := by
  exact ⟨fun h => h⟩

@[simp] theorem State.gotLanes_line (s x1 x2) (h : s.kst.faultLine = true) :
    (State.gotLanes s x1 x2).kst.faultLine = true := (State.gotLanes_held _ _ _).go h

theorem State.judgeLane_held (s x1) : Held s (State.judgeLane s x1) := by
  constructor; intro h; simp only [State.judgeLane]; (repeat' split) <;> simp_all (maxDischargeDepth := 12)

@[simp] theorem State.judgeLane_line (s x1) (h : s.kst.faultLine = true) :
    (State.judgeLane s x1).kst.faultLine = true := (State.judgeLane_held _ _).go h

theorem State.e086_held (s x1) : Held s (State.e086 s x1) := by
  constructor; intro h; simp (maxDischargeDepth := 12) [State.e086, h]

@[simp] theorem State.e086_line (s x1) (h : s.kst.faultLine = true) :
    (State.e086 s x1).kst.faultLine = true := (State.e086_held _ _).go h

theorem execHandshakeFrame_line (x0 x1 x2 s) : outHeld (execHandshakeFrame x0 x1 x2 s) s := by
  simp only [execHandshakeFrame]; (repeat' split) <;> simp (maxDischargeDepth := 12) +contextual

theorem State.shakeCount_held (s) : Held s (State.shakeCount s) := by
  constructor; intro h; simp only [State.shakeCount]; split <;> simp (maxDischargeDepth := 12) [h]

@[simp] theorem State.shakeCount_line (s) (h : s.kst.faultLine = true) :
    (State.shakeCount s).kst.faultLine = true := (State.shakeCount_held _).go h

theorem State.shakeBoundary_held (s) : Held s (State.shakeBoundary s) := by
  constructor; intro h; simp only [State.shakeBoundary]; split <;> simp (maxDischargeDepth := 12) [h]

@[simp] theorem State.shakeBoundary_line (s) (h : s.kst.faultLine = true) :
    (State.shakeBoundary s).kst.faultLine = true := (State.shakeBoundary_held _).go h

theorem State.pairBoundary_held (s) : Held s (State.pairBoundary s) := by
  constructor; intro h; simp only [State.pairBoundary]; (repeat' split) <;> simp_all (maxDischargeDepth := 12)

@[simp] theorem State.pairBoundary_line (s) (h : s.kst.faultLine = true) :
    (State.pairBoundary s).kst.faultLine = true := (State.pairBoundary_held _).go h

theorem State.goAlone_held (s) : Held s (State.goAlone s) := by
  exact ⟨fun h => h⟩

@[simp] theorem State.goAlone_line (s) (h : s.kst.faultLine = true) :
    (State.goAlone s).kst.faultLine = true := (State.goAlone_held _).go h

theorem execPairingTimeout_line (s) : outHeld (execPairingTimeout s) s := by
  simp only [execPairingTimeout]; (repeat' split) <;> simp (maxDischargeDepth := 12) +contextual

theorem State.staleAcknowledged_held (s) : Held s (State.staleAcknowledged s) := by
  constructor; intro h; simp (maxDischargeDepth := 12) [State.staleAcknowledged, h]

@[simp] theorem State.staleAcknowledged_line (s) (h : s.kst.faultLine = true) :
    (State.staleAcknowledged s).kst.faultLine = true := (State.staleAcknowledged_held _).go h

theorem execMirrorFrame_line (x0 x1 x2 s) : outHeld (execMirrorFrame x0 x1 x2 s) s := by
  simp only [execMirrorFrame]; (repeat' split) <;> simp (maxDischargeDepth := 12) +contextual

theorem State.scheduleTakeover_held (s x1 x2 x3 x4) : Held s (State.scheduleTakeover s x1 x2 x3 x4) := by
  constructor; intro h; simp only [State.scheduleTakeover]; split <;> simp (maxDischargeDepth := 12) [h]

@[simp] theorem State.scheduleTakeover_line (s x1 x2 x3 x4) (h : s.kst.faultLine = true) :
    (State.scheduleTakeover s x1 x2 x3 x4).kst.faultLine = true := (State.scheduleTakeover_held _ _ _ _ _).go h

theorem execRelinquishFrame_line (x0 x1 x2 s) : outHeld (execRelinquishFrame x0 x1 x2 s) s := by
  simp only [execRelinquishFrame]; (repeat' split) <;> simp (maxDischargeDepth := 12) +contextual

theorem State.judgePosition_held (s x1 x2) : Held s (State.judgePosition s x1 x2) := by
  constructor; intro h; simp only [State.judgePosition]; (repeat' split) <;> simp_all (maxDischargeDepth := 12)

@[simp] theorem State.judgePosition_line (s x1 x2) (h : s.kst.faultLine = true) :
    (State.judgePosition s x1 x2).kst.faultLine = true := (State.judgePosition_held _ _ _).go h

theorem State.judgeOverlap_held (s x1) : Held s (State.judgeOverlap s x1) := by
  constructor; intro h; simp only [State.judgeOverlap]; (repeat' split) <;> simp_all (maxDischargeDepth := 12)

@[simp] theorem State.judgeOverlap_line (s x1) (h : s.kst.faultLine = true) :
    (State.judgeOverlap s x1).kst.faultLine = true := (State.judgeOverlap_held _ _).go h

theorem State.judgeWarnings_held (s x1) : Held s (State.judgeWarnings s x1) := by
  constructor; intro h; simp only [State.judgeWarnings]; (repeat' split) <;> simp_all (maxDischargeDepth := 12)

@[simp] theorem State.judgeWarnings_line (s x1) (h : s.kst.faultLine = true) :
    (State.judgeWarnings s x1).kst.faultLine = true := (State.judgeWarnings_held _ _).go h

theorem State.judgeDigest_held (s x1) : Held s (State.judgeDigest s x1) := by
  constructor; intro h; simp only [State.judgeDigest]; split <;> simp (maxDischargeDepth := 12) [h]

@[simp] theorem State.judgeDigest_line (s x1) (h : s.kst.faultLine = true) :
    (State.judgeDigest s x1).kst.faultLine = true := (State.judgeDigest_held _ _).go h

theorem State.judgeCompletions_held (s x1) : Held s (State.judgeCompletions s x1) := by
  exact ⟨fun h => h⟩

@[simp] theorem State.judgeCompletions_line (s x1) (h : s.kst.faultLine = true) :
    (State.judgeCompletions s x1).kst.faultLine = true := (State.judgeCompletions_held _ _).go h

theorem State.judgeRelq_held (s x1) : Held s (State.judgeRelq s x1) := by
  constructor; intro h; simp only [State.judgeRelq]; split <;> simp (maxDischargeDepth := 12) [h]

@[simp] theorem State.judgeRelq_line (s x1) (h : s.kst.faultLine = true) :
    (State.judgeRelq s x1).kst.faultLine = true := (State.judgeRelq_held _ _).go h

theorem State.useFrame_held (s x1) : Held s (State.useFrame s x1) := by
  unfold State.useFrame; (try extract_lets); (repeat' first | split | exact Held.refl _ | with_reducible exact (State.raise_held ..) | with_reducible exact (State.judgePosition_held ..) | with_reducible exact (State.judgeOverlap_held ..) | with_reducible exact (State.judgeWarnings_held ..) | with_reducible exact (State.judgeDigest_held ..) | with_reducible exact (State.judgeCompletions_held ..) | with_reducible exact (State.judgeRelq_held ..) | with_reducible refine Held.ite ?_ ?_ | with_reducible refine Held.trans ?_ (State.raise_held ..) | with_reducible refine Held.trans ?_ (State.judgePosition_held ..) | with_reducible refine Held.trans ?_ (State.judgeOverlap_held ..) | with_reducible refine Held.trans ?_ (State.judgeWarnings_held ..) | with_reducible refine Held.trans ?_ (State.judgeDigest_held ..) | with_reducible refine Held.trans ?_ (State.judgeCompletions_held ..) | with_reducible refine Held.trans ?_ (State.judgeRelq_held ..) | with_reducible refine Held.trans ?_ (Held.foldl _ (fun _ _ => ?_) _ _) | with_reducible refine Held.trans ?_ (Held.ite ?_ ?_) | with_reducible refine Held.trans ?_ (Held.lit _ _ (by rfl) ..))

@[simp] theorem State.useFrame_line (s x1) (h : s.kst.faultLine = true) :
    (State.useFrame s x1).kst.faultLine = true := (State.useFrame_held _ _).go h

theorem State.missFrame_held (s) : Held s (State.missFrame s) := by
  constructor; intro h; simp only [State.missFrame]; (repeat' split) <;> simp_all (maxDischargeDepth := 12) 

@[simp] theorem State.missFrame_line (s) (h : s.kst.faultLine = true) :
    (State.missFrame s).kst.faultLine = true := (State.missFrame_held _).go h

theorem State.judgeFrame_held (s) : Held s (State.judgeFrame s) := by
  constructor; intro h; simp only [State.judgeFrame]; (repeat' split) <;> simp_all (maxDischargeDepth := 12)

@[simp] theorem State.judgeFrame_line (s) (h : s.kst.faultLine = true) :
    (State.judgeFrame s).kst.faultLine = true := (State.judgeFrame_held _).go h

theorem State.tieSelfCheck_held (s x1) : Held s (State.tieSelfCheck s x1) := by
  constructor; intro h; simp only [State.tieSelfCheck]; (repeat' split) <;> simp_all (maxDischargeDepth := 12)

@[simp] theorem State.tieSelfCheck_line (s x1) (h : s.kst.faultLine = true) :
    (State.tieSelfCheck s x1).kst.faultLine = true := (State.tieSelfCheck_held _ _).go h

theorem State.shadowMismatch_held (s x1 x2 x3) : Held s (State.shadowMismatch s x1 x2 x3) := by
  constructor; intro h; simp (maxDischargeDepth := 12) [State.shadowMismatch, h]

@[simp] theorem State.shadowMismatch_line (s x1 x2 x3) (h : s.kst.faultLine = true) :
    (State.shadowMismatch s x1 x2 x3).kst.faultLine = true := (State.shadowMismatch_held _ _ _ _).go h

theorem State.shadowVerdict_held (s x1) : Held s (State.shadowVerdict s x1) := by
  constructor; intro h; simp only [State.shadowVerdict]; split <;> simp (maxDischargeDepth := 12) [h]

@[simp] theorem State.shadowVerdict_line (s x1) (h : s.kst.faultLine = true) :
    (State.shadowVerdict s x1).kst.faultLine = true := (State.shadowVerdict_held _ _).go h

theorem State.shadow_held (s : State) : Held s s.shadow.1 := by
  unfold State.shadow
  extract_lets -merge +onlyGivenNames _ s1
  have h1 : Held s s1 := ⟨fun h => h⟩
  clear_value s1
  split
  · exact h1
  extract_lets f adopt es bad given c t1 t2
  have h2 : Held s t1 := h1.trans (Held.foldl _ (fun t b => State.shadowMismatch_held ..) _ _)
  have h3 : Held s t2 := h2.trans (Held.foldl _ (fun t b => State.shadowVerdict_held ..) _ _)
  clear_value t2
  exact Held.trans h3 ⟨fun h => h⟩

@[simp] theorem State.shadow_line (s) (h : s.kst.faultLine = true) :
    (State.shadow s).1.kst.faultLine = true := (State.shadow_held _).go h

theorem State.followInputs_held (s) : Held s (State.followInputs s) := by
  exact ⟨fun h => h⟩

@[simp] theorem State.followInputs_line (s) (h : s.kst.faultLine = true) :
    (State.followInputs s).kst.faultLine = true := (State.followInputs_held _).go h

theorem State.adoptStandby_held (s : State) : Held s s.adoptStandby := by
  unfold State.adoptStandby
  exact Held.foldl _ (fun t a => Held.ite (State.withStage_held ..) (.refl _)) _ _

@[simp] theorem State.adoptStandby_line (s) (h : s.kst.faultLine = true) :
    (State.adoptStandby s).kst.faultLine = true := (State.adoptStandby_held _).go h

theorem State.copyStandby_held (s : State) : Held s s.copyStandby := by
  unfold State.copyStandby
  exact Held.ite (.refl _) (Held.foldl _ (fun t a => Held.ite (.refl _) (State.withStage_held ..)) _ _)

@[simp] theorem State.copyStandby_line (s) (h : s.kst.faultLine = true) :
    (State.copyStandby s).kst.faultLine = true := (State.copyStandby_held _).go h

theorem State.relinquish_held (s) : Held s (State.relinquish s) := by
  constructor; intro h; simp only [State.relinquish]; split <;> simp (maxDischargeDepth := 12) [h]

@[simp] theorem State.relinquish_line (s) (h : s.kst.faultLine = true) :
    (State.relinquish s).kst.faultLine = true := (State.relinquish_held _).go h

theorem State.claim_held (s x1) : Held s (State.claim s x1) := by
  exact ⟨fun h => h⟩

@[simp] theorem State.claim_line (s x1) (h : s.kst.faultLine = true) :
    (State.claim s x1).kst.faultLine = true := (State.claim_held _ _).go h

theorem State.claimNext_held (s) : Held s (State.claimNext s) := by
  exact ⟨fun h => h⟩

@[simp] theorem State.claimNext_line (s) (h : s.kst.faultLine = true) :
    (State.claimNext s).kst.faultLine = true := (State.claimNext_held _).go h

theorem State.takeOne_held (s x1) : Held s (State.takeOne s x1) := by
  constructor; intro h; simp (maxDischargeDepth := 12) [State.takeOne, h]

@[simp] theorem State.takeOne_line (s x1) (h : s.kst.faultLine = true) :
    (State.takeOne s x1).kst.faultLine = true := (State.takeOne_held _ _).go h

theorem State.takeOver_held (s) : Held s (State.takeOver s) := by
  constructor; intro h; simp only [State.takeOver]; (repeat' split) <;> simp_all (maxDischargeDepth := 12)

@[simp] theorem State.takeOver_line (s) (h : s.kst.faultLine = true) :
    (State.takeOver s).kst.faultLine = true := (State.takeOver_held _).go h

theorem State.rebindOpen_held (s) : Held s (State.rebindOpen s) := by
  constructor; intro h; simp only [State.rebindOpen]; split <;> simp (maxDischargeDepth := 12) [h]

@[simp] theorem State.rebindOpen_line (s) (h : s.kst.faultLine = true) :
    (State.rebindOpen s).kst.faultLine = true := (State.rebindOpen_held _).go h

theorem State.closeOpen_held (s) : Held s (State.closeOpen s) := by
  constructor; intro h; simp only [State.closeOpen]; split <;> simp (maxDischargeDepth := 12) [h]

@[simp] theorem State.closeOpen_line (s) (h : s.kst.faultLine = true) :
    (State.closeOpen s).kst.faultLine = true := (State.closeOpen_held _).go h

theorem State.stageHandover_held (s x1) : Held s (State.stageHandover s x1) := by
  constructor; intro h; simp only [State.stageHandover]; split <;> simp (maxDischargeDepth := 12) [h]

@[simp] theorem State.stageHandover_line (s x1) (h : s.kst.faultLine = true) :
    (State.stageHandover s x1).kst.faultLine = true := (State.stageHandover_held _ _).go h

theorem State.handover_held (s x1) : Held s (State.handover s x1) := by
  constructor; intro h; simp only [State.handover]; (repeat' split) <;> simp_all (maxDischargeDepth := 12) 

@[simp] theorem State.handover_line (s x1) (h : s.kst.faultLine = true) :
    (State.handover s x1).kst.faultLine = true := (State.handover_held _ _).go h

theorem State.setRegs_held (s x1) : Held s (State.setRegs s x1) := by
  constructor; intro h; simp only [State.setRegs]; (repeat' split) <;> simp_all (maxDischargeDepth := 12)

@[simp] theorem State.setRegs_line (s x1) (h : s.kst.faultLine = true) :
    (State.setRegs s x1).kst.faultLine = true := (State.setRegs_held _ _).go h

theorem State.setLanded_held (s x1) : Held s (State.setLanded s x1) := by
  constructor; intro h; simp only [State.setLanded]; split <;> simp (maxDischargeDepth := 12) [h]

@[simp] theorem State.setLanded_line (s x1) (h : s.kst.faultLine = true) :
    (State.setLanded s x1).kst.faultLine = true := (State.setLanded_held _ _).go h

theorem State.setRefused_held (s x1) : Held s (State.setRefused s x1) := by
  constructor; intro h; simp only [State.setRefused]; split <;> simp (maxDischargeDepth := 12) [h]

@[simp] theorem State.setRefused_line (s x1) (h : s.kst.faultLine = true) :
    (State.setRefused s x1).kst.faultLine = true := (State.setRefused_held _ _).go h

theorem State.landSet_held (s x1 x2) : Held s (State.landSet s x1 x2) := by
  constructor; intro h; simp only [State.landSet]; split <;> simp (maxDischargeDepth := 12) [h]

@[simp] theorem State.landSet_line (s x1 x2) (h : s.kst.faultLine = true) :
    (State.landSet s x1 x2).kst.faultLine = true := (State.landSet_held _ _ _).go h

theorem State.landWrites_held (s x1) : Held s (State.landWrites s x1) := by
  constructor; intro h; simp only [State.landWrites]; (repeat' split) <;> simp_all (maxDischargeDepth := 12)

@[simp] theorem State.landWrites_line (s x1) (h : s.kst.faultLine = true) :
    (State.landWrites s x1).kst.faultLine = true := (State.landWrites_held _ _).go h

theorem State.landTl_held (s x1) : Held s (State.landTl s x1) := by
  constructor; intro h; simp only [State.landTl]; split <;> simp (maxDischargeDepth := 12) [h]

@[simp] theorem State.landTl_line (s x1) (h : s.kst.faultLine = true) :
    (State.landTl s x1).kst.faultLine = true := (State.landTl_held _ _).go h

theorem State.overrideTl_held (s x1 x2) : Held s (State.overrideTl s x1 x2) := by
  exact ⟨fun h => h⟩

@[simp] theorem State.overrideTl_line (s x1 x2) (h : s.kst.faultLine = true) :
    (State.overrideTl s x1 x2).kst.faultLine = true := (State.overrideTl_held _ _ _).go h

theorem State.putSlot_held (s x1 x2) : Held s (State.putSlot s x1 x2) := by
  exact ⟨fun h => h⟩

@[simp] theorem State.putSlot_line (s x1 x2) (h : s.kst.faultLine = true) :
    (State.putSlot s x1 x2).kst.faultLine = true := (State.putSlot_held _ _ _).go h

theorem State.armImage_held (s x1) : Held s (State.armImage s x1) := by
  constructor; intro h; simp only [State.armImage]; (repeat' split) <;> simp_all (maxDischargeDepth := 12)

@[simp] theorem State.armImage_line (s x1) (h : s.kst.faultLine = true) :
    (State.armImage s x1).kst.faultLine = true := (State.armImage_held _ _).go h

theorem State.ltDone_held (s x1 x2 x3) : Held s (State.ltDone s x1 x2 x3) := by
  constructor; intro h; simp only [State.ltDone]; split <;> simp (maxDischargeDepth := 12) [h]

@[simp] theorem State.ltDone_line (s x1 x2 x3) (h : s.kst.faultLine = true) :
    (State.ltDone s x1 x2 x3).kst.faultLine = true := (State.ltDone_held _ _ _ _).go h

theorem State.ltAdvance_held (s x1) : Held s (State.ltAdvance s x1) := by
  exact ⟨fun h => h⟩

@[simp] theorem State.ltAdvance_line (s x1) (h : s.kst.faultLine = true) :
    (State.ltAdvance s x1).kst.faultLine = true := (State.ltAdvance_held _ _).go h

theorem State.ltEvent_held (s x1 x2 x3) : Held s (State.ltEvent s x1 x2 x3) := by
  constructor; intro h; simp (maxDischargeDepth := 12) [State.ltEvent, h]

@[simp] theorem State.ltEvent_line (s x1 x2 x3) (h : s.kst.faultLine = true) :
    (State.ltEvent s x1 x2 x3).kst.faultLine = true := (State.ltEvent_held _ _ _ _).go h

theorem State.realignLeg_held (s x1 x2) : Held s (State.realignLeg s x1 x2) := by
  exact ⟨fun h => h⟩

@[simp] theorem State.realignLeg_line (s x1 x2) (h : s.kst.faultLine = true) :
    (State.realignLeg s x1 x2).kst.faultLine = true := (State.realignLeg_held _ _ _).go h

theorem State.realign_held (s x1 x2) : Held s (State.realign s x1 x2).1 := by
  constructor; intro h; simp only [State.realign]; (repeat' split) <;> simp_all (maxDischargeDepth := 12)

@[simp] theorem State.realign_line (s x1 x2) (h : s.kst.faultLine = true) :
    (State.realign s x1 x2).1.kst.faultLine = true := (State.realign_held _ _ _).go h

theorem State.putCmpl_held (s x1) : Held s (State.putCmpl s x1) := by
  exact ⟨fun h => h⟩

@[simp] theorem State.putCmpl_line (s x1) (h : s.kst.faultLine = true) :
    (State.putCmpl s x1).kst.faultLine = true := (State.putCmpl_held _ _).go h

theorem State.writeCompletions_held (s) : Held s (State.writeCompletions s) := by
  constructor; intro h; simp only [State.writeCompletions]; (repeat' split) <;> simp_all (maxDischargeDepth := 12)

@[simp] theorem State.writeCompletions_line (s) (h : s.kst.faultLine = true) :
    (State.writeCompletions s).kst.faultLine = true := (State.writeCompletions_held _).go h

theorem State.advanceProd_held (s) : Held s (State.advanceProd s) := by
  constructor; intro h; simp only [State.advanceProd]; (repeat' split) <;> simp_all (maxDischargeDepth := 12)

@[simp] theorem State.advanceProd_line (s) (h : s.kst.faultLine = true) :
    (State.advanceProd s).kst.faultLine = true := (State.advanceProd_held _).go h

theorem State.judgeRsv_held (s) : Held s (State.judgeRsv s) := by
  constructor; intro h; simp only [State.judgeRsv]; split <;> simp (maxDischargeDepth := 12) [h]

@[simp] theorem State.judgeRsv_line (s) (h : s.kst.faultLine = true) :
    (State.judgeRsv s).kst.faultLine = true := (State.judgeRsv_held _).go h

theorem State.putEvent_held (s x1) : Held s (State.putEvent s x1) := by
  constructor; intro h; simp (maxDischargeDepth := 12) [State.putEvent, h]

@[simp] theorem State.putEvent_line (s x1) (h : s.kst.faultLine = true) :
    (State.putEvent s x1).kst.faultLine = true := (State.putEvent_held _ _).go h

theorem State.endStorm_held (s) : Held s (State.endStorm s) := by
  constructor; intro h; simp only [State.endStorm]; split <;> simp (maxDischargeDepth := 12) [h]

@[simp] theorem State.endStorm_line (s) (h : s.kst.faultLine = true) :
    (State.endStorm s).kst.faultLine = true := (State.endStorm_held _).go h

theorem State.writeEvents_held (s) : Held s (State.writeEvents s) := by
  constructor; intro h; simp only [State.writeEvents]; (repeat' split) <;> simp_all (maxDischargeDepth := 12)

@[simp] theorem State.writeEvents_line (s) (h : s.kst.faultLine = true) :
    (State.writeEvents s).kst.faultLine = true := (State.writeEvents_held _).go h

theorem execProtectionEventWrite_line (s) : outHeld (execProtectionEventWrite s) s := by
  unfold execProtectionEventWrite; (repeat' split) <;> simp (maxDischargeDepth := 12) +contextual

theorem State.writeTelemetry_held (s) : Held s (State.writeTelemetry s) := by
  constructor; intro h; simp only [State.writeTelemetry]; (repeat' split) <;> simp_all (maxDischargeDepth := 12)

@[simp] theorem State.writeTelemetry_line (s) (h : s.kst.faultLine = true) :
    (State.writeTelemetry s).kst.faultLine = true := (State.writeTelemetry_held _).go h

theorem State.publishObj_held (s x1 x2) : Held s (State.publishObj s x1 x2) := by
  constructor; intro h; simp only [State.publishObj]; (repeat' split) <;> simp_all (maxDischargeDepth := 12)

@[simp] theorem State.publishObj_line (s x1 x2) (h : s.kst.faultLine = true) :
    (State.publishObj s x1 x2).kst.faultLine = true := (State.publishObj_held _ _ _).go h

theorem State.publish_held (s) : Held s (State.publish s) := by
  constructor; intro h; simp only [State.publish]; (repeat' split) <;> simp_all (maxDischargeDepth := 12)

@[simp] theorem State.publish_line (s) (h : s.kst.faultLine = true) :
    (State.publish s).kst.faultLine = true := (State.publish_held _).go h

theorem State.judgeFb_held (s) : Held s (State.judgeFb s) := by
  exact ⟨fun h => h⟩

@[simp] theorem State.judgeFb_line (s) (h : s.kst.faultLine = true) :
    (State.judgeFb s).kst.faultLine = true := (State.judgeFb_held _).go h

theorem State.linkTo_held (s x1 x2 x3) : Held s (State.linkTo s x1 x2 x3) := by
  constructor; intro h; simp (maxDischargeDepth := 12) [State.linkTo, h]

@[simp] theorem State.linkTo_line (s x1 x2 x3) (h : s.kst.faultLine = true) :
    (State.linkTo s x1 x2 x3).kst.faultLine = true := (State.linkTo_held _ _ _ _).go h

theorem execPcieLinkChange_line (x0 x1 x2 x3 s) : outHeld (execPcieLinkChange x0 x1 x2 x3 s) s := by
  simp only [execPcieLinkChange]; (repeat' split) <;> simp (maxDischargeDepth := 12) +contextual

theorem execPciePerst_line (x0 s) : outHeld (execPciePerst x0 s) s := by
  simp only [execPciePerst]; (repeat' split) <;> simp (maxDischargeDepth := 12) +contextual

theorem State.restart_held (s) : Held s (State.restart s) := by
  exact ⟨fun h => h⟩

@[simp] theorem State.restart_line (s) (h : s.kst.faultLine = true) :
    (State.restart s).kst.faultLine = true := (State.restart_held _).go h

theorem execDeckReset_line (x0 x1 s) : outHeld (execDeckReset x0 x1 s) s := by
  simp (maxDischargeDepth := 12) +contextual [execDeckReset]

theorem execAutoRestart_line (s) : outHeld (execAutoRestart s) s := by
  unfold execAutoRestart; (repeat' split) <;> simp (maxDischargeDepth := 12) +contextual

theorem State.step1_held (s x1) : Held s (State.step1 s x1).1 := by
  constructor; intro h; simp only [State.step1]; (repeat' split) <;> simp_all (maxDischargeDepth := 12)

@[simp] theorem State.step1_line (s x1) (h : s.kst.faultLine = true) :
    (State.step1 s x1).1.kst.faultLine = true := (State.step1_held _ _).go h

theorem State.step2_held (s x1) : Held s (State.step2 s x1).1 := by
  constructor; intro h; simp only [State.step2]; (repeat' split) <;> simp_all (maxDischargeDepth := 12)

@[simp] theorem State.step2_line (s x1) (h : s.kst.faultLine = true) :
    (State.step2 s x1).1.kst.faultLine = true := (State.step2_held _ _).go h

theorem State.adoptFactory_held (s x1) : Held s (State.adoptFactory s x1) := by
  constructor; intro h; simp only [State.adoptFactory]; split <;> simp (maxDischargeDepth := 12) [h]

@[simp] theorem State.adoptFactory_line (s x1) (h : s.kst.faultLine = true) :
    (State.adoptFactory s x1).kst.faultLine = true := (State.adoptFactory_held _ _).go h

theorem State.step3_held (s x1) : Held s (State.step3 s x1).1 := by
  constructor; intro h; simp only [State.step3]; (repeat' split) <;> simp_all (maxDischargeDepth := 12)

@[simp] theorem State.step3_line (s x1) (h : s.kst.faultLine = true) :
    (State.step3 s x1).1.kst.faultLine = true := (State.step3_held _ _).go h

theorem State.clearStaged_held (s) : Held s (State.clearStaged s) := by
  exact ⟨fun h => h⟩

@[simp] theorem State.clearStaged_line (s) (h : s.kst.faultLine = true) :
    (State.clearStaged s).kst.faultLine = true := (State.clearStaged_held _).go h

theorem State.step4_held (s x1) : Held s (State.step4 s x1).1 := by
  constructor; intro h; simp only [State.step4]; (repeat' split) <;> simp_all (maxDischargeDepth := 12)

@[simp] theorem State.step4_line (s x1) (h : s.kst.faultLine = true) :
    (State.step4 s x1).1.kst.faultLine = true := (State.step4_held _ _).go h

theorem State.imagePer_held (s x1 x2) : Held s (State.imagePer s x1 x2) := by
  constructor; intro h; simp only [State.imagePer]; split <;> simp (maxDischargeDepth := 12) [h]

@[simp] theorem State.imagePer_line (s x1 x2) (h : s.kst.faultLine = true) :
    (State.imagePer s x1 x2).kst.faultLine = true := (State.imagePer_held _ _ _).go h

theorem State.loadImage_held (s x1) : Held s (State.loadImage s x1) := by
  constructor; intro h; simp only [State.loadImage]; (repeat' split) <;> simp_all (maxDischargeDepth := 12)

@[simp] theorem State.loadImage_line (s x1) (h : s.kst.faultLine = true) :
    (State.loadImage s x1).kst.faultLine = true := (State.loadImage_held _ _).go h

theorem State.copyMap_held (s x1 x2 x3) : Held s (State.copyMap s x1 x2 x3).1 := by
  exact ⟨fun h => h⟩

@[simp] theorem State.copyMap_line (s x1 x2 x3) (h : s.kst.faultLine = true) :
    (State.copyMap s x1 x2 x3).1.kst.faultLine = true := (State.copyMap_held _ _ _ _).go h

theorem State.copyMaps_held (s : State) (x1 x2) : Held s (s.copyMaps x1 x2).1 := by
  unfold State.copyMaps
  extract_lets one
  refine Held.foldl_on (fun r : State × Bool => r.1) one (fun r q => ?_) _ (s, true)
  unfold one
  split
  · have h := State.copyMap_held r.1 x1 q.2 q.1
    generalize r.1.copyMap x1 q.2 q.1 = c at *
    obtain ⟨t, ok⟩ := c
    exact Held.trans h ⟨fun h => h⟩
  · exact .refl _

@[simp] theorem State.copyMaps_line (s x1 x2) (h : s.kst.faultLine = true) :
    (State.copyMaps s x1 x2).1.kst.faultLine = true := (State.copyMaps_held _ _ _).go h

theorem State.step5_held (s x1) : Held s (State.step5 s x1).1 := by
  constructor; intro h; simp only [State.step5]; (repeat' split) <;> simp_all (maxDischargeDepth := 12)

@[simp] theorem State.step5_line (s x1) (h : s.kst.faultLine = true) :
    (State.step5 s x1).1.kst.faultLine = true := (State.step5_held _ _).go h

theorem State.steps_held (s x1) : Held s (State.steps s x1).1 := by
  constructor; intro h; simp only [State.steps]; (repeat' split) <;> simp_all (maxDischargeDepth := 12)

@[simp] theorem State.steps_line (s x1) (h : s.kst.faultLine = true) :
    (State.steps s x1).1.kst.faultLine = true := (State.steps_held _ _).go h

theorem State.startClock_held (s) : Held s (State.startClock s) := by
  constructor; intro h; unfold State.startClock; (repeat' split) <;> simp (maxDischargeDepth := 12) [h]

@[simp] theorem State.startClock_line (s) (h : s.kst.faultLine = true) :
    (State.startClock s).kst.faultLine = true := (State.startClock_held _).go h

theorem State.ticksRun_held (s) : Held s (State.ticksRun s) := by
  constructor; intro h; simp (maxDischargeDepth := 12) [State.ticksRun, h]

@[simp] theorem State.ticksRun_line (s) (h : s.kst.faultLine = true) :
    (State.ticksRun s).kst.faultLine = true := (State.ticksRun_held _).go h

theorem State.startFinds_held (s x1) : Held s (State.startFinds s x1) := by
  constructor; intro h; simp only [State.startFinds]; (repeat' split) <;> simp_all (maxDischargeDepth := 12)

@[simp] theorem State.startFinds_line (s x1) (h : s.kst.faultLine = true) :
    (State.startFinds s x1).kst.faultLine = true := (State.startFinds_held _ _).go h

theorem State.activate_held (s : State) : Held s s.activate := by
  unfold State.activate
  extract_lets -merge +onlyGivenNames one s1
  have h : ∀ t a b c d, Held t (one t a b c d) := by
    intro t a b c d
    refine Held.ite (Held.ite ?_ ?_) (Held.ite (Held.same rfl) (Held.same rfl))
    all_goals
      refine Held.trans ?_ (State.raise_held ..)
      exact Held.ite (Held.same rfl) (Held.same rfl)
  exact (h ..).trans (h ..)

@[simp] theorem State.activate_line (s) (h : s.kst.faultLine = true) :
    (State.activate s).kst.faultLine = true := (State.activate_held _).go h

theorem State.takeOwners_held (s) : Held s (State.takeOwners s) := by
  exact ⟨fun h => h⟩

@[simp] theorem State.takeOwners_line (s) (h : s.kst.faultLine = true) :
    (State.takeOwners s).kst.faultLine = true := (State.takeOwners_held _).go h

theorem State.takeAuto_held (s) : Held s (State.takeAuto s) := by
  exact ⟨fun h => h⟩

@[simp] theorem State.takeAuto_line (s) (h : s.kst.faultLine = true) :
    (State.takeAuto s).kst.faultLine = true := (State.takeAuto_held _).go h

theorem State.deckReady_held (s) : Held s (State.deckReady s) := by
  constructor; intro h; simp only [State.deckReady]; split <;> simp (maxDischargeDepth := 12) [h]

@[simp] theorem State.deckReady_line (s) (h : s.kst.faultLine = true) :
    (State.deckReady s).kst.faultLine = true := (State.deckReady_held _).go h

theorem State.startBoundary_held (s) : Held s (State.startBoundary s) := by
  constructor; intro h; simp only [State.startBoundary]; (repeat' split) <;> simp_all (maxDischargeDepth := 12)

@[simp] theorem State.startBoundary_line (s) (h : s.kst.faultLine = true) :
    (State.startBoundary s).kst.faultLine = true := (State.startBoundary_held _).go h

theorem execStartTimeout_line (s) : outHeld (execStartTimeout s) s := by
  simp only [execStartTimeout]; (repeat' split) <;> simp (maxDischargeDepth := 12) +contextual

theorem execAdcCalEnd_line (x0 x1 x2 s) : outHeld (execAdcCalEnd x0 x1 x2 s) s := by
  simp only [execAdcCalEnd]; (repeat' split) <;> simp (maxDischargeDepth := 12) +contextual

theorem State.calBoundary_held (s) : Held s (State.calBoundary s) := by
  constructor; intro h; unfold State.calBoundary; (repeat' split) <;> simp (maxDischargeDepth := 12) [h]

@[simp] theorem State.calBoundary_line (s) (h : s.kst.faultLine = true) :
    (State.calBoundary s).kst.faultLine = true := (State.calBoundary_held _).go h

theorem State.deckRestart_held (s x1 x2) : Held s (State.deckRestart s x1 x2) := by
  constructor; intro h; simp (maxDischargeDepth := 12) [State.deckRestart, h]

@[simp] theorem State.deckRestart_line (s x1 x2) (h : s.kst.faultLine = true) :
    (State.deckRestart s x1 x2).kst.faultLine = true := (State.deckRestart_held _ _ _).go h

end Sys2Proof.Machine
end

