-- ==== Sys2Proof/Laws/LineTick.lean ====
section
/-! SUPPORT. One lemma per operation and command: the command reference, the fetch and the tick hold the fault line once it is asserted (R251). -/
namespace Sys2Proof.Machine
set_option linter.all false

theorem State.route_held (s x1) : Held s (State.route s x1) := by
  constructor; intro h; simp only [State.route]; split <;> simp (maxDischargeDepth := 12) [h]

@[simp] theorem State.route_line (s x1) (h : s.kst.faultLine = true) :
    (State.route s x1).kst.faultLine = true := (State.route_held _ _).go h

theorem State.unstage_held (s x1) : Held s (State.unstage s x1) := by
  exact ⟨fun h => h⟩

@[simp] theorem State.unstage_line (s x1) (h : s.kst.faultLine = true) :
    (State.unstage s x1).kst.faultLine = true := (State.unstage_held _ _).go h

theorem State.deckFinish_held (s x1 x2 x3) : Held s (State.deckFinish s x1 x2 x3) := by
  constructor; intro h; simp (maxDischargeDepth := 12) [State.deckFinish, h]

@[simp] theorem State.deckFinish_line (s x1 x2 x3) (h : s.kst.faultLine = true) :
    (State.deckFinish s x1 x2 x3).kst.faultLine = true := (State.deckFinish_held _ _ _ _).go h

theorem State.leaveToTwin_held (s x1) : Held s (State.leaveToTwin s x1) := by
  exact ⟨fun h => h⟩

@[simp] theorem State.leaveToTwin_line (s x1) (h : s.kst.faultLine = true) :
    (State.leaveToTwin s x1).kst.faultLine = true := (State.leaveToTwin_held _ _).go h

theorem State.safeOf_held (s x1 x2) : Held s (State.safeOf s x1 x2) := by
  constructor; intro h; simp only [State.safeOf]; split <;> simp (maxDischargeDepth := 12) [h]

@[simp] theorem State.safeOf_line (s x1 x2) (h : s.kst.faultLine = true) :
    (State.safeOf s x1 x2).kst.faultLine = true := (State.safeOf_held _ _ _).go h

theorem State.giveUpSpan_held (s x1 x2) : Held s (State.giveUpSpan s x1 x2) := by
  constructor; intro h; simp only [State.giveUpSpan]; split <;> simp (maxDischargeDepth := 12) [h]

@[simp] theorem State.giveUpSpan_line (s x1 x2) (h : s.kst.faultLine = true) :
    (State.giveUpSpan s x1 x2).kst.faultLine = true := (State.giveUpSpan_held _ _ _).go h

theorem State.judgeSpan_held (s x1) : Held s (State.judgeSpan s x1) := by
  constructor; intro h; unfold State.judgeSpan; (repeat' split) <;> simp (maxDischargeDepth := 12) [h]

@[simp] theorem State.judgeSpan_line (s x1) (h : s.kst.faultLine = true) :
    (State.judgeSpan s x1).kst.faultLine = true := (State.judgeSpan_held _ _).go h

theorem State.prepare_held (s : State) : Held s s.prepare := by
  unfold State.prepare
  refine Held.ite (.refl _) ?_
  extract_lets -merge +onlyGivenNames _ s1 b _ s2 s3 r _ s4 s5 s6
  have h1 : Held s s1 := (Held.same rfl)
  have h2 : Held s s2 := h1.trans (State.withStage_held ..)
  have h3 : Held s s3 := h2.trans (Held.foldl _ (fun t m => Held.ite (State.aScan_held ..) (.refl _)) _ _)
  have h4 : Held s s4 := h3.trans (Held.ite (State.withStage_held ..) (.refl _))
  have h5 : Held s s5 := h4.trans (Held.foldl State.judgeSpan State.judgeSpan_held _ _)
  have h6 : Held s s6 := h5.trans (Held.trans (State.cBypassExit_held ..) (State.qPilotExit_held ..))
  exact h6.trans (Held.foldl _ (fun t m => Held.ite (State.aOps_held ..) (.refl _)) _ _)

@[simp] theorem State.prepare_line (s) (h : s.kst.faultLine = true) :
    (State.prepare s).kst.faultLine = true := (State.prepare_held _).go h

theorem State.modeSpan_held (s x1 x2 x3 x4) : Held s (State.modeSpan s x1 x2 x3 x4).2 := by
  constructor; intro h; unfold State.modeSpan; (repeat' split) <;> simp (maxDischargeDepth := 12) [h]

@[simp] theorem State.modeSpan_line (s x1 x2 x3 x4) (h : s.kst.faultLine = true) :
    (State.modeSpan s x1 x2 x3 x4).2.kst.faultLine = true := (State.modeSpan_held _ _ _ _ _).go h

theorem State.spanRun_held (s : State) (d : Staged) : Held s (s.spanRun d).s := by
  unfold State.spanRun
  extract_lets x t m q0 long
  split
  all_goals first
    | exact State.modeSpan_held ..
    | exact State.tqTarget_held ..
    | exact State.spdTargetCmd_held ..
    | exact State.posRearmCmd_held ..
    | exact State.cVtgtCmd_held ..
    | exact State.cItgtCmd_held ..
    | exact State.cPhasesCmd_held ..
    | exact State.cCrowbarCmd_held ..
    | exact State.qPowerCmd_held ..
    | exact State.aHoldCmd_held ..
    | exact State.aShiftCmd_held ..
    | exact State.aParkCmd_held ..
    | exact State.aReleaseCmd_held ..
    | exact State.aCurrentCmd_held ..
    | exact State.aHomeCmd_held ..
    | exact State.aRearmCmd_held ..

@[simp] theorem State.spanRun_line (s x1) (h : s.kst.faultLine = true) :
    (State.spanRun s x1).s.kst.faultLine = true := (State.spanRun_held _ _).go h

theorem State.spanDone_held (s x1 x2 x3 x4) : Held s (State.spanDone s x1 x2 x3 x4) := by
  exact ⟨fun h => h⟩

@[simp] theorem State.spanDone_line (s x1 x2 x3 x4) (h : s.kst.faultLine = true) :
    (State.spanDone s x1 x2 x3 x4).kst.faultLine = true := (State.spanDone_held _ _ _ _ _).go h

theorem State.modeRelinquish_held (s x1) : Held s (State.modeRelinquish s x1) := by
  constructor; intro h; simp only [State.modeRelinquish]; (repeat' split) <;> simp_all (maxDischargeDepth := 12)

@[simp] theorem State.modeRelinquish_line (s x1) (h : s.kst.faultLine = true) :
    (State.modeRelinquish s x1).kst.faultLine = true := (State.modeRelinquish_held _ _).go h

theorem State.spanCommand_held (s x1) : Held s (State.spanCommand s x1) := by
  constructor; intro h; simp only [State.spanCommand]; (repeat' split) <;> simp_all (maxDischargeDepth := 12)

@[simp] theorem State.spanCommand_line (s x1) (h : s.kst.faultLine = true) :
    (State.spanCommand s x1).kst.faultLine = true := (State.spanCommand_held _ _).go h

theorem State.abortCommand_held (s x1 x2) : Held s (State.abortCommand s x1 x2) := by
  constructor; intro h; simp only [State.abortCommand]; (repeat' split) <;> simp_all (maxDischargeDepth := 12)

@[simp] theorem State.abortCommand_line (s x1 x2) (h : s.kst.faultLine = true) :
    (State.abortCommand s x1 x2).kst.faultLine = true := (State.abortCommand_held _ _ _).go h

theorem State.ltWriteCommand_held (s : State) (d) : Held s (s.ltWriteCommand d) := by
  unfold State.ltWriteCommand
  extract_lets k b x
  split
  · exact State.deckFinish_held ..
  · exact Held.trans (State.putSlot_held ..) (State.deckFinish_held ..)

@[simp] theorem State.ltWriteCommand_line (s x1) (h : s.kst.faultLine = true) :
    (State.ltWriteCommand s x1).kst.faultLine = true := (State.ltWriteCommand_held _ _).go h

theorem State.ltClearCommand_held (s x1) : Held s (State.ltClearCommand s x1) := by
  constructor; intro h; simp (maxDischargeDepth := 12) [State.ltClearCommand, h]

@[simp] theorem State.ltClearCommand_line (s x1) (h : s.kst.faultLine = true) :
    (State.ltClearCommand s x1).kst.faultLine = true := (State.ltClearCommand_held _ _).go h

theorem State.calMapCommand_held (s x1) : Held s (State.calMapCommand s x1) := by
  constructor; intro h; simp (maxDischargeDepth := 12) [State.calMapCommand, h]

@[simp] theorem State.calMapCommand_line (s x1) (h : s.kst.faultLine = true) :
    (State.calMapCommand s x1).kst.faultLine = true := (State.calMapCommand_held _ _).go h

theorem State.registerCommand_held (s x1 x2 x3) : Held s (State.registerCommand s x1 x2 x3) := by
  constructor; intro h; simp only [State.registerCommand]; (repeat' split) <;> simp_all (maxDischargeDepth := 12)

@[simp] theorem State.registerCommand_line (s x1 x2 x3) (h : s.kst.faultLine = true) :
    (State.registerCommand s x1 x2 x3).kst.faultLine = true := (State.registerCommand_held _ _ _ _).go h

theorem State.pairRearmCommand_held (s x1) : Held s (State.pairRearmCommand s x1) := by
  constructor; intro h; simp only [State.pairRearmCommand]; (repeat' split) <;> simp_all (maxDischargeDepth := 12)

@[simp] theorem State.pairRearmCommand_line (s x1) (h : s.kst.faultLine = true) :
    (State.pairRearmCommand s x1).kst.faultLine = true := (State.pairRearmCommand_held _ _).go h

theorem State.adcTrigCommand_held (s x1) : Held s (State.adcTrigCommand s x1) := by
  constructor; intro h; simp (maxDischargeDepth := 12) [State.adcTrigCommand, h]

@[simp] theorem State.adcTrigCommand_line (s x1) (h : s.kst.faultLine = true) :
    (State.adcTrigCommand s x1).kst.faultLine = true := (State.adcTrigCommand_held _ _).go h

theorem State.tripClearCommand_held (s x1) : Held s (State.tripClearCommand s x1) := by
  constructor; intro h; simp (maxDischargeDepth := 12) [State.tripClearCommand, h]

@[simp] theorem State.tripClearCommand_line (s x1) (h : s.kst.faultLine = true) :
    (State.tripClearCommand s x1).kst.faultLine = true := (State.tripClearCommand_held _ _).go h

theorem State.pierClearCommand_held (s x1) : Held s (State.pierClearCommand s x1) := by
  constructor; intro h; simp (maxDischargeDepth := 12) [State.pierClearCommand, h]

@[simp] theorem State.pierClearCommand_line (s x1) (h : s.kst.faultLine = true) :
    (State.pierClearCommand s x1).kst.faultLine = true := (State.pierClearCommand_held _ _).go h

theorem State.jobCommand_held (s x1) : Held s (State.jobCommand s x1) := by
  exact ⟨fun h => h⟩

@[simp] theorem State.jobCommand_line (s x1) (h : s.kst.faultLine = true) :
    (State.jobCommand s x1).kst.faultLine = true := (State.jobCommand_held _ _).go h

theorem State.deckEffect_held (s x1 x2 x3 x4) : Held s (State.deckEffect s x1 x2 x3 x4) := by
  constructor; intro h; simp only [State.deckEffect]; split <;> simp (maxDischargeDepth := 12) [h]

@[simp] theorem State.deckEffect_line (s x1 x2 x3 x4) (h : s.kst.faultLine = true) :
    (State.deckEffect s x1 x2 x3 x4).kst.faultLine = true := (State.deckEffect_held _ _ _ _ _).go h

theorem State.runSpan_held (s x1) : Held s (State.runSpan s x1) := by
  constructor; intro h; unfold State.runSpan; (repeat' split) <;> simp (maxDischargeDepth := 12) [h]

@[simp] theorem State.runSpan_line (s x1) (h : s.kst.faultLine = true) :
    (State.runSpan s x1).kst.faultLine = true := (State.runSpan_held _ _).go h

theorem State.handoverNow_held (s x1) : Held s (State.handoverNow s x1) := by
  constructor; intro h; simp only [State.handoverNow]; split <;> simp (maxDischargeDepth := 12) [h]

@[simp] theorem State.handoverNow_line (s x1) (h : s.kst.faultLine = true) :
    (State.handoverNow s x1).kst.faultLine = true := (State.handoverNow_held _ _).go h

theorem State.runDeck_held (s x1) : Held s (State.runDeck s x1) := by
  constructor; intro h; unfold State.runDeck; (repeat' split) <;> simp (maxDischargeDepth := 12) [h]

@[simp] theorem State.runDeck_line (s x1) (h : s.kst.faultLine = true) :
    (State.runDeck s x1).kst.faultLine = true := (State.runDeck_held _ _).go h

theorem State.abutCommand_held (s x1) : Held s (State.abutCommand s x1) := by
  constructor; intro h; unfold State.abutCommand; (repeat' split) <;> simp (maxDischargeDepth := 12) [h]

@[simp] theorem State.abutCommand_line (s x1) (h : s.kst.faultLine = true) :
    (State.abutCommand s x1).kst.faultLine = true := (State.abutCommand_held _ _).go h

theorem State.faultCommand_held (s x1) : Held s (State.faultCommand s x1) := by
  constructor; intro h; unfold State.faultCommand; (repeat' split) <;> simp (maxDischargeDepth := 12) [h]

@[simp] theorem State.faultCommand_line (s x1) (h : s.kst.faultLine = true) :
    (State.faultCommand s x1).kst.faultLine = true := (State.faultCommand_held _ _).go h

/-- A command on the deck keeps what its own run keeps. -/
theorem onDeck_held (s : State) (d) (run : State → State) (h : ∀ t, Held t (run t)) : Held s (s.onDeck d run) := by
  unfold State.onDeck
  exact Held.ite (State.abutCommand_held ..) (Held.ite (State.faultCommand_held ..) (Held.ite (h s) (.refl _)))

theorem State.spanRow_held (s : State) (d) : Held s (s.spanRow d) := by
  unfold State.spanRow
  exact onDeck_held _ _ _ fun t => Held.trans (State.prepare_held ..) (State.runSpan_held ..)

@[simp] theorem State.spanRow_line (s x1) (h : s.kst.faultLine = true) :
    (State.spanRow s x1).kst.faultLine = true := (State.spanRow_held _ _).go h

theorem State.deckRow_held (s : State) (d) : Held s (s.deckRow d) := by
  unfold State.deckRow
  exact onDeck_held _ _ _ fun t => State.runDeck_held ..

@[simp] theorem State.deckRow_line (s x1) (h : s.kst.faultLine = true) :
    (State.deckRow s x1).kst.faultLine = true := (State.deckRow_held _ _).go h

theorem execNop_line (x0 s) : outHeld (execNop x0 s) s := by
  simp (maxDischargeDepth := 12) +contextual [execNop]

theorem execAbortCmd_line (x0 s) : outHeld (execAbortCmd x0 s) s := by
  simp (maxDischargeDepth := 12) +contextual [execAbortCmd]

theorem execDeckRestart_line (d) (s : State) : outHeld (execDeckRestart d s) s := by
  unfold execDeckRestart
  refine onDeck_held _ _ _ fun t => Held.ite (Held.trans (State.leaveToTwin_held ..) (State.unstage_held ..)) ?_
  split
  · exact State.deckFinish_held ..
  · exact State.deckRestart_held ..

theorem execLtWrite_line (x0 s) : outHeld (execLtWrite x0 s) s := by
  simp (maxDischargeDepth := 12) +contextual [execLtWrite]

theorem execLtClear_line (x0 s) : outHeld (execLtClear x0 s) s := by
  simp (maxDischargeDepth := 12) +contextual [execLtClear]

theorem execCalMap_line (x0 s) : outHeld (execCalMap x0 s) s := by
  simp (maxDischargeDepth := 12) +contextual [execCalMap]

theorem execHandover_line (x0 s) : outHeld (execHandover x0 s) s := by
  simp (maxDischargeDepth := 12) +contextual [execHandover]

theorem execTlSet_line (x0 s) : outHeld (execTlSet x0 s) s := by
  simp (maxDischargeDepth := 12) +contextual [execTlSet]

theorem execEngCoef_line (x0 s) : outHeld (execEngCoef x0 s) s := by
  simp (maxDischargeDepth := 12) +contextual [execEngCoef]

theorem execEngLimit_line (x0 s) : outHeld (execEngLimit x0 s) s := by
  simp (maxDischargeDepth := 12) +contextual [execEngLimit]

theorem execAdcCal_line (x0 s) : outHeld (execAdcCal x0 s) s := by
  simp (maxDischargeDepth := 12) +contextual [execAdcCal]

theorem execPairRearm_line (x0 s) : outHeld (execPairRearm x0 s) s := by
  simp (maxDischargeDepth := 12) +contextual [execPairRearm]

theorem execAdcTrig_line (x0 s) : outHeld (execAdcTrig x0 s) s := by
  simp (maxDischargeDepth := 12) +contextual [execAdcTrig]

theorem execTripClear_line (x0 s) : outHeld (execTripClear x0 s) s := by
  simp (maxDischargeDepth := 12) +contextual [execTripClear]

theorem execPierClear_line (x0 s) : outHeld (execPierClear x0 s) s := by
  simp (maxDischargeDepth := 12) +contextual [execPierClear]

theorem execRecTrig_line (x0 s) : outHeld (execRecTrig x0 s) s := by
  simp (maxDischargeDepth := 12) +contextual [execRecTrig]

theorem execMode_line (x0 s) : outHeld (execMode x0 s) s := by
  simp (maxDischargeDepth := 12) +contextual [execMode]

theorem execTqTarget_line (x0 s) : outHeld (execTqTarget x0 s) s := by
  simp (maxDischargeDepth := 12) +contextual [execTqTarget]

theorem execSpdTarget_line (x0 s) : outHeld (execSpdTarget x0 s) s := by
  simp (maxDischargeDepth := 12) +contextual [execSpdTarget]

theorem execTPosRearm_line (x0 s) : outHeld (execTPosRearm x0 s) s := by
  simp (maxDischargeDepth := 12) +contextual [execTPosRearm]

theorem execCVtgt_line (x0 s) : outHeld (execCVtgt x0 s) s := by
  simp (maxDischargeDepth := 12) +contextual [execCVtgt]

theorem execCItgt_line (x0 s) : outHeld (execCItgt x0 s) s := by
  simp (maxDischargeDepth := 12) +contextual [execCItgt]

theorem execCPhases_line (x0 s) : outHeld (execCPhases x0 s) s := by
  simp (maxDischargeDepth := 12) +contextual [execCPhases]

theorem execCCrowbarClr_line (x0 s) : outHeld (execCCrowbarClr x0 s) s := by
  simp (maxDischargeDepth := 12) +contextual [execCCrowbarClr]

theorem execQPower_line (x0 s) : outHeld (execQPower x0 s) s := by
  simp (maxDischargeDepth := 12) +contextual [execQPower]

theorem execAHold_line (x0 s) : outHeld (execAHold x0 s) s := by
  simp (maxDischargeDepth := 12) +contextual [execAHold]

theorem execAShift_line (x0 s) : outHeld (execAShift x0 s) s := by
  simp (maxDischargeDepth := 12) +contextual [execAShift]

theorem execAPark_line (x0 s) : outHeld (execAPark x0 s) s := by
  simp (maxDischargeDepth := 12) +contextual [execAPark]

theorem execARelease_line (x0 s) : outHeld (execARelease x0 s) s := by
  simp (maxDischargeDepth := 12) +contextual [execARelease]

theorem execACurrent_line (x0 s) : outHeld (execACurrent x0 s) s := by
  simp (maxDischargeDepth := 12) +contextual [execACurrent]

theorem execAHome_line (x0 s) : outHeld (execAHome x0 s) s := by
  simp (maxDischargeDepth := 12) +contextual [execAHome]

theorem execAPosRearm_line (x0 s) : outHeld (execAPosRearm x0 s) s := by
  simp (maxDischargeDepth := 12) +contextual [execAPosRearm]

theorem State.testDone_held (s x1 x2 x3) : Held s (State.testDone s x1 x2 x3) := by
  constructor; intro h; simp only [State.testDone]; (repeat' split) <;> simp_all (maxDischargeDepth := 12)

@[simp] theorem State.testDone_line (s x1 x2 x3) (h : s.kst.faultLine = true) :
    (State.testDone s x1 x2 x3).kst.faultLine = true := (State.testDone_held _ _ _ _).go h

theorem execSelfTest_line (x0 x1 s) : outHeld (execSelfTest x0 x1 s) s := by
  simp (maxDischargeDepth := 12) +contextual [execSelfTest]

theorem State.actionSpan_held (s x1 x2) : Held s (State.actionSpan s x1 x2).2 := by
  unfold State.actionSpan; (try extract_lets); (repeat' first | split | exact Held.refl _ | with_reducible exact (State.tracDip_held ..) | with_reducible exact (State.cPhasesCmd_held ..) | with_reducible exact (State.aShiftCmd_held ..) | with_reducible exact (State.go_held ..) | with_reducible exact (State.modeSpan_held ..) | with_reducible refine Held.ite ?_ ?_ | with_reducible refine Held.trans ?_ (State.tracDip_held ..) | with_reducible refine Held.trans ?_ (State.cPhasesCmd_held ..) | with_reducible refine Held.trans ?_ (State.aShiftCmd_held ..) | with_reducible refine Held.trans ?_ (State.go_held ..) | with_reducible refine Held.trans ?_ (State.modeSpan_held ..) | with_reducible refine Held.trans ?_ (Held.foldl _ (fun _ _ => ?_) _ _) | with_reducible refine Held.trans ?_ (Held.ite ?_ ?_) | with_reducible refine Held.trans ?_ (Held.lit _ _ (by rfl) ..))

@[simp] theorem State.actionSpan_line (s x1 x2) (h : s.kst.faultLine = true) :
    (State.actionSpan s x1 x2).2.kst.faultLine = true := (State.actionSpan_held _ _ _).go h

theorem State.runAction_held (s : State) (x1) : Held s (s.runAction x1) := by
  unfold State.runAction
  extract_lets -merge +onlyGivenNames b v xs
  refine Held.ite ⟨fun h => h⟩ ?_
  extract_lets step
  have h : Held s (xs.foldl step (s, 0, 0)).1 := by
    refine Held.foldl_on (fun b : State × Nat × Nat => b.1) step (fun q x => ?_) _ (s, 0, 0)
    dsimp only [step]
    have ha := State.actionSpan_held q.1 x1 x
    generalize q.1.actionSpan x1 x = r at *
    split
    · exact .refl _
    · exact Held.trans ha (Held.foldl (fun (t : State) q => { t with stage := t.stage.quantity none q }) (fun t q => ⟨fun h => h⟩) _ _)
  generalize xs.foldl step (s, 0, 0) = r at *
  obtain ⟨t, st, no⟩ := r
  exact Held.trans h ⟨fun h => h⟩

@[simp] theorem State.runAction_line (s x1) (h : s.kst.faultLine = true) :
    (State.runAction s x1).kst.faultLine = true := (State.runAction_held _ _).go h

theorem State.runProfile_held (s : State) (x1) : Held s (s.runProfile x1) := by
  unfold State.runProfile
  extract_lets x m y act
  have h : ∀ r, act = some r → Held s r.2 := by
    intro r hr
    dsimp only [act] at hr
    repeat' split at hr
    all_goals first
      | (cases hr; done)
      | (cases hr
         first
           | exact State.modeSpan_held ..
           | exact State.aHoldHere_held ..
           | exact State.aParkCmd_held ..)
  clear_value act
  split
  · exact .refl _
  · exact State.withStage_held ..
  · exact Held.trans (h _ rfl) (State.withStage_held ..)

@[simp] theorem State.runProfile_line (s x1) (h : s.kst.faultLine = true) :
    (State.runProfile s x1).kst.faultLine = true := (State.runProfile_held _ _).go h

theorem State.fetchSlip_held (s) : Held s (State.fetchSlip s) := by
  constructor; intro h; simp only [State.fetchSlip]; split <;> simp (maxDischargeDepth := 12) [h]

@[simp] theorem State.fetchSlip_line (s) (h : s.kst.faultLine = true) :
    (State.fetchSlip s).kst.faultLine = true := (State.fetchSlip_held _).go h

theorem State.pageFailed_held (s) : Held s (State.pageFailed s) := by
  constructor; intro h; simp (maxDischargeDepth := 12) [State.pageFailed, h]

@[simp] theorem State.pageFailed_line (s) (h : s.kst.faultLine = true) :
    (State.pageFailed s).kst.faultLine = true := (State.pageFailed_held _).go h

theorem State.takePage_held (s x1) : Held s (State.takePage s x1) := by
  exact ⟨fun h => h⟩

@[simp] theorem State.takePage_line (s x1) (h : s.kst.faultLine = true) :
    (State.takePage s x1).kst.faultLine = true := (State.takePage_held _ _).go h

theorem State.judgeFull_held (s) : Held s (State.judgeFull s) := by
  constructor; intro h; simp only [State.judgeFull]; split <;> simp (maxDischargeDepth := 12) [h]

@[simp] theorem State.judgeFull_line (s) (h : s.kst.faultLine = true) :
    (State.judgeFull s).kst.faultLine = true := (State.judgeFull_held _).go h

theorem State.fetchError_held (s x1 x2 x3) : Held s (State.fetchError s x1 x2 x3) := by
  constructor; intro h; simp (maxDischargeDepth := 12) [State.fetchError, h]

@[simp] theorem State.fetchError_line (s x1 x2 x3) (h : s.kst.faultLine = true) :
    (State.fetchError s x1 x2 x3).kst.faultLine = true := (State.fetchError_held _ _ _ _).go h

theorem State.fetchOne_held (s x1) : Held s (State.fetchOne s x1) := by
  constructor; intro h; simp only [State.fetchOne]; split <;> simp (maxDischargeDepth := 12) [h]

@[simp] theorem State.fetchOne_line (s x1) (h : s.kst.faultLine = true) :
    (State.fetchOne s x1).kst.faultLine = true := (State.fetchOne_held _ _).go h

theorem State.hostLoss_held (s x1) : Held s (State.hostLoss s x1) := by
  constructor; intro h; simp (maxDischargeDepth := 12) [State.hostLoss, h]

@[simp] theorem State.hostLoss_line (s x1) (h : s.kst.faultLine = true) :
    (State.hostLoss s x1).kst.faultLine = true := (State.hostLoss_held _ _).go h

theorem State.hostBack_held (s) : Held s (State.hostBack s) := by
  constructor; intro h; simp (maxDischargeDepth := 12) [State.hostBack, h]

@[simp] theorem State.hostBack_line (s) (h : s.kst.faultLine = true) :
    (State.hostBack s).kst.faultLine = true := (State.hostBack_held _).go h

theorem State.judgeHost_held (s x1 x2) : Held s (State.judgeHost s x1 x2) := by
  constructor; intro h; unfold State.judgeHost; (repeat' split) <;> simp (maxDischargeDepth := 12) [h]

@[simp] theorem State.judgeHost_line (s x1 x2) (h : s.kst.faultLine = true) :
    (State.judgeHost s x1 x2).kst.faultLine = true := (State.judgeHost_held _ _ _).go h

theorem State.takeDescs_held (s x1) : Held s (State.takeDescs s x1) := by
  constructor; intro h; simp only [State.takeDescs]; (repeat' split) <;> simp_all (maxDischargeDepth := 12)

@[simp] theorem State.takeDescs_line (s x1) (h : s.kst.faultLine = true) :
    (State.takeDescs s x1).kst.faultLine = true := (State.takeDescs_held _ _).go h

theorem State.fetchPage_held (s x1 x2) : Held s (State.fetchPage s x1 x2) := by
  constructor; intro h; simp only [State.fetchPage]; (repeat' split) <;> simp_all (maxDischargeDepth := 12)

@[simp] theorem State.fetchPage_line (s x1 x2) (h : s.kst.faultLine = true) :
    (State.fetchPage s x1 x2).kst.faultLine = true := (State.fetchPage_held _ _ _).go h

theorem execDoorbellFetch_line (x0 x1 s) : outHeld (execDoorbellFetch x0 x1 s) s := by
  unfold execDoorbellFetch; (repeat' split) <;> simp (maxDischargeDepth := 12) +contextual

theorem execAbutmentServiceTick_line (x0 x1) (s : State) : outHeld (execAbutmentServiceTick x0 x1 s) s := by
  unfold execAbutmentServiceTick
  refine outHeld.ite (outHeld.of (.refl _)) ?_
  extract_lets -merge +onlyGivenNames m _ _ s1 due s2
  have h1 : Held s s1 := ⟨fun h => h⟩
  have h2 : Held s s2 := h1.trans (Held.foldl _ (fun t d => Held.ite (State.abutCommand_held ..) (.refl _)) _ _)
  clear_value s2
  refine outHeld.ite (outHeld.of h2) ?_
  extract_lets -merge +onlyGivenNames s3 old s4
  have h3 : Held s s3 := h2.trans (Held.trans (State.writeCompletions_held ..) (State.writeEvents_held ..))
  have h4 : Held s s4 := h3.trans (Held.ite (Held.trans (State.advanceProd_held ..) (State.fetchPage_held ..)) (.refl _))
  clear_value s4
  exact outHeld.of (h4.trans ⟨fun h => h⟩)

theorem State.fbReply_held (s x1 x2 x3 x4) : Held s (State.fbReply s x1 x2 x3 x4) := by
  constructor; intro h; simp (maxDischargeDepth := 12) [State.fbReply, h]

@[simp] theorem State.fbReply_line (s x1 x2 x3 x4) (h : s.kst.faultLine = true) :
    (State.fbReply s x1 x2 x3 x4).kst.faultLine = true := (State.fbReply_held _ _ _ _ _).go h

theorem State.fbRefuse_held (s x1 x2 x3) : Held s (State.fbRefuse s x1 x2 x3) := by
  constructor; intro h; simp (maxDischargeDepth := 12) [State.fbRefuse, h]

@[simp] theorem State.fbRefuse_line (s x1 x2 x3) (h : s.kst.faultLine = true) :
    (State.fbRefuse s x1 x2 x3).kst.faultLine = true := (State.fbRefuse_held _ _ _ _).go h

theorem execFallbackFrame_line (s) : outHeld (execFallbackFrame s) s := by
  simp only [execFallbackFrame]; (repeat' split) <;> simp (maxDischargeDepth := 12) +contextual

theorem State.fbApply_held (s : State) (x1) : Held s (s.fbApply x1) := by
  unfold State.fbApply
  extract_lets stopNo step
  have ha : ∀ act ∈ s.fbActs x1, ∀ t, Held t (act t).2 := by
    intro act h t
    unfold State.fbActs at h
    extract_lets at h
    split at h
    · rcases List.mem_append.mp h with h | h
      all_goals
        obtain ⟨x, -, rfl⟩ := List.mem_map.mp h
        first | exact State.modeSpan_held .. | exact State.aHoldHere_held ..
    · obtain ⟨x, -, rfl⟩ := List.mem_map.mp h
      exact State.modeSpan_held ..
    · obtain ⟨x, -, rfl⟩ := List.mem_map.mp h
      exact State.aParkCmd_held ..
    · exact absurd h List.not_mem_nil
  have h : ∀ (l : List (State → Verdict × State)) (q : State × Bool), (∀ act ∈ l, ∀ t, Held t (act t).2) → Held q.1 (l.foldl step q).1 := by
    intro l
    induction l with
    | nil => exact fun q _ => .refl _
    | cons a l ih =>
      intro q hl
      refine Held.trans ?_ (ih _ fun b hb => hl b (List.mem_cons_of_mem _ hb))
      dsimp only [step]
      split
      · exact .refl _
      · exact hl a List.mem_cons_self q.1
  have h := h _ (s, stopNo) ha
  generalize (s.fbActs x1).foldl step (s, stopNo) = r at *
  obtain ⟨t, no⟩ := r
  exact Held.trans h (State.withStage_held ..)

@[simp] theorem State.fbApply_line (s x1) (h : s.kst.faultLine = true) :
    (State.fbApply s x1).kst.faultLine = true := (State.fbApply_held _ _).go h

theorem execPhi0Snapshot_line (x0 x1 s) : outHeld (execPhi0Snapshot x0 x1 s) s := by
  unfold execPhi0Snapshot; (repeat' split) <;> simp (maxDischargeDepth := 12) +contextual

theorem State.derateLink_held (s) : Held s (State.derateLink s) := by
  exact ⟨fun h => h⟩

@[simp] theorem State.derateLink_line (s) (h : s.kst.faultLine = true) :
    (State.derateLink s).kst.faultLine = true := (State.derateLink_held _).go h

theorem State.keepS3_held (s x1 x2 x3 x4) : Held s (State.keepS3 s x1 x2 x3 x4) := by
  constructor; intro h; simp only [State.keepS3]; split <;> simp (maxDischargeDepth := 12) [h]

@[simp] theorem State.keepS3_line (s x1 x2 x3 x4) (h : s.kst.faultLine = true) :
    (State.keepS3 s x1 x2 x3 x4).kst.faultLine = true := (State.keepS3_held _ _ _ _ _).go h

theorem State.engines_held (s x1 x2 x3) : Held s (State.engines s x1 x2 x3).1 := by
  constructor; intro h; simp (maxDischargeDepth := 12) [State.engines, h]

@[simp] theorem State.engines_line (s x1 x2 x3) (h : s.kst.faultLine = true) :
    (State.engines s x1 x2 x3).1.kst.faultLine = true := (State.engines_held _ _ _ _).go h

theorem State.computeTrac_held (s x1 x2) : Held s (State.computeTrac s x1 x2) := by
  constructor; intro h; simp only [State.computeTrac]; split <;> simp (maxDischargeDepth := 12) [h]

@[simp] theorem State.computeTrac_line (s x1 x2) (h : s.kst.faultLine = true) :
    (State.computeTrac s x1 x2).kst.faultLine = true := (State.computeTrac_held _ _ _).go h

theorem State.computeC_held (s x1) : Held s (State.computeC s x1) := by
  constructor; intro h; simp only [State.computeC]; split <;> simp (maxDischargeDepth := 12) [h]

@[simp] theorem State.computeC_line (s x1) (h : s.kst.faultLine = true) :
    (State.computeC s x1).kst.faultLine = true := (State.computeC_held _ _).go h

theorem State.computeQ_held (s x1) : Held s (State.computeQ s x1) := by
  constructor; intro h; simp only [State.computeQ]; split <;> simp (maxDischargeDepth := 12) [h]

@[simp] theorem State.computeQ_line (s x1) (h : s.kst.faultLine = true) :
    (State.computeQ s x1).kst.faultLine = true := (State.computeQ_held _ _).go h

theorem State.computeB_held (s) : Held s (State.computeB s) := by
  constructor; intro h; simp only [State.computeB]; split <;> simp (maxDischargeDepth := 12) [h]

@[simp] theorem State.computeB_line (s) (h : s.kst.faultLine = true) :
    (State.computeB s).kst.faultLine = true := (State.computeB_held _).go h

theorem State.computeA_held (s x1 x2) : Held s (State.computeA s x1 x2) := by
  constructor; intro h; unfold State.computeA; (repeat' split) <;> simp (maxDischargeDepth := 12) [h]

@[simp] theorem State.computeA_line (s x1 x2) (h : s.kst.faultLine = true) :
    (State.computeA s x1 x2).kst.faultLine = true := (State.computeA_held _ _ _).go h

theorem State.computeSpans_held (s) : Held s (State.computeSpans s) := by
  constructor; intro h; simp only [State.computeSpans]; (repeat' split) <;> simp_all (maxDischargeDepth := 12)

@[simp] theorem State.computeSpans_line (s) (h : s.kst.faultLine = true) :
    (State.computeSpans s).kst.faultLine = true := (State.computeSpans_held _).go h

theorem State.putOff_held (s x1 x2) : Held s (State.putOff s x1 x2).2 := by
  constructor; intro h; simp only [State.putOff]; split <;> simp (maxDischargeDepth := 12) [h]

@[simp] theorem State.putOff_line (s x1 x2) (h : s.kst.faultLine = true) :
    (State.putOff s x1 x2).2.kst.faultLine = true := (State.putOff_held _ _ _).go h

/-- One staged command of the scan. -/
theorem runStaged_held (p : State × Nat) (d : Staged) : Held p.1 (State.runStaged p d).1 := by
  unfold State.runStaged
  extract_lets -merge +onlyGivenNames s std
  have h : Held s (s.putOff d p.2).2 := State.putOff_held ..
  generalize s.putOff d p.2 = r at *
  obtain ⟨off, t⟩ := r
  dsimp -zeta only
  split
  · exact h
  extract_lets -merge +onlyGivenNames k
  split
  · exact State.runSpan_held ..
  split
  · exact .refl _
  split
  · exact ⟨fun h => h⟩
  split
  · exact State.leaveToTwin_held ..
  split
  · exact ⟨fun h => h⟩
  · extract_lets -merge +onlyGivenNames u
    have hu : Held s u := Held.ite (State.stageHandover_held ..) (.refl _)
    clear_value u
    exact Held.trans hu ⟨fun h => h⟩

theorem State.runCommands_held (s : State) : Held s s.runCommands := by
  unfold State.runCommands
  extract_lets -merge +onlyGivenNames b s1 s2 s3
  have h1 : Held s s1 := Held.foldl State.runProfile State.runProfile_held _ _
  have h2 : Held s s2 := h1.trans (Held.foldl_on (fun b : State × Nat => b.1) State.runStaged (runStaged_held) _ (s1, 0))
  have h3 : Held s s3 := h2.trans (Held.foldl _ (fun t f => State.fbApply_held ..) _ _)
  exact h3.trans (Held.foldl State.runAction State.runAction_held _ _)

@[simp] theorem State.runCommands_line (s) (h : s.kst.faultLine = true) :
    (State.runCommands s).kst.faultLine = true := (State.runCommands_held _).go h

theorem State.judgeSlack_held (s x1) : Held s (State.judgeSlack s x1) := by
  constructor; intro h; simp only [State.judgeSlack]; split <;> simp (maxDischargeDepth := 12) [h]

@[simp] theorem State.judgeSlack_line (s x1) (h : s.kst.faultLine = true) :
    (State.judgeSlack s x1).kst.faultLine = true := (State.judgeSlack_held _ _).go h

theorem State.doNote_held (s x1) : Held s (State.doNote s x1) := by
  constructor; intro h; unfold State.doNote; (repeat' split) <;> simp (maxDischargeDepth := 12) [h]

@[simp] theorem State.doNote_line (s x1) (h : s.kst.faultLine = true) :
    (State.doNote s x1).kst.faultLine = true := (State.doNote_held _ _).go h

theorem State.raiseFound_held (s) : Held s (State.raiseFound s) := by
  constructor; intro h; simp only [State.raiseFound]; (repeat' split) <;> simp_all (maxDischargeDepth := 12)

@[simp] theorem State.raiseFound_line (s) (h : s.kst.faultLine = true) :
    (State.raiseFound s).kst.faultLine = true := (State.raiseFound_held _).go h

theorem execPhi2Compute_line (x0 x1 s) : outHeld (execPhi2Compute x0 x1 s) s := by
  unfold execPhi2Compute; (repeat' split) <;> simp (maxDischargeDepth := 12) +contextual

theorem State.dropRunning_held (s) : Held s (State.dropRunning s) := by
  exact ⟨fun h => h⟩

@[simp] theorem State.dropRunning_line (s) (h : s.kst.faultLine = true) :
    (State.dropRunning s).kst.faultLine = true := (State.dropRunning_held _).go h

theorem State.faultCompletions_held (s) : Held s (State.faultCompletions s) := by
  constructor; intro h; simp only [State.faultCompletions]; (repeat' split) <;> simp_all (maxDischargeDepth := 12)

@[simp] theorem State.faultCompletions_line (s) (h : s.kst.faultLine = true) :
    (State.faultCompletions s).kst.faultLine = true := (State.faultCompletions_held _).go h

theorem State.sendFrame_held (s x1) : Held s (State.sendFrame s x1) := by
  constructor; intro h; simp only [State.sendFrame]; split <;> simp (maxDischargeDepth := 12) [h]

@[simp] theorem State.sendFrame_line (s x1) (h : s.kst.faultLine = true) :
    (State.sendFrame s x1).kst.faultLine = true := (State.sendFrame_held _ _).go h

theorem State.dropEvents_held (s) : Held s (State.dropEvents s) := by
  exact ⟨fun h => h⟩

@[simp] theorem State.dropEvents_line (s) (h : s.kst.faultLine = true) :
    (State.dropEvents s).kst.faultLine = true := (State.dropEvents_held _).go h

theorem State.writeRings_held (s) : Held s (State.writeRings s) := by
  unfold State.writeRings; (try extract_lets); (repeat' first | split | exact Held.refl _ | with_reducible exact (State.recorder_held ..) | with_reducible exact (State.claimNext_held ..) | with_reducible exact (State.writeCompletions_held ..) | with_reducible exact (State.writeEvents_held ..) | with_reducible exact (State.writeTelemetry_held ..) | with_reducible exact (State.publish_held ..) | with_reducible exact (State.faultCompletions_held ..) | with_reducible exact (State.dropEvents_held ..) | with_reducible refine Held.ite ?_ ?_ | with_reducible refine Held.trans ?_ (State.recorder_held ..) | with_reducible refine Held.trans ?_ (State.claimNext_held ..) | with_reducible refine Held.trans ?_ (State.writeCompletions_held ..) | with_reducible refine Held.trans ?_ (State.writeEvents_held ..) | with_reducible refine Held.trans ?_ (State.writeTelemetry_held ..) | with_reducible refine Held.trans ?_ (State.publish_held ..) | with_reducible refine Held.trans ?_ (State.faultCompletions_held ..) | with_reducible refine Held.trans ?_ (State.dropEvents_held ..) | with_reducible refine Held.trans ?_ (Held.foldl _ (fun _ _ => ?_) _ _) | with_reducible refine Held.trans ?_ (Held.ite ?_ ?_) | with_reducible refine Held.trans ?_ (Held.lit _ _ (by rfl) ..))

@[simp] theorem State.writeRings_line (s) (h : s.kst.faultLine = true) :
    (State.writeRings s).kst.faultLine = true := (State.writeRings_held _).go h

theorem execPhi3Mirror_line (s : State) : outHeld (execPhi3Mirror s) s := by
  unfold execPhi3Mirror
  refine outHeld.ite (outHeld.of (.refl _)) ?_
  extract_lets -merge +onlyGivenNames _ s1 s2
  have h1 : Held s s1 := Held.trans (t := { s with tk := { s.tk with phi3Done := true } }) ⟨fun h => h⟩ (State.writeRings_held ..)
  have h2 : Held s s2 := h1.trans (State.sendFrame_held ..)
  clear_value s2
  split
  · exact outHeld.of (h2.trans (State.deckRestart_held ..))
  · exact outHeld.of h2

theorem State.commitStage_held (s x1) : Held s (State.commitStage s x1) := by
  constructor; intro h; simp only [State.commitStage]; (repeat' split) <;> simp_all (maxDischargeDepth := 12)

@[simp] theorem State.commitStage_line (s x1) (h : s.kst.faultLine = true) :
    (State.commitStage s x1).kst.faultLine = true := (State.commitStage_held _ _).go h

theorem State.actionAt_held (s x1 x2 x3 x4) : Held s (State.actionAt s x1 x2 x3 x4) := by
  constructor; intro h; simp only [State.actionAt]; (repeat' split) <;> simp_all (maxDischargeDepth := 12)

@[simp] theorem State.actionAt_line (s x1 x2 x3 x4) (h : s.kst.faultLine = true) :
    (State.actionAt s x1 x2 x3 x4).kst.faultLine = true := (State.actionAt_held _ _ _ _ _).go h

theorem State.launchAt_held (s x1 x2 x3 x4) : Held s (State.launchAt s x1 x2 x3 x4) := by
  constructor; intro h; simp only [State.launchAt]; (repeat' split) <;> simp_all (maxDischargeDepth := 12)

@[simp] theorem State.launchAt_line (s x1 x2 x3 x4) (h : s.kst.faultLine = true) :
    (State.launchAt s x1 x2 x3 x4).kst.faultLine = true := (State.launchAt_held _ _ _ _ _).go h

theorem State.deckCommands_held (s : State) (x1 x2 x3 x4) : Held s (s.deckCommands x1 x2 x3 x4) := by
  unfold State.deckCommands
  extract_lets due isReg later one
  have h : ∀ t d, Held t (one t d) := by
    intro t d
    dsimp only [one]
    split
    · exact State.deckFinish_held ..
    · exact Held.ite (.refl _) (Held.ite (State.unstage_held ..) (State.deckEffect_held ..))
  exact (Held.foldl one h _ _).trans (Held.foldl one h _ _)

@[simp] theorem State.deckCommands_line (s x1 x2 x3 x4) (h : s.kst.faultLine = true) :
    (State.deckCommands s x1 x2 x3 x4).kst.faultLine = true := (State.deckCommands_held _ _ _ _ _).go h

theorem State.overdue_held (s x1 x2) : Held s (State.overdue s x1 x2) := by
  exact ⟨fun h => h⟩

@[simp] theorem State.overdue_line (s x1 x2) (h : s.kst.faultLine = true) :
    (State.overdue s x1 x2).kst.faultLine = true := (State.overdue_held _ _ _).go h

theorem State.overrun_held (s x1) : Held s (State.overrun s x1) := by
  constructor; intro h; simp only [State.overrun]; (repeat' split) <;> simp_all (maxDischargeDepth := 12)

@[simp] theorem State.overrun_line (s x1) (h : s.kst.faultLine = true) :
    (State.overrun s x1).kst.faultLine = true := (State.overrun_held _ _).go h

theorem State.overrunEvents_held (s x1 x2) : Held s (State.overrunEvents s x1 x2) := by
  constructor; intro h; simp only [State.overrunEvents]; split <;> simp (maxDischargeDepth := 12) [h]

@[simp] theorem State.overrunEvents_line (s x1 x2) (h : s.kst.faultLine = true) :
    (State.overrunEvents s x1 x2).kst.faultLine = true := (State.overrunEvents_held _ _ _).go h

theorem State.capacityBoundary_held (s) : Held s (State.capacityBoundary s) := by
  unfold State.capacityBoundary; (try extract_lets); (repeat' first | split | exact Held.refl _ | with_reducible exact (State.raise_held ..) | with_reducible exact (State.updateAvail_held ..) | with_reducible refine Held.ite ?_ ?_ | with_reducible refine Held.trans ?_ (State.raise_held ..) | with_reducible refine Held.trans ?_ (State.updateAvail_held ..) | with_reducible refine Held.trans ?_ (Held.foldl _ (fun _ _ => ?_) _ _) | with_reducible refine Held.trans ?_ (Held.ite ?_ ?_) | with_reducible refine Held.trans ?_ (Held.lit _ _ (by rfl) ..))

@[simp] theorem State.capacityBoundary_line (s) (h : s.kst.faultLine = true) :
    (State.capacityBoundary s).kst.faultLine = true := (State.capacityBoundary_held _).go h

theorem State.forgetRefusals_held (s : State) : Held s s.forgetRefusals := by
  unfold State.forgetRefusals
  exact Held.foldl _ (fun t c => Held.ite (State.updConv_held ..) (.refl _)) _ _

@[simp] theorem State.forgetRefusals_line (s) (h : s.kst.faultLine = true) :
    (State.forgetRefusals s).kst.faultLine = true := (State.forgetRefusals_held _).go h

theorem State.openTick_held (s x1) : Held s (State.openTick s x1) := by
  exact ⟨fun h => h⟩

@[simp] theorem State.openTick_line (s x1) (h : s.kst.faultLine = true) :
    (State.openTick s x1).kst.faultLine = true := (State.openTick_held _ _).go h

theorem State.captures_held (s x1) : Held s (State.captures s x1) := by
  unfold State.captures
  extract_lets t drop
  have h : Held s t := Held.trans (State.capture_held ..) (Held.trans (State.capture_held ..) (State.hallBoundary_held ..))
  exact h.trans (Held.same rfl)

@[simp] theorem State.captures_line (s x1) (h : s.kst.faultLine = true) :
    (State.captures s x1).kst.faultLine = true := (State.captures_held _ _).go h

theorem State.giveUpSafe_held (s) : Held s (State.giveUpSafe s) := by
  constructor; intro h; simp only [State.giveUpSafe]; (repeat' split) <;> simp_all (maxDischargeDepth := 12)

@[simp] theorem State.giveUpSafe_line (s) (h : s.kst.faultLine = true) :
    (State.giveUpSafe s).kst.faultLine = true := (State.giveUpSafe_held _).go h

theorem State.trussBoundary_held (s : State) (x1 x2 x3) : Held s (s.trussBoundary x1 x2 x3) := by
  unfold State.trussBoundary
  extract_lets s1 s2
  have h1 : Held s s1 := Held.trans (State.moveSets_held ..) (State.latchPatterns_held ..)
  have h2 : Held s s2 := h1.trans (State.syncCheck_held ..)
  have h3 : Held s (s2.dtUpset x2.dtUpset).dtBoundary.1 := h2.trans (Held.trans (State.dtUpset_held ..) (State.dtBoundary_held ..))
  clear_value s2
  generalize (s2.dtUpset x2.dtUpset).dtBoundary = r at *
  obtain ⟨t, bad⟩ := r
  exact Held.trans h3 (Held.ite (State.digestFault_held ..) (.refl _))

@[simp] theorem State.trussBoundary_line (s x1 x2 x3) (h : s.kst.faultLine = true) :
    (State.trussBoundary s x1 x2 x3).kst.faultLine = true := (State.trussBoundary_held _ _ _ _).go h

theorem State.startAndPair_held (s) : Held s (State.startAndPair s) := by
  constructor; intro h; simp only [State.startAndPair]; split <;> simp (maxDischargeDepth := 12) [h]

@[simp] theorem State.startAndPair_line (s) (h : s.kst.faultLine = true) :
    (State.startAndPair s).kst.faultLine = true := (State.startAndPair_held _).go h

theorem State.lateLong_held (s) : Held s (State.lateLong s) := by
  constructor; intro h; simp (maxDischargeDepth := 12) [State.lateLong, h]

@[simp] theorem State.lateLong_line (s) (h : s.kst.faultLine = true) :
    (State.lateLong s).kst.faultLine = true := (State.lateLong_held _).go h

theorem State.endTick_held (s x1 x2) : Held s (State.endTick s x1 x2) := by
  constructor; intro h; simp only [State.endTick]; (repeat' split) <;> simp_all (maxDischargeDepth := 12)

@[simp] theorem State.endTick_line (s x1 x2) (h : s.kst.faultLine = true) :
    (State.endTick s x1 x2).kst.faultLine = true := (State.endTick_held _ _ _).go h

theorem State.landTick_held (s : State) (x1 x2 x3 x4 x5) : Held s (s.landTick x1 x2 x3 x4 x5) := by
  unfold State.landTick
  extract_lets -merge +onlyGivenNames b old posted landed s1 s2 s3
  have h1 : Held s s1 := Held.trans (State.landTl_held ..) (Held.trans (State.commitStage_held ..) (State.launchAt_held ..))
  have h2 : Held s s2 := h1.trans (Held.ite (.refl _) (Held.trans (State.deckCommands_held ..) (State.overdue_held ..)))
  have h3 : Held s s3 := h2.trans (Held.ite (State.keystoneSafe_held ..) (.refl _))
  exact h3.trans (Held.trans (State.giveUpSafe_held ..) (State.trussBoundary_held ..))

@[simp] theorem State.landTick_line (s x1 x2 x3 x4 x5) (h : s.kst.faultLine = true) :
    (State.landTick s x1 x2 x3 x4 x5).kst.faultLine = true := (State.landTick_held _ _ _ _ _ _).go h

theorem State.beginTick_held (s : State) (x1 x2) : Held s (s.beginTick x1 x2) := by
  unfold State.beginTick
  have cal : ∀ t : State, Held t t.calBoundary.capacityBoundary.startAndPair := fun t =>
    Held.trans (State.calBoundary_held t) (Held.trans (State.capacityBoundary_held _) (State.startAndPair_held _))
  have par : ∀ (t : State) (p k), Held t (t.releaseBoundary.trestleInputs.watchdogBoundary.sampleContactor p k) := fun t p k =>
    Held.trans (State.releaseBoundary_held t) (Held.trans (State.trestleInputs_held _)
      (Held.trans (State.watchdogBoundary_held _) (State.sampleContactor_held _ p k)))
  have opn : ∀ (t : State) (o), Held t ((t.openTick o).forgetRefusals.relinquish) := fun t o =>
    Held.trans (State.openTick_held t o) (Held.trans (State.forgetRefusals_held _) (State.relinquish_held _))
  have cap : Held s (s.captures x1).uvBoundary := Held.trans (State.captures_held s x1) (State.uvBoundary_held _)
  have leg : ∀ (t : State) (o), Held t (t.boundaryLegs o) := fun t o => State.boundaryLegs_held t o
  exact cap.trans ((opn _ x2).trans ((leg _ x2).trans ((par _ _ _).trans (cal _))))

@[simp] theorem State.beginTick_line (s x1 x2) (h : s.kst.faultLine = true) :
    (State.beginTick s x1 x2).kst.faultLine = true := (State.beginTick_held _ _ _).go h

theorem execTickBoundary_line (x0 s) : outHeld (execTickBoundary x0 s) s := by
  unfold execTickBoundary; (repeat' split) <;> simp (maxDischargeDepth := 12) +contextual

end Sys2Proof.Machine
end

