-- ==== Sys2Proof/Laws/Store.lean ====
section
/-! SUPPORT. The laws of sparse data: reading back a write, leaving every other key alone, and keeping the one canonical form; then the same for the held registers, the parts and the bytes of MRAM. -/
namespace Sys2Proof.Machine

variable {α : Type} [DecidableEq α]

/-- A key below the first of a canonical store is not listed. -/
theorem Store.get_below {d : Nat → α} {m : Store α} {lo k : Nat} (h : Store.wfFrom d lo m = true) (hk : k < lo) :
    Store.get d m k = d k := by
  cases m with
  | nil => rfl
  | cons p t =>
    obtain ⟨a, v⟩ := p
    simp only [Store.wfFrom, Bool.and_eq_true, decide_eq_true_eq] at h
    have h1 : ¬ a = k := by omega
    have h2 : k < a := by omega
    simp [Store.get, h1, h2]

/-- A canonical store stays canonical above any lower key. -/
theorem Store.wfFrom_mono {d : Nat → α} {m : Store α} {lo lo' : Nat} (h : Store.wfFrom d lo m = true) (hl : lo' ≤ lo) :
    Store.wfFrom d lo' m = true := by
  cases m with
  | nil => rfl
  | cons p t =>
    obtain ⟨a, v⟩ := p
    simp only [Store.wfFrom, Bool.and_eq_true, decide_eq_true_eq] at h ⊢
    exact ⟨⟨by omega, h.1.2⟩, h.2⟩

/-- A write keeps the canonical form. -/
theorem Store.put_wfFrom {d : Nat → α} {m : Store α} {lo k : Nat} {v : α} (h : Store.wfFrom d lo m = true) (hk : lo ≤ k) :
    Store.wfFrom d lo (Store.put d m k v) = true := by
  induction m generalizing lo with
  | nil => by_cases e : v = d k <;> simp [Store.put, Store.wfFrom, e, hk]
  | cons p t ih =>
    obtain ⟨a, w⟩ := p
    simp only [Store.wfFrom, Bool.and_eq_true, decide_eq_true_eq] at h
    unfold Store.put
    split
    · rename_i e
      split
      · exact Store.wfFrom_mono h.2 (by omega)
      · rename_i n
        subst e
        simp [Store.wfFrom, h.1.1, n, h.2]
    · split
      · split
        · simp [Store.wfFrom, h.1.1, h.1.2, h.2]
        · rename_i l n
          have : k + 1 ≤ a := l
          simp [Store.wfFrom, hk, n, h.1.2, h.2, this]
      · simp only [Store.wfFrom, Bool.and_eq_true, decide_eq_true_eq]
        exact ⟨h.1, ih h.2 (by omega)⟩

/-- A write keeps the canonical form of a whole store. -/
@[simp] theorem Store.put_wf {d : Nat → α} {m : Store α} {k : Nat} {v : α} (h : Store.wf d m = true) :
    Store.wf d (Store.put d m k v) = true := Store.put_wfFrom h (Nat.zero_le k)

/-- Reading a key back gives what was written. -/
theorem Store.get_put_same {d : Nat → α} {m : Store α} {lo k : Nat} {v : α} (h : Store.wfFrom d lo m = true) :
    Store.get d (Store.put d m k v) k = v := by
  induction m generalizing lo with
  | nil => by_cases e : v = d k <;> simp [Store.put, Store.get, e]
  | cons p t ih =>
    obtain ⟨a, w⟩ := p
    simp only [Store.wfFrom, Bool.and_eq_true, decide_eq_true_eq] at h
    unfold Store.put
    split
    · rename_i e
      split
      · rename_i n
        exact (Store.get_below h.2 (by omega)).trans n.symm
      · simp [Store.get]
    · rename_i e
      split
      · rename_i l
        split
        · rename_i n
          simp [Store.get, e, l, n]
        · simp [Store.get]
      · rename_i l
        simp [Store.get, e, l, ih h.2]

/-- A write leaves every other key alone. -/
theorem Store.get_put_ne {d : Nat → α} {m : Store α} {lo j k : Nat} {v : α} (h : Store.wfFrom d lo m = true) (hj : j ≠ k) :
    Store.get d (Store.put d m k v) j = Store.get d m j := by
  induction m generalizing lo with
  | nil =>
    have : ¬ k = j := fun e => hj e.symm
    by_cases e : v = d k <;> simp [Store.put, Store.get, e, this]
  | cons p t ih =>
    obtain ⟨a, w⟩ := p
    simp only [Store.wfFrom, Bool.and_eq_true, decide_eq_true_eq] at h
    have kj : ¬ k = j := fun e => hj e.symm
    unfold Store.put
    split
    · rename_i e
      have aj : ¬ a = j := by omega
      split
      · by_cases l : j < a
        · rw [Store.get_below h.2 (by omega)]
          simp [Store.get, aj, l]
        · simp [Store.get, aj, l]
      · subst e
        simp [Store.get, kj]
    · rename_i e
      split
      · split
        · rfl
        · by_cases l : j < k
          · have : ¬ a = j := by omega
            have : j < a := by omega
            simp [Store.get, *]
          · simp [Store.get, kj, l]
      · by_cases aj : a = j
        · simp [Store.get, aj]
        · by_cases l : j < a
          · simp [Store.get, aj, l]
          · simp [Store.get, aj, l, ih h.2]

/-- A held register reads back what it was set to. -/
theorem State.reg_setReg_same (s : State) (off : Nat) (v : Word) (h : Store.wf barReset s.bar = true) :
    (s.setReg off v).reg off = v := Store.get_put_same h
/-- Setting a held register leaves every other one alone. -/
theorem State.reg_setReg_ne (s : State) (off o : Nat) (v : Word) (h : Store.wf barReset s.bar = true) (n : o ≠ off) :
    (s.setReg off v).reg o = s.reg o := Store.get_put_ne h n

/-- Writing bytes keeps the canonical form. -/
theorem memWrite_wf (m : List Host.Cell) (off : Nat) (bytes : List Byte) (h : Memory.wf m = true) :
    Memory.wf (memWrite m off bytes) = true := by
  unfold memWrite
  induction bytes generalizing m off with
  | nil => exact h
  | cons b t ih => exact ih _ (off + 1) (Store.put_wf h)

/-- Writing bytes leaves every byte outside them alone. -/
theorem memByte_memWrite_out (m : List Host.Cell) (off a : Nat) (bytes : List Byte) (h : Memory.wf m = true)
    (n : a < off ∨ off + bytes.length ≤ a) : memByte (memWrite m off bytes) a = memByte m a := by
  unfold memWrite memByte
  induction bytes generalizing m off with
  | nil => rfl
  | cons b t ih =>
    have e : a ≠ off := by simp only [List.length_cons] at n; omega
    exact (ih _ (off + 1) (Store.put_wf h) (by simp only [List.length_cons] at n; omega)).trans (Store.get_put_ne h e)

/-- A write that passed its readback keeps the canonical form of MRAM. -/
theorem State.written_wf (s : State) (w : MramWrite) (h : Memory.wf s.mrm.mem = true) : Memory.wf (s.written w).mrm.mem = true := by
  cases w
  case row slot n ws => exact memWrite_wf _ _ _ h
  case block target copy bytes proper =>
    unfold State.written
    dsimp only
    split
    · exact memWrite_wf _ _ _ h
    · exact memWrite_wf _ _ _ (memWrite_wf _ _ _ h)
  case charter copy vals =>
    unfold State.written
    dsimp only
    split <;> exact h
  all_goals exact h

/-- The one command that writes bytes of MRAM keeps their canonical form. -/
theorem execMramWriteDone_wf (ok : Bool) (s t : State) (h : Memory.wf s.mrm.mem = true)
    (e : execMramWriteDone ok s = .next t) : Memory.wf t.mrm.mem = true := by
  have f : ∀ (u : State) (w : MramWrite), (u.writeFailed w).mrm.mem = u.mrm.mem := fun u w => (State.writeFailed_keeps u w).2
  unfold execMramWriteDone at e
  repeat' split at e
  all_goals cases e
  · exact h
  · exact h
  · exact State.written_wf _ _ h
  · simpa [f] using h

end Sys2Proof.Machine
end

