-- ==== Sys2Proof/Laws/Parts.lean ====
section
/-! SUPPORT. What the lemmas of the parts say: a step, a fold of steps and an outcome keep the sparse stores of the held registers and the parts canonical. -/
namespace Sys2Proof.Machine

/-- `t` has sound parts where `s` has. -/
structure Okay (s t : State) : Prop where
  go : s.partsOk = true → t.partsOk = true
@[simp] theorem Store.upd_wf {α : Type} [DecidableEq α] {d : Nat → α} {m : Store α} {k : Nat} {f : α → α} (h : Store.wf d m = true) :
    Store.wf d (Store.upd d m k f) = true := Store.put_wf h
/-- The stores of a state whose parts are sound. -/
theorem State.partsOk_iff (s : State) : s.partsOk = true ↔
    Store.wf barReset s.bar = true ∧ Store.wf LegS.init s.legs = true ∧ Store.wf (fun _ => ConvS.init) s.adc.conv = true ∧
    Store.wf (fun _ => InputS.init) s.adc.inp = true ∧ Store.wf (fun _ => PairS.init) s.adc.pair = true ∧
    Store.wf (fun _ => RejS.init) s.rej = true ∧ Store.wf (fun _ => HallS.init) s.hall = true ∧
    Store.wf (fun _ => PortS.init) s.fp.port = true := by
  simp [State.partsOk, and_assoc]
@[simp] theorem wf_bar {s : State} (h : s.partsOk = true) : Store.wf barReset s.bar = true := (s.partsOk_iff.mp h).1
@[simp] theorem wf_legs {s : State} (h : s.partsOk = true) : Store.wf LegS.init s.legs = true := (s.partsOk_iff.mp h).2.1
@[simp] theorem wf_conv {s : State} (h : s.partsOk = true) : Store.wf (fun _ => ConvS.init) s.adc.conv = true := (s.partsOk_iff.mp h).2.2.1
@[simp] theorem wf_inp {s : State} (h : s.partsOk = true) : Store.wf (fun _ => InputS.init) s.adc.inp = true := (s.partsOk_iff.mp h).2.2.2.1
@[simp] theorem wf_pair {s : State} (h : s.partsOk = true) : Store.wf (fun _ => PairS.init) s.adc.pair = true := (s.partsOk_iff.mp h).2.2.2.2.1
@[simp] theorem wf_rej {s : State} (h : s.partsOk = true) : Store.wf (fun _ => RejS.init) s.rej = true := (s.partsOk_iff.mp h).2.2.2.2.2.1
@[simp] theorem wf_hall {s : State} (h : s.partsOk = true) : Store.wf (fun _ => HallS.init) s.hall = true := (s.partsOk_iff.mp h).2.2.2.2.2.2.1
@[simp] theorem wf_port {s : State} (h : s.partsOk = true) : Store.wf (fun _ => PortS.init) s.fp.port = true := (s.partsOk_iff.mp h).2.2.2.2.2.2.2
/-- A state written out field by field is sound where its stores are. -/
@[simp] theorem partsOk_mk (a b c bar adc rej) (f g legs) (i j k l m) (hall) (n o p q r t u v w x y z) (a1 a2) (fp : FpS) :
    (State.mk a b c bar adc rej f g legs i j k l m hall n o p q r t u v w x y z a1 a2 fp).partsOk = true ↔
    Store.wf barReset bar = true ∧ Store.wf LegS.init legs = true ∧ Store.wf (fun _ => ConvS.init) adc.conv = true ∧
    Store.wf (fun _ => InputS.init) adc.inp = true ∧ Store.wf (fun _ => PairS.init) adc.pair = true ∧
    Store.wf (fun _ => RejS.init) rej = true ∧ Store.wf (fun _ => HallS.init) hall = true ∧
    Store.wf (fun _ => PortS.init) fp.port = true := State.partsOk_iff _
/-- A fold of steps that each keep the parts sound keeps them sound. -/
@[simp] theorem foldl_parts {α : Type} (g : State → α → State) (l : List α) (s : State)
    (h : ∀ t a, t.partsOk = true → (g t a).partsOk = true) (hs : s.partsOk = true) : (l.foldl g s).partsOk = true := by
  induction l generalizing s with
  | nil => exact hs
  | cons a l ih => exact ih _ (h s a hs)
/-- Nothing has moved. -/
theorem Okay.refl (s : State) : Okay s s := ⟨fun h => h⟩
/-- One step after another. -/
theorem Okay.trans {s t u : State} (h : Okay s t) (k : Okay t u) : Okay s u := ⟨fun x => k.go (h.go x)⟩
/-- A fold of steps. -/
theorem Okay.foldl {α : Type} (g : State → α → State) (h : ∀ t a, Okay t (g t a)) (l : List α) (s : State) : Okay s (l.foldl g s) :=
  ⟨fun x => foldl_parts g l s (fun t a => (h t a).go) x⟩
/-- The same of a fold that carries more than a state. -/
theorem Okay.foldl_on {α β : Type} (π : β → State) (g : β → α → β) (h : ∀ b a, Okay (π b) (π (g b a))) (l : List α) (b : β) :
    Okay (π b) (π (l.foldl g b)) := by
  induction l generalizing b with
  | nil => exact .refl _
  | cons a l ih => exact (h b a).trans (ih _)
/-- Either branch. -/
theorem Okay.ite {c : Prop} [Decidable c] {s t u : State} (h : Okay s t) (k : Okay s u) : Okay s (if c then t else u) := by
  split <;> assumption
/-- A record that differs in no store of a part. -/
theorem Okay.same {s t : State} (hb : t.bar = s.bar) (hl : t.legs = s.legs) (ha : t.adc.conv = s.adc.conv)
    (hi : t.adc.inp = s.adc.inp) (hp : t.adc.pair = s.adc.pair) (hr : t.rej = s.rej) (hh : t.hall = s.hall)
    (hf : t.fp.port = s.fp.port) : Okay s t := by
  refine ⟨fun h => ?_⟩
  rw [State.partsOk_iff] at h ⊢
  rw [hb, hl, ha, hi, hp, hr, hh, hf]
  exact h
/-- A record that names no store of a part. -/
theorem Okay.lit (t : State) (adc : AdcS) (fp : FpS) (ha : adc.conv = t.adc.conv) (hi : adc.inp = t.adc.inp)
    (hp : adc.pair = t.adc.pair) (hf : fp.port = t.fp.port) (x0 x1 x2 x6 x7 x9 x10 x11 x12 x13 x15 x16 x17 x18 x19 x20 x21 x22 x23 x24 x25 x26 x27 x28) :
    Okay t (State.mk x0 x1 x2 t.bar adc t.rej x6 x7 t.legs x9 x10 x11 x12 x13 t.hall x15 x16 x17 x18 x19 x20 x21 x22 x23 x24 x25 x26 x27 x28 fp) := Okay.same rfl rfl ha hi hp rfl rfl hf
/-- An outcome whose next state has sound parts where `s` has. -/
def outOkay (o : Host.Outcome State Fault Refusal) (s : State) : Prop :=
  match o with
  | .next t => Okay s t
  | _ => True
@[simp] theorem outOkay_next (t s : State) : outOkay (Host.Outcome.next t) s ↔ (s.partsOk = true → t.partsOk = true) :=
  ⟨Okay.go, Okay.mk⟩
/-- The outcome of a state with sound parts. -/
theorem outOkay.of {s t : State} (h : Okay s t) : outOkay (.next t) s := h
/-- Either branch of an outcome. -/
theorem outOkay.ite {c : Prop} [Decidable c] {s : State} {o p : Host.Outcome State Fault Refusal} (h : outOkay o s)
    (k : outOkay p s) : outOkay (if c then o else p) s := by
  split <;> assumption

end Sys2Proof.Machine
end

