-- ==== Sys2Proof/Laws/PartsSpans.lean ====
section
/-! SUPPORT. One lemma per operation and command: the parts, the sensing, the legs and the spans keep the sparse stores of the held registers and the parts canonical. -/
namespace Sys2Proof.Machine
set_option linter.all false

theorem State.setReg_okay (s x1 x2) : Okay s (State.setReg s x1 x2) := by
  constructor; intro h; simp (maxDischargeDepth := 12) [State.setReg, h]

@[simp] theorem State.setReg_parts (s x1 x2) (h : s.partsOk = true) :
    (State.setReg s x1 x2).partsOk = true := (State.setReg_okay _ _ _).go h

theorem State.updLeg_okay (s x1 x2) : Okay s (State.updLeg s x1 x2) := by
  constructor; intro h; simp (maxDischargeDepth := 12) [State.updLeg, h]

@[simp] theorem State.updLeg_parts (s x1 x2) (h : s.partsOk = true) :
    (State.updLeg s x1 x2).partsOk = true := (State.updLeg_okay _ _ _).go h

theorem State.updLegs_okay (s x1 x2) : Okay s (State.updLegs s x1 x2) := by
  constructor; intro h; simp only [State.updLegs]; (repeat' split) <;> simp_all (maxDischargeDepth := 12)

@[simp] theorem State.updLegs_parts (s x1 x2) (h : s.partsOk = true) :
    (State.updLegs s x1 x2).partsOk = true := (State.updLegs_okay _ _ _).go h

theorem State.updConv_okay (s x1 x2) : Okay s (State.updConv s x1 x2) := by
  constructor; intro h; simp (maxDischargeDepth := 12) [State.updConv, h]

@[simp] theorem State.updConv_parts (s x1 x2) (h : s.partsOk = true) :
    (State.updConv s x1 x2).partsOk = true := (State.updConv_okay _ _ _).go h

theorem State.updInp_okay (s x1 x2) : Okay s (State.updInp s x1 x2) := by
  constructor; intro h; simp (maxDischargeDepth := 12) [State.updInp, h]

@[simp] theorem State.updInp_parts (s x1 x2) (h : s.partsOk = true) :
    (State.updInp s x1 x2).partsOk = true := (State.updInp_okay _ _ _).go h

theorem State.updPair_okay (s x1 x2) : Okay s (State.updPair s x1 x2) := by
  constructor; intro h; simp (maxDischargeDepth := 12) [State.updPair, h]

@[simp] theorem State.updPair_parts (s x1 x2) (h : s.partsOk = true) :
    (State.updPair s x1 x2).partsOk = true := (State.updPair_okay _ _ _).go h

theorem State.updRej_okay (s x1 x2) : Okay s (State.updRej s x1 x2) := by
  constructor; intro h; simp (maxDischargeDepth := 12) [State.updRej, h]

@[simp] theorem State.updRej_parts (s x1 x2) (h : s.partsOk = true) :
    (State.updRej s x1 x2).partsOk = true := (State.updRej_okay _ _ _).go h

theorem State.updHall_okay (s x1 x2) : Okay s (State.updHall s x1 x2) := by
  constructor; intro h; simp (maxDischargeDepth := 12) [State.updHall, h]

@[simp] theorem State.updHall_parts (s x1 x2) (h : s.partsOk = true) :
    (State.updHall s x1 x2).partsOk = true := (State.updHall_okay _ _ _).go h

theorem State.updPort_okay (s x1 x2) : Okay s (State.updPort s x1 x2) := by
  constructor; intro h; simp (maxDischargeDepth := 12) [State.updPort, h]

@[simp] theorem State.updPort_parts (s x1 x2) (h : s.partsOk = true) :
    (State.updPort s x1 x2).partsOk = true := (State.updPort_okay _ _ _).go h

theorem State.updPos_okay (s x1 x2) : Okay s (State.updPos s x1 x2) := by
  constructor; intro h; simp only [State.updPos]; split <;> simp (maxDischargeDepth := 12) [h]

@[simp] theorem State.updPos_parts (s x1 x2) (h : s.partsOk = true) :
    (State.updPos s x1 x2).partsOk = true := (State.updPos_okay _ _ _).go h

theorem State.stick_okay (s x1) : Okay s (State.stick s x1) := by
  exact ⟨fun h => h⟩

@[simp] theorem State.stick_parts (s x1) (h : s.partsOk = true) :
    (State.stick s x1).partsOk = true := (State.stick_okay _ _).go h

theorem State.at_okay (s x1) : Okay s (State.at s x1) := by
  exact ⟨fun h => h⟩

@[simp] theorem State.at_parts (s x1) (h : s.partsOk = true) :
    (State.at s x1).partsOk = true := (State.at_okay _ _).go h

theorem State.goto_okay (s x1) : Okay s (State.goto s x1) := by
  exact ⟨fun h => h⟩

@[simp] theorem State.goto_parts (s x1) (h : s.partsOk = true) :
    (State.goto s x1).partsOk = true := (State.goto_okay _ _).go h

theorem State.logEvent_okay (s x1) : Okay s (State.logEvent s x1) := by
  constructor; intro h; simp only [State.logEvent]; (repeat' split) <;> simp_all (maxDischargeDepth := 12)

@[simp] theorem State.logEvent_parts (s x1) (h : s.partsOk = true) :
    (State.logEvent s x1).partsOk = true := (State.logEvent_okay _ _).go h

theorem State.noteTrigger_okay (s x1) : Okay s (State.noteTrigger s x1) := by
  constructor; intro h; simp only [State.noteTrigger]; split <;> simp (maxDischargeDepth := 12) [h]

@[simp] theorem State.noteTrigger_parts (s x1) (h : s.partsOk = true) :
    (State.noteTrigger s x1).partsOk = true := (State.noteTrigger_okay _ _).go h

theorem State.raise_okay (s x1 x2 x3 x4 x5) : Okay s (State.raise s x1 x2 x3 x4 x5) := by
  constructor; intro h; simp only [State.raise]; split <;> simp (maxDischargeDepth := 12) [h]

@[simp] theorem State.raise_parts (s x1 x2 x3 x4 x5) (h : s.partsOk = true) :
    (State.raise s x1 x2 x3 x4 x5).partsOk = true := (State.raise_okay _ _ _ _ _ _).go h

theorem State.accessViolation_okay (s x1) : Okay s (State.accessViolation s x1) := by
  constructor; intro h; simp (maxDischargeDepth := 12) [State.accessViolation, h]

@[simp] theorem State.accessViolation_parts (s x1) (h : s.partsOk = true) :
    (State.accessViolation s x1).partsOk = true := (State.accessViolation_okay _ _).go h

theorem State.signal_okay (s x1) : Okay s (State.signal s x1) := by
  constructor; intro h; simp only [State.signal]; split <;> simp (maxDischargeDepth := 12) [h]

@[simp] theorem State.signal_parts (s x1) (h : s.partsOk = true) :
    (State.signal s x1).partsOk = true := (State.signal_okay _ _).go h

theorem State.withStage_okay (s x1) : Okay s (State.withStage s x1) := by
  exact ⟨fun h => h⟩

@[simp] theorem State.withStage_parts (s x1) (h : s.partsOk = true) :
    (State.withStage s x1).partsOk = true := (State.withStage_okay _ _).go h

theorem State.windowCompare_okay (s x1 x2) : Okay s (State.windowCompare s x1 x2) := by
  constructor; intro h; simp only [State.windowCompare]; (repeat' split) <;> simp_all (maxDischargeDepth := 12)

@[simp] theorem State.windowCompare_parts (s x1 x2) (h : s.partsOk = true) :
    (State.windowCompare s x1 x2).partsOk = true := (State.windowCompare_okay _ _ _).go h

theorem State.deliver_okay (s x1 x2 x3 x4 x5 x6 x7) : Okay s (State.deliver s x1 x2 x3 x4 x5 x6 x7) := by
  constructor; intro h; simp only [State.deliver]; split <;> simp (maxDischargeDepth := 12) [h]

@[simp] theorem State.deliver_parts (s x1 x2 x3 x4 x5 x6 x7) (h : s.partsOk = true) :
    (State.deliver s x1 x2 x3 x4 x5 x6 x7).partsOk = true := (State.deliver_okay _ _ _ _ _ _ _ _).go h

theorem State.refuse_okay (s x1 x2) : Okay s (State.refuse s x1 x2) := by
  constructor; intro h; simp only [State.refuse]; (repeat' split) <;> simp_all (maxDischargeDepth := 12)

@[simp] theorem State.refuse_parts (s x1 x2) (h : s.partsOk = true) :
    (State.refuse s x1 x2).partsOk = true := (State.refuse_okay _ _ _).go h

theorem State.startRegular_okay (s x1 x2) : Okay s (State.startRegular s x1 x2) := by
  constructor; intro h; simp only [State.startRegular]; (repeat' split) <;> simp_all (maxDischargeDepth := 12)

@[simp] theorem State.startRegular_parts (s x1 x2) (h : s.partsOk = true) :
    (State.startRegular s x1 x2).partsOk = true := (State.startRegular_okay _ _ _).go h

theorem State.startSlot0_okay (s x1 x2) : Okay s (State.startSlot0 s x1 x2) := by
  constructor; intro h; simp only [State.startSlot0]; split <;> simp (maxDischargeDepth := 12) [h]

@[simp] theorem State.startSlot0_parts (s x1 x2) (h : s.partsOk = true) :
    (State.startSlot0 s x1 x2).partsOk = true := (State.startSlot0_okay _ _ _).go h

theorem execRegularSequenceStart_parts (x0 s) : outOkay (execRegularSequenceStart x0 s) s := by
  simp only [execRegularSequenceStart]; (repeat' split) <;> simp (maxDischargeDepth := 12) +contextual

theorem execRegularSlotEnd_parts (x0 x1 s) : outOkay (execRegularSlotEnd x0 x1 s) s := by
  unfold execRegularSlotEnd; (repeat' split) <;> simp (maxDischargeDepth := 12) +contextual

theorem State.enqueue_okay (s x1 x2) : Okay s (State.enqueue s x1 x2) := by
  constructor; intro h; simp only [State.enqueue]; (repeat' split) <;> simp_all (maxDischargeDepth := 12) 

@[simp] theorem State.enqueue_parts (s x1 x2) (h : s.partsOk = true) :
    (State.enqueue s x1 x2).partsOk = true := (State.enqueue_okay _ _ _).go h

theorem execInjectedTrigger_parts (x0 x1 x2 s) : outOkay (execInjectedTrigger x0 x1 x2 s) s := by
  simp only [execInjectedTrigger]; (repeat' split) <;> simp (maxDischargeDepth := 12) +contextual

theorem execInjectedSequenceStart_parts (x0 s) : outOkay (execInjectedSequenceStart x0 s) s := by
  simp only [execInjectedSequenceStart]; (repeat' split) <;> simp (maxDischargeDepth := 12) +contextual

theorem State.injectedCode_okay (s x1 x2 x3 x4 x5) : Okay s (State.injectedCode s x1 x2 x3 x4 x5) := by
  constructor; intro h; simp only [State.injectedCode]; (repeat' split) <;> simp_all (maxDischargeDepth := 12) 

@[simp] theorem State.injectedCode_parts (s x1 x2 x3 x4 x5) (h : s.partsOk = true) :
    (State.injectedCode s x1 x2 x3 x4 x5).partsOk = true := (State.injectedCode_okay _ _ _ _ _ _).go h

theorem State.injectedCodes_okay (s : State) (x1 x2 x3 x4 x5 x6) : Okay s (s.injectedCodes x1 x2 x3 x4 x5 x6) := by
  induction x4 generalizing s x5 x6 with
  | nil => unfold State.injectedCodes; exact .refl s
  | cons k ks ih =>
    cases x5 with
    | nil => unfold State.injectedCodes; exact .refl s
    | cons r rs => unfold State.injectedCodes; exact Okay.trans (State.injectedCode_okay ..) (ih ..)

@[simp] theorem State.injectedCodes_parts (s x1 x2 x3 x4 x5 x6) (h : s.partsOk = true) :
    (State.injectedCodes s x1 x2 x3 x4 x5 x6).partsOk = true := (State.injectedCodes_okay _ _ _ _ _ _ _).go h

theorem execInjectedSequenceEnd_parts (x0 x1 s) : outOkay (execInjectedSequenceEnd x0 x1 s) s := by
  simp only [execInjectedSequenceEnd]; (repeat' split) <;> simp (maxDischargeDepth := 12) +contextual

theorem State.injectedEnded_okay (s x1 x2) : Okay s (State.injectedEnded s x1 x2) := by
  constructor; intro h; unfold State.injectedEnded; (repeat' split) <;> simp (maxDischargeDepth := 12) [h]

@[simp] theorem State.injectedEnded_parts (s x1 x2) (h : s.partsOk = true) :
    (State.injectedEnded s x1 x2).partsOk = true := (State.injectedEnded_okay _ _ _).go h

theorem State.latchInput_okay (s x1) : Okay s (State.latchInput s x1) := by
  constructor; intro h; simp (maxDischargeDepth := 12) [State.latchInput, h]

@[simp] theorem State.latchInput_parts (s x1) (h : s.partsOk = true) :
    (State.latchInput s x1).partsOk = true := (State.latchInput_okay _ _).go h

theorem State.evalPair_okay (s x1) : Okay s (State.evalPair s x1) := by
  constructor; intro h; simp only [State.evalPair]; (repeat' split) <;> simp_all (maxDischargeDepth := 12)

@[simp] theorem State.evalPair_parts (s x1) (h : s.partsOk = true) :
    (State.evalPair s x1).partsOk = true := (State.evalPair_okay _ _).go h

theorem State.lateSequence_okay (s x1) : Okay s (State.lateSequence s x1) := by
  constructor; intro h; simp only [State.lateSequence]; (repeat' split) <;> simp_all (maxDischargeDepth := 12)

@[simp] theorem State.lateSequence_parts (s x1) (h : s.partsOk = true) :
    (State.lateSequence s x1).partsOk = true := (State.lateSequence_okay _ _).go h

theorem State.formEval_okay (s) : Okay s (State.formEval s) := by
  constructor; intro h; simp only [State.formEval]; (repeat' split) <;> simp_all (maxDischargeDepth := 12) 

@[simp] theorem State.formEval_parts (s) (h : s.partsOk = true) :
    (State.formEval s).partsOk = true := (State.formEval_okay _).go h

theorem State.snapshot_okay (s : State) : Okay s s.snapshot := by
  unfold State.snapshot
  extract_lets s1 s2
  have h1 : Okay s s1 := Okay.trans (State.formEval_okay ..) (Okay.foldl _ (fun t a => State.evalPair_okay ..) _ _)
  have h2 : Okay s s2 := h1.trans (Okay.foldl _ (fun t a => State.latchInput_okay ..) _ _)
  exact h2.trans (Okay.foldl _ (fun t a => State.lateSequence_okay ..) _ _)

@[simp] theorem State.snapshot_parts (s) (h : s.partsOk = true) :
    (State.snapshot s).partsOk = true := (State.snapshot_okay _).go h

theorem execSeqEn_parts (x0 s) : outOkay (execSeqEn x0 s) s := by
  unfold execSeqEn; (repeat' split) <;> simp (maxDischargeDepth := 12) +contextual

theorem execRefEnable_parts (x0 s) : outOkay (execRefEnable x0 s) s := by
  simp only [execRefEnable]; (repeat' split) <;> simp (maxDischargeDepth := 12) +contextual

theorem execRefSettled_parts (s) : outOkay (execRefSettled s) s := by
  unfold execRefSettled; (repeat' split) <;> simp (maxDischargeDepth := 12) +contextual

theorem execRefDisable_parts (s) : outOkay (execRefDisable s) s := by
  unfold execRefDisable; (repeat' split) <;> simp (maxDischargeDepth := 12) +contextual

theorem State.startCal_okay (s x1 x2) : Okay s (State.startCal s x1 x2) := by
  constructor; intro h; simp only [State.startCal]; (repeat' split) <;> simp_all (maxDischargeDepth := 12)

@[simp] theorem State.startCal_parts (s x1 x2) (h : s.partsOk = true) :
    (State.startCal s x1 x2).partsOk = true := (State.startCal_okay _ _ _).go h

theorem State.endCal_okay (s x1 x2 x3) : Okay s (State.endCal s x1 x2 x3) := by
  constructor; intro h; simp only [State.endCal]; split <;> simp (maxDischargeDepth := 12) [h]

@[simp] theorem State.endCal_parts (s x1 x2 x3) (h : s.partsOk = true) :
    (State.endCal s x1 x2 x3).partsOk = true := (State.endCal_okay _ _ _ _).go h

theorem State.sensingMoved_okay (s : State) (x1) : Okay s (s.sensingMoved x1) := by
  unfold State.sensingMoved
  extract_lets s1 s2
  have h1 : Okay s s1 := Okay.foldl _ (fun t a => State.updConv_okay ..) _ _
  have h2 : Okay s s2 := h1.trans (Okay.foldl _ (fun t a => State.updInp_okay ..) _ _)
  clear_value s2
  exact h2.trans ⟨fun h => h⟩

@[simp] theorem State.sensingMoved_parts (s x1) (h : s.partsOk = true) :
    (State.sensingMoved s x1).partsOk = true := (State.sensingMoved_okay _ _).go h

theorem State.blankFrom_okay (s x1 x2) : Okay s (State.blankFrom s x1 x2) := by
  constructor; intro h; simp (maxDischargeDepth := 12) [State.blankFrom, h]

@[simp] theorem State.blankFrom_parts (s x1 x2) (h : s.partsOk = true) :
    (State.blankFrom s x1 x2).partsOk = true := (State.blankFrom_okay _ _ _).go h

theorem State.gateOn_okay (s x1 x2 x3) : Okay s (State.gateOn s x1 x2 x3) := by
  constructor; intro h; simp (maxDischargeDepth := 12) [State.gateOn, h]

@[simp] theorem State.gateOn_parts (s x1 x2 x3) (h : s.partsOk = true) :
    (State.gateOn s x1 x2 x3).partsOk = true := (State.gateOn_okay _ _ _ _).go h

theorem State.gateOff_okay (s x1 x2 x3) : Okay s (State.gateOff s x1 x2 x3) := by
  constructor; intro h; simp (maxDischargeDepth := 12) [State.gateOff, h]

@[simp] theorem State.gateOff_parts (s x1 x2 x3) (h : s.partsOk = true) :
    (State.gateOff s x1 x2 x3).partsOk = true := (State.gateOff_okay _ _ _ _).go h

theorem State.arm_okay (s x1 x2) : Okay s (State.arm s x1 x2) := by
  constructor; intro h; simp only [State.arm]; (repeat' split) <;> simp_all (maxDischargeDepth := 12)

@[simp] theorem State.arm_parts (s x1 x2) (h : s.partsOk = true) :
    (State.arm s x1 x2).partsOk = true := (State.arm_okay _ _ _).go h

theorem State.cmdOff_okay (s x1 x2) : Okay s (State.cmdOff s x1 x2) := by
  constructor; intro h; simp only [State.cmdOff]; (repeat' split) <;> simp_all (maxDischargeDepth := 12)

@[simp] theorem State.cmdOff_parts (s x1 x2) (h : s.partsOk = true) :
    (State.cmdOff s x1 x2).partsOk = true := (State.cmdOff_okay _ _ _).go h

theorem State.holdOff_okay (s x1 x2) : Okay s (State.holdOff s x1 x2) := by
  constructor; intro h; simp only [State.holdOff]; (repeat' split) <;> simp_all (maxDischargeDepth := 12)

@[simp] theorem State.holdOff_parts (s x1 x2) (h : s.partsOk = true) :
    (State.holdOff s x1 x2).partsOk = true := (State.holdOff_okay _ _ _).go h

theorem State.command_okay (s x1 x2 x3) : Okay s (State.command s x1 x2 x3) := by
  constructor; intro h; simp only [State.command]; split <;> simp (maxDischargeDepth := 12) [h]

@[simp] theorem State.command_parts (s x1 x2 x3) (h : s.partsOk = true) :
    (State.command s x1 x2 x3).partsOk = true := (State.command_okay _ _ _ _).go h

theorem State.settleGate_okay (s x1 x2) : Okay s (State.settleGate s x1 x2) := by
  constructor; intro h; unfold State.settleGate; (repeat' split) <;> simp (maxDischargeDepth := 12) [h]

@[simp] theorem State.settleGate_parts (s x1 x2) (h : s.partsOk = true) :
    (State.settleGate s x1 x2).partsOk = true := (State.settleGate_okay _ _ _).go h

theorem State.driveLeg_okay (s x1) : Okay s (State.driveLeg s x1) := by
  constructor; intro h; unfold State.driveLeg; (repeat' split) <;> simp (maxDischargeDepth := 12) [h]

@[simp] theorem State.driveLeg_parts (s x1) (h : s.partsOk = true) :
    (State.driveLeg s x1).partsOk = true := (State.driveLeg_okay _ _).go h

theorem State.drive_okay (s x1) : Okay s (State.drive s x1) := by
  constructor; intro h; simp only [State.drive]; split <;> simp (maxDischargeDepth := 12) [h]

@[simp] theorem State.drive_parts (s x1) (h : s.partsOk = true) :
    (State.drive s x1).partsOk = true := (State.drive_okay _ _).go h

theorem State.driveAll_okay (s x1) : Okay s (State.driveAll s x1) := by
  constructor; intro h; simp only [State.driveAll]; (repeat' split) <;> simp_all (maxDischargeDepth := 12)

@[simp] theorem State.driveAll_parts (s x1) (h : s.partsOk = true) :
    (State.driveAll s x1).partsOk = true := (State.driveAll_okay _ _).go h

theorem State.softOff_okay (s x1 x2) : Okay s (State.softOff s x1 x2) := by
  constructor; intro h; simp only [State.softOff]; split <;> simp (maxDischargeDepth := 12) [h]

@[simp] theorem State.softOff_parts (s x1 x2) (h : s.partsOk = true) :
    (State.softOff s x1 x2).partsOk = true := (State.softOff_okay _ _ _).go h

theorem State.softIfOff_okay (s x1 x2 x3) : Okay s (State.softIfOff s x1 x2 x3) := by
  constructor; intro h; simp only [State.softIfOff]; split <;> simp (maxDischargeDepth := 12) [h]

@[simp] theorem State.softIfOff_parts (s x1 x2 x3) (h : s.partsOk = true) :
    (State.softIfOff s x1 x2 x3).partsOk = true := (State.softIfOff_okay _ _ _ _).go h

theorem State.driveSoft_okay (s x1) : Okay s (State.driveSoft s x1) := by
  constructor; intro h; simp (maxDischargeDepth := 12) [State.driveSoft, h]

@[simp] theorem State.driveSoft_parts (s x1) (h : s.partsOk = true) :
    (State.driveSoft s x1).partsOk = true := (State.driveSoft_okay _ _).go h

theorem State.countTrip_okay (s x1) : Okay s (State.countTrip s x1) := by
  constructor; intro h; simp only [State.countTrip]; (repeat' split) <;> simp_all (maxDischargeDepth := 12)

@[simp] theorem State.countTrip_parts (s x1) (h : s.partsOk = true) :
    (State.countTrip s x1).partsOk = true := (State.countTrip_okay _ _).go h

theorem State.tripLeg_okay (s x1 x2) : Okay s (State.tripLeg s x1 x2) := by
  constructor; intro h; unfold State.tripLeg; (repeat' split) <;> simp (maxDischargeDepth := 12) [h]

@[simp] theorem State.tripLeg_parts (s x1 x2) (h : s.partsOk = true) :
    (State.tripLeg s x1 x2).partsOk = true := (State.tripLeg_okay _ _ _).go h

theorem State.ocAct_okay (s x1) : Okay s (State.ocAct s x1) := by
  constructor; intro h; simp only [State.ocAct]; split <;> simp (maxDischargeDepth := 12) [h]

@[simp] theorem State.ocAct_parts (s x1) (h : s.partsOk = true) :
    (State.ocAct s x1).partsOk = true := (State.ocAct_okay _ _).go h

theorem State.reportShort_okay (s x1) : Okay s (State.reportShort s x1) := by
  constructor; intro h; simp only [State.reportShort]; (repeat' split) <;> simp_all (maxDischargeDepth := 12)

@[simp] theorem State.reportShort_parts (s x1) (h : s.partsOk = true) :
    (State.reportShort s x1).partsOk = true := (State.reportShort_okay _ _).go h

theorem State.scAct_okay (s x1) : Okay s (State.scAct s x1) := by
  constructor; intro h; simp only [State.scAct]; (repeat' split) <;> simp_all (maxDischargeDepth := 12) 

@[simp] theorem State.scAct_parts (s x1) (h : s.partsOk = true) :
    (State.scAct s x1).partsOk = true := (State.scAct_okay _ _).go h

theorem State.lineAct_okay (s x1) : Okay s (State.lineAct s x1) := by
  constructor; intro h; simp only [State.lineAct]; (repeat' split) <;> simp_all (maxDischargeDepth := 12) 

@[simp] theorem State.lineAct_parts (s x1) (h : s.partsOk = true) :
    (State.lineAct s x1).partsOk = true := (State.lineAct_okay _ _).go h

theorem State.interlock_okay (s x1) : Okay s (State.interlock s x1) := by
  constructor; intro h; simp only [State.interlock]; (repeat' split) <;> simp_all (maxDischargeDepth := 12)

@[simp] theorem State.interlock_parts (s x1) (h : s.partsOk = true) :
    (State.interlock s x1).partsOk = true := (State.interlock_okay _ _).go h

theorem execPeriodStart_parts (x0 s) : outOkay (execPeriodStart x0 s) s := by
  simp only [execPeriodStart]; (repeat' split) <;> simp (maxDischargeDepth := 12) +contextual

theorem execSwitchingEdge_parts (x0 x1 s) : outOkay (execSwitchingEdge x0 x1 s) s := by
  unfold execSwitchingEdge; (repeat' split) <;> simp (maxDischargeDepth := 12) +contextual

theorem execGateOnEdge_parts (x0 x1 s) : outOkay (execGateOnEdge x0 x1 s) s := by
  simp only [execGateOnEdge]; (repeat' split) <;> simp (maxDischargeDepth := 12) +contextual

theorem execSoftOffPlateauEnd_parts (x0 x1 x2 s) : outOkay (execSoftOffPlateauEnd x0 x1 x2 s) s := by
  simp only [execSoftOffPlateauEnd]; (repeat' split) <;> simp (maxDischargeDepth := 12) +contextual

theorem State.assigned_okay (s x1 x2) : Okay s (State.assigned s x1 x2) := by
  constructor; intro h; simp (maxDischargeDepth := 12) [State.assigned, h]

@[simp] theorem State.assigned_parts (s x1 x2) (h : s.partsOk = true) :
    (State.assigned s x1 x2).partsOk = true := (State.assigned_okay _ _ _).go h

theorem execDirectWrite_parts (x0 x1 x2 x3 s) : outOkay (execDirectWrite x0 x1 x2 x3 s) s := by
  simp only [execDirectWrite]; (repeat' split) <;> simp (maxDischargeDepth := 12) +contextual

theorem execDirectCommit_parts (x0 x1 s) : outOkay (execDirectCommit x0 x1 s) s := by
  simp only [execDirectCommit]; (repeat' split) <;> simp (maxDischargeDepth := 12) +contextual

theorem State.moveSpan_okay (s : State) (x1 x2) : Okay s (s.moveSpan x1 x2) := by
  unfold State.moveSpan
  extract_lets step
  have h : Okay s ((x2.legs.foldl step (s, [], [])).1) :=
    Okay.foldl_on (fun b : State × List Nat × List Nat => b.1) step (fun b a => State.updLeg_okay ..) x2.legs (s, [], [])
  generalize x2.legs.foldl step (s, [], []) = r at *
  obtain ⟨t, per, unc⟩ := r
  refine h.trans ?_
  refine Okay.ite (State.raise_okay ..) (Okay.ite (State.raise_okay ..) (.refl _))

@[simp] theorem State.moveSpan_parts (s x1 x2) (h : s.partsOk = true) :
    (State.moveSpan s x1 x2).partsOk = true := (State.moveSpan_okay _ _ _).go h

theorem State.moveSets_okay (s x1 x2) : Okay s (State.moveSets s x1 x2) := by
  constructor; intro h; simp only [State.moveSets]; (repeat' split) <;> simp_all (maxDischargeDepth := 12) 

@[simp] theorem State.moveSets_parts (s x1 x2) (h : s.partsOk = true) :
    (State.moveSets s x1 x2).partsOk = true := (State.moveSets_okay _ _ _).go h

theorem State.latchPatterns_okay (s x1) : Okay s (State.latchPatterns s x1) := by
  constructor; intro h; simp (maxDischargeDepth := 12) [State.latchPatterns, h]

@[simp] theorem State.latchPatterns_parts (s x1) (h : s.partsOk = true) :
    (State.latchPatterns s x1).partsOk = true := (State.latchPatterns_okay _ _).go h

theorem State.syncCheck_okay (s : State) (x1 x2) : Okay s (s.syncCheck x1 x2) := by
  unfold State.syncCheck
  extract_lets fails t
  have h : Okay s t := by
    refine Okay.foldl _ (fun t l => ?_) _ _
    dsimp only
    refine Okay.ite (Okay.trans (State.updLeg_okay ..) (State.raise_okay ..)) (Okay.ite (.refl _) (State.updLeg_okay ..))
  exact h.trans (Okay.same rfl rfl rfl rfl rfl rfl rfl rfl)

@[simp] theorem State.syncCheck_parts (s x1 x2) (h : s.partsOk = true) :
    (State.syncCheck s x1 x2).partsOk = true := (State.syncCheck_okay _ _ _).go h

theorem State.boundaryLegs_okay (s x1) : Okay s (State.boundaryLegs s x1) := by
  constructor; intro h; simp (maxDischargeDepth := 12) [State.boundaryLegs, h]

@[simp] theorem State.boundaryLegs_parts (s x1) (h : s.partsOk = true) :
    (State.boundaryLegs s x1).partsOk = true := (State.boundaryLegs_okay _ _).go h

theorem State.capture_okay (s : State) (x1 x2) : Okay s (s.capture x1 x2) := by
  unfold State.capture
  extract_lets q b amp trk exc newA newT newE s1 addr s2 s3 s4
  have h1 : Okay s s1 := State.updPos_okay ..
  have h2 : Okay s s2 := h1.trans (Okay.ite (State.stick_okay ..) (.refl _))
  have h3 : Okay s s3 := h2.trans (Okay.ite (State.raise_okay ..) (.refl _))
  have h4 : Okay s s4 := h3.trans (Okay.ite (State.raise_okay ..) (.refl _))
  exact h4.trans (Okay.ite (State.raise_okay ..) (.refl _))

@[simp] theorem State.capture_parts (s x1 x2) (h : s.partsOk = true) :
    (State.capture s x1 x2).partsOk = true := (State.capture_okay _ _ _).go h

theorem execCarrierCentre_parts (x0 x1 s) : outOkay (execCarrierCentre x0 x1 s) s := by
  simp only [execCarrierCentre]; (repeat' split) <;> simp (maxDischargeDepth := 12) +contextual

theorem State.tracSafe_okay (s x1 x2) : Okay s (State.tracSafe s x1 x2) := by
  exact ⟨fun h => h⟩

@[simp] theorem State.tracSafe_parts (s x1 x2) (h : s.partsOk = true) :
    (State.tracSafe s x1 x2).partsOk = true := (State.tracSafe_okay _ _ _).go h

theorem execTorquePeakExhaust_parts (x0 s) : outOkay (execTorquePeakExhaust x0 s) s := by
  simp only [execTorquePeakExhaust]; (repeat' split) <;> simp (maxDischargeDepth := 12) +contextual

theorem execDipEnd_parts (x0 s) : outOkay (execDipEnd x0 s) s := by
  simp (maxDischargeDepth := 12) +contextual [execDipEnd]

theorem execAscExitNoAngle_parts (x0 s) : outOkay (execAscExitNoAngle x0 s) s := by
  simp only [execAscExitNoAngle]; (repeat' split) <;> simp (maxDischargeDepth := 12) +contextual

theorem State.tracMode_okay (x0 x1 x2 s) : Okay s (State.tracMode x0 x1 x2 s).2 := by
  constructor; intro h; simp only [State.tracMode]; split <;> simp (maxDischargeDepth := 12) [h]

@[simp] theorem State.tracMode_parts (x0 x1 x2 s) (h : s.partsOk = true) :
    (State.tracMode x0 x1 x2 s).2.partsOk = true := (State.tracMode_okay _ _ _ _).go h

theorem State.tqTarget_okay (x0 x1 s) : Okay s (State.tqTarget x0 x1 s).2 := by
  constructor; intro h; simp only [State.tqTarget]; split <;> simp (maxDischargeDepth := 12) [h]

@[simp] theorem State.tqTarget_parts (x0 x1 s) (h : s.partsOk = true) :
    (State.tqTarget x0 x1 s).2.partsOk = true := (State.tqTarget_okay _ _ _).go h

theorem State.spdTargetCmd_okay (x0 x1 s) : Okay s (State.spdTargetCmd x0 x1 s).2 := by
  constructor; intro h; simp only [State.spdTargetCmd]; split <;> simp (maxDischargeDepth := 12) [h]

@[simp] theorem State.spdTargetCmd_parts (x0 x1 s) (h : s.partsOk = true) :
    (State.spdTargetCmd x0 x1 s).2.partsOk = true := (State.spdTargetCmd_okay _ _ _).go h

theorem State.posRearmCmd_okay (x0 s) : Okay s (State.posRearmCmd x0 s).2 := by
  constructor; intro h; simp only [State.posRearmCmd]; split <;> simp (maxDischargeDepth := 12) [h]

@[simp] theorem State.posRearmCmd_parts (x0 s) (h : s.partsOk = true) :
    (State.posRearmCmd x0 s).2.partsOk = true := (State.posRearmCmd_okay _ _).go h

theorem State.tracDip_okay (x0 x1 x2 s) : Okay s (State.tracDip x0 x1 x2 s) := by
  exact ⟨fun h => h⟩

@[simp] theorem State.tracDip_parts (x0 x1 x2 s) (h : s.partsOk = true) :
    (State.tracDip x0 x1 x2 s).partsOk = true := (State.tracDip_okay _ _ _ _).go h

theorem execSenseFaultClear_parts (s) : outOkay (execSenseFaultClear s) s := by
  simp (maxDischargeDepth := 12) +contextual [execSenseFaultClear]

theorem State.cSafe_okay (s x1) : Okay s (State.cSafe s x1) := by
  exact ⟨fun h => h⟩

@[simp] theorem State.cSafe_parts (s x1) (h : s.partsOk = true) :
    (State.cSafe s x1).partsOk = true := (State.cSafe_okay _ _).go h

theorem State.cBypassExit_okay (s) : Okay s (State.cBypassExit s) := by
  constructor; intro h; simp only [State.cBypassExit]; split <;> simp (maxDischargeDepth := 12) [h]

@[simp] theorem State.cBypassExit_parts (s) (h : s.partsOk = true) :
    (State.cBypassExit s).partsOk = true := (State.cBypassExit_okay _).go h

theorem State.cMode_okay (x0 x1 s) : Okay s (State.cMode x0 x1 s).2 := by
  constructor; intro h; simp only [State.cMode]; split <;> simp (maxDischargeDepth := 12) [h]

@[simp] theorem State.cMode_parts (x0 x1 s) (h : s.partsOk = true) :
    (State.cMode x0 x1 s).2.partsOk = true := (State.cMode_okay _ _ _).go h

theorem State.cVtgtCmd_okay (x0 s) : Okay s (State.cVtgtCmd x0 s).2 := by
  constructor; intro h; simp only [State.cVtgtCmd]; split <;> simp (maxDischargeDepth := 12) [h]

@[simp] theorem State.cVtgtCmd_parts (x0 s) (h : s.partsOk = true) :
    (State.cVtgtCmd x0 s).2.partsOk = true := (State.cVtgtCmd_okay _ _).go h

theorem State.cItgtCmd_okay (x0 s) : Okay s (State.cItgtCmd x0 s).2 := by
  constructor; intro h; simp only [State.cItgtCmd]; split <;> simp (maxDischargeDepth := 12) [h]

@[simp] theorem State.cItgtCmd_parts (x0 s) (h : s.partsOk = true) :
    (State.cItgtCmd x0 s).2.partsOk = true := (State.cItgtCmd_okay _ _).go h

theorem State.cSetPhases_okay (x0 s) : Okay s (State.cSetPhases x0 s) := by
  constructor; intro h; simp only [State.cSetPhases]; split <;> simp (maxDischargeDepth := 12) [h]

@[simp] theorem State.cSetPhases_parts (x0 s) (h : s.partsOk = true) :
    (State.cSetPhases x0 s).partsOk = true := (State.cSetPhases_okay _ _).go h

theorem State.cPhasesCmd_okay (x0 s) : Okay s (State.cPhasesCmd x0 s).2 := by
  constructor; intro h; simp only [State.cPhasesCmd]; split <;> simp (maxDischargeDepth := 12) [h]

@[simp] theorem State.cPhasesCmd_parts (x0 s) (h : s.partsOk = true) :
    (State.cPhasesCmd x0 s).2.partsOk = true := (State.cPhasesCmd_okay _ _).go h

theorem State.cCrowbarCmd_okay (s) : Okay s (State.cCrowbarCmd s).2 := by
  constructor; intro h; unfold State.cCrowbarCmd; (repeat' split) <;> simp (maxDischargeDepth := 12) [h]

@[simp] theorem State.cCrowbarCmd_parts (s) (h : s.partsOk = true) :
    (State.cCrowbarCmd s).2.partsOk = true := (State.cCrowbarCmd_okay _).go h

theorem State.qSafe_okay (s x1) : Okay s (State.qSafe s x1) := by
  exact ⟨fun h => h⟩

@[simp] theorem State.qSafe_parts (s x1) (h : s.partsOk = true) :
    (State.qSafe s x1).partsOk = true := (State.qSafe_okay _ _).go h

theorem State.qPilotExit_okay (s) : Okay s (State.qPilotExit s) := by
  constructor; intro h; simp only [State.qPilotExit]; split <;> simp (maxDischargeDepth := 12) [h]

@[simp] theorem State.qPilotExit_parts (s) (h : s.partsOk = true) :
    (State.qPilotExit s).partsOk = true := (State.qPilotExit_okay _).go h

theorem State.qMode_okay (x0 x1 x2 s) : Okay s (State.qMode x0 x1 x2 s).2 := by
  constructor; intro h; simp only [State.qMode]; split <;> simp (maxDischargeDepth := 12) [h]

@[simp] theorem State.qMode_parts (x0 x1 x2 s) (h : s.partsOk = true) :
    (State.qMode x0 x1 x2 s).2.partsOk = true := (State.qMode_okay _ _ _ _).go h

theorem State.qPowerCmd_okay (x0 x1 s) : Okay s (State.qPowerCmd x0 x1 s).2 := by
  constructor; intro h; simp only [State.qPowerCmd]; (repeat' split) <;> simp_all (maxDischargeDepth := 12)

@[simp] theorem State.qPowerCmd_parts (x0 x1 s) (h : s.partsOk = true) :
    (State.qPowerCmd x0 x1 s).2.partsOk = true := (State.qPowerCmd_okay _ _ _).go h

theorem execPilotCycle_parts (x0 s) : outOkay (execPilotCycle x0 s) s := by
  simp only [execPilotCycle]; (repeat' split) <;> simp (maxDischargeDepth := 12) +contextual

theorem State.sampleContactor_okay (s x1 x2) : Okay s (State.sampleContactor s x1 x2) := by
  exact ⟨fun h => h⟩

@[simp] theorem State.sampleContactor_parts (s x1 x2) (h : s.partsOk = true) :
    (State.sampleContactor s x1 x2).partsOk = true := (State.sampleContactor_okay _ _ _).go h

theorem execKacFbTimeout_parts (x0 s) : outOkay (execKacFbTimeout x0 s) s := by
  simp only [execKacFbTimeout]; (repeat' split) <;> simp (maxDischargeDepth := 12) +contextual

theorem execKAcOutFault_parts (s) : outOkay (execKAcOutFault s) s := by
  unfold execKAcOutFault; (repeat' split) <;> simp (maxDischargeDepth := 12) +contextual

theorem State.thetaInit_okay (s) : Okay s (State.thetaInit s) := by
  exact ⟨fun h => h⟩

@[simp] theorem State.thetaInit_parts (s) (h : s.partsOk = true) :
    (State.thetaInit s).partsOk = true := (State.thetaInit_okay _).go h

theorem execBrakePeakExhaust_parts (s) : outOkay (execBrakePeakExhaust s) s := by
  simp only [execBrakePeakExhaust]; (repeat' split) <;> simp (maxDischargeDepth := 12) +contextual

theorem State.bSafe_okay (s x1) : Okay s (State.bSafe s x1) := by
  exact ⟨fun h => h⟩

@[simp] theorem State.bSafe_parts (s x1) (h : s.partsOk = true) :
    (State.bSafe s x1).partsOk = true := (State.bSafe_okay _ _).go h

theorem State.bMode_okay (x0 s) : Okay s (State.bMode x0 s).2 := by
  constructor; intro h; simp only [State.bMode]; split <;> simp (maxDischargeDepth := 12) [h]

@[simp] theorem State.bMode_parts (x0 s) (h : s.partsOk = true) :
    (State.bMode x0 s).2.partsOk = true := (State.bMode_okay _ _).go h

theorem State.stageDone_okay (s x1 x2 x3) : Okay s (State.stageDone s x1 x2 x3) := by
  exact ⟨fun h => h⟩

@[simp] theorem State.stageDone_parts (s x1 x2 x3) (h : s.partsOk = true) :
    (State.stageDone s x1 x2 x3).partsOk = true := (State.stageDone_okay _ _ _ _).go h

theorem State.deckDone_okay (s x1 x2 x3) : Okay s (State.deckDone s x1 x2 x3) := by
  exact ⟨fun h => h⟩

@[simp] theorem State.deckDone_parts (s x1 x2 x3) (h : s.partsOk = true) :
    (State.deckDone s x1 x2 x3).partsOk = true := (State.deckDone_okay _ _ _ _).go h

theorem execShiftTimeout_parts (x0 s) : outOkay (execShiftTimeout x0 s) s := by
  simp only [execShiftTimeout]; (repeat' split) <;> simp (maxDischargeDepth := 12) +contextual

theorem execHomeTimeout_parts (x0 s) : outOkay (execHomeTimeout x0 s) s := by
  simp only [execHomeTimeout]; (repeat' split) <;> simp (maxDischargeDepth := 12) +contextual

theorem State.aScan_okay (s x1) : Okay s (State.aScan s x1) := by
  constructor; intro h; simp only [State.aScan]; split <;> simp (maxDischargeDepth := 12) [h]

@[simp] theorem State.aScan_parts (s x1) (h : s.partsOk = true) :
    (State.aScan s x1).partsOk = true := (State.aScan_okay _ _).go h

theorem State.aOps_okay (s x1) : Okay s (State.aOps s x1) := by
  constructor; intro h; simp only [State.aOps]; (repeat' split) <;> simp_all (maxDischargeDepth := 12)

@[simp] theorem State.aOps_parts (s x1) (h : s.partsOk = true) :
    (State.aOps s x1).partsOk = true := (State.aOps_okay _ _).go h

theorem execActuatorPeakExhaust_parts (x0 s) : outOkay (execActuatorPeakExhaust x0 s) s := by
  simp only [execActuatorPeakExhaust]; (repeat' split) <;> simp (maxDischargeDepth := 12) +contextual

theorem State.aSafe_okay (s x1 x2) : Okay s (State.aSafe s x1 x2) := by
  exact ⟨fun h => h⟩

@[simp] theorem State.aSafe_parts (s x1 x2) (h : s.partsOk = true) :
    (State.aSafe s x1 x2).partsOk = true := (State.aSafe_okay _ _ _).go h

theorem State.aMode_okay (x0 x1 s) : Okay s (State.aMode x0 x1 s).2 := by
  constructor; intro h; simp only [State.aMode]; split <;> simp (maxDischargeDepth := 12) [h]

@[simp] theorem State.aMode_parts (x0 x1 s) (h : s.partsOk = true) :
    (State.aMode x0 x1 s).2.partsOk = true := (State.aMode_okay _ _ _).go h

theorem State.aTo_okay (s x1 x2) : Okay s (State.aTo s x1 x2).2 := by
  constructor; intro h; unfold State.aTo; (repeat' split) <;> simp (maxDischargeDepth := 12) [h]

@[simp] theorem State.aTo_parts (s x1 x2) (h : s.partsOk = true) :
    (State.aTo s x1 x2).2.partsOk = true := (State.aTo_okay _ _ _).go h

theorem State.aHoldCmd_okay (x0 x1 x2 s) : Okay s (State.aHoldCmd x0 x1 x2 s).2 := by
  constructor; intro h; simp only [State.aHoldCmd]; (repeat' split) <;> simp_all (maxDischargeDepth := 12)

@[simp] theorem State.aHoldCmd_parts (x0 x1 x2 s) (h : s.partsOk = true) :
    (State.aHoldCmd x0 x1 x2 s).2.partsOk = true := (State.aHoldCmd_okay _ _ _ _).go h

theorem State.aHoldHere_okay (x0 s) : Okay s (State.aHoldHere x0 s).2 := by
  constructor; intro h; simp only [State.aHoldHere]; (repeat' split) <;> simp_all (maxDischargeDepth := 12)

@[simp] theorem State.aHoldHere_parts (x0 s) (h : s.partsOk = true) :
    (State.aHoldHere x0 s).2.partsOk = true := (State.aHoldHere_okay _ _).go h

theorem State.aStart_okay (x0 x1 x2 x3 x4 s) : Okay s (State.aStart x0 x1 x2 x3 x4 s).2 := by
  constructor; intro h; simp only [State.aStart]; (repeat' split) <;> simp_all (maxDischargeDepth := 12)

@[simp] theorem State.aStart_parts (x0 x1 x2 x3 x4 s) (h : s.partsOk = true) :
    (State.aStart x0 x1 x2 x3 x4 s).2.partsOk = true := (State.aStart_okay _ _ _ _ _ _).go h

theorem State.aShiftCmd_okay (x0 x1 x2 x3 s) : Okay s (State.aShiftCmd x0 x1 x2 x3 s).2 := by
  constructor; intro h; unfold State.aShiftCmd; (repeat' split) <;> simp (maxDischargeDepth := 12) [h]

@[simp] theorem State.aShiftCmd_parts (x0 x1 x2 x3 s) (h : s.partsOk = true) :
    (State.aShiftCmd x0 x1 x2 x3 s).2.partsOk = true := (State.aShiftCmd_okay _ _ _ _ _).go h

theorem State.aParkCmd_okay (x0 x1 x2 s) : Okay s (State.aParkCmd x0 x1 x2 s).2 := by
  constructor; intro h; unfold State.aParkCmd; (repeat' split) <;> simp (maxDischargeDepth := 12) [h]

@[simp] theorem State.aParkCmd_parts (x0 x1 x2 s) (h : s.partsOk = true) :
    (State.aParkCmd x0 x1 x2 s).2.partsOk = true := (State.aParkCmd_okay _ _ _ _).go h

theorem State.aReleaseCmd_okay (x0 x1 x2 s) : Okay s (State.aReleaseCmd x0 x1 x2 s).2 := by
  constructor; intro h; unfold State.aReleaseCmd; (repeat' split) <;> simp (maxDischargeDepth := 12) [h]

@[simp] theorem State.aReleaseCmd_parts (x0 x1 x2 s) (h : s.partsOk = true) :
    (State.aReleaseCmd x0 x1 x2 s).2.partsOk = true := (State.aReleaseCmd_okay _ _ _ _).go h

theorem State.aCurrentCmd_okay (x0 x1 s) : Okay s (State.aCurrentCmd x0 x1 s).2 := by
  constructor; intro h; simp only [State.aCurrentCmd]; split <;> simp (maxDischargeDepth := 12) [h]

@[simp] theorem State.aCurrentCmd_parts (x0 x1 s) (h : s.partsOk = true) :
    (State.aCurrentCmd x0 x1 s).2.partsOk = true := (State.aCurrentCmd_okay _ _ _).go h

theorem State.aHomeCmd_okay (x0 x1 x2 s) : Okay s (State.aHomeCmd x0 x1 x2 s).2 := by
  constructor; intro h; simp only [State.aHomeCmd]; (repeat' split) <;> simp_all (maxDischargeDepth := 12)

@[simp] theorem State.aHomeCmd_parts (x0 x1 x2 s) (h : s.partsOk = true) :
    (State.aHomeCmd x0 x1 x2 s).2.partsOk = true := (State.aHomeCmd_okay _ _ _ _).go h

theorem State.aRearmCmd_okay (x0 s) : Okay s (State.aRearmCmd x0 s).2 := by
  constructor; intro h; simp only [State.aRearmCmd]; split <;> simp (maxDischargeDepth := 12) [h]

@[simp] theorem State.aRearmCmd_parts (x0 s) (h : s.partsOk = true) :
    (State.aRearmCmd x0 s).2.partsOk = true := (State.aRearmCmd_okay _ _).go h

end Sys2Proof.Machine
end

