-- ==== Sys2Proof/Laws/PartsUnits.lean ====
section
/-! SUPPORT. One lemma per operation and command: Parapet, MRAM, Pylon, Trestle, ports, registers and Keystone keep the sparse stores of the held registers and the parts canonical. -/
namespace Sys2Proof.Machine
set_option linter.all false

theorem execOcLineAssert_parts (x0 x1 s) : outOkay (execOcLineAssert x0 x1 s) s := by
  simp only [execOcLineAssert]; (repeat' split) <;> simp (maxDischargeDepth := 12) +contextual

theorem execBlankWindowEnd_parts (x0 x1 s) : outOkay (execBlankWindowEnd x0 x1 s) s := by
  simp only [execBlankWindowEnd]; (repeat' split) <;> simp (maxDischargeDepth := 12) +contextual

theorem execScLineAssert_parts (x0 x1 s) : outOkay (execScLineAssert x0 x1 s) s := by
  unfold execScLineAssert; (repeat' split) <;> simp (maxDischargeDepth := 12) +contextual

theorem State.desat_okay (s x1 x2) : Okay s (State.desat s x1 x2) := by
  constructor; intro h; simp only [State.desat]; (repeat' split) <;> simp_all (maxDischargeDepth := 12)

@[simp] theorem State.desat_parts (s x1 x2) (h : s.partsOk = true) :
    (State.desat s x1 x2).partsOk = true := (State.desat_okay _ _ _).go h

theorem execDesatDetect_parts (x0 x1 x2 s) : outOkay (execDesatDetect x0 x1 x2 s) s := by
  simp (maxDischargeDepth := 12) +contextual [execDesatDetect]

theorem execDesatBlankEnd_parts (x0 x1 x2 x3 s) : outOkay (execDesatBlankEnd x0 x1 x2 x3 s) s := by
  simp only [execDesatBlankEnd]; (repeat' split) <;> simp (maxDischargeDepth := 12) +contextual

theorem execUvloTrip_parts (x0 x1 x2 s) : outOkay (execUvloTrip x0 x1 x2 s) s := by
  simp only [execUvloTrip]; (repeat' split) <;> simp (maxDischargeDepth := 12) +contextual

theorem execUvloRecover_parts (x0 s) : outOkay (execUvloRecover x0 s) s := by
  unfold execUvloRecover; (repeat' split) <;> simp (maxDischargeDepth := 12) +contextual

theorem State.uvBoundary_okay (s) : Okay s (State.uvBoundary s) := by
  constructor; intro h; simp (maxDischargeDepth := 12) [State.uvBoundary, h]

@[simp] theorem State.uvBoundary_parts (s) (h : s.partsOk = true) :
    (State.uvBoundary s).partsOk = true := (State.uvBoundary_okay _).go h

theorem State.hvSupplyLost_okay (s) : Okay s (State.hvSupplyLost s) := by
  constructor; intro h; simp (maxDischargeDepth := 12) [State.hvSupplyLost, h]

@[simp] theorem State.hvSupplyLost_parts (s) (h : s.partsOk = true) :
    (State.hvSupplyLost s).partsOk = true := (State.hvSupplyLost_okay _).go h

theorem execBootstrapUvloTimeout_parts (x0 x1 s) : outOkay (execBootstrapUvloTimeout x0 x1 s) s := by
  simp only [execBootstrapUvloTimeout]; (repeat' split) <;> simp (maxDischargeDepth := 12) +contextual

theorem execLinkOvTrip_parts (x0 x1 s) : outOkay (execLinkOvTrip x0 x1 s) s := by
  simp (maxDischargeDepth := 12) +contextual [execLinkOvTrip]

theorem execCOvTrip_parts (x0 x1 s) : outOkay (execCOvTrip x0 x1 s) s := by
  simp (maxDischargeDepth := 12) +contextual [execCOvTrip]

theorem execZcdDetect_parts (x0 x1 s) : outOkay (execZcdDetect x0 x1 s) s := by
  simp only [execZcdDetect]; (repeat' split) <;> simp (maxDischargeDepth := 12) +contextual

theorem execOvershootTruncate_parts (x0 s) : outOkay (execOvershootTruncate x0 s) s := by
  simp only [execOvershootTruncate]; (repeat' split) <;> simp (maxDischargeDepth := 12) +contextual

theorem State.markUnprotected_okay (s x1 x2) : Okay s (State.markUnprotected s x1 x2) := by
  constructor; intro h; simp (maxDischargeDepth := 12) [State.markUnprotected, h]

@[simp] theorem State.markUnprotected_parts (s x1 x2) (h : s.partsOk = true) :
    (State.markUnprotected s x1 x2).partsOk = true := (State.markUnprotected_okay _ _ _).go h

theorem State.testResult_okay (s x1 x2 x3) : Okay s (State.testResult s x1 x2 x3) := by
  constructor; intro h; simp only [State.testResult]; split <;> simp (maxDischargeDepth := 12) [h]

@[simp] theorem State.testResult_parts (s x1 x2 x3) (h : s.partsOk = true) :
    (State.testResult s x1 x2 x3).partsOk = true := (State.testResult_okay _ _ _ _).go h

theorem execComparatorTest_parts (x0 x1 x2 s) : outOkay (execComparatorTest x0 x1 x2 s) s := by
  simp only [execComparatorTest]; (repeat' split) <;> simp (maxDischargeDepth := 12) +contextual

theorem execTestRoundEnd_parts (s : State) : outOkay (execTestRoundEnd s) s := by
  unfold execTestRoundEnd
  extract_lets s1
  have h : Okay s s1 := by
    refine Okay.foldl _ (fun t l => ?_) _ _
    dsimp only
    refine Okay.trans (t := if (legComparators l).all (fun k => (t.leg l).tested.contains k) then t
        else (t.updLeg l (fun g => { g with testOverdue := true })).raise 15 (t.legAddr l) 0 0 0) ?_ (Okay.ite (.refl _) (State.updLeg_okay ..))
    exact Okay.ite (.refl _) (Okay.trans (State.updLeg_okay ..) (State.raise_okay ..))
  clear_value s1
  split
  · exact Okay.trans h (Okay.same rfl rfl rfl rfl rfl rfl rfl rfl)
  · exact Okay.refl s

theorem execTestAgeOverdue_parts (x0 s) : outOkay (execTestAgeOverdue x0 s) s := by
  simp only [execTestAgeOverdue]; (repeat' split) <;> simp (maxDischargeDepth := 12) +contextual

theorem State.commandedTest_okay (s x1 x2) : Okay s (State.commandedTest s x1 x2) := by
  constructor; intro h; simp only [State.commandedTest]; split <;> simp (maxDischargeDepth := 12) [h]

@[simp] theorem State.commandedTest_parts (s x1 x2) (h : s.partsOk = true) :
    (State.commandedTest s x1 x2).partsOk = true := (State.commandedTest_okay _ _ _).go h

theorem State.commandedDeckTest_okay (s x1) : Okay s (State.commandedDeckTest s x1) := by
  constructor; intro h; simp only [State.commandedDeckTest]; (repeat' split) <;> simp_all (maxDischargeDepth := 12)

@[simp] theorem State.commandedDeckTest_parts (s x1) (h : s.partsOk = true) :
    (State.commandedDeckTest s x1).partsOk = true := (State.commandedDeckTest_okay _ _).go h

theorem State.dtUpset_okay (s x1) : Okay s (State.dtUpset s x1) := by
  constructor; intro h; simp only [State.dtUpset]; (repeat' split) <;> simp_all (maxDischargeDepth := 12)

@[simp] theorem State.dtUpset_parts (s x1) (h : s.partsOk = true) :
    (State.dtUpset s x1).partsOk = true := (State.dtUpset_okay _ _).go h

theorem State.dtReadback_okay (s x1) : Okay s (State.dtReadback s x1) := by
  constructor; intro h; simp only [State.dtReadback]; (repeat' split) <;> simp_all (maxDischargeDepth := 12)

@[simp] theorem State.dtReadback_parts (s x1) (h : s.partsOk = true) :
    (State.dtReadback s x1).partsOk = true := (State.dtReadback_okay _ _).go h

theorem State.dtBoundary_okay (s) : Okay s (State.dtBoundary s).1 := by
  constructor; intro h; simp only [State.dtBoundary]; (repeat' split) <;> simp_all (maxDischargeDepth := 12)

@[simp] theorem State.dtBoundary_parts (s) (h : s.partsOk = true) :
    (State.dtBoundary s).1.partsOk = true := (State.dtBoundary_okay _).go h

theorem State.hallCount_okay (s x1 x2) : Okay s (State.hallCount s x1 x2) := by
  constructor; intro h; simp only [State.hallCount]; split <;> simp (maxDischargeDepth := 12) [h]

@[simp] theorem State.hallCount_parts (s x1 x2) (h : s.partsOk = true) :
    (State.hallCount s x1 x2).partsOk = true := (State.hallCount_okay _ _ _).go h

theorem execHallStateChange_parts (x0 x1 x2 s) : outOkay (execHallStateChange x0 x1 x2 s) s := by
  simp only [execHallStateChange]; (repeat' split) <;> simp (maxDischargeDepth := 12) +contextual

theorem State.hallBoundary_okay (s) : Okay s (State.hallBoundary s) := by
  unfold State.hallBoundary
  exact Okay.foldl _ (fun t m => State.updHall_okay ..) _ _

@[simp] theorem State.hallBoundary_parts (s) (h : s.partsOk = true) :
    (State.hallBoundary s).partsOk = true := (State.hallBoundary_okay _).go h

theorem State.loseClock_okay (s x1) : Okay s (State.loseClock s x1) := by
  constructor; intro h; simp only [State.loseClock]; split <;> simp (maxDischargeDepth := 12) [h]

@[simp] theorem State.loseClock_parts (s x1) (h : s.partsOk = true) :
    (State.loseClock s x1).partsOk = true := (State.loseClock_okay _ _).go h

theorem execClockFail_parts (x0 x1 s) : outOkay (execClockFail x0 x1 s) s := by
  simp (maxDischargeDepth := 12) +contextual [execClockFail]

theorem execDebugHalt_parts (x0 s) : outOkay (execDebugHalt x0 s) s := by
  simp (maxDischargeDepth := 12) +contextual [execDebugHalt]

theorem State.jobDone_okay (s x1 x2 x3) : Okay s (State.jobDone s x1 x2 x3) := by
  constructor; intro h; simp only [State.jobDone]; split <;> simp (maxDischargeDepth := 12) [h]

@[simp] theorem State.jobDone_parts (s x1 x2 x3) (h : s.partsOk = true) :
    (State.jobDone s x1 x2 x3).partsOk = true := (State.jobDone_okay _ _ _ _).go h

theorem State.jobFault_okay (s) : Okay s (State.jobFault s) := by
  constructor; intro h; simp (maxDischargeDepth := 12) [State.jobFault, h]

@[simp] theorem State.jobFault_parts (s) (h : s.partsOk = true) :
    (State.jobFault s).partsOk = true := (State.jobFault_okay _).go h

theorem State.charterInForce_okay (s x1) : Okay s (State.charterInForce s x1) := by
  constructor; intro h; simp only [State.charterInForce]; (repeat' split) <;> simp_all (maxDischargeDepth := 12)

@[simp] theorem State.charterInForce_parts (s x1) (h : s.partsOk = true) :
    (State.charterInForce s x1).partsOk = true := (State.charterInForce_okay _ _).go h

theorem execCharter_parts (x0 x1 s) : outOkay (execCharter x0 x1 s) s := by
  simp only [execCharter]; (repeat' split) <;> simp (maxDischargeDepth := 12) +contextual

theorem execCharterChangeLands_parts (s) : outOkay (execCharterChangeLands s) s := by
  simp only [execCharterChangeLands]; (repeat' split) <;> simp (maxDischargeDepth := 12) +contextual

theorem State.landTrims_okay (s x1) : Okay s (State.landTrims s x1) := by
  constructor; intro h; simp only [State.landTrims]; (repeat' split) <;> simp_all (maxDischargeDepth := 12)

@[simp] theorem State.landTrims_parts (s x1) (h : s.partsOk = true) :
    (State.landTrims s x1).partsOk = true := (State.landTrims_okay _ _).go h

theorem execCalWrite_parts (x0 s) : outOkay (execCalWrite x0 s) s := by
  simp only [execCalWrite]; (repeat' split) <;> simp (maxDischargeDepth := 12) +contextual

theorem State.calOverwritten_okay (s) : Okay s (State.calOverwritten s) := by
  exact ⟨fun h => h⟩

@[simp] theorem State.calOverwritten_parts (s) (h : s.partsOk = true) :
    (State.calOverwritten s).partsOk = true := (State.calOverwritten_okay _).go h

theorem execCalSetSwitch_parts (s) : outOkay (execCalSetSwitch s) s := by
  unfold execCalSetSwitch; (repeat' split) <;> simp (maxDischargeDepth := 12) +contextual

theorem execUpdate_parts (x0 x1 s) : outOkay (execUpdate x0 x1 s) s := by
  simp only [execUpdate]; (repeat' split) <;> simp (maxDischargeDepth := 12) +contextual

theorem execUpdateVerified_parts (x0 s) : outOkay (execUpdateVerified x0 s) s := by
  unfold execUpdateVerified; (repeat' split) <;> simp (maxDischargeDepth := 12) +contextual

theorem State.updSlot_okay (s x1 x2) : Okay s (State.updSlot s x1 x2) := by
  exact ⟨fun h => h⟩

@[simp] theorem State.updSlot_parts (s x1 x2) (h : s.partsOk = true) :
    (State.updSlot s x1 x2).partsOk = true := (State.updSlot_okay _ _ _).go h

theorem State.rowMissed_okay (s x1 x2) : Okay s (State.rowMissed s x1 x2) := by
  exact ⟨fun h => h⟩

@[simp] theorem State.rowMissed_parts (s x1 x2) (h : s.partsOk = true) :
    (State.rowMissed s x1 x2).partsOk = true := (State.rowMissed_okay _ _ _).go h

theorem State.written_okay (s x1) : Okay s (State.written s x1) := by
  constructor; intro h; unfold State.written; (repeat' split) <;> simp (maxDischargeDepth := 12) [h]

@[simp] theorem State.written_parts (s x1) (h : s.partsOk = true) :
    (State.written s x1).partsOk = true := (State.written_okay _ _).go h

theorem State.writeFailed_okay (s x1) : Okay s (State.writeFailed s x1) := by
  constructor; intro h; simp only [State.writeFailed]; split <;> simp (maxDischargeDepth := 12) [h]

@[simp] theorem State.writeFailed_parts (s x1) (h : s.partsOk = true) :
    (State.writeFailed s x1).partsOk = true := (State.writeFailed_okay _ _).go h

theorem execMramWriteDone_parts (x0 s) : outOkay (execMramWriteDone x0 s) s := by
  unfold execMramWriteDone; (repeat' split) <;> simp (maxDischargeDepth := 12) +contextual

theorem State.armSlot_okay (s) : Okay s (State.armSlot s) := by
  constructor; intro h; simp only [State.armSlot]; split <;> simp (maxDischargeDepth := 12) [h]

@[simp] theorem State.armSlot_parts (s) (h : s.partsOk = true) :
    (State.armSlot s).partsOk = true := (State.armSlot_okay _).go h

theorem State.closeRecord_okay (s) : Okay s (State.closeRecord s) := by
  constructor; intro h; unfold State.closeRecord; (repeat' split) <;> simp (maxDischargeDepth := 12) [h]

@[simp] theorem State.closeRecord_parts (s) (h : s.partsOk = true) :
    (State.closeRecord s).partsOk = true := (State.closeRecord_okay _).go h

theorem execRecordClose_parts (s) : outOkay (execRecordClose s) s := by
  simp (maxDischargeDepth := 12) +contextual [execRecordClose]

theorem State.recTrigDone_okay (s x1 x2) : Okay s (State.recTrigDone s x1 x2) := by
  constructor; intro h; simp only [State.recTrigDone]; split <;> simp (maxDischargeDepth := 12) [h]

@[simp] theorem State.recTrigDone_parts (s x1 x2) (h : s.partsOk = true) :
    (State.recTrigDone s x1 x2).partsOk = true := (State.recTrigDone_okay _ _ _).go h

theorem State.recTrigger_okay (s x1) : Okay s (State.recTrigger s x1) := by
  constructor; intro h; simp only [State.recTrigger]; (repeat' split) <;> simp_all (maxDischargeDepth := 12)

@[simp] theorem State.recTrigger_parts (s x1) (h : s.partsOk = true) :
    (State.recTrigger s x1).partsOk = true := (State.recTrigger_okay _ _).go h

theorem State.recorder_okay (s x1) : Okay s (State.recorder s x1) := by
  constructor; intro h; simp only [State.recorder]; (repeat' split) <;> simp_all (maxDischargeDepth := 12)

@[simp] theorem State.recorder_parts (s x1) (h : s.partsOk = true) :
    (State.recorder s x1).partsOk = true := (State.recorder_okay _ _).go h

theorem execRecSlotRelease_parts (x0 s) : outOkay (execRecSlotRelease x0 s) s := by
  simp (maxDischargeDepth := 12) +contextual [execRecSlotRelease]

theorem State.releaseBoundary_okay (s) : Okay s (State.releaseBoundary s) := by
  constructor; intro h; simp only [State.releaseBoundary]; (repeat' split) <;> simp_all (maxDischargeDepth := 12)

@[simp] theorem State.releaseBoundary_parts (s) (h : s.partsOk = true) :
    (State.releaseBoundary s).partsOk = true := (State.releaseBoundary_okay _).go h

theorem State.rejectPending_okay (s) : Okay s (State.rejectPending s) := by
  constructor; intro h; simp only [State.rejectPending]; (repeat' split) <;> simp_all (maxDischargeDepth := 12)

@[simp] theorem State.rejectPending_parts (s) (h : s.partsOk = true) :
    (State.rejectPending s).partsOk = true := (State.rejectPending_okay _).go h

theorem State.abutment_okay (s x1) : Okay s (State.abutment s x1) := by
  constructor; intro h; simp only [State.abutment]; (repeat' split) <;> simp_all (maxDischargeDepth := 12)

@[simp] theorem State.abutment_parts (s x1) (h : s.partsOk = true) :
    (State.abutment s x1).partsOk = true := (State.abutment_okay _ _).go h

theorem State.startFail_okay (s x1) : Okay s (State.startFail s x1) := by
  constructor; intro h; simp only [State.startFail]; split <;> simp (maxDischargeDepth := 12) [h]

@[simp] theorem State.startFail_parts (s x1) (h : s.partsOk = true) :
    (State.startFail s x1).partsOk = true := (State.startFail_okay _ _).go h

theorem State.pylTo_okay (s x1 x2) : Okay s (State.pylTo s x1 x2) := by
  constructor; intro h; simp (maxDischargeDepth := 12) [State.pylTo, h]

@[simp] theorem State.pylTo_parts (s x1 x2) (h : s.partsOk = true) :
    (State.pylTo s x1 x2).partsOk = true := (State.pylTo_okay _ _ _).go h

theorem State.stepCount_okay (s : State) (x1) : Okay s (s.stepCount x1) := by
  unfold State.stepCount
  dsimp only
  refine Okay.trans ?_ (State.updLegs_okay ..)
  refine Okay.trans ?_ (State.sensingMoved_okay ..)
  exact ⟨fun h => h⟩

@[simp] theorem State.stepCount_parts (s x1) (h : s.partsOk = true) :
    (State.stepCount s x1).partsOk = true := (State.stepCount_okay _ _).go h

theorem State.stepBy_okay (s x1) : Okay s (State.stepBy s x1) := by
  constructor; intro h; simp (maxDischargeDepth := 12) [State.stepBy, h]

@[simp] theorem State.stepBy_parts (s x1) (h : s.partsOk = true) :
    (State.stepBy s x1).partsOk = true := (State.stepBy_okay _ _).go h

theorem State.syncTracked_okay (s x1) : Okay s (State.syncTracked s x1) := by
  constructor; intro h; simp only [State.syncTracked]; (repeat' split) <;> simp_all (maxDischargeDepth := 12)

@[simp] theorem State.syncTracked_parts (s x1) (h : s.partsOk = true) :
    (State.syncTracked s x1).partsOk = true := (State.syncTracked_okay _ _).go h

theorem execSyncMessage_parts (x0 x1 s) : outOkay (execSyncMessage x0 x1 s) s := by
  simp only [execSyncMessage]; (repeat' split) <;> simp (maxDischargeDepth := 12) +contextual

theorem execSyncLoss_parts (x0 s) : outOkay (execSyncLoss x0 s) s := by
  simp only [execSyncLoss]; (repeat' split) <;> simp (maxDischargeDepth := 12) +contextual

theorem State.setCount_okay (s : State) : Okay s s.setCount := by
  unfold State.setCount
  exact State.stepCount_okay ..

@[simp] theorem State.setCount_parts (s) (h : s.partsOk = true) :
    (State.setCount s).partsOk = true := (State.setCount_okay _).go h

theorem execAnnounceMessage_parts (x0 x1 s) : outOkay (execAnnounceMessage x0 x1 s) s := by
  simp only [execAnnounceMessage]; (repeat' split) <;> simp (maxDischargeDepth := 12) +contextual

theorem execPdelayExchange_parts (x0 x1 x2 x3 s) : outOkay (execPdelayExchange x0 x1 x2 x3 s) s := by
  simp (maxDischargeDepth := 12) +contextual [execPdelayExchange]

theorem execGrandmasterSyncSend_parts (x0 s) : outOkay (execGrandmasterSyncSend x0 s) s := by
  simp only [execGrandmasterSyncSend]; (repeat' split) <;> simp (maxDischargeDepth := 12) +contextual

theorem execLaunchMarkerDrive_parts (s) : outOkay (execLaunchMarkerDrive s) s := by
  simp only [execLaunchMarkerDrive]; (repeat' split) <;> simp (maxDischargeDepth := 12) +contextual

theorem State.lineInvalid_okay (s x1) : Okay s (State.lineInvalid s x1) := by
  constructor; intro h; simp (maxDischargeDepth := 12) [State.lineInvalid, h]

@[simp] theorem State.lineInvalid_parts (s x1) (h : s.partsOk = true) :
    (State.lineInvalid s x1).partsOk = true := (State.lineInvalid_okay _ _).go h

theorem State.markBad_okay (s x1) : Okay s (State.markBad s x1) := by
  constructor; intro h; simp only [State.markBad]; (repeat' split) <;> simp_all (maxDischargeDepth := 12) 

@[simp] theorem State.markBad_parts (s x1) (h : s.partsOk = true) :
    (State.markBad s x1).partsOk = true := (State.markBad_okay _ _).go h

theorem State.markGood_okay (s x1) : Okay s (State.markGood s x1) := by
  constructor; intro h; simp only [State.markGood]; (repeat' split) <;> simp_all (maxDischargeDepth := 12)

@[simp] theorem State.markGood_parts (s x1) (h : s.partsOk = true) :
    (State.markGood s x1).partsOk = true := (State.markGood_okay _ _).go h

theorem execLaunchMarker_parts (x0 s) : outOkay (execLaunchMarker x0 s) s := by
  simp only [execLaunchMarker]; (repeat' split) <;> simp (maxDischargeDepth := 12) +contextual

theorem execLaunchMarkerMissing_parts (x0 s) : outOkay (execLaunchMarkerMissing x0 s) s := by
  simp only [execLaunchMarkerMissing]; (repeat' split) <;> simp (maxDischargeDepth := 12) +contextual

theorem execCensusReady_parts (x0 s) : outOkay (execCensusReady x0 s) s := by
  simp only [execCensusReady]; (repeat' split) <;> simp (maxDischargeDepth := 12) +contextual

theorem execCensusRelease_parts (x0 s) : outOkay (execCensusRelease x0 s) s := by
  unfold execCensusRelease; (repeat' split) <;> simp (maxDischargeDepth := 12) +contextual

theorem State.census_okay (s x1 x2 x3) : Okay s (State.census s x1 x2 x3) := by
  constructor; intro h; simp only [State.census]; split <;> simp (maxDischargeDepth := 12) [h]

@[simp] theorem State.census_parts (s x1 x2 x3) (h : s.partsOk = true) :
    (State.census s x1 x2 x3).partsOk = true := (State.census_okay _ _ _ _).go h

theorem execLeapSecondInsert_parts (x0 s) : outOkay (execLeapSecondInsert x0 s) s := by
  simp only [execLeapSecondInsert]; (repeat' split) <;> simp (maxDischargeDepth := 12) +contextual

theorem execRtcTrimUpdate_parts (x0 x1 s) : outOkay (execRtcTrimUpdate x0 x1 s) s := by
  simp only [execRtcTrimUpdate]; (repeat' split) <;> simp (maxDischargeDepth := 12) +contextual

theorem execVbakLow_parts (x0 s) : outOkay (execVbakLow x0 s) s := by
  simp only [execVbakLow]; (repeat' split) <;> simp (maxDischargeDepth := 12) +contextual

theorem State.calMap_okay (s x1 x2 x3) : Okay s (State.calMap s x1 x2 x3) := by
  constructor; intro h; simp (maxDischargeDepth := 12) [State.calMap, h]

@[simp] theorem State.calMap_parts (s x1 x2 x3) (h : s.partsOk = true) :
    (State.calMap s x1 x2 x3).partsOk = true := (State.calMap_okay _ _ _ _).go h

theorem State.chanEvent_okay (s x1 x2 x3 x4) : Okay s (State.chanEvent s x1 x2 x3 x4) := by
  constructor; intro h; simp (maxDischargeDepth := 12) [State.chanEvent, h]

@[simp] theorem State.chanEvent_parts (s x1 x2 x3 x4) (h : s.partsOk = true) :
    (State.chanEvent s x1 x2 x3 x4).partsOk = true := (State.chanEvent_okay _ _ _ _ _).go h

theorem State.postChannel_okay (s : State) (x1 x2) : Okay s (s.postChannel x1 x2) := by
  unfold State.postChannel
  extract_lets old
  refine Okay.ite (.refl _) ?_
  generalize readingOf _ _ _ = r
  obtain ⟨v, bo, bs⟩ := r
  dsimp -zeta only
  refine Okay.ite (Okay.same rfl rfl rfl rfl rfl rfl rfl rfl) ?_
  generalize throttleFactor _ _ _ _ _ = r
  obtain ⟨e, f⟩ := r
  dsimp -zeta only
  extract_lets warn shut throt broke t s1 s2 s3 s4
  have h1 : Okay s s1 := (Okay.same rfl rfl rfl rfl rfl rfl rfl rfl)
  have h2 : Okay s s2 := h1.trans (Okay.ite (State.chanEvent_okay ..) (.refl _))
  have h3 : Okay s s3 := h2.trans (Okay.ite (.refl _) (State.chanEvent_okay ..))
  have h4 : Okay s s4 := h3.trans (Okay.ite (.refl _) (State.chanEvent_okay ..))
  exact h4.trans (Okay.ite (State.chanEvent_okay ..) (.refl _))

@[simp] theorem State.postChannel_parts (s x1 x2) (h : s.partsOk = true) :
    (State.postChannel s x1 x2).partsOk = true := (State.postChannel_okay _ _ _).go h

theorem State.derateEvent_okay (s x1 x2 x3) : Okay s (State.derateEvent s x1 x2 x3) := by
  constructor; intro h; simp only [State.derateEvent]; (repeat' split) <;> simp_all (maxDischargeDepth := 12)

@[simp] theorem State.derateEvent_parts (s x1 x2 x3) (h : s.partsOk = true) :
    (State.derateEvent s x1 x2 x3).partsOk = true := (State.derateEvent_okay _ _ _ _).go h

theorem State.postFactors_okay (s) : Okay s (State.postFactors s) := by
  constructor; intro h; simp (maxDischargeDepth := 12) [State.postFactors, h]

@[simp] theorem State.postFactors_parts (s) (h : s.partsOk = true) :
    (State.postFactors s).partsOk = true := (State.postFactors_okay _).go h

theorem State.brgTo_okay (s x1 x2) : Okay s (State.brgTo s x1 x2) := by
  constructor; intro h; simp only [State.brgTo]; split <;> simp (maxDischargeDepth := 12) [h]

@[simp] theorem State.brgTo_parts (s x1 x2) (h : s.partsOk = true) :
    (State.brgTo s x1 x2).partsOk = true := (State.brgTo_okay _ _ _).go h

theorem execBearingLinkPresent_parts (x0 s) : outOkay (execBearingLinkPresent x0 s) s := by
  simp only [execBearingLinkPresent]; (repeat' split) <;> simp (maxDischargeDepth := 12) +contextual

theorem execBearingOutputInBand_parts (x0 s) : outOkay (execBearingOutputInBand x0 s) s := by
  simp only [execBearingOutputInBand]; (repeat' split) <;> simp (maxDischargeDepth := 12) +contextual

theorem execBearingStartTimeout_parts (s) : outOkay (execBearingStartTimeout s) s := by
  simp only [execBearingStartTimeout]; (repeat' split) <;> simp (maxDischargeDepth := 12) +contextual

theorem execBearingLinkLoss_parts (x0 s) : outOkay (execBearingLinkLoss x0 s) s := by
  simp only [execBearingLinkLoss]; (repeat' split) <;> simp (maxDischargeDepth := 12) +contextual

theorem execBearingFaultHoldEnd_parts (s) : outOkay (execBearingFaultHoldEnd s) s := by
  simp only [execBearingFaultHoldEnd]; (repeat' split) <;> simp (maxDischargeDepth := 12) +contextual

theorem State.postBearing_okay (s) : Okay s (State.postBearing s) := by
  constructor; intro h; simp only [State.postBearing]; (repeat' split) <;> simp_all (maxDischargeDepth := 12)

@[simp] theorem State.postBearing_parts (s) (h : s.partsOk = true) :
    (State.postBearing s).partsOk = true := (State.postBearing_okay _).go h

theorem execTrestleRoundPost_parts (x0) (s : State) : outOkay (execTrestleRoundPost x0 s) s := by
  unfold execTrestleRoundPost
  extract_lets ms late r t s1 _ s2 s3 s4 die
  have h1 : Okay s s1 := State.goto_okay ..
  have h2 : Okay s s2 := h1.trans (Okay.same rfl rfl rfl rfl rfl rfl rfl rfl)
  have h3 : Okay s s3 := by
    refine h2.trans (Okay.foldl _ (fun t c => ?_) _ _)
    dsimp only
    split
    · exact State.postChannel_okay ..
    · exact Okay.ite (State.postChannel_okay ..) (.refl _)
  have h4 : Okay s s4 := h3.trans (Okay.trans (State.postBearing_okay s3) (State.postFactors_okay _))
  split
  · exact h4.trans (Okay.ite (State.startFail_okay ..) (.refl _))
  · exact Okay.refl s

theorem State.trestleInputs_okay (s) : Okay s (State.trestleInputs s) := by
  exact ⟨fun h => h⟩

@[simp] theorem State.trestleInputs_parts (s) (h : s.partsOk = true) :
    (State.trestleInputs s).partsOk = true := (State.trestleInputs_okay _).go h

theorem execVsupWarn_parts (x0 x1 s) : outOkay (execVsupWarn x0 x1 s) s := by
  simp only [execVsupWarn]; (repeat' split) <;> simp (maxDischargeDepth := 12) +contextual

theorem State.thaw_okay (s) : Okay s (State.thaw s) := by
  constructor; intro h; simp (maxDischargeDepth := 12) [State.thaw, h]

@[simp] theorem State.thaw_parts (s) (h : s.partsOk = true) :
    (State.thaw s).partsOk = true := (State.thaw_okay _).go h

theorem execVsupDipEnd_parts (x0 x1 s) : outOkay (execVsupDipEnd x0 x1 s) s := by
  simp only [execVsupDipEnd]; (repeat' split) <;> simp (maxDischargeDepth := 12) +contextual

theorem execVsupLongDip_parts (s) : outOkay (execVsupLongDip s) s := by
  simp only [execVsupLongDip]; (repeat' split) <;> simp (maxDischargeDepth := 12) +contextual

theorem State.updObj_okay (s x1 x2 x3) : Okay s (State.updObj s x1 x2 x3) := by
  constructor; intro h; simp (maxDischargeDepth := 12) [State.updObj, h]

@[simp] theorem State.updObj_parts (s x1 x2 x3) (h : s.partsOk = true) :
    (State.updObj s x1 x2 x3).partsOk = true := (State.updObj_okay _ _ _ _).go h

theorem State.mapObjs_okay (s : State) (x1 x2) : Okay s (s.mapObjs x1 x2) := by
  unfold State.mapObjs
  exact Okay.foldl _ (fun t o => Okay.ite (.refl _) (State.updObj_okay ..)) _ _

@[simp] theorem State.mapObjs_parts (s x1 x2) (h : s.partsOk = true) :
    (State.mapObjs s x1 x2).partsOk = true := (State.mapObjs_okay _ _ _).go h

theorem State.updPartner_okay (s x1 x2) : Okay s (State.updPartner s x1 x2) := by
  exact ⟨fun h => h⟩

@[simp] theorem State.updPartner_parts (s x1 x2) (h : s.partsOk = true) :
    (State.updPartner s x1 x2).partsOk = true := (State.updPartner_okay _ _ _).go h

theorem State.objEvent_okay (s x1 x2 x3 x4) : Okay s (State.objEvent s x1 x2 x3 x4) := by
  constructor; intro h; simp (maxDischargeDepth := 12) [State.objEvent, h]

@[simp] theorem State.objEvent_parts (s x1 x2 x3 x4) (h : s.partsOk = true) :
    (State.objEvent s x1 x2 x3 x4).partsOk = true := (State.objEvent_okay _ _ _ _ _).go h

theorem State.offer_okay (s x1) : Okay s (State.offer s x1) := by
  constructor; intro h; simp only [State.offer]; (repeat' split) <;> simp_all (maxDischargeDepth := 12)

@[simp] theorem State.offer_parts (s x1) (h : s.partsOk = true) :
    (State.offer s x1).partsOk = true := (State.offer_okay _ _).go h

theorem State.reroute_okay (s x1 x2) : Okay s (State.reroute s x1 x2) := by
  constructor; intro h; simp only [State.reroute]; split <;> simp (maxDischargeDepth := 12) [h]

@[simp] theorem State.reroute_parts (s x1 x2) (h : s.partsOk = true) :
    (State.reroute s x1 x2).partsOk = true := (State.reroute_okay _ _ _).go h

theorem State.strandObj_okay (s x1 x2) : Okay s (State.strandObj s x1 x2) := by
  constructor; intro h; simp (maxDischargeDepth := 12) [State.strandObj, h]

@[simp] theorem State.strandObj_parts (s x1 x2) (h : s.partsOk = true) :
    (State.strandObj s x1 x2).partsOk = true := (State.strandObj_okay _ _ _).go h

theorem State.request_okay (s x1 x2) : Okay s (State.request s x1 x2) := by
  constructor; intro h; simp only [State.request]; split <;> simp (maxDischargeDepth := 12) [h]

@[simp] theorem State.request_parts (s x1 x2) (h : s.partsOk = true) :
    (State.request s x1 x2).partsOk = true := (State.request_okay _ _ _).go h

theorem State.unqueue_okay (s : State) (x1 x2) : Okay s (s.unqueue x1 x2) := by
  unfold State.unqueue
  refine Okay.ite ?_ (.refl _)
  extract_lets hit s1
  have h1 : Okay s s1 := Okay.foldl _ (fun t a => Okay.ite (State.updPort_okay ..) (.refl _)) _ _
  exact h1.trans (State.updObj_okay ..)

@[simp] theorem State.unqueue_parts (s x1 x2) (h : s.partsOk = true) :
    (State.unqueue s x1 x2).partsOk = true := (State.unqueue_okay _ _ _).go h

theorem State.withdraw_okay (s x1 x2) : Okay s (State.withdraw s x1 x2) := by
  constructor; intro h; simp only [State.withdraw]; split <;> simp (maxDischargeDepth := 12) [h]

@[simp] theorem State.withdraw_parts (s x1 x2) (h : s.partsOk = true) :
    (State.withdraw s x1 x2).partsOk = true := (State.withdraw_okay _ _ _).go h

theorem State.enterBusOff_okay (s : State) (x1) : Okay s (s.enterBusOff x1) := by
  unfold State.enterBusOff
  extract_lets back s1 s2 s3
  have h1 : Okay s s1 := State.updPort_okay ..
  have h2 : Okay s s2 := h1.trans (Okay.trans (State.mapObjs_okay ..) (State.raise_okay ..))
  have h3 : Okay s s3 := by
    refine h2.trans (Okay.foldl _ (fun t e => ?_) _ _)
    exact Okay.trans (State.updObj_okay t ..) (State.offer_okay ..)
  exact h3.trans (Okay.foldl _ (fun t o => Okay.ite (State.strandObj_okay ..) (.refl _)) _ _)

@[simp] theorem State.enterBusOff_parts (s x1) (h : s.partsOk = true) :
    (State.enterBusOff s x1).partsOk = true := (State.enterBusOff_okay _ _).go h

theorem State.confine_okay (s x1) : Okay s (State.confine s x1) := by
  constructor; intro h; simp only [State.confine]; (repeat' split) <;> simp_all (maxDischargeDepth := 12)

@[simp] theorem State.confine_parts (s x1) (h : s.partsOk = true) :
    (State.confine s x1).partsOk = true := (State.confine_okay _ _).go h

theorem State.frameDone_okay (s x1) : Okay s (State.frameDone s x1) := by
  constructor; intro h; simp only [State.frameDone]; (repeat' split) <;> simp_all (maxDischargeDepth := 12) 

@[simp] theorem State.frameDone_parts (s x1) (h : s.partsOk = true) :
    (State.frameDone s x1).partsOk = true := (State.frameDone_okay _ _).go h

theorem State.sentFrame_okay (s x1 x2) : Okay s (State.sentFrame s x1 x2) := by
  constructor; intro h; simp only [State.sentFrame]; (repeat' split) <;> simp_all (maxDischargeDepth := 12)

@[simp] theorem State.sentFrame_parts (s x1 x2) (h : s.partsOk = true) :
    (State.sentFrame s x1 x2).partsOk = true := (State.sentFrame_okay _ _ _).go h

theorem State.collision_okay (s x1 x2) : Okay s (State.collision s x1 x2) := by
  constructor; intro h; simp only [State.collision]; split <;> simp (maxDischargeDepth := 12) [h]

@[simp] theorem State.collision_parts (s x1 x2) (h : s.partsOk = true) :
    (State.collision s x1 x2).partsOk = true := (State.collision_okay _ _ _).go h

theorem State.failedFrame_okay (s x1 x2 x3 x4) : Okay s (State.failedFrame s x1 x2 x3 x4) := by
  constructor; intro h; simp only [State.failedFrame]; (repeat' split) <;> simp_all (maxDischargeDepth := 12)

@[simp] theorem State.failedFrame_parts (s x1 x2 x3 x4) (h : s.partsOk = true) :
    (State.failedFrame s x1 x2 x3 x4).partsOk = true := (State.failedFrame_okay _ _ _ _ _).go h

theorem State.measured_okay (s x1 x2 x3) : Okay s (State.measured s x1 x2 x3) := by
  constructor; intro h; simp only [State.measured]; split <;> simp (maxDischargeDepth := 12) [h]

@[simp] theorem State.measured_parts (s x1 x2 x3) (h : s.partsOk = true) :
    (State.measured s x1 x2 x3).partsOk = true := (State.measured_okay _ _ _ _).go h

theorem execFrameAttemptEnd_parts (x0 x1 x2 s) : outOkay (execFrameAttemptEnd x0 x1 x2 s) s := by
  simp only [execFrameAttemptEnd]; (repeat' split) <;> simp (maxDischargeDepth := 12) +contextual

theorem execTxreq_parts (x0 x1 s) : outOkay (execTxreq x0 x1 s) s := by
  simp only [execTxreq]; (repeat' split) <;> simp (maxDischargeDepth := 12) +contextual

theorem execObjAbort_parts (x0 x1 s) : outOkay (execObjAbort x0 x1 s) s := by
  simp only [execObjAbort]; (repeat' split) <;> simp (maxDischargeDepth := 12) +contextual

theorem execResume_parts (x0 x1 s) : outOkay (execResume x0 x1 s) s := by
  simp only [execResume]; (repeat' split) <;> simp (maxDischargeDepth := 12) +contextual

theorem State.fillObj_okay (s : State) (x1 x2 x3) : Okay s (s.fillObj x1 x2 x3) := by
  unfold State.fillObj
  extract_lets b s1 hit s2
  have h1 : Okay s s1 := State.updObj_okay ..
  have h2 : Okay s s2 := h1.trans (Okay.ite (Okay.foldl _ (fun t a => Okay.ite (State.updPort_okay ..) (.refl _)) _ _) (.refl _))
  exact h2.trans (Okay.ite (.refl _) (State.request_okay ..))

@[simp] theorem State.fillObj_parts (s x1 x2 x3) (h : s.partsOk = true) :
    (State.fillObj s x1 x2 x3).partsOk = true := (State.fillObj_okay _ _ _ _).go h

theorem execPortIntegration_parts (x0 x1 s) : outOkay (execPortIntegration x0 x1 s) s := by
  simp only [execPortIntegration]; (repeat' split) <;> simp (maxDischargeDepth := 12) +contextual

theorem State.startRecovery_okay (s x1) : Okay s (State.startRecovery s x1) := by
  constructor; intro h; simp (maxDischargeDepth := 12) [State.startRecovery, h]

@[simp] theorem State.startRecovery_parts (s x1) (h : s.partsOk = true) :
    (State.startRecovery s x1).partsOk = true := (State.startRecovery_okay _ _).go h

theorem execBusOffRecoveryStart_parts (x0 x1 s) : outOkay (execBusOffRecoveryStart x0 x1 s) s := by
  simp only [execBusOffRecoveryStart]; (repeat' split) <;> simp (maxDischargeDepth := 12) +contextual

theorem execBoRecover_parts (x0 x1 s) : outOkay (execBoRecover x0 x1 s) s := by
  simp only [execBoRecover]; (repeat' split) <;> simp (maxDischargeDepth := 12) +contextual

theorem execBusOffRecovered_parts (x0 x1 s) : outOkay (execBusOffRecovered x0 x1 s) s := by
  simp only [execBusOffRecovered]; (repeat' split) <;> simp (maxDischargeDepth := 12) +contextual

theorem execErrorFrame_parts (x0 x1 x2 s) : outOkay (execErrorFrame x0 x1 x2 s) s := by
  simp only [execErrorFrame]; (repeat' split) <;> simp (maxDischargeDepth := 12) +contextual

theorem execRerouteTest_parts (x0) (s : State) : outOkay (execRerouteTest x0 s) s := by
  unfold execRerouteTest
  extract_lets s1 ms _ s2
  have h1 : Okay s s1 := State.at_okay ..
  clear_value s1
  split
  · refine (h1.trans (t := s1) (Okay.same rfl rfl rfl rfl rfl rfl rfl rfl) : Okay s s2).trans (Okay.foldl _ (fun t p => ?_) _ _)
    exact Okay.ite (.refl _) (Okay.foldl _ (fun t o => State.reroute_okay ..) _ _)
  · exact h1

theorem State.store_okay (s x1 x2 x3) : Okay s (State.store s x1 x2 x3) := by
  constructor; intro h; simp only [State.store]; (repeat' split) <;> simp_all (maxDischargeDepth := 12)

@[simp] theorem State.store_parts (s x1 x2 x3) (h : s.partsOk = true) :
    (State.store s x1 x2 x3).partsOk = true := (State.store_okay _ _ _ _).go h

theorem State.heartbeats_okay (s : State) (x1 x2) : Okay s (s.heartbeats x1 x2) := by
  unfold State.heartbeats
  refine Okay.foldl _ (fun t e => ?_) _ _
  refine Okay.ite ?_ (.refl _)
  extract_lets t1
  have h1 : Okay t t1 := State.updPartner_okay ..
  exact h1.trans (Okay.ite (State.raise_okay ..) (.refl _))

@[simp] theorem State.heartbeats_parts (s x1 x2) (h : s.partsOk = true) :
    (State.heartbeats s x1 x2).partsOk = true := (State.heartbeats_okay _ _ _).go h

theorem State.rxOk_okay (s x1) : Okay s (State.rxOk s x1) := by
  constructor; intro h; simp only [State.rxOk]; (repeat' split) <;> simp_all (maxDischargeDepth := 12)

@[simp] theorem State.rxOk_parts (s x1) (h : s.partsOk = true) :
    (State.rxOk s x1).partsOk = true := (State.rxOk_okay _ _).go h

theorem execCanFrameReceived_parts (x0 x1 x2 s) : outOkay (execCanFrameReceived x0 x1 x2 s) s := by
  simp only [execCanFrameReceived]; (repeat' split) <;> simp (maxDischargeDepth := 12) +contextual

theorem execLdgSel_parts (x0 x1 s) : outOkay (execLdgSel x0 x1 s) s := by
  simp only [execLdgSel]; (repeat' split) <;> simp (maxDischargeDepth := 12) +contextual

theorem execPartnerAgeTick_parts (x0) (s : State) : outOkay (execPartnerAgeTick x0 s) s := by
  unfold execPartnerAgeTick
  extract_lets s1 _ s2
  have h1 : Okay s s1 := State.at_okay ..
  clear_value s1
  split
  · refine (h1.trans (t := s1) (Okay.same rfl rfl rfl rfl rfl rfl rfl rfl) : Okay s s2).trans (Okay.foldl _ (fun t e => ?_) _ _)
    refine Okay.ite (.refl _) ?_
    extract_lets age t1
    have h2 : Okay t t1 := State.updPartner_okay ..
    exact h2.trans (Okay.ite (Okay.trans (State.updPartner_okay ..) (State.raise_okay ..)) (.refl _))
  · exact h1

theorem State.updateAvail_okay (s) : Okay s (State.updateAvail s) := by
  constructor; intro h; simp only [State.updateAvail]; split <;> simp (maxDischargeDepth := 12) [h]

@[simp] theorem State.updateAvail_parts (s) (h : s.partsOk = true) :
    (State.updateAvail s).partsOk = true := (State.updateAvail_okay _).go h

theorem State.unstick_okay (s x1 x2) : Okay s (State.unstick s x1 x2) := by
  exact ⟨fun h => h⟩

@[simp] theorem State.unstick_parts (s x1 x2) (h : s.partsOk = true) :
    (State.unstick s x1 x2).partsOk = true := (State.unstick_okay _ _ _).go h

theorem State.clearBits_okay (s : State) (x1 x2) : Okay s (s.clearBits x1 x2) := by
  unfold State.clearBits
  extract_lets k r keep
  clear_value k r keep
  split
  case h_3 => exact Okay.foldl _ (fun t b => Okay.ite (State.updInp_okay ..) (.refl _)) _ _
  case h_13 => split <;> exact State.updPort_okay ..
  case h_14 => split <;> first | exact .refl _ | exact (Okay.same rfl rfl rfl rfl rfl rfl rfl rfl)
  all_goals first
    | exact (Okay.same rfl rfl rfl rfl rfl rfl rfl rfl)
    | exact State.unstick_okay ..
    | exact State.updLeg_okay ..
    | exact State.updRej_okay ..
    | (split <;> exact (Okay.same rfl rfl rfl rfl rfl rfl rfl rfl))

@[simp] theorem State.clearBits_parts (s x1 x2) (h : s.partsOk = true) :
    (State.clearBits s x1 x2).partsOk = true := (State.clearBits_okay _ _ _).go h

theorem State.holdWrite_okay (s x1 x2 x3) : Okay s (State.holdWrite s x1 x2 x3) := by
  exact ⟨fun h => h⟩

@[simp] theorem State.holdWrite_parts (s x1 x2 x3) (h : s.partsOk = true) :
    (State.holdWrite s x1 x2 x3).partsOk = true := (State.holdWrite_okay _ _ _ _).go h

theorem State.go_okay (s) : Okay s (State.go s) := by
  constructor; intro h; simp only [State.go]; split <;> simp (maxDischargeDepth := 12) [h]

@[simp] theorem State.go_parts (s) (h : s.partsOk = true) :
    (State.go s).partsOk = true := (State.go_okay _).go h

theorem State.askAbut_okay (s) : Okay s (State.askAbut s) := by
  constructor; intro h; simp only [State.askAbut]; split <;> simp (maxDischargeDepth := 12) [h]

@[simp] theorem State.askAbut_parts (s) (h : s.partsOk = true) :
    (State.askAbut s).partsOk = true := (State.askAbut_okay _).go h

/-- Going on keeps what the outcome keeps. -/
theorem goOn_okay {s : State} {o : Host.Outcome State Fault Refusal} (h : outOkay o s) : Okay s (goOn s o) := by
  cases o
  · exact h
  all_goals exact .refl s

/-- One bit of a W1S register. -/
theorem onBit_okay (s : State) (v i) (f : State → State) (h : ∀ t, Okay t (f t)) : Okay s (s.onBit v i f) := Okay.ite (h s) (.refl _)

theorem State.setBits_okay (s : State) (x1 x2 x3) : Okay s (s.setBits x1 x2 x3) := by
  unfold State.setBits
  extract_lets -merge +onlyGivenNames k r
  split
  · exact (onBit_okay _ _ _ _ fun t => State.go_okay ..).trans (onBit_okay _ _ _ _ fun t => State.askAbut_okay ..)
  · exact Okay.ite (onBit_okay _ _ _ _ fun t => ⟨fun h => h⟩) (goOn_okay (execCensusRelease_parts ..))
  · exact Okay.ite (onBit_okay _ _ _ _ fun t => goOn_okay (execDirectCommit_parts ..)) (State.accessViolation_okay ..)
  · exact (((onBit_okay _ _ _ _ fun t => goOn_okay (execTxreq_parts ..)).trans (onBit_okay _ _ _ _ fun t => goOn_okay (execObjAbort_parts ..))).trans
      (onBit_okay _ _ _ _ fun t => goOn_okay (execResume_parts ..))).trans (onBit_okay _ _ _ _ fun t => goOn_okay (execBoRecover_parts ..))
  · exact goOn_okay (execRecSlotRelease_parts ..)
  · exact .refl _

@[simp] theorem State.setBits_parts (s x1 x2 x3) (h : s.partsOk = true) :
    (State.setBits s x1 x2 x3).partsOk = true := (State.setBits_okay _ _ _ _).go h

theorem State.unmask_okay (s x1) : Okay s (State.unmask s x1) := by
  constructor; intro h; simp only [State.unmask]; split <;> simp (maxDischargeDepth := 12) [h]

@[simp] theorem State.unmask_parts (s x1) (h : s.partsOk = true) :
    (State.unmask s x1).partsOk = true := (State.unmask_okay _ _).go h

theorem State.stepDaddr_okay (s x1) : Okay s (State.stepDaddr s x1) := by
  constructor; intro h; simp (maxDischargeDepth := 12) [State.stepDaddr, h]

@[simp] theorem State.stepDaddr_parts (s x1) (h : s.partsOk = true) :
    (State.stepDaddr s x1).partsOk = true := (State.stepDaddr_okay _ _).go h

theorem State.writeObjData_okay (s x1 x2) : Okay s (State.writeObjData s x1 x2) := by
  constructor; intro h; simp only [State.writeObjData]; (repeat' split) <;> simp_all (maxDischargeDepth := 12)

@[simp] theorem State.writeObjData_parts (s x1 x2) (h : s.partsOk = true) :
    (State.writeObjData s x1 x2).partsOk = true := (State.writeObjData_okay _ _ _).go h

theorem State.writeRw_okay (s : State) (x1 x2 x3 x4) : Okay s (s.writeRw x1 x2 x3 x4) := by
  unfold State.writeRw
  split
  · exact Okay.ite (State.writeObjData_okay ..) (State.setReg_okay ..)
  · exact Okay.ite (goOn_okay (execLdgSel_parts ..)) (State.setReg_okay ..)
  · exact Okay.ite (Okay.trans (State.setReg_okay ..) (State.unmask_okay ..)) (State.setReg_okay ..)
  · exact State.setReg_okay ..

@[simp] theorem State.writeRw_parts (s x1 x2 x3 x4) (h : s.partsOk = true) :
    (State.writeRw s x1 x2 x3 x4).partsOk = true := (State.writeRw_okay _ _ _ _ _).go h

theorem State.writeLk_okay (s : State) (x1 x2 x3 x4 x5) : Okay s (s.writeLk x1 x2 x3 x4 x5) := by
  unfold State.writeLk
  extract_lets -merge +onlyGivenNames k r obj
  have h : ∀ f, Okay s (obj f) := fun f => State.updObj_okay ..
  split
  · exact Okay.ite (Okay.same rfl rfl rfl rfl rfl rfl rfl rfl) (Okay.ite (goOn_okay (execRefEnable_parts ..)) (goOn_okay (execRefDisable_parts ..)))
  · exact Okay.ite (h _) (Okay.ite (h _) (Okay.ite (h _) (Okay.ite (h _) (State.setReg_okay ..))))
  · exact Okay.ite (State.updPartner_okay ..) (State.setReg_okay ..)
  · exact Okay.ite (State.setReg_okay ..) (State.setReg_okay ..)

@[simp] theorem State.writeLk_parts (s x1 x2 x3 x4 x5) (h : s.partsOk = true) :
    (State.writeLk s x1 x2 x3 x4 x5).partsOk = true := (State.writeLk_okay _ _ _ _ _ _).go h

theorem State.hostWrite_okay (s : State) (x1 x2 x3 x4) : Okay s (s.hostWrite x1 x2 x3 x4) := by
  unfold State.hostWrite
  extract_lets -merge +onlyGivenNames s1
  have h1 : Okay s s1 := State.at_okay ..
  split
  · refine h1.trans ?_
    refine Okay.ite (State.accessViolation_okay ..) ?_
    split
    all_goals first
      | exact State.accessViolation_okay ..
      | exact State.writeRw_okay ..
      | exact Okay.ite (State.writeLk_okay ..) (State.accessViolation_okay ..)
      | exact State.holdWrite_okay ..
      | exact State.setBits_okay ..
      | exact State.clearBits_okay ..
      | exact goOn_okay (execDirectWrite_parts ..)
  · exact h1

@[simp] theorem State.hostWrite_parts (s x1 x2 x3 x4) (h : s.partsOk = true) :
    (State.hostWrite s x1 x2 x3 x4).partsOk = true := (State.hostWrite_okay _ _ _ _ _).go h

theorem execTlRegisterWrite_parts (x0 x1 x2 x3 s) : outOkay (execTlRegisterWrite x0 x1 x2 x3 s) s := by
  simp (maxDischargeDepth := 12) +contextual [execTlRegisterWrite]

theorem execRegisterWrite_parts (x0 x1 x2 x3 s) : outOkay (execRegisterWrite x0 x1 x2 x3 s) s := by
  simp (maxDischargeDepth := 12) +contextual [execRegisterWrite]

theorem execStatReset_parts (s) : outOkay (execStatReset s) s := by
  simp (maxDischargeDepth := 12) +contextual [execStatReset]

theorem execCausewayEnable_parts (x0 s) : outOkay (execCausewayEnable x0 s) s := by
  simp (maxDischargeDepth := 12) +contextual [execCausewayEnable]

theorem execGo_parts (x0 s) : outOkay (execGo x0 s) s := by
  simp (maxDischargeDepth := 12) +contextual [execGo]

theorem execAbut_parts (x0 s) : outOkay (execAbut x0 s) s := by
  simp (maxDischargeDepth := 12) +contextual [execAbut]

theorem State.readsBack_okay (s x1) : Okay s (State.readsBack s x1) := by
  exact ⟨fun h => h⟩

@[simp] theorem State.readsBack_parts (s x1) (h : s.partsOk = true) :
    (State.readsBack s x1).partsOk = true := (State.readsBack_okay _ _).go h

theorem execHighWordLatchRead_parts (x0 x1 s) : outOkay (execHighWordLatchRead x0 x1 s) s := by
  simp only [execHighWordLatchRead]; (repeat' split) <;> simp (maxDischargeDepth := 12) +contextual

theorem State.readEcc_okay (s x1) : Okay s (State.readEcc s x1) := by
  constructor; intro h; unfold State.readEcc; (repeat' split) <;> simp (maxDischargeDepth := 12) [h]

@[simp] theorem State.readEcc_parts (s x1) (h : s.partsOk = true) :
    (State.readEcc s x1).partsOk = true := (State.readEcc_okay _ _).go h

theorem State.advance_okay (s x1 x2) : Okay s (State.advance s x1 x2) := by
  constructor; intro h; simp (maxDischargeDepth := 12) [State.advance, h]

@[simp] theorem State.advance_parts (s x1 x2) (h : s.partsOk = true) :
    (State.advance s x1 x2).partsOk = true := (State.advance_okay _ _ _).go h

theorem execDataWindowAccess_parts (x0 x1 x2 s) : outOkay (execDataWindowAccess x0 x1 x2 s) s := by
  simp only [execDataWindowAccess]; (repeat' split) <;> simp (maxDischargeDepth := 12) +contextual

theorem State.keystoneSafe_okay (s) : Okay s (State.keystoneSafe s) := by
  constructor; intro h; simp only [State.keystoneSafe]; (repeat' split) <;> simp_all (maxDischargeDepth := 12)

@[simp] theorem State.keystoneSafe_parts (s) (h : s.partsOk = true) :
    (State.keystoneSafe s).partsOk = true := (State.keystoneSafe_okay _).go h

theorem State.giveUpAll_okay (s x1) : Okay s (State.giveUpAll s x1) := by
  constructor; intro h; simp only [State.giveUpAll]; split <;> simp (maxDischargeDepth := 12) [h]

@[simp] theorem State.giveUpAll_parts (s x1) (h : s.partsOk = true) :
    (State.giveUpAll s x1).partsOk = true := (State.giveUpAll_okay _ _).go h

theorem State.sendRelinquish_okay (s x1) : Okay s (State.sendRelinquish s x1) := by
  constructor; intro h; simp only [State.sendRelinquish]; split <;> simp (maxDischargeDepth := 12) [h]

@[simp] theorem State.sendRelinquish_parts (s x1) (h : s.partsOk = true) :
    (State.sendRelinquish s x1).partsOk = true := (State.sendRelinquish_okay _ _).go h

theorem State.assertFault_okay (s x1 x2) : Okay s (State.assertFault s x1 x2) := by
  constructor; intro h; simp only [State.assertFault]; (repeat' split) <;> simp_all (maxDischargeDepth := 12)

@[simp] theorem State.assertFault_parts (s x1 x2) (h : s.partsOk = true) :
    (State.assertFault s x1 x2).partsOk = true := (State.assertFault_okay _ _ _).go h

theorem execLockstepMismatch_parts (x0 x1 s) : outOkay (execLockstepMismatch x0 x1 s) s := by
  simp only [execLockstepMismatch]; (repeat' split) <;> simp (maxDischargeDepth := 12) +contextual

theorem State.watchdogFault_okay (s) : Okay s (State.watchdogFault s) := by
  constructor; intro h; simp (maxDischargeDepth := 12) [State.watchdogFault, h]

@[simp] theorem State.watchdogFault_parts (s) (h : s.partsOk = true) :
    (State.watchdogFault s).partsOk = true := (State.watchdogFault_okay _).go h

theorem execWatchdogService_parts (x0 s) : outOkay (execWatchdogService x0 s) s := by
  simp only [execWatchdogService]; (repeat' split) <;> simp (maxDischargeDepth := 12) +contextual

theorem execWatchdogExpiry_parts (s) : outOkay (execWatchdogExpiry s) s := by
  simp only [execWatchdogExpiry]; (repeat' split) <;> simp (maxDischargeDepth := 12) +contextual

theorem State.watchdogBoundary_okay (s) : Okay s (State.watchdogBoundary s) := by
  exact ⟨fun h => h⟩

@[simp] theorem State.watchdogBoundary_parts (s) (h : s.partsOk = true) :
    (State.watchdogBoundary s).partsOk = true := (State.watchdogBoundary_okay _).go h

theorem execRamEccError_parts (x0 x1 x2 s) : outOkay (execRamEccError x0 x1 x2 s) s := by
  unfold execRamEccError; (repeat' split) <;> simp (maxDischargeDepth := 12) +contextual

theorem State.digestFault_okay (s) : Okay s (State.digestFault s) := by
  constructor; intro h; simp only [State.digestFault]; split <;> simp (maxDischargeDepth := 12) [h]

@[simp] theorem State.digestFault_parts (s) (h : s.partsOk = true) :
    (State.digestFault s).partsOk = true := (State.digestFault_okay _).go h

theorem execClocksValid_parts (x0 s) : outOkay (execClocksValid x0 s) s := by
  simp only [execClocksValid]; (repeat' split) <;> simp (maxDischargeDepth := 12) +contextual

theorem execDebugAttach_parts (x0 s) : outOkay (execDebugAttach x0 s) s := by
  simp (maxDischargeDepth := 12) +contextual [execDebugAttach]

theorem execLsBrokenClear_parts (s) : outOkay (execLsBrokenClear s) s := by
  simp (maxDischargeDepth := 12) +contextual [execLsBrokenClear]

end Sys2Proof.Machine
end

