-- ==== Sys2Proof/Laws/PartsDeck.lean ====
section
/-! SUPPORT. One lemma per operation and command: the viaduct, landing, launches, the Causeway and the start keep the sparse stores of the held registers and the parts canonical. -/
namespace Sys2Proof.Machine
set_option linter.all false

theorem State.gotLanes_okay (s x1 x2) : Okay s (State.gotLanes s x1 x2) := by
  exact ⟨fun h => h⟩

@[simp] theorem State.gotLanes_parts (s x1 x2) (h : s.partsOk = true) :
    (State.gotLanes s x1 x2).partsOk = true := (State.gotLanes_okay _ _ _).go h

theorem State.judgeLane_okay (s x1) : Okay s (State.judgeLane s x1) := by
  constructor; intro h; simp only [State.judgeLane]; (repeat' split) <;> simp_all (maxDischargeDepth := 12)

@[simp] theorem State.judgeLane_parts (s x1) (h : s.partsOk = true) :
    (State.judgeLane s x1).partsOk = true := (State.judgeLane_okay _ _).go h

theorem State.e086_okay (s x1) : Okay s (State.e086 s x1) := by
  constructor; intro h; simp (maxDischargeDepth := 12) [State.e086, h]

@[simp] theorem State.e086_parts (s x1) (h : s.partsOk = true) :
    (State.e086 s x1).partsOk = true := (State.e086_okay _ _).go h

theorem execHandshakeFrame_parts (x0 x1 x2 s) : outOkay (execHandshakeFrame x0 x1 x2 s) s := by
  simp only [execHandshakeFrame]; (repeat' split) <;> simp (maxDischargeDepth := 12) +contextual

theorem State.shakeCount_okay (s) : Okay s (State.shakeCount s) := by
  constructor; intro h; simp only [State.shakeCount]; split <;> simp (maxDischargeDepth := 12) [h]

@[simp] theorem State.shakeCount_parts (s) (h : s.partsOk = true) :
    (State.shakeCount s).partsOk = true := (State.shakeCount_okay _).go h

theorem State.shakeBoundary_okay (s) : Okay s (State.shakeBoundary s) := by
  constructor; intro h; simp only [State.shakeBoundary]; split <;> simp (maxDischargeDepth := 12) [h]

@[simp] theorem State.shakeBoundary_parts (s) (h : s.partsOk = true) :
    (State.shakeBoundary s).partsOk = true := (State.shakeBoundary_okay _).go h

theorem State.pairBoundary_okay (s) : Okay s (State.pairBoundary s) := by
  constructor; intro h; simp only [State.pairBoundary]; (repeat' split) <;> simp_all (maxDischargeDepth := 12)

@[simp] theorem State.pairBoundary_parts (s) (h : s.partsOk = true) :
    (State.pairBoundary s).partsOk = true := (State.pairBoundary_okay _).go h

theorem State.goAlone_okay (s) : Okay s (State.goAlone s) := by
  exact ⟨fun h => h⟩

@[simp] theorem State.goAlone_parts (s) (h : s.partsOk = true) :
    (State.goAlone s).partsOk = true := (State.goAlone_okay _).go h

theorem execPairingTimeout_parts (s) : outOkay (execPairingTimeout s) s := by
  simp only [execPairingTimeout]; (repeat' split) <;> simp (maxDischargeDepth := 12) +contextual

theorem State.staleAcknowledged_okay (s) : Okay s (State.staleAcknowledged s) := by
  constructor; intro h; simp (maxDischargeDepth := 12) [State.staleAcknowledged, h]

@[simp] theorem State.staleAcknowledged_parts (s) (h : s.partsOk = true) :
    (State.staleAcknowledged s).partsOk = true := (State.staleAcknowledged_okay _).go h

theorem execMirrorFrame_parts (x0 x1 x2 s) : outOkay (execMirrorFrame x0 x1 x2 s) s := by
  simp only [execMirrorFrame]; (repeat' split) <;> simp (maxDischargeDepth := 12) +contextual

theorem State.scheduleTakeover_okay (s x1 x2 x3 x4) : Okay s (State.scheduleTakeover s x1 x2 x3 x4) := by
  constructor; intro h; simp only [State.scheduleTakeover]; split <;> simp (maxDischargeDepth := 12) [h]

@[simp] theorem State.scheduleTakeover_parts (s x1 x2 x3 x4) (h : s.partsOk = true) :
    (State.scheduleTakeover s x1 x2 x3 x4).partsOk = true := (State.scheduleTakeover_okay _ _ _ _ _).go h

theorem execRelinquishFrame_parts (x0 x1 x2 s) : outOkay (execRelinquishFrame x0 x1 x2 s) s := by
  simp only [execRelinquishFrame]; (repeat' split) <;> simp (maxDischargeDepth := 12) +contextual

theorem State.judgePosition_okay (s x1 x2) : Okay s (State.judgePosition s x1 x2) := by
  constructor; intro h; simp only [State.judgePosition]; (repeat' split) <;> simp_all (maxDischargeDepth := 12)

@[simp] theorem State.judgePosition_parts (s x1 x2) (h : s.partsOk = true) :
    (State.judgePosition s x1 x2).partsOk = true := (State.judgePosition_okay _ _ _).go h

theorem State.judgeOverlap_okay (s x1) : Okay s (State.judgeOverlap s x1) := by
  constructor; intro h; simp only [State.judgeOverlap]; (repeat' split) <;> simp_all (maxDischargeDepth := 12)

@[simp] theorem State.judgeOverlap_parts (s x1) (h : s.partsOk = true) :
    (State.judgeOverlap s x1).partsOk = true := (State.judgeOverlap_okay _ _).go h

theorem State.judgeWarnings_okay (s x1) : Okay s (State.judgeWarnings s x1) := by
  constructor; intro h; simp only [State.judgeWarnings]; (repeat' split) <;> simp_all (maxDischargeDepth := 12)

@[simp] theorem State.judgeWarnings_parts (s x1) (h : s.partsOk = true) :
    (State.judgeWarnings s x1).partsOk = true := (State.judgeWarnings_okay _ _).go h

theorem State.judgeDigest_okay (s x1) : Okay s (State.judgeDigest s x1) := by
  constructor; intro h; simp only [State.judgeDigest]; split <;> simp (maxDischargeDepth := 12) [h]

@[simp] theorem State.judgeDigest_parts (s x1) (h : s.partsOk = true) :
    (State.judgeDigest s x1).partsOk = true := (State.judgeDigest_okay _ _).go h

theorem State.judgeCompletions_okay (s x1) : Okay s (State.judgeCompletions s x1) := by
  exact ⟨fun h => h⟩

@[simp] theorem State.judgeCompletions_parts (s x1) (h : s.partsOk = true) :
    (State.judgeCompletions s x1).partsOk = true := (State.judgeCompletions_okay _ _).go h

theorem State.judgeRelq_okay (s x1) : Okay s (State.judgeRelq s x1) := by
  constructor; intro h; simp only [State.judgeRelq]; split <;> simp (maxDischargeDepth := 12) [h]

@[simp] theorem State.judgeRelq_parts (s x1) (h : s.partsOk = true) :
    (State.judgeRelq s x1).partsOk = true := (State.judgeRelq_okay _ _).go h

theorem State.useFrame_okay (s x1) : Okay s (State.useFrame s x1) := by
  constructor; intro h; simp only [State.useFrame]; (repeat' split) <;> simp_all (maxDischargeDepth := 12) 

@[simp] theorem State.useFrame_parts (s x1) (h : s.partsOk = true) :
    (State.useFrame s x1).partsOk = true := (State.useFrame_okay _ _).go h

theorem State.missFrame_okay (s) : Okay s (State.missFrame s) := by
  constructor; intro h; simp only [State.missFrame]; (repeat' split) <;> simp_all (maxDischargeDepth := 12) 

@[simp] theorem State.missFrame_parts (s) (h : s.partsOk = true) :
    (State.missFrame s).partsOk = true := (State.missFrame_okay _).go h

theorem State.judgeFrame_okay (s) : Okay s (State.judgeFrame s) := by
  constructor; intro h; simp only [State.judgeFrame]; (repeat' split) <;> simp_all (maxDischargeDepth := 12)

@[simp] theorem State.judgeFrame_parts (s) (h : s.partsOk = true) :
    (State.judgeFrame s).partsOk = true := (State.judgeFrame_okay _).go h

theorem State.tieSelfCheck_okay (s x1) : Okay s (State.tieSelfCheck s x1) := by
  constructor; intro h; simp only [State.tieSelfCheck]; (repeat' split) <;> simp_all (maxDischargeDepth := 12)

@[simp] theorem State.tieSelfCheck_parts (s x1) (h : s.partsOk = true) :
    (State.tieSelfCheck s x1).partsOk = true := (State.tieSelfCheck_okay _ _).go h

theorem State.shadowMismatch_okay (s x1 x2 x3) : Okay s (State.shadowMismatch s x1 x2 x3) := by
  constructor; intro h; simp (maxDischargeDepth := 12) [State.shadowMismatch, h]

@[simp] theorem State.shadowMismatch_parts (s x1 x2 x3) (h : s.partsOk = true) :
    (State.shadowMismatch s x1 x2 x3).partsOk = true := (State.shadowMismatch_okay _ _ _ _).go h

theorem State.shadowVerdict_okay (s x1) : Okay s (State.shadowVerdict s x1) := by
  constructor; intro h; simp only [State.shadowVerdict]; split <;> simp (maxDischargeDepth := 12) [h]

@[simp] theorem State.shadowVerdict_parts (s x1) (h : s.partsOk = true) :
    (State.shadowVerdict s x1).partsOk = true := (State.shadowVerdict_okay _ _).go h

theorem State.shadow_okay (s) : Okay s (State.shadow s).1 := by
  constructor; intro h; simp only [State.shadow]; (repeat' split) <;> simp_all (maxDischargeDepth := 12) 

@[simp] theorem State.shadow_parts (s) (h : s.partsOk = true) :
    (State.shadow s).1.partsOk = true := (State.shadow_okay _).go h

theorem State.followInputs_okay (s) : Okay s (State.followInputs s) := by
  exact ⟨fun h => h⟩

@[simp] theorem State.followInputs_parts (s) (h : s.partsOk = true) :
    (State.followInputs s).partsOk = true := (State.followInputs_okay _).go h

theorem State.adoptStandby_okay (s : State) : Okay s s.adoptStandby := by
  unfold State.adoptStandby
  exact Okay.foldl _ (fun t a => Okay.ite (State.withStage_okay ..) (.refl _)) _ _

@[simp] theorem State.adoptStandby_parts (s) (h : s.partsOk = true) :
    (State.adoptStandby s).partsOk = true := (State.adoptStandby_okay _).go h

theorem State.copyStandby_okay (s : State) : Okay s s.copyStandby := by
  unfold State.copyStandby
  exact Okay.ite (.refl _) (Okay.foldl _ (fun t a => Okay.ite (.refl _) (State.withStage_okay ..)) _ _)

@[simp] theorem State.copyStandby_parts (s) (h : s.partsOk = true) :
    (State.copyStandby s).partsOk = true := (State.copyStandby_okay _).go h

theorem State.relinquish_okay (s) : Okay s (State.relinquish s) := by
  constructor; intro h; simp only [State.relinquish]; split <;> simp (maxDischargeDepth := 12) [h]

@[simp] theorem State.relinquish_parts (s) (h : s.partsOk = true) :
    (State.relinquish s).partsOk = true := (State.relinquish_okay _).go h

theorem State.claim_okay (s x1) : Okay s (State.claim s x1) := by
  exact ⟨fun h => h⟩

@[simp] theorem State.claim_parts (s x1) (h : s.partsOk = true) :
    (State.claim s x1).partsOk = true := (State.claim_okay _ _).go h

theorem State.claimNext_okay (s) : Okay s (State.claimNext s) := by
  exact ⟨fun h => h⟩

@[simp] theorem State.claimNext_parts (s) (h : s.partsOk = true) :
    (State.claimNext s).partsOk = true := (State.claimNext_okay _).go h

theorem State.takeOne_okay (s x1) : Okay s (State.takeOne s x1) := by
  constructor; intro h; simp (maxDischargeDepth := 12) [State.takeOne, h]

@[simp] theorem State.takeOne_parts (s x1) (h : s.partsOk = true) :
    (State.takeOne s x1).partsOk = true := (State.takeOne_okay _ _).go h

theorem State.takeOver_okay (s) : Okay s (State.takeOver s) := by
  constructor; intro h; simp only [State.takeOver]; (repeat' split) <;> simp_all (maxDischargeDepth := 12)

@[simp] theorem State.takeOver_parts (s) (h : s.partsOk = true) :
    (State.takeOver s).partsOk = true := (State.takeOver_okay _).go h

theorem State.rebindOpen_okay (s) : Okay s (State.rebindOpen s) := by
  constructor; intro h; simp only [State.rebindOpen]; split <;> simp (maxDischargeDepth := 12) [h]

@[simp] theorem State.rebindOpen_parts (s) (h : s.partsOk = true) :
    (State.rebindOpen s).partsOk = true := (State.rebindOpen_okay _).go h

theorem State.closeOpen_okay (s) : Okay s (State.closeOpen s) := by
  constructor; intro h; simp only [State.closeOpen]; split <;> simp (maxDischargeDepth := 12) [h]

@[simp] theorem State.closeOpen_parts (s) (h : s.partsOk = true) :
    (State.closeOpen s).partsOk = true := (State.closeOpen_okay _).go h

theorem State.stageHandover_okay (s x1) : Okay s (State.stageHandover s x1) := by
  constructor; intro h; simp only [State.stageHandover]; split <;> simp (maxDischargeDepth := 12) [h]

@[simp] theorem State.stageHandover_parts (s x1) (h : s.partsOk = true) :
    (State.stageHandover s x1).partsOk = true := (State.stageHandover_okay _ _).go h

theorem State.handover_okay (s x1) : Okay s (State.handover s x1) := by
  constructor; intro h; simp only [State.handover]; (repeat' split) <;> simp_all (maxDischargeDepth := 12) 

@[simp] theorem State.handover_parts (s x1) (h : s.partsOk = true) :
    (State.handover s x1).partsOk = true := (State.handover_okay _ _).go h

theorem State.setRegs_okay (s x1) : Okay s (State.setRegs s x1) := by
  constructor; intro h; simp only [State.setRegs]; (repeat' split) <;> simp_all (maxDischargeDepth := 12)

@[simp] theorem State.setRegs_parts (s x1) (h : s.partsOk = true) :
    (State.setRegs s x1).partsOk = true := (State.setRegs_okay _ _).go h

theorem State.setLanded_okay (s x1) : Okay s (State.setLanded s x1) := by
  constructor; intro h; simp only [State.setLanded]; split <;> simp (maxDischargeDepth := 12) [h]

@[simp] theorem State.setLanded_parts (s x1) (h : s.partsOk = true) :
    (State.setLanded s x1).partsOk = true := (State.setLanded_okay _ _).go h

theorem State.setRefused_okay (s x1) : Okay s (State.setRefused s x1) := by
  constructor; intro h; simp only [State.setRefused]; split <;> simp (maxDischargeDepth := 12) [h]

@[simp] theorem State.setRefused_parts (s x1) (h : s.partsOk = true) :
    (State.setRefused s x1).partsOk = true := (State.setRefused_okay _ _).go h

theorem State.landSet_okay (s x1 x2) : Okay s (State.landSet s x1 x2) := by
  constructor; intro h; simp only [State.landSet]; split <;> simp (maxDischargeDepth := 12) [h]

@[simp] theorem State.landSet_parts (s x1 x2) (h : s.partsOk = true) :
    (State.landSet s x1 x2).partsOk = true := (State.landSet_okay _ _ _).go h

theorem State.landWrites_okay (s x1) : Okay s (State.landWrites s x1) := by
  constructor; intro h; simp only [State.landWrites]; (repeat' split) <;> simp_all (maxDischargeDepth := 12)

@[simp] theorem State.landWrites_parts (s x1) (h : s.partsOk = true) :
    (State.landWrites s x1).partsOk = true := (State.landWrites_okay _ _).go h

theorem State.landTl_okay (s x1) : Okay s (State.landTl s x1) := by
  constructor; intro h; simp only [State.landTl]; split <;> simp (maxDischargeDepth := 12) [h]

@[simp] theorem State.landTl_parts (s x1) (h : s.partsOk = true) :
    (State.landTl s x1).partsOk = true := (State.landTl_okay _ _).go h

theorem State.overrideTl_okay (s x1 x2) : Okay s (State.overrideTl s x1 x2) := by
  exact ⟨fun h => h⟩

@[simp] theorem State.overrideTl_parts (s x1 x2) (h : s.partsOk = true) :
    (State.overrideTl s x1 x2).partsOk = true := (State.overrideTl_okay _ _ _).go h

theorem State.putSlot_okay (s x1 x2) : Okay s (State.putSlot s x1 x2) := by
  exact ⟨fun h => h⟩

@[simp] theorem State.putSlot_parts (s x1 x2) (h : s.partsOk = true) :
    (State.putSlot s x1 x2).partsOk = true := (State.putSlot_okay _ _ _).go h

theorem State.armImage_okay (s x1) : Okay s (State.armImage s x1) := by
  constructor; intro h; simp only [State.armImage]; (repeat' split) <;> simp_all (maxDischargeDepth := 12)

@[simp] theorem State.armImage_parts (s x1) (h : s.partsOk = true) :
    (State.armImage s x1).partsOk = true := (State.armImage_okay _ _).go h

theorem State.ltDone_okay (s x1 x2 x3) : Okay s (State.ltDone s x1 x2 x3) := by
  constructor; intro h; simp only [State.ltDone]; split <;> simp (maxDischargeDepth := 12) [h]

@[simp] theorem State.ltDone_parts (s x1 x2 x3) (h : s.partsOk = true) :
    (State.ltDone s x1 x2 x3).partsOk = true := (State.ltDone_okay _ _ _ _).go h

theorem State.ltAdvance_okay (s x1) : Okay s (State.ltAdvance s x1) := by
  exact ⟨fun h => h⟩

@[simp] theorem State.ltAdvance_parts (s x1) (h : s.partsOk = true) :
    (State.ltAdvance s x1).partsOk = true := (State.ltAdvance_okay _ _).go h

theorem State.ltEvent_okay (s x1 x2 x3) : Okay s (State.ltEvent s x1 x2 x3) := by
  constructor; intro h; simp (maxDischargeDepth := 12) [State.ltEvent, h]

@[simp] theorem State.ltEvent_parts (s x1 x2 x3) (h : s.partsOk = true) :
    (State.ltEvent s x1 x2 x3).partsOk = true := (State.ltEvent_okay _ _ _ _).go h

theorem State.realignLeg_okay (s x1 x2) : Okay s (State.realignLeg s x1 x2) := by
  constructor; intro h; simp (maxDischargeDepth := 12) [State.realignLeg, h]

@[simp] theorem State.realignLeg_parts (s x1 x2) (h : s.partsOk = true) :
    (State.realignLeg s x1 x2).partsOk = true := (State.realignLeg_okay _ _ _).go h

theorem State.realign_okay (s x1 x2) : Okay s (State.realign s x1 x2).1 := by
  constructor; intro h; simp only [State.realign]; (repeat' split) <;> simp_all (maxDischargeDepth := 12)

@[simp] theorem State.realign_parts (s x1 x2) (h : s.partsOk = true) :
    (State.realign s x1 x2).1.partsOk = true := (State.realign_okay _ _ _).go h

theorem State.putCmpl_okay (s x1) : Okay s (State.putCmpl s x1) := by
  exact ⟨fun h => h⟩

@[simp] theorem State.putCmpl_parts (s x1) (h : s.partsOk = true) :
    (State.putCmpl s x1).partsOk = true := (State.putCmpl_okay _ _).go h

theorem State.writeCompletions_okay (s) : Okay s (State.writeCompletions s) := by
  constructor; intro h; simp only [State.writeCompletions]; (repeat' split) <;> simp_all (maxDischargeDepth := 12)

@[simp] theorem State.writeCompletions_parts (s) (h : s.partsOk = true) :
    (State.writeCompletions s).partsOk = true := (State.writeCompletions_okay _).go h

theorem State.advanceProd_okay (s) : Okay s (State.advanceProd s) := by
  constructor; intro h; simp only [State.advanceProd]; (repeat' split) <;> simp_all (maxDischargeDepth := 12)

@[simp] theorem State.advanceProd_parts (s) (h : s.partsOk = true) :
    (State.advanceProd s).partsOk = true := (State.advanceProd_okay _).go h

theorem State.judgeRsv_okay (s) : Okay s (State.judgeRsv s) := by
  constructor; intro h; simp only [State.judgeRsv]; split <;> simp (maxDischargeDepth := 12) [h]

@[simp] theorem State.judgeRsv_parts (s) (h : s.partsOk = true) :
    (State.judgeRsv s).partsOk = true := (State.judgeRsv_okay _).go h

theorem State.putEvent_okay (s x1) : Okay s (State.putEvent s x1) := by
  constructor; intro h; simp (maxDischargeDepth := 12) [State.putEvent, h]

@[simp] theorem State.putEvent_parts (s x1) (h : s.partsOk = true) :
    (State.putEvent s x1).partsOk = true := (State.putEvent_okay _ _).go h

theorem State.endStorm_okay (s) : Okay s (State.endStorm s) := by
  constructor; intro h; simp only [State.endStorm]; split <;> simp (maxDischargeDepth := 12) [h]

@[simp] theorem State.endStorm_parts (s) (h : s.partsOk = true) :
    (State.endStorm s).partsOk = true := (State.endStorm_okay _).go h

theorem State.writeEvents_okay (s) : Okay s (State.writeEvents s) := by
  constructor; intro h; simp only [State.writeEvents]; (repeat' split) <;> simp_all (maxDischargeDepth := 12)

@[simp] theorem State.writeEvents_parts (s) (h : s.partsOk = true) :
    (State.writeEvents s).partsOk = true := (State.writeEvents_okay _).go h

theorem execProtectionEventWrite_parts (s) : outOkay (execProtectionEventWrite s) s := by
  unfold execProtectionEventWrite; (repeat' split) <;> simp (maxDischargeDepth := 12) +contextual

theorem State.writeTelemetry_okay (s) : Okay s (State.writeTelemetry s) := by
  constructor; intro h; simp only [State.writeTelemetry]; (repeat' split) <;> simp_all (maxDischargeDepth := 12)

@[simp] theorem State.writeTelemetry_parts (s) (h : s.partsOk = true) :
    (State.writeTelemetry s).partsOk = true := (State.writeTelemetry_okay _).go h

theorem State.publishObj_okay (s x1 x2) : Okay s (State.publishObj s x1 x2) := by
  constructor; intro h; simp only [State.publishObj]; (repeat' split) <;> simp_all (maxDischargeDepth := 12)

@[simp] theorem State.publishObj_parts (s x1 x2) (h : s.partsOk = true) :
    (State.publishObj s x1 x2).partsOk = true := (State.publishObj_okay _ _ _).go h

theorem State.publish_okay (s) : Okay s (State.publish s) := by
  constructor; intro h; simp only [State.publish]; (repeat' split) <;> simp_all (maxDischargeDepth := 12)

@[simp] theorem State.publish_parts (s) (h : s.partsOk = true) :
    (State.publish s).partsOk = true := (State.publish_okay _).go h

theorem State.judgeFb_okay (s) : Okay s (State.judgeFb s) := by
  exact ⟨fun h => h⟩

@[simp] theorem State.judgeFb_parts (s) (h : s.partsOk = true) :
    (State.judgeFb s).partsOk = true := (State.judgeFb_okay _).go h

theorem State.linkTo_okay (s x1 x2 x3) : Okay s (State.linkTo s x1 x2 x3) := by
  constructor; intro h; simp (maxDischargeDepth := 12) [State.linkTo, h]

@[simp] theorem State.linkTo_parts (s x1 x2 x3) (h : s.partsOk = true) :
    (State.linkTo s x1 x2 x3).partsOk = true := (State.linkTo_okay _ _ _ _).go h

theorem execPcieLinkChange_parts (x0 x1 x2 x3 s) : outOkay (execPcieLinkChange x0 x1 x2 x3 s) s := by
  simp only [execPcieLinkChange]; (repeat' split) <;> simp (maxDischargeDepth := 12) +contextual

theorem execPciePerst_parts (x0 s) : outOkay (execPciePerst x0 s) s := by
  simp only [execPciePerst]; (repeat' split) <;> simp (maxDischargeDepth := 12) +contextual

/-- Dropping entries by their key keeps the canonical form. -/
theorem Store.filter_wfFrom {α : Type} [DecidableEq α] {d : Nat → α} (p : Nat → Bool) {m : Store α} {lo : Nat}
    (h : Store.wfFrom d lo m = true) : Store.wfFrom d lo (m.filter (fun e => p e.1)) = true := by
  induction m generalizing lo with
  | nil => rfl
  | cons e t ih =>
    obtain ⟨a, v⟩ := e
    simp only [Store.wfFrom, Bool.and_eq_true, decide_eq_true_eq] at h
    rw [List.filter_cons]
    split
    · simp only [Store.wfFrom, Bool.and_eq_true, decide_eq_true_eq]
      exact ⟨h.1, ih h.2⟩
    · exact Store.wfFrom_mono (ih h.2) (by omega)
theorem State.restart_okay (s) : Okay s (State.restart s) := by
  refine ⟨fun h => ?_⟩
  have hb : Store.wf barReset (s.bar.filter (fun p => heldOver p.1)) = true := Store.filter_wfFrom heldOver (wf_bar h)
  rw [State.partsOk_iff]
  exact ⟨hb, rfl, rfl, rfl, rfl, rfl, rfl, rfl⟩

@[simp] theorem State.restart_parts (s) (h : s.partsOk = true) :
    (State.restart s).partsOk = true := (State.restart_okay _).go h

theorem execDeckReset_parts (x0 x1 s) : outOkay (execDeckReset x0 x1 s) s := by
  simp (maxDischargeDepth := 12) +contextual [execDeckReset]

theorem execAutoRestart_parts (s) : outOkay (execAutoRestart s) s := by
  unfold execAutoRestart; (repeat' split) <;> simp (maxDischargeDepth := 12) +contextual

theorem State.step1_okay (s x1) : Okay s (State.step1 s x1).1 := by
  constructor; intro h; simp only [State.step1]; (repeat' split) <;> simp_all (maxDischargeDepth := 12)

@[simp] theorem State.step1_parts (s x1) (h : s.partsOk = true) :
    (State.step1 s x1).1.partsOk = true := (State.step1_okay _ _).go h

theorem State.step2_okay (s x1) : Okay s (State.step2 s x1).1 := by
  constructor; intro h; simp only [State.step2]; (repeat' split) <;> simp_all (maxDischargeDepth := 12)

@[simp] theorem State.step2_parts (s x1) (h : s.partsOk = true) :
    (State.step2 s x1).1.partsOk = true := (State.step2_okay _ _).go h

theorem State.adoptFactory_okay (s x1) : Okay s (State.adoptFactory s x1) := by
  constructor; intro h; simp only [State.adoptFactory]; split <;> simp (maxDischargeDepth := 12) [h]

@[simp] theorem State.adoptFactory_parts (s x1) (h : s.partsOk = true) :
    (State.adoptFactory s x1).partsOk = true := (State.adoptFactory_okay _ _).go h

theorem State.step3_okay (s x1) : Okay s (State.step3 s x1).1 := by
  constructor; intro h; simp only [State.step3]; (repeat' split) <;> simp_all (maxDischargeDepth := 12)

@[simp] theorem State.step3_parts (s x1) (h : s.partsOk = true) :
    (State.step3 s x1).1.partsOk = true := (State.step3_okay _ _).go h

theorem State.clearStaged_okay (s) : Okay s (State.clearStaged s) := by
  exact ⟨fun h => h⟩

@[simp] theorem State.clearStaged_parts (s) (h : s.partsOk = true) :
    (State.clearStaged s).partsOk = true := (State.clearStaged_okay _).go h

theorem State.step4_okay (s x1) : Okay s (State.step4 s x1).1 := by
  constructor; intro h; simp only [State.step4]; (repeat' split) <;> simp_all (maxDischargeDepth := 12)

@[simp] theorem State.step4_parts (s x1) (h : s.partsOk = true) :
    (State.step4 s x1).1.partsOk = true := (State.step4_okay _ _).go h

theorem State.imagePer_okay (s x1 x2) : Okay s (State.imagePer s x1 x2) := by
  constructor; intro h; simp only [State.imagePer]; split <;> simp (maxDischargeDepth := 12) [h]

@[simp] theorem State.imagePer_parts (s x1 x2) (h : s.partsOk = true) :
    (State.imagePer s x1 x2).partsOk = true := (State.imagePer_okay _ _ _).go h

theorem State.loadImage_okay (s x1) : Okay s (State.loadImage s x1) := by
  constructor; intro h; simp only [State.loadImage]; (repeat' split) <;> simp_all (maxDischargeDepth := 12)

@[simp] theorem State.loadImage_parts (s x1) (h : s.partsOk = true) :
    (State.loadImage s x1).partsOk = true := (State.loadImage_okay _ _).go h

theorem State.copyMap_okay (s x1 x2 x3) : Okay s (State.copyMap s x1 x2 x3).1 := by
  constructor; intro h; simp (maxDischargeDepth := 12) [State.copyMap, h]

@[simp] theorem State.copyMap_parts (s x1 x2 x3) (h : s.partsOk = true) :
    (State.copyMap s x1 x2 x3).1.partsOk = true := (State.copyMap_okay _ _ _ _).go h

theorem State.copyMaps_okay (s : State) (x1 x2) : Okay s (s.copyMaps x1 x2).1 := by
  unfold State.copyMaps
  extract_lets one
  refine Okay.foldl_on (fun r : State × Bool => r.1) one (fun r q => ?_) _ (s, true)
  unfold one
  split
  · have h := State.copyMap_okay r.1 x1 q.2 q.1
    generalize r.1.copyMap x1 q.2 q.1 = c at *
    obtain ⟨t, ok⟩ := c
    exact Okay.trans h ⟨fun h => h⟩
  · exact .refl _

@[simp] theorem State.copyMaps_parts (s x1 x2) (h : s.partsOk = true) :
    (State.copyMaps s x1 x2).1.partsOk = true := (State.copyMaps_okay _ _ _).go h

theorem State.step5_okay (s x1) : Okay s (State.step5 s x1).1 := by
  constructor; intro h; simp only [State.step5]; (repeat' split) <;> simp_all (maxDischargeDepth := 12)

@[simp] theorem State.step5_parts (s x1) (h : s.partsOk = true) :
    (State.step5 s x1).1.partsOk = true := (State.step5_okay _ _).go h

theorem State.steps_okay (s x1) : Okay s (State.steps s x1).1 := by
  constructor; intro h; simp only [State.steps]; (repeat' split) <;> simp_all (maxDischargeDepth := 12)

@[simp] theorem State.steps_parts (s x1) (h : s.partsOk = true) :
    (State.steps s x1).1.partsOk = true := (State.steps_okay _ _).go h

theorem State.startClock_okay (s) : Okay s (State.startClock s) := by
  constructor; intro h; unfold State.startClock; (repeat' split) <;> simp (maxDischargeDepth := 12) [h]

@[simp] theorem State.startClock_parts (s) (h : s.partsOk = true) :
    (State.startClock s).partsOk = true := (State.startClock_okay _).go h

theorem State.ticksRun_okay (s) : Okay s (State.ticksRun s) := by
  constructor; intro h; simp (maxDischargeDepth := 12) [State.ticksRun, h]

@[simp] theorem State.ticksRun_parts (s) (h : s.partsOk = true) :
    (State.ticksRun s).partsOk = true := (State.ticksRun_okay _).go h

theorem State.startFinds_okay (s x1) : Okay s (State.startFinds s x1) := by
  constructor; intro h; simp only [State.startFinds]; (repeat' split) <;> simp_all (maxDischargeDepth := 12)

@[simp] theorem State.startFinds_parts (s x1) (h : s.partsOk = true) :
    (State.startFinds s x1).partsOk = true := (State.startFinds_okay _ _).go h

theorem execStart_parts (x0 s) : outOkay (execStart x0 s) s := by
  simp only [execStart]; (repeat' split) <;> simp (maxDischargeDepth := 12) +contextual

theorem State.activate_okay (s : State) : Okay s s.activate := by
  unfold State.activate
  extract_lets -merge +onlyGivenNames one s1
  have h : ∀ t a b c d, Okay t (one t a b c d) := by
    intro t a b c d
    refine Okay.ite (Okay.ite ?_ ?_) (Okay.ite (Okay.same rfl rfl rfl rfl rfl rfl rfl rfl) (Okay.same rfl rfl rfl rfl rfl rfl rfl rfl))
    all_goals
      refine Okay.trans ?_ (State.raise_okay ..)
      exact Okay.ite (Okay.same rfl rfl rfl rfl rfl rfl rfl rfl) (Okay.same rfl rfl rfl rfl rfl rfl rfl rfl)
  exact (h ..).trans (h ..)

@[simp] theorem State.activate_parts (s) (h : s.partsOk = true) :
    (State.activate s).partsOk = true := (State.activate_okay _).go h

theorem State.takeOwners_okay (s) : Okay s (State.takeOwners s) := by
  exact ⟨fun h => h⟩

@[simp] theorem State.takeOwners_parts (s) (h : s.partsOk = true) :
    (State.takeOwners s).partsOk = true := (State.takeOwners_okay _).go h

theorem State.takeAuto_okay (s) : Okay s (State.takeAuto s) := by
  exact ⟨fun h => h⟩

@[simp] theorem State.takeAuto_parts (s) (h : s.partsOk = true) :
    (State.takeAuto s).partsOk = true := (State.takeAuto_okay _).go h

theorem State.deckReady_okay (s) : Okay s (State.deckReady s) := by
  constructor; intro h; simp only [State.deckReady]; split <;> simp (maxDischargeDepth := 12) [h]

@[simp] theorem State.deckReady_parts (s) (h : s.partsOk = true) :
    (State.deckReady s).partsOk = true := (State.deckReady_okay _).go h

theorem State.startBoundary_okay (s) : Okay s (State.startBoundary s) := by
  constructor; intro h; simp only [State.startBoundary]; (repeat' split) <;> simp_all (maxDischargeDepth := 12)

@[simp] theorem State.startBoundary_parts (s) (h : s.partsOk = true) :
    (State.startBoundary s).partsOk = true := (State.startBoundary_okay _).go h

theorem execStartTimeout_parts (s) : outOkay (execStartTimeout s) s := by
  simp only [execStartTimeout]; (repeat' split) <;> simp (maxDischargeDepth := 12) +contextual

theorem execAdcCalEnd_parts (x0 x1 x2 s) : outOkay (execAdcCalEnd x0 x1 x2 s) s := by
  simp only [execAdcCalEnd]; (repeat' split) <;> simp (maxDischargeDepth := 12) +contextual

theorem State.calBoundary_okay (s) : Okay s (State.calBoundary s) := by
  constructor; intro h; unfold State.calBoundary; (repeat' split) <;> simp (maxDischargeDepth := 12) [h]

@[simp] theorem State.calBoundary_parts (s) (h : s.partsOk = true) :
    (State.calBoundary s).partsOk = true := (State.calBoundary_okay _).go h

theorem State.deckRestart_okay (s x1 x2) : Okay s (State.deckRestart s x1 x2) := by
  constructor; intro h; simp (maxDischargeDepth := 12) [State.deckRestart, h]

@[simp] theorem State.deckRestart_parts (s x1 x2) (h : s.partsOk = true) :
    (State.deckRestart s x1 x2).partsOk = true := (State.deckRestart_okay _ _ _).go h

end Sys2Proof.Machine
end

