-- ==== Sys2Proof/Laws/PartsTick.lean ====
section
/-! SUPPORT. One lemma per operation and command: the command reference, the fetch and the tick keep the sparse stores of the held registers and the parts canonical. -/
namespace Sys2Proof.Machine
set_option linter.all false

theorem State.route_okay (s x1) : Okay s (State.route s x1) := by
  constructor; intro h; simp only [State.route]; split <;> simp (maxDischargeDepth := 12) [h]

@[simp] theorem State.route_parts (s x1) (h : s.partsOk = true) :
    (State.route s x1).partsOk = true := (State.route_okay _ _).go h

theorem State.unstage_okay (s x1) : Okay s (State.unstage s x1) := by
  exact ⟨fun h => h⟩

@[simp] theorem State.unstage_parts (s x1) (h : s.partsOk = true) :
    (State.unstage s x1).partsOk = true := (State.unstage_okay _ _).go h

theorem State.deckFinish_okay (s x1 x2 x3) : Okay s (State.deckFinish s x1 x2 x3) := by
  constructor; intro h; simp (maxDischargeDepth := 12) [State.deckFinish, h]

@[simp] theorem State.deckFinish_parts (s x1 x2 x3) (h : s.partsOk = true) :
    (State.deckFinish s x1 x2 x3).partsOk = true := (State.deckFinish_okay _ _ _ _).go h

theorem State.leaveToTwin_okay (s x1) : Okay s (State.leaveToTwin s x1) := by
  exact ⟨fun h => h⟩

@[simp] theorem State.leaveToTwin_parts (s x1) (h : s.partsOk = true) :
    (State.leaveToTwin s x1).partsOk = true := (State.leaveToTwin_okay _ _).go h

theorem State.safeOf_okay (s x1 x2) : Okay s (State.safeOf s x1 x2) := by
  constructor; intro h; simp only [State.safeOf]; split <;> simp (maxDischargeDepth := 12) [h]

@[simp] theorem State.safeOf_parts (s x1 x2) (h : s.partsOk = true) :
    (State.safeOf s x1 x2).partsOk = true := (State.safeOf_okay _ _ _).go h

theorem State.giveUpSpan_okay (s x1 x2) : Okay s (State.giveUpSpan s x1 x2) := by
  constructor; intro h; simp only [State.giveUpSpan]; split <;> simp (maxDischargeDepth := 12) [h]

@[simp] theorem State.giveUpSpan_parts (s x1 x2) (h : s.partsOk = true) :
    (State.giveUpSpan s x1 x2).partsOk = true := (State.giveUpSpan_okay _ _ _).go h

theorem State.judgeSpan_okay (s x1) : Okay s (State.judgeSpan s x1) := by
  constructor; intro h; unfold State.judgeSpan; (repeat' split) <;> simp (maxDischargeDepth := 12) [h]

@[simp] theorem State.judgeSpan_parts (s x1) (h : s.partsOk = true) :
    (State.judgeSpan s x1).partsOk = true := (State.judgeSpan_okay _ _).go h

theorem State.prepare_okay (s : State) : Okay s s.prepare := by
  unfold State.prepare
  refine Okay.ite (.refl _) ?_
  extract_lets -merge +onlyGivenNames _ s1 b _ s2 s3 r _ s4 s5 s6
  have h1 : Okay s s1 := (Okay.same rfl rfl rfl rfl rfl rfl rfl rfl)
  have h2 : Okay s s2 := h1.trans (State.withStage_okay ..)
  have h3 : Okay s s3 := h2.trans (Okay.foldl _ (fun t m => Okay.ite (State.aScan_okay ..) (.refl _)) _ _)
  have h4 : Okay s s4 := h3.trans (Okay.ite (State.withStage_okay ..) (.refl _))
  have h5 : Okay s s5 := h4.trans (Okay.foldl State.judgeSpan State.judgeSpan_okay _ _)
  have h6 : Okay s s6 := h5.trans (Okay.trans (State.cBypassExit_okay ..) (State.qPilotExit_okay ..))
  exact h6.trans (Okay.foldl _ (fun t m => Okay.ite (State.aOps_okay ..) (.refl _)) _ _)

@[simp] theorem State.prepare_parts (s) (h : s.partsOk = true) :
    (State.prepare s).partsOk = true := (State.prepare_okay _).go h

theorem State.modeSpan_okay (s x1 x2 x3 x4) : Okay s (State.modeSpan s x1 x2 x3 x4).2 := by
  constructor; intro h; unfold State.modeSpan; (repeat' split) <;> simp (maxDischargeDepth := 12) [h]

@[simp] theorem State.modeSpan_parts (s x1 x2 x3 x4) (h : s.partsOk = true) :
    (State.modeSpan s x1 x2 x3 x4).2.partsOk = true := (State.modeSpan_okay _ _ _ _ _).go h

theorem State.spanRun_okay (s : State) (d : Staged) : Okay s (s.spanRun d).s := by
  unfold State.spanRun
  extract_lets x t m q0 long
  split
  all_goals first
    | exact State.modeSpan_okay ..
    | exact State.tqTarget_okay ..
    | exact State.spdTargetCmd_okay ..
    | exact State.posRearmCmd_okay ..
    | exact State.cVtgtCmd_okay ..
    | exact State.cItgtCmd_okay ..
    | exact State.cPhasesCmd_okay ..
    | exact State.cCrowbarCmd_okay ..
    | exact State.qPowerCmd_okay ..
    | exact State.aHoldCmd_okay ..
    | exact State.aShiftCmd_okay ..
    | exact State.aParkCmd_okay ..
    | exact State.aReleaseCmd_okay ..
    | exact State.aCurrentCmd_okay ..
    | exact State.aHomeCmd_okay ..
    | exact State.aRearmCmd_okay ..

@[simp] theorem State.spanRun_parts (s x1) (h : s.partsOk = true) :
    (State.spanRun s x1).s.partsOk = true := (State.spanRun_okay _ _).go h

theorem State.spanDone_okay (s x1 x2 x3 x4) : Okay s (State.spanDone s x1 x2 x3 x4) := by
  exact ⟨fun h => h⟩

@[simp] theorem State.spanDone_parts (s x1 x2 x3 x4) (h : s.partsOk = true) :
    (State.spanDone s x1 x2 x3 x4).partsOk = true := (State.spanDone_okay _ _ _ _ _).go h

theorem State.modeRelinquish_okay (s x1) : Okay s (State.modeRelinquish s x1) := by
  constructor; intro h; simp only [State.modeRelinquish]; (repeat' split) <;> simp_all (maxDischargeDepth := 12)

@[simp] theorem State.modeRelinquish_parts (s x1) (h : s.partsOk = true) :
    (State.modeRelinquish s x1).partsOk = true := (State.modeRelinquish_okay _ _).go h

theorem State.spanCommand_okay (s x1) : Okay s (State.spanCommand s x1) := by
  constructor; intro h; simp only [State.spanCommand]; (repeat' split) <;> simp_all (maxDischargeDepth := 12)

@[simp] theorem State.spanCommand_parts (s x1) (h : s.partsOk = true) :
    (State.spanCommand s x1).partsOk = true := (State.spanCommand_okay _ _).go h

theorem State.abortCommand_okay (s x1 x2) : Okay s (State.abortCommand s x1 x2) := by
  constructor; intro h; simp only [State.abortCommand]; (repeat' split) <;> simp_all (maxDischargeDepth := 12)

@[simp] theorem State.abortCommand_parts (s x1 x2) (h : s.partsOk = true) :
    (State.abortCommand s x1 x2).partsOk = true := (State.abortCommand_okay _ _ _).go h

theorem State.ltWriteCommand_okay (s : State) (d) : Okay s (s.ltWriteCommand d) := by
  unfold State.ltWriteCommand
  extract_lets k b x
  split
  · exact State.deckFinish_okay ..
  · exact Okay.trans (State.putSlot_okay ..) (State.deckFinish_okay ..)

@[simp] theorem State.ltWriteCommand_parts (s x1) (h : s.partsOk = true) :
    (State.ltWriteCommand s x1).partsOk = true := (State.ltWriteCommand_okay _ _).go h

theorem State.ltClearCommand_okay (s x1) : Okay s (State.ltClearCommand s x1) := by
  constructor; intro h; simp (maxDischargeDepth := 12) [State.ltClearCommand, h]

@[simp] theorem State.ltClearCommand_parts (s x1) (h : s.partsOk = true) :
    (State.ltClearCommand s x1).partsOk = true := (State.ltClearCommand_okay _ _).go h

theorem State.calMapCommand_okay (s x1) : Okay s (State.calMapCommand s x1) := by
  constructor; intro h; simp (maxDischargeDepth := 12) [State.calMapCommand, h]

@[simp] theorem State.calMapCommand_parts (s x1) (h : s.partsOk = true) :
    (State.calMapCommand s x1).partsOk = true := (State.calMapCommand_okay _ _).go h

theorem State.registerCommand_okay (s x1 x2 x3) : Okay s (State.registerCommand s x1 x2 x3) := by
  constructor; intro h; simp only [State.registerCommand]; (repeat' split) <;> simp_all (maxDischargeDepth := 12)

@[simp] theorem State.registerCommand_parts (s x1 x2 x3) (h : s.partsOk = true) :
    (State.registerCommand s x1 x2 x3).partsOk = true := (State.registerCommand_okay _ _ _ _).go h

theorem State.pairRearmCommand_okay (s x1) : Okay s (State.pairRearmCommand s x1) := by
  constructor; intro h; simp only [State.pairRearmCommand]; (repeat' split) <;> simp_all (maxDischargeDepth := 12)

@[simp] theorem State.pairRearmCommand_parts (s x1) (h : s.partsOk = true) :
    (State.pairRearmCommand s x1).partsOk = true := (State.pairRearmCommand_okay _ _).go h

theorem State.adcTrigCommand_okay (s x1) : Okay s (State.adcTrigCommand s x1) := by
  constructor; intro h; simp (maxDischargeDepth := 12) [State.adcTrigCommand, h]

@[simp] theorem State.adcTrigCommand_parts (s x1) (h : s.partsOk = true) :
    (State.adcTrigCommand s x1).partsOk = true := (State.adcTrigCommand_okay _ _).go h

theorem State.tripClearCommand_okay (s x1) : Okay s (State.tripClearCommand s x1) := by
  constructor; intro h; simp (maxDischargeDepth := 12) [State.tripClearCommand, h]

@[simp] theorem State.tripClearCommand_parts (s x1) (h : s.partsOk = true) :
    (State.tripClearCommand s x1).partsOk = true := (State.tripClearCommand_okay _ _).go h

theorem State.pierClearCommand_okay (s x1) : Okay s (State.pierClearCommand s x1) := by
  constructor; intro h; simp (maxDischargeDepth := 12) [State.pierClearCommand, h]

@[simp] theorem State.pierClearCommand_parts (s x1) (h : s.partsOk = true) :
    (State.pierClearCommand s x1).partsOk = true := (State.pierClearCommand_okay _ _).go h

theorem State.jobCommand_okay (s x1) : Okay s (State.jobCommand s x1) := by
  exact ⟨fun h => h⟩

@[simp] theorem State.jobCommand_parts (s x1) (h : s.partsOk = true) :
    (State.jobCommand s x1).partsOk = true := (State.jobCommand_okay _ _).go h

theorem State.deckEffect_okay (s x1 x2 x3 x4) : Okay s (State.deckEffect s x1 x2 x3 x4) := by
  constructor; intro h; simp only [State.deckEffect]; split <;> simp (maxDischargeDepth := 12) [h]

@[simp] theorem State.deckEffect_parts (s x1 x2 x3 x4) (h : s.partsOk = true) :
    (State.deckEffect s x1 x2 x3 x4).partsOk = true := (State.deckEffect_okay _ _ _ _ _).go h

theorem State.runSpan_okay (s x1) : Okay s (State.runSpan s x1) := by
  constructor; intro h; unfold State.runSpan; (repeat' split) <;> simp (maxDischargeDepth := 12) [h]

@[simp] theorem State.runSpan_parts (s x1) (h : s.partsOk = true) :
    (State.runSpan s x1).partsOk = true := (State.runSpan_okay _ _).go h

theorem State.handoverNow_okay (s x1) : Okay s (State.handoverNow s x1) := by
  constructor; intro h; simp only [State.handoverNow]; split <;> simp (maxDischargeDepth := 12) [h]

@[simp] theorem State.handoverNow_parts (s x1) (h : s.partsOk = true) :
    (State.handoverNow s x1).partsOk = true := (State.handoverNow_okay _ _).go h

theorem State.runDeck_okay (s x1) : Okay s (State.runDeck s x1) := by
  constructor; intro h; unfold State.runDeck; (repeat' split) <;> simp (maxDischargeDepth := 12) [h]

@[simp] theorem State.runDeck_parts (s x1) (h : s.partsOk = true) :
    (State.runDeck s x1).partsOk = true := (State.runDeck_okay _ _).go h

theorem State.abutCommand_okay (s x1) : Okay s (State.abutCommand s x1) := by
  constructor; intro h; unfold State.abutCommand; (repeat' split) <;> simp (maxDischargeDepth := 12) [h]

@[simp] theorem State.abutCommand_parts (s x1) (h : s.partsOk = true) :
    (State.abutCommand s x1).partsOk = true := (State.abutCommand_okay _ _).go h

theorem State.faultCommand_okay (s x1) : Okay s (State.faultCommand s x1) := by
  constructor; intro h; unfold State.faultCommand; (repeat' split) <;> simp (maxDischargeDepth := 12) [h]

@[simp] theorem State.faultCommand_parts (s x1) (h : s.partsOk = true) :
    (State.faultCommand s x1).partsOk = true := (State.faultCommand_okay _ _).go h

/-- A command on the deck keeps what its own run keeps. -/
theorem onDeck_okay (s : State) (d) (run : State → State) (h : ∀ t, Okay t (run t)) : Okay s (s.onDeck d run) := by
  unfold State.onDeck
  exact Okay.ite (State.abutCommand_okay ..) (Okay.ite (State.faultCommand_okay ..) (Okay.ite (h s) (.refl _)))

theorem State.spanRow_okay (s : State) (d) : Okay s (s.spanRow d) := by
  unfold State.spanRow
  exact onDeck_okay _ _ _ fun t => Okay.trans (State.prepare_okay ..) (State.runSpan_okay ..)

@[simp] theorem State.spanRow_parts (s x1) (h : s.partsOk = true) :
    (State.spanRow s x1).partsOk = true := (State.spanRow_okay _ _).go h

theorem State.deckRow_okay (s : State) (d) : Okay s (s.deckRow d) := by
  unfold State.deckRow
  exact onDeck_okay _ _ _ fun t => State.runDeck_okay ..

@[simp] theorem State.deckRow_parts (s x1) (h : s.partsOk = true) :
    (State.deckRow s x1).partsOk = true := (State.deckRow_okay _ _).go h

theorem execNop_parts (x0 s) : outOkay (execNop x0 s) s := by
  simp (maxDischargeDepth := 12) +contextual [execNop]

theorem execAbortCmd_parts (x0 s) : outOkay (execAbortCmd x0 s) s := by
  simp (maxDischargeDepth := 12) +contextual [execAbortCmd]

theorem execDeckRestart_parts (d) (s : State) : outOkay (execDeckRestart d s) s := by
  unfold execDeckRestart
  refine onDeck_okay _ _ _ fun t => Okay.ite (Okay.trans (State.leaveToTwin_okay ..) (State.unstage_okay ..)) ?_
  split
  · exact State.deckFinish_okay ..
  · exact State.deckRestart_okay ..

theorem execLtWrite_parts (x0 s) : outOkay (execLtWrite x0 s) s := by
  simp (maxDischargeDepth := 12) +contextual [execLtWrite]

theorem execLtClear_parts (x0 s) : outOkay (execLtClear x0 s) s := by
  simp (maxDischargeDepth := 12) +contextual [execLtClear]

theorem execCalMap_parts (x0 s) : outOkay (execCalMap x0 s) s := by
  simp (maxDischargeDepth := 12) +contextual [execCalMap]

theorem execHandover_parts (x0 s) : outOkay (execHandover x0 s) s := by
  simp (maxDischargeDepth := 12) +contextual [execHandover]

theorem execTlSet_parts (x0 s) : outOkay (execTlSet x0 s) s := by
  simp (maxDischargeDepth := 12) +contextual [execTlSet]

theorem execEngCoef_parts (x0 s) : outOkay (execEngCoef x0 s) s := by
  simp (maxDischargeDepth := 12) +contextual [execEngCoef]

theorem execEngLimit_parts (x0 s) : outOkay (execEngLimit x0 s) s := by
  simp (maxDischargeDepth := 12) +contextual [execEngLimit]

theorem execAdcCal_parts (x0 s) : outOkay (execAdcCal x0 s) s := by
  simp (maxDischargeDepth := 12) +contextual [execAdcCal]

theorem execPairRearm_parts (x0 s) : outOkay (execPairRearm x0 s) s := by
  simp (maxDischargeDepth := 12) +contextual [execPairRearm]

theorem execAdcTrig_parts (x0 s) : outOkay (execAdcTrig x0 s) s := by
  simp (maxDischargeDepth := 12) +contextual [execAdcTrig]

theorem execTripClear_parts (x0 s) : outOkay (execTripClear x0 s) s := by
  simp (maxDischargeDepth := 12) +contextual [execTripClear]

theorem execPierClear_parts (x0 s) : outOkay (execPierClear x0 s) s := by
  simp (maxDischargeDepth := 12) +contextual [execPierClear]

theorem execRecTrig_parts (x0 s) : outOkay (execRecTrig x0 s) s := by
  simp (maxDischargeDepth := 12) +contextual [execRecTrig]

theorem execMode_parts (x0 s) : outOkay (execMode x0 s) s := by
  simp (maxDischargeDepth := 12) +contextual [execMode]

theorem execTqTarget_parts (x0 s) : outOkay (execTqTarget x0 s) s := by
  simp (maxDischargeDepth := 12) +contextual [execTqTarget]

theorem execSpdTarget_parts (x0 s) : outOkay (execSpdTarget x0 s) s := by
  simp (maxDischargeDepth := 12) +contextual [execSpdTarget]

theorem execTPosRearm_parts (x0 s) : outOkay (execTPosRearm x0 s) s := by
  simp (maxDischargeDepth := 12) +contextual [execTPosRearm]

theorem execCVtgt_parts (x0 s) : outOkay (execCVtgt x0 s) s := by
  simp (maxDischargeDepth := 12) +contextual [execCVtgt]

theorem execCItgt_parts (x0 s) : outOkay (execCItgt x0 s) s := by
  simp (maxDischargeDepth := 12) +contextual [execCItgt]

theorem execCPhases_parts (x0 s) : outOkay (execCPhases x0 s) s := by
  simp (maxDischargeDepth := 12) +contextual [execCPhases]

theorem execCCrowbarClr_parts (x0 s) : outOkay (execCCrowbarClr x0 s) s := by
  simp (maxDischargeDepth := 12) +contextual [execCCrowbarClr]

theorem execQPower_parts (x0 s) : outOkay (execQPower x0 s) s := by
  simp (maxDischargeDepth := 12) +contextual [execQPower]

theorem execAHold_parts (x0 s) : outOkay (execAHold x0 s) s := by
  simp (maxDischargeDepth := 12) +contextual [execAHold]

theorem execAShift_parts (x0 s) : outOkay (execAShift x0 s) s := by
  simp (maxDischargeDepth := 12) +contextual [execAShift]

theorem execAPark_parts (x0 s) : outOkay (execAPark x0 s) s := by
  simp (maxDischargeDepth := 12) +contextual [execAPark]

theorem execARelease_parts (x0 s) : outOkay (execARelease x0 s) s := by
  simp (maxDischargeDepth := 12) +contextual [execARelease]

theorem execACurrent_parts (x0 s) : outOkay (execACurrent x0 s) s := by
  simp (maxDischargeDepth := 12) +contextual [execACurrent]

theorem execAHome_parts (x0 s) : outOkay (execAHome x0 s) s := by
  simp (maxDischargeDepth := 12) +contextual [execAHome]

theorem execAPosRearm_parts (x0 s) : outOkay (execAPosRearm x0 s) s := by
  simp (maxDischargeDepth := 12) +contextual [execAPosRearm]

theorem State.testDone_okay (s x1 x2 x3) : Okay s (State.testDone s x1 x2 x3) := by
  constructor; intro h; simp only [State.testDone]; (repeat' split) <;> simp_all (maxDischargeDepth := 12)

@[simp] theorem State.testDone_parts (s x1 x2 x3) (h : s.partsOk = true) :
    (State.testDone s x1 x2 x3).partsOk = true := (State.testDone_okay _ _ _ _).go h

theorem execSelfTest_parts (x0 x1 s) : outOkay (execSelfTest x0 x1 s) s := by
  simp (maxDischargeDepth := 12) +contextual [execSelfTest]

theorem State.actionSpan_okay (s x1 x2) : Okay s (State.actionSpan s x1 x2).2 := by
  unfold State.actionSpan; (try extract_lets); (repeat' first | split | exact Okay.refl _ | with_reducible exact (State.tracDip_okay ..) | with_reducible exact (State.cPhasesCmd_okay ..) | with_reducible exact (State.aShiftCmd_okay ..) | with_reducible exact (State.go_okay ..) | with_reducible exact (State.modeSpan_okay ..) | with_reducible refine Okay.ite ?_ ?_ | with_reducible refine Okay.trans ?_ (State.tracDip_okay ..) | with_reducible refine Okay.trans ?_ (State.cPhasesCmd_okay ..) | with_reducible refine Okay.trans ?_ (State.aShiftCmd_okay ..) | with_reducible refine Okay.trans ?_ (State.go_okay ..) | with_reducible refine Okay.trans ?_ (State.modeSpan_okay ..) | with_reducible refine Okay.trans ?_ (Okay.foldl _ (fun _ _ => ?_) _ _) | with_reducible refine Okay.trans ?_ (Okay.ite ?_ ?_) | with_reducible refine Okay.trans ?_ (Okay.lit _ _ _ (by rfl) (by rfl) (by rfl) (by rfl) ..))

@[simp] theorem State.actionSpan_parts (s x1 x2) (h : s.partsOk = true) :
    (State.actionSpan s x1 x2).2.partsOk = true := (State.actionSpan_okay _ _ _).go h

theorem State.runAction_okay (s : State) (x1) : Okay s (s.runAction x1) := by
  unfold State.runAction
  extract_lets -merge +onlyGivenNames b v xs
  refine Okay.ite ⟨fun h => h⟩ ?_
  extract_lets step
  have h : Okay s (xs.foldl step (s, 0, 0)).1 := by
    refine Okay.foldl_on (fun b : State × Nat × Nat => b.1) step (fun q x => ?_) _ (s, 0, 0)
    dsimp only [step]
    have ha := State.actionSpan_okay q.1 x1 x
    generalize q.1.actionSpan x1 x = r at *
    split
    · exact .refl _
    · exact Okay.trans ha (Okay.foldl (fun (t : State) q => { t with stage := t.stage.quantity none q }) (fun t q => ⟨fun h => h⟩) _ _)
  generalize xs.foldl step (s, 0, 0) = r at *
  obtain ⟨t, st, no⟩ := r
  exact Okay.trans h ⟨fun h => h⟩

@[simp] theorem State.runAction_parts (s x1) (h : s.partsOk = true) :
    (State.runAction s x1).partsOk = true := (State.runAction_okay _ _).go h

theorem State.runProfile_okay (s : State) (x1) : Okay s (s.runProfile x1) := by
  unfold State.runProfile
  extract_lets x m y act
  have h : ∀ r, act = some r → Okay s r.2 := by
    intro r hr
    dsimp only [act] at hr
    repeat' split at hr
    all_goals first
      | (cases hr; done)
      | (cases hr
         first
           | exact State.modeSpan_okay ..
           | exact State.aHoldHere_okay ..
           | exact State.aParkCmd_okay ..)
  clear_value act
  split
  · exact .refl _
  · exact State.withStage_okay ..
  · exact Okay.trans (h _ rfl) (State.withStage_okay ..)

@[simp] theorem State.runProfile_parts (s x1) (h : s.partsOk = true) :
    (State.runProfile s x1).partsOk = true := (State.runProfile_okay _ _).go h

theorem State.fetchSlip_okay (s) : Okay s (State.fetchSlip s) := by
  constructor; intro h; simp only [State.fetchSlip]; split <;> simp (maxDischargeDepth := 12) [h]

@[simp] theorem State.fetchSlip_parts (s) (h : s.partsOk = true) :
    (State.fetchSlip s).partsOk = true := (State.fetchSlip_okay _).go h

theorem State.pageFailed_okay (s) : Okay s (State.pageFailed s) := by
  constructor; intro h; simp (maxDischargeDepth := 12) [State.pageFailed, h]

@[simp] theorem State.pageFailed_parts (s) (h : s.partsOk = true) :
    (State.pageFailed s).partsOk = true := (State.pageFailed_okay _).go h

theorem State.takePage_okay (s x1) : Okay s (State.takePage s x1) := by
  exact ⟨fun h => h⟩

@[simp] theorem State.takePage_parts (s x1) (h : s.partsOk = true) :
    (State.takePage s x1).partsOk = true := (State.takePage_okay _ _).go h

theorem State.judgeFull_okay (s) : Okay s (State.judgeFull s) := by
  constructor; intro h; simp only [State.judgeFull]; split <;> simp (maxDischargeDepth := 12) [h]

@[simp] theorem State.judgeFull_parts (s) (h : s.partsOk = true) :
    (State.judgeFull s).partsOk = true := (State.judgeFull_okay _).go h

theorem State.fetchError_okay (s x1 x2 x3) : Okay s (State.fetchError s x1 x2 x3) := by
  constructor; intro h; simp (maxDischargeDepth := 12) [State.fetchError, h]

@[simp] theorem State.fetchError_parts (s x1 x2 x3) (h : s.partsOk = true) :
    (State.fetchError s x1 x2 x3).partsOk = true := (State.fetchError_okay _ _ _ _).go h

theorem State.fetchOne_okay (s x1) : Okay s (State.fetchOne s x1) := by
  constructor; intro h; simp only [State.fetchOne]; split <;> simp (maxDischargeDepth := 12) [h]

@[simp] theorem State.fetchOne_parts (s x1) (h : s.partsOk = true) :
    (State.fetchOne s x1).partsOk = true := (State.fetchOne_okay _ _).go h

theorem State.hostLoss_okay (s x1) : Okay s (State.hostLoss s x1) := by
  constructor; intro h; simp (maxDischargeDepth := 12) [State.hostLoss, h]

@[simp] theorem State.hostLoss_parts (s x1) (h : s.partsOk = true) :
    (State.hostLoss s x1).partsOk = true := (State.hostLoss_okay _ _).go h

theorem State.hostBack_okay (s) : Okay s (State.hostBack s) := by
  constructor; intro h; simp (maxDischargeDepth := 12) [State.hostBack, h]

@[simp] theorem State.hostBack_parts (s) (h : s.partsOk = true) :
    (State.hostBack s).partsOk = true := (State.hostBack_okay _).go h

theorem State.judgeHost_okay (s x1 x2) : Okay s (State.judgeHost s x1 x2) := by
  constructor; intro h; unfold State.judgeHost; (repeat' split) <;> simp (maxDischargeDepth := 12) [h]

@[simp] theorem State.judgeHost_parts (s x1 x2) (h : s.partsOk = true) :
    (State.judgeHost s x1 x2).partsOk = true := (State.judgeHost_okay _ _ _).go h

theorem State.takeDescs_okay (s x1) : Okay s (State.takeDescs s x1) := by
  constructor; intro h; simp only [State.takeDescs]; (repeat' split) <;> simp_all (maxDischargeDepth := 12)

@[simp] theorem State.takeDescs_parts (s x1) (h : s.partsOk = true) :
    (State.takeDescs s x1).partsOk = true := (State.takeDescs_okay _ _).go h

theorem State.fetchPage_okay (s x1 x2) : Okay s (State.fetchPage s x1 x2) := by
  constructor; intro h; simp only [State.fetchPage]; (repeat' split) <;> simp_all (maxDischargeDepth := 12)

@[simp] theorem State.fetchPage_parts (s x1 x2) (h : s.partsOk = true) :
    (State.fetchPage s x1 x2).partsOk = true := (State.fetchPage_okay _ _ _).go h

theorem execDoorbellFetch_parts (x0 x1 s) : outOkay (execDoorbellFetch x0 x1 s) s := by
  unfold execDoorbellFetch; (repeat' split) <;> simp (maxDischargeDepth := 12) +contextual

theorem execAbutmentServiceTick_parts (x0 x1) (s : State) : outOkay (execAbutmentServiceTick x0 x1 s) s := by
  unfold execAbutmentServiceTick
  refine outOkay.ite (outOkay.of (.refl _)) ?_
  extract_lets -merge +onlyGivenNames m _ _ s1 due s2
  have h1 : Okay s s1 := ⟨fun h => h⟩
  have h2 : Okay s s2 := h1.trans (Okay.foldl _ (fun t d => Okay.ite (State.abutCommand_okay ..) (.refl _)) _ _)
  clear_value s2
  refine outOkay.ite (outOkay.of h2) ?_
  extract_lets -merge +onlyGivenNames s3 old s4
  have h3 : Okay s s3 := h2.trans (Okay.trans (State.writeCompletions_okay ..) (State.writeEvents_okay ..))
  have h4 : Okay s s4 := h3.trans (Okay.ite (Okay.trans (State.advanceProd_okay ..) (State.fetchPage_okay ..)) (.refl _))
  clear_value s4
  exact outOkay.of (h4.trans ⟨fun h => h⟩)

theorem State.fbReply_okay (s x1 x2 x3 x4) : Okay s (State.fbReply s x1 x2 x3 x4) := by
  constructor; intro h; simp (maxDischargeDepth := 12) [State.fbReply, h]

@[simp] theorem State.fbReply_parts (s x1 x2 x3 x4) (h : s.partsOk = true) :
    (State.fbReply s x1 x2 x3 x4).partsOk = true := (State.fbReply_okay _ _ _ _ _).go h

theorem State.fbRefuse_okay (s x1 x2 x3) : Okay s (State.fbRefuse s x1 x2 x3) := by
  constructor; intro h; simp (maxDischargeDepth := 12) [State.fbRefuse, h]

@[simp] theorem State.fbRefuse_parts (s x1 x2 x3) (h : s.partsOk = true) :
    (State.fbRefuse s x1 x2 x3).partsOk = true := (State.fbRefuse_okay _ _ _ _).go h

theorem execFallbackFrame_parts (s) : outOkay (execFallbackFrame s) s := by
  simp only [execFallbackFrame]; (repeat' split) <;> simp (maxDischargeDepth := 12) +contextual

theorem State.fbApply_okay (s : State) (x1) : Okay s (s.fbApply x1) := by
  unfold State.fbApply
  extract_lets stopNo step
  have ha : ∀ act ∈ s.fbActs x1, ∀ t, Okay t (act t).2 := by
    intro act h t
    unfold State.fbActs at h
    extract_lets at h
    split at h
    · rcases List.mem_append.mp h with h | h
      all_goals
        obtain ⟨x, -, rfl⟩ := List.mem_map.mp h
        first | exact State.modeSpan_okay .. | exact State.aHoldHere_okay ..
    · obtain ⟨x, -, rfl⟩ := List.mem_map.mp h
      exact State.modeSpan_okay ..
    · obtain ⟨x, -, rfl⟩ := List.mem_map.mp h
      exact State.aParkCmd_okay ..
    · exact absurd h List.not_mem_nil
  have h : ∀ (l : List (State → Verdict × State)) (q : State × Bool), (∀ act ∈ l, ∀ t, Okay t (act t).2) → Okay q.1 (l.foldl step q).1 := by
    intro l
    induction l with
    | nil => exact fun q _ => .refl _
    | cons a l ih =>
      intro q hl
      refine Okay.trans ?_ (ih _ fun b hb => hl b (List.mem_cons_of_mem _ hb))
      dsimp only [step]
      split
      · exact .refl _
      · exact hl a List.mem_cons_self q.1
  have h := h _ (s, stopNo) ha
  generalize (s.fbActs x1).foldl step (s, stopNo) = r at *
  obtain ⟨t, no⟩ := r
  exact Okay.trans h (State.withStage_okay ..)

@[simp] theorem State.fbApply_parts (s x1) (h : s.partsOk = true) :
    (State.fbApply s x1).partsOk = true := (State.fbApply_okay _ _).go h

theorem execPhi0Snapshot_parts (x0 x1 s) : outOkay (execPhi0Snapshot x0 x1 s) s := by
  unfold execPhi0Snapshot; (repeat' split) <;> simp (maxDischargeDepth := 12) +contextual

theorem State.derateLink_okay (s) : Okay s (State.derateLink s) := by
  exact ⟨fun h => h⟩

@[simp] theorem State.derateLink_parts (s) (h : s.partsOk = true) :
    (State.derateLink s).partsOk = true := (State.derateLink_okay _).go h

theorem State.keepS3_okay (s x1 x2 x3 x4) : Okay s (State.keepS3 s x1 x2 x3 x4) := by
  constructor; intro h; simp only [State.keepS3]; split <;> simp (maxDischargeDepth := 12) [h]

@[simp] theorem State.keepS3_parts (s x1 x2 x3 x4) (h : s.partsOk = true) :
    (State.keepS3 s x1 x2 x3 x4).partsOk = true := (State.keepS3_okay _ _ _ _ _).go h

theorem State.engines_okay (s x1 x2 x3) : Okay s (State.engines s x1 x2 x3).1 := by
  constructor; intro h; simp (maxDischargeDepth := 12) [State.engines, h]

@[simp] theorem State.engines_parts (s x1 x2 x3) (h : s.partsOk = true) :
    (State.engines s x1 x2 x3).1.partsOk = true := (State.engines_okay _ _ _ _).go h

theorem State.computeTrac_okay (s x1 x2) : Okay s (State.computeTrac s x1 x2) := by
  constructor; intro h; simp only [State.computeTrac]; split <;> simp (maxDischargeDepth := 12) [h]

@[simp] theorem State.computeTrac_parts (s x1 x2) (h : s.partsOk = true) :
    (State.computeTrac s x1 x2).partsOk = true := (State.computeTrac_okay _ _ _).go h

theorem State.computeC_okay (s x1) : Okay s (State.computeC s x1) := by
  constructor; intro h; simp only [State.computeC]; split <;> simp (maxDischargeDepth := 12) [h]

@[simp] theorem State.computeC_parts (s x1) (h : s.partsOk = true) :
    (State.computeC s x1).partsOk = true := (State.computeC_okay _ _).go h

theorem State.computeQ_okay (s x1) : Okay s (State.computeQ s x1) := by
  constructor; intro h; simp only [State.computeQ]; split <;> simp (maxDischargeDepth := 12) [h]

@[simp] theorem State.computeQ_parts (s x1) (h : s.partsOk = true) :
    (State.computeQ s x1).partsOk = true := (State.computeQ_okay _ _).go h

theorem State.computeB_okay (s) : Okay s (State.computeB s) := by
  constructor; intro h; simp only [State.computeB]; split <;> simp (maxDischargeDepth := 12) [h]

@[simp] theorem State.computeB_parts (s) (h : s.partsOk = true) :
    (State.computeB s).partsOk = true := (State.computeB_okay _).go h

theorem State.computeA_okay (s x1 x2) : Okay s (State.computeA s x1 x2) := by
  constructor; intro h; unfold State.computeA; (repeat' split) <;> simp (maxDischargeDepth := 12) [h]

@[simp] theorem State.computeA_parts (s x1 x2) (h : s.partsOk = true) :
    (State.computeA s x1 x2).partsOk = true := (State.computeA_okay _ _ _).go h

theorem State.computeSpans_okay (s) : Okay s (State.computeSpans s) := by
  constructor; intro h; simp only [State.computeSpans]; (repeat' split) <;> simp_all (maxDischargeDepth := 12)

@[simp] theorem State.computeSpans_parts (s) (h : s.partsOk = true) :
    (State.computeSpans s).partsOk = true := (State.computeSpans_okay _).go h

theorem State.putOff_okay (s x1 x2) : Okay s (State.putOff s x1 x2).2 := by
  constructor; intro h; simp only [State.putOff]; split <;> simp (maxDischargeDepth := 12) [h]

@[simp] theorem State.putOff_parts (s x1 x2) (h : s.partsOk = true) :
    (State.putOff s x1 x2).2.partsOk = true := (State.putOff_okay _ _ _).go h

/-- One staged command of the scan. -/
theorem runStaged_okay (p : State × Nat) (d : Staged) : Okay p.1 (State.runStaged p d).1 := by
  unfold State.runStaged
  extract_lets -merge +onlyGivenNames s std
  have h : Okay s (s.putOff d p.2).2 := State.putOff_okay ..
  generalize s.putOff d p.2 = r at *
  obtain ⟨off, t⟩ := r
  dsimp -zeta only
  split
  · exact h
  extract_lets -merge +onlyGivenNames k
  split
  · exact State.runSpan_okay ..
  split
  · exact .refl _
  split
  · exact ⟨fun h => h⟩
  split
  · exact State.leaveToTwin_okay ..
  split
  · exact ⟨fun h => h⟩
  · extract_lets -merge +onlyGivenNames u
    have hu : Okay s u := Okay.ite (State.stageHandover_okay ..) (.refl _)
    clear_value u
    exact Okay.trans hu ⟨fun h => h⟩

theorem State.runCommands_okay (s : State) : Okay s s.runCommands := by
  unfold State.runCommands
  extract_lets -merge +onlyGivenNames b s1 s2 s3
  have h1 : Okay s s1 := Okay.foldl State.runProfile State.runProfile_okay _ _
  have h2 : Okay s s2 := h1.trans (Okay.foldl_on (fun b : State × Nat => b.1) State.runStaged (runStaged_okay) _ (s1, 0))
  have h3 : Okay s s3 := h2.trans (Okay.foldl _ (fun t f => State.fbApply_okay ..) _ _)
  exact h3.trans (Okay.foldl State.runAction State.runAction_okay _ _)

@[simp] theorem State.runCommands_parts (s) (h : s.partsOk = true) :
    (State.runCommands s).partsOk = true := (State.runCommands_okay _).go h

theorem State.judgeSlack_okay (s x1) : Okay s (State.judgeSlack s x1) := by
  constructor; intro h; simp only [State.judgeSlack]; split <;> simp (maxDischargeDepth := 12) [h]

@[simp] theorem State.judgeSlack_parts (s x1) (h : s.partsOk = true) :
    (State.judgeSlack s x1).partsOk = true := (State.judgeSlack_okay _ _).go h

theorem State.doNote_okay (s x1) : Okay s (State.doNote s x1) := by
  constructor; intro h; unfold State.doNote; (repeat' split) <;> simp (maxDischargeDepth := 12) [h]

@[simp] theorem State.doNote_parts (s x1) (h : s.partsOk = true) :
    (State.doNote s x1).partsOk = true := (State.doNote_okay _ _).go h

theorem State.raiseFound_okay (s) : Okay s (State.raiseFound s) := by
  constructor; intro h; simp only [State.raiseFound]; (repeat' split) <;> simp_all (maxDischargeDepth := 12)

@[simp] theorem State.raiseFound_parts (s) (h : s.partsOk = true) :
    (State.raiseFound s).partsOk = true := (State.raiseFound_okay _).go h

theorem execPhi2Compute_parts (x0 x1 s) : outOkay (execPhi2Compute x0 x1 s) s := by
  unfold execPhi2Compute; (repeat' split) <;> simp (maxDischargeDepth := 12) +contextual

theorem State.dropRunning_okay (s) : Okay s (State.dropRunning s) := by
  exact ⟨fun h => h⟩

@[simp] theorem State.dropRunning_parts (s) (h : s.partsOk = true) :
    (State.dropRunning s).partsOk = true := (State.dropRunning_okay _).go h

theorem State.faultCompletions_okay (s) : Okay s (State.faultCompletions s) := by
  constructor; intro h; simp only [State.faultCompletions]; (repeat' split) <;> simp_all (maxDischargeDepth := 12)

@[simp] theorem State.faultCompletions_parts (s) (h : s.partsOk = true) :
    (State.faultCompletions s).partsOk = true := (State.faultCompletions_okay _).go h

theorem State.sendFrame_okay (s x1) : Okay s (State.sendFrame s x1) := by
  constructor; intro h; simp only [State.sendFrame]; (repeat' split) <;> simp_all (maxDischargeDepth := 12) 

@[simp] theorem State.sendFrame_parts (s x1) (h : s.partsOk = true) :
    (State.sendFrame s x1).partsOk = true := (State.sendFrame_okay _ _).go h

theorem State.dropEvents_okay (s) : Okay s (State.dropEvents s) := by
  exact ⟨fun h => h⟩

@[simp] theorem State.dropEvents_parts (s) (h : s.partsOk = true) :
    (State.dropEvents s).partsOk = true := (State.dropEvents_okay _).go h

theorem State.writeRings_okay (s) : Okay s (State.writeRings s) := by
  constructor; intro h; unfold State.writeRings; (repeat' split) <;> simp (maxDischargeDepth := 12) [h]

@[simp] theorem State.writeRings_parts (s) (h : s.partsOk = true) :
    (State.writeRings s).partsOk = true := (State.writeRings_okay _).go h

theorem execPhi3Mirror_parts (s : State) : outOkay (execPhi3Mirror s) s := by
  unfold execPhi3Mirror
  refine outOkay.ite (outOkay.of (.refl _)) ?_
  extract_lets -merge +onlyGivenNames _ s1 s2
  have h1 : Okay s s1 := Okay.trans (t := { s with tk := { s.tk with phi3Done := true } }) ⟨fun h => h⟩ (State.writeRings_okay ..)
  have h2 : Okay s s2 := h1.trans (State.sendFrame_okay ..)
  clear_value s2
  split
  · exact outOkay.of (h2.trans (State.deckRestart_okay ..))
  · exact outOkay.of h2

theorem State.commitStage_okay (s x1) : Okay s (State.commitStage s x1) := by
  constructor; intro h; simp only [State.commitStage]; (repeat' split) <;> simp_all (maxDischargeDepth := 12)

@[simp] theorem State.commitStage_parts (s x1) (h : s.partsOk = true) :
    (State.commitStage s x1).partsOk = true := (State.commitStage_okay _ _).go h

theorem State.actionAt_okay (s x1 x2 x3 x4) : Okay s (State.actionAt s x1 x2 x3 x4) := by
  constructor; intro h; simp only [State.actionAt]; (repeat' split) <;> simp_all (maxDischargeDepth := 12)

@[simp] theorem State.actionAt_parts (s x1 x2 x3 x4) (h : s.partsOk = true) :
    (State.actionAt s x1 x2 x3 x4).partsOk = true := (State.actionAt_okay _ _ _ _ _).go h

theorem State.launchAt_okay (s x1 x2 x3 x4) : Okay s (State.launchAt s x1 x2 x3 x4) := by
  constructor; intro h; simp only [State.launchAt]; (repeat' split) <;> simp_all (maxDischargeDepth := 12)

@[simp] theorem State.launchAt_parts (s x1 x2 x3 x4) (h : s.partsOk = true) :
    (State.launchAt s x1 x2 x3 x4).partsOk = true := (State.launchAt_okay _ _ _ _ _).go h

theorem State.deckCommands_okay (s : State) (x1 x2 x3 x4) : Okay s (s.deckCommands x1 x2 x3 x4) := by
  unfold State.deckCommands
  extract_lets due isReg later one
  have h : ∀ t d, Okay t (one t d) := by
    intro t d
    dsimp only [one]
    split
    · exact State.deckFinish_okay ..
    · exact Okay.ite (.refl _) (Okay.ite (State.unstage_okay ..) (State.deckEffect_okay ..))
  exact (Okay.foldl one h _ _).trans (Okay.foldl one h _ _)

@[simp] theorem State.deckCommands_parts (s x1 x2 x3 x4) (h : s.partsOk = true) :
    (State.deckCommands s x1 x2 x3 x4).partsOk = true := (State.deckCommands_okay _ _ _ _ _).go h

theorem State.overdue_okay (s x1 x2) : Okay s (State.overdue s x1 x2) := by
  exact ⟨fun h => h⟩

@[simp] theorem State.overdue_parts (s x1 x2) (h : s.partsOk = true) :
    (State.overdue s x1 x2).partsOk = true := (State.overdue_okay _ _ _).go h

theorem State.overrun_okay (s x1) : Okay s (State.overrun s x1) := by
  constructor; intro h; simp only [State.overrun]; (repeat' split) <;> simp_all (maxDischargeDepth := 12)

@[simp] theorem State.overrun_parts (s x1) (h : s.partsOk = true) :
    (State.overrun s x1).partsOk = true := (State.overrun_okay _ _).go h

theorem State.overrunEvents_okay (s x1 x2) : Okay s (State.overrunEvents s x1 x2) := by
  constructor; intro h; simp only [State.overrunEvents]; split <;> simp (maxDischargeDepth := 12) [h]

@[simp] theorem State.overrunEvents_parts (s x1 x2) (h : s.partsOk = true) :
    (State.overrunEvents s x1 x2).partsOk = true := (State.overrunEvents_okay _ _ _).go h

theorem State.capacityBoundary_okay (s) : Okay s (State.capacityBoundary s) := by
  unfold State.capacityBoundary; (try extract_lets); (repeat' first | split | exact Okay.refl _ | with_reducible exact (State.raise_okay ..) | with_reducible exact (State.updateAvail_okay ..) | with_reducible refine Okay.ite ?_ ?_ | with_reducible refine Okay.trans ?_ (State.raise_okay ..) | with_reducible refine Okay.trans ?_ (State.updateAvail_okay ..) | with_reducible refine Okay.trans ?_ (Okay.foldl _ (fun _ _ => ?_) _ _) | with_reducible refine Okay.trans ?_ (Okay.ite ?_ ?_) | with_reducible refine Okay.trans ?_ (Okay.lit _ _ _ (by rfl) (by rfl) (by rfl) (by rfl) ..))

@[simp] theorem State.capacityBoundary_parts (s) (h : s.partsOk = true) :
    (State.capacityBoundary s).partsOk = true := (State.capacityBoundary_okay _).go h

theorem State.forgetRefusals_okay (s : State) : Okay s s.forgetRefusals := by
  unfold State.forgetRefusals
  exact Okay.foldl _ (fun t c => Okay.ite (State.updConv_okay ..) (.refl _)) _ _

@[simp] theorem State.forgetRefusals_parts (s) (h : s.partsOk = true) :
    (State.forgetRefusals s).partsOk = true := (State.forgetRefusals_okay _).go h

theorem State.openTick_okay (s x1) : Okay s (State.openTick s x1) := by
  exact ⟨fun h => h⟩

@[simp] theorem State.openTick_parts (s x1) (h : s.partsOk = true) :
    (State.openTick s x1).partsOk = true := (State.openTick_okay _ _).go h

theorem State.captures_okay (s x1) : Okay s (State.captures s x1) := by
  unfold State.captures
  extract_lets t drop
  have h : Okay s t := Okay.trans (State.capture_okay ..) (Okay.trans (State.capture_okay ..) (State.hallBoundary_okay ..))
  exact h.trans (Okay.same rfl rfl rfl rfl rfl rfl rfl rfl)

@[simp] theorem State.captures_parts (s x1) (h : s.partsOk = true) :
    (State.captures s x1).partsOk = true := (State.captures_okay _ _).go h

theorem State.giveUpSafe_okay (s) : Okay s (State.giveUpSafe s) := by
  constructor; intro h; simp only [State.giveUpSafe]; (repeat' split) <;> simp_all (maxDischargeDepth := 12)

@[simp] theorem State.giveUpSafe_parts (s) (h : s.partsOk = true) :
    (State.giveUpSafe s).partsOk = true := (State.giveUpSafe_okay _).go h

theorem State.trussBoundary_okay (s : State) (x1 x2 x3) : Okay s (s.trussBoundary x1 x2 x3) := by
  unfold State.trussBoundary
  extract_lets s1 s2
  have h1 : Okay s s1 := Okay.trans (State.moveSets_okay ..) (State.latchPatterns_okay ..)
  have h2 : Okay s s2 := h1.trans (State.syncCheck_okay ..)
  have h3 : Okay s (s2.dtUpset x2.dtUpset).dtBoundary.1 := h2.trans (Okay.trans (State.dtUpset_okay ..) (State.dtBoundary_okay ..))
  clear_value s2
  generalize (s2.dtUpset x2.dtUpset).dtBoundary = r at *
  obtain ⟨t, bad⟩ := r
  exact Okay.trans h3 (Okay.ite (State.digestFault_okay ..) (.refl _))

@[simp] theorem State.trussBoundary_parts (s x1 x2 x3) (h : s.partsOk = true) :
    (State.trussBoundary s x1 x2 x3).partsOk = true := (State.trussBoundary_okay _ _ _ _).go h

theorem State.startAndPair_okay (s) : Okay s (State.startAndPair s) := by
  constructor; intro h; simp only [State.startAndPair]; split <;> simp (maxDischargeDepth := 12) [h]

@[simp] theorem State.startAndPair_parts (s) (h : s.partsOk = true) :
    (State.startAndPair s).partsOk = true := (State.startAndPair_okay _).go h

theorem State.lateLong_okay (s) : Okay s (State.lateLong s) := by
  constructor; intro h; simp only [State.lateLong]; (repeat' split) <;> simp_all (maxDischargeDepth := 12) 

@[simp] theorem State.lateLong_parts (s) (h : s.partsOk = true) :
    (State.lateLong s).partsOk = true := (State.lateLong_okay _).go h

theorem State.endTick_okay (s x1 x2) : Okay s (State.endTick s x1 x2) := by
  constructor; intro h; simp only [State.endTick]; (repeat' split) <;> simp_all (maxDischargeDepth := 12)

@[simp] theorem State.endTick_parts (s x1 x2) (h : s.partsOk = true) :
    (State.endTick s x1 x2).partsOk = true := (State.endTick_okay _ _ _).go h

theorem State.landTick_okay (s : State) (x1 x2 x3 x4 x5) : Okay s (s.landTick x1 x2 x3 x4 x5) := by
  unfold State.landTick
  extract_lets -merge +onlyGivenNames b old posted landed s1 s2 s3
  have h1 : Okay s s1 := Okay.trans (State.landTl_okay ..) (Okay.trans (State.commitStage_okay ..) (State.launchAt_okay ..))
  have h2 : Okay s s2 := h1.trans (Okay.ite (.refl _) (Okay.trans (State.deckCommands_okay ..) (State.overdue_okay ..)))
  have h3 : Okay s s3 := h2.trans (Okay.ite (State.keystoneSafe_okay ..) (.refl _))
  exact h3.trans (Okay.trans (State.giveUpSafe_okay ..) (State.trussBoundary_okay ..))

@[simp] theorem State.landTick_parts (s x1 x2 x3 x4 x5) (h : s.partsOk = true) :
    (State.landTick s x1 x2 x3 x4 x5).partsOk = true := (State.landTick_okay _ _ _ _ _ _).go h

theorem State.beginTick_okay (s : State) (x1 x2) : Okay s (s.beginTick x1 x2) := by
  unfold State.beginTick
  have cal : ∀ t : State, Okay t t.calBoundary.capacityBoundary.startAndPair := fun t =>
    Okay.trans (State.calBoundary_okay t) (Okay.trans (State.capacityBoundary_okay _) (State.startAndPair_okay _))
  have par : ∀ (t : State) (p k), Okay t (t.releaseBoundary.trestleInputs.watchdogBoundary.sampleContactor p k) := fun t p k =>
    Okay.trans (State.releaseBoundary_okay t) (Okay.trans (State.trestleInputs_okay _)
      (Okay.trans (State.watchdogBoundary_okay _) (State.sampleContactor_okay _ p k)))
  have opn : ∀ (t : State) (o), Okay t ((t.openTick o).forgetRefusals.relinquish) := fun t o =>
    Okay.trans (State.openTick_okay t o) (Okay.trans (State.forgetRefusals_okay _) (State.relinquish_okay _))
  have cap : Okay s (s.captures x1).uvBoundary := Okay.trans (State.captures_okay s x1) (State.uvBoundary_okay _)
  have leg : ∀ (t : State) (o), Okay t (t.boundaryLegs o) := fun t o => State.boundaryLegs_okay t o
  exact cap.trans ((opn _ x2).trans ((leg _ x2).trans ((par _ _ _).trans (cal _))))

@[simp] theorem State.beginTick_parts (s x1 x2) (h : s.partsOk = true) :
    (State.beginTick s x1 x2).partsOk = true := (State.beginTick_okay _ _ _).go h

theorem execTickBoundary_parts (x0 s) : outOkay (execTickBoundary x0 s) s := by
  unfold execTickBoundary; (repeat' split) <;> simp (maxDischargeDepth := 12) +contextual

end Sys2Proof.Machine
end

