-- ==== Sys2Proof/Laws/Ticks.lean ====
section
/-! SUPPORT. One lemma per operation: what the operations of a boundary leave of the queue and of the number of the tick; then the count of a tick boundary. -/
namespace Sys2Proof.Machine
set_option linter.all false

/-- A fold of steps that each leave it alone leaves it alone. -/
@[simp] theorem foldl_queue {α : Type} (g : State → α → State) (l : List α) (s : State) (h : ∀ t a, (g t a).pending = t.pending) :
    (l.foldl g s).pending = s.pending := by
  induction l generalizing s with
  | nil => rfl
  | cons a l ih => rw [List.foldl_cons, ih, h]

/-- A fold of steps that each leave it alone leaves it alone. -/
@[simp] theorem foldl_count {α : Type} (g : State → α → State) (l : List α) (s : State) (h : ∀ t a, (g t a).tk.count = t.tk.count) :
    (l.foldl g s).tk.count = s.tk.count := by
  induction l generalizing s with
  | nil => rfl
  | cons a l ih => rw [List.foldl_cons, ih, h]

/-- An outcome that leaves the queue and the number of the tick alone. -/
def outTicks (o : Host.Outcome State Fault Refusal) (s : State) : Prop :=
  match o with
  | .next t => t.pending = s.pending ∧ t.tk.count = s.tk.count
  | _ => True
@[simp] theorem outTicks_next (t s : State) :
    outTicks (Host.Outcome.next t) s ↔ t.pending = s.pending ∧ t.tk.count = s.tk.count := Iff.rfl
/-- An outcome that leaves the queue alone. -/
def outTicksQueue (o : Host.Outcome State Fault Refusal) (s : State) : Prop :=
  match o with
  | .next t => t.pending = s.pending
  | _ => True
@[simp] theorem outTicksQueue_next (t s : State) : outTicksQueue (Host.Outcome.next t) s ↔ t.pending = s.pending := Iff.rfl
/-- The weaker says less. -/
theorem outTicks.queue {o : Host.Outcome State Fault Refusal} {s : State} (h : outTicks o s) : outTicksQueue o s := by
  cases o
  · exact h.1
  all_goals trivial

/-- `t` has the queue and the number of the tick of `s`. -/
def Ticked (s t : State) : Prop := t.pending = s.pending ∧ t.tk.count = s.tk.count
/-- Nothing has moved. -/
theorem Ticked.refl (s : State) : Ticked s s := ⟨rfl, rfl⟩
/-- One step after another. -/
theorem Ticked.trans {s t u : State} (h : Ticked s t) (k : Ticked t u) : Ticked s u := ⟨k.1.trans h.1, k.2.trans h.2⟩
/-- A fold of steps that each keep them keeps them. -/
theorem Ticked.foldl {α : Type} (g : State → α → State) (h : ∀ t a, Ticked t (g t a)) (l : List α) (s : State) : Ticked s (l.foldl g s) := by
  induction l generalizing s with
  | nil => exact .refl s
  | cons a l ih => exact (h s a).trans (ih _)
/-- The same of a fold that carries more than a state. -/
theorem Ticked.foldl_on {α β : Type} (π : β → State) (g : β → α → β) (h : ∀ b a, Ticked (π b) (π (g b a))) (l : List α) (b : β) : Ticked (π b) (π (l.foldl g b)) := by
  induction l generalizing b with
  | nil => exact .refl _
  | cons a l ih => exact (h b a).trans (ih _)
/-- Either branch. -/
theorem Ticked.ite {c : Prop} [Decidable c] {s t u : State} (h : Ticked s t) (k : Ticked s u) : Ticked s (if c then t else u) := by
  split <;> assumption

/-- The two facts. -/
theorem Ticked.of {s t : State} (h : t.pending = s.pending ∧ t.tk.count = s.tk.count) : Ticked s t := h
/-- A record that names neither the queue nor the number of the tick. -/
theorem Ticked.lit (t : State) (tk : TickS) (h : tk.count = t.tk.count) (x1 x3 x4 x5 x6 x7 x8 x9 x10 x11 x12 x13 x14 x15 x16 x17 x18 x19 x20 x21 x22 x23 x24 x25 x26 x27 x28 x29) :
    Ticked t (State.mk t.pending x1 tk x3 x4 x5 x6 x7 x8 x9 x10 x11 x12 x13 x14 x15 x16 x17 x18 x19 x20 x21 x22 x23 x24 x25 x26 x27 x28 x29) := ⟨rfl, h⟩
/-- The outcome of a state that keeps them. -/
theorem outTicks.of {s t : State} (h : Ticked s t) : outTicks (.next t) s := h
/-- Either branch of an outcome. -/
theorem outTicks.ite {c : Prop} [Decidable c] {s : State} {o p : Host.Outcome State Fault Refusal} (h : outTicks o s) (k : outTicks p s) : outTicks (if c then o else p) s := by
  split <;> assumption

@[simp] theorem State.setReg_ticks (s x1 x2) :
    (State.setReg s x1 x2).pending = s.pending ∧ (State.setReg s x1 x2).tk.count = s.tk.count := by
  exact ⟨rfl, rfl⟩

@[simp] theorem State.updLeg_ticks (s x1 x2) :
    (State.updLeg s x1 x2).pending = s.pending ∧ (State.updLeg s x1 x2).tk.count = s.tk.count := by
  exact ⟨rfl, rfl⟩

@[simp] theorem State.updLegs_ticks (s x1 x2) :
    (State.updLegs s x1 x2).pending = s.pending ∧ (State.updLegs s x1 x2).tk.count = s.tk.count := by
  refine ⟨?_, ?_⟩ <;> simp [State.updLegs]

@[simp] theorem State.updConv_ticks (s x1 x2) :
    (State.updConv s x1 x2).pending = s.pending ∧ (State.updConv s x1 x2).tk.count = s.tk.count := by
  exact ⟨rfl, rfl⟩

@[simp] theorem State.updInp_ticks (s x1 x2) :
    (State.updInp s x1 x2).pending = s.pending ∧ (State.updInp s x1 x2).tk.count = s.tk.count := by
  exact ⟨rfl, rfl⟩

@[simp] theorem State.updPair_ticks (s x1 x2) :
    (State.updPair s x1 x2).pending = s.pending ∧ (State.updPair s x1 x2).tk.count = s.tk.count := by
  exact ⟨rfl, rfl⟩

@[simp] theorem State.updRej_ticks (s x1 x2) :
    (State.updRej s x1 x2).pending = s.pending ∧ (State.updRej s x1 x2).tk.count = s.tk.count := by
  exact ⟨rfl, rfl⟩

@[simp] theorem State.updHall_ticks (s x1 x2) :
    (State.updHall s x1 x2).pending = s.pending ∧ (State.updHall s x1 x2).tk.count = s.tk.count := by
  exact ⟨rfl, rfl⟩

@[simp] theorem State.updPort_ticks (s x1 x2) :
    (State.updPort s x1 x2).pending = s.pending ∧ (State.updPort s x1 x2).tk.count = s.tk.count := by
  exact ⟨rfl, rfl⟩

@[simp] theorem State.updPos_ticks (s x1 x2) :
    (State.updPos s x1 x2).pending = s.pending ∧ (State.updPos s x1 x2).tk.count = s.tk.count := by
  refine ⟨?_, ?_⟩ <;> (simp only [State.updPos]; split <;> simp)

@[simp] theorem State.stick_ticks (s x1) :
    (State.stick s x1).pending = s.pending ∧ (State.stick s x1).tk.count = s.tk.count := by
  exact ⟨rfl, rfl⟩

@[simp] theorem State.at_ticks (s x1) :
    (State.at s x1).pending = s.pending ∧ (State.at s x1).tk.count = s.tk.count := by
  exact ⟨rfl, rfl⟩

@[simp] theorem State.goto_ticks (s x1) :
    (State.goto s x1).pending = s.pending ∧ (State.goto s x1).tk.count = s.tk.count := by
  exact ⟨rfl, rfl⟩

@[simp] theorem State.logEvent_ticks (s x1) :
    (State.logEvent s x1).pending = s.pending ∧ (State.logEvent s x1).tk.count = s.tk.count := by
  refine ⟨?_, ?_⟩ <;> (simp only [State.logEvent]; (repeat' split) <;> simp_all)

@[simp] theorem State.noteTrigger_ticks (s x1) :
    (State.noteTrigger s x1).pending = s.pending ∧ (State.noteTrigger s x1).tk.count = s.tk.count := by
  refine ⟨?_, ?_⟩ <;> (simp only [State.noteTrigger]; split <;> simp)

@[simp] theorem State.raise_ticks (s x1 x2 x3 x4 x5) :
    (State.raise s x1 x2 x3 x4 x5).pending = s.pending ∧ (State.raise s x1 x2 x3 x4 x5).tk.count = s.tk.count := by
  refine ⟨?_, ?_⟩ <;> (simp only [State.raise]; split <;> simp)

@[simp] theorem State.accessViolation_ticks (s x1) :
    (State.accessViolation s x1).pending = s.pending ∧ (State.accessViolation s x1).tk.count = s.tk.count := by
  refine ⟨?_, ?_⟩ <;> simp [State.accessViolation]

@[simp] theorem State.signal_ticks (s x1) :
    (State.signal s x1).pending = s.pending ∧ (State.signal s x1).tk.count = s.tk.count := by
  refine ⟨?_, ?_⟩ <;> (simp only [State.signal]; split <;> simp)

@[simp] theorem State.withStage_ticks (s x1) :
    (State.withStage s x1).pending = s.pending ∧ (State.withStage s x1).tk.count = s.tk.count := by
  exact ⟨rfl, rfl⟩

@[simp] theorem State.windowCompare_ticks (s x1 x2) :
    (State.windowCompare s x1 x2).pending = s.pending ∧ (State.windowCompare s x1 x2).tk.count = s.tk.count := by
  refine ⟨?_, ?_⟩ <;> (simp only [State.windowCompare]; (repeat' split) <;> simp_all)

@[simp] theorem State.deliver_ticks (s x1 x2 x3 x4 x5 x6 x7) :
    (State.deliver s x1 x2 x3 x4 x5 x6 x7).pending = s.pending ∧ (State.deliver s x1 x2 x3 x4 x5 x6 x7).tk.count = s.tk.count := by
  refine ⟨?_, ?_⟩ <;> (simp only [State.deliver]; split <;> simp)

@[simp] theorem State.refuse_ticks (s x1 x2) :
    (State.refuse s x1 x2).pending = s.pending ∧ (State.refuse s x1 x2).tk.count = s.tk.count := by
  refine ⟨?_, ?_⟩ <;> simp [State.refuse]

@[simp] theorem State.startRegular_ticks (s x1 x2) :
    (State.startRegular s x1 x2).pending = s.pending ∧ (State.startRegular s x1 x2).tk.count = s.tk.count := by
  refine ⟨?_, ?_⟩ <;> (simp only [State.startRegular]; (repeat' split) <;> simp_all)

@[simp] theorem State.startSlot0_ticks (s x1 x2) :
    (State.startSlot0 s x1 x2).pending = s.pending ∧ (State.startSlot0 s x1 x2).tk.count = s.tk.count := by
  refine ⟨?_, ?_⟩ <;> (simp only [State.startSlot0]; split <;> simp)

@[simp] theorem State.enqueue_ticks (s x1 x2) :
    (State.enqueue s x1 x2).pending = s.pending ∧ (State.enqueue s x1 x2).tk.count = s.tk.count := by
  refine ⟨?_, ?_⟩ <;> (simp only [State.enqueue]; (repeat' split) <;> simp_all)

@[simp] theorem State.injectedCode_ticks (s x1 x2 x3 x4 x5) :
    (State.injectedCode s x1 x2 x3 x4 x5).pending = s.pending ∧ (State.injectedCode s x1 x2 x3 x4 x5).tk.count = s.tk.count := by
  refine ⟨?_, ?_⟩ <;> (simp only [State.injectedCode]; (repeat' split) <;> simp_all)

theorem State.injectedCodes_stays (s : State) (x1 x2 x3 x4 x5 x6) : Ticked s (s.injectedCodes x1 x2 x3 x4 x5 x6) := by
  induction x4 generalizing s x5 x6 with
  | nil => unfold State.injectedCodes; exact .refl s
  | cons k ks ih =>
    cases x5 with
    | nil => unfold State.injectedCodes; exact .refl s
    | cons r rs => unfold State.injectedCodes; exact Ticked.trans (State.injectedCode_ticks ..) (ih ..)
@[simp] theorem State.injectedCodes_ticks (s x1 x2 x3 x4 x5 x6) :
    (State.injectedCodes s x1 x2 x3 x4 x5 x6).pending = s.pending ∧ (State.injectedCodes s x1 x2 x3 x4 x5 x6).tk.count = s.tk.count := by
  exact State.injectedCodes_stays ..

@[simp] theorem State.injectedEnded_ticks (s x1 x2) :
    (State.injectedEnded s x1 x2).pending = s.pending ∧ (State.injectedEnded s x1 x2).tk.count = s.tk.count := by
  refine ⟨?_, ?_⟩ <;> (unfold State.injectedEnded; (repeat' split) <;> simp)

@[simp] theorem State.latchInput_ticks (s x1) :
    (State.latchInput s x1).pending = s.pending ∧ (State.latchInput s x1).tk.count = s.tk.count := by
  exact ⟨rfl, rfl⟩

@[simp] theorem State.evalPair_ticks (s x1) :
    (State.evalPair s x1).pending = s.pending ∧ (State.evalPair s x1).tk.count = s.tk.count := by
  refine ⟨?_, ?_⟩ <;> (simp only [State.evalPair]; (repeat' split) <;> simp_all)

@[simp] theorem State.lateSequence_ticks (s x1) :
    (State.lateSequence s x1).pending = s.pending ∧ (State.lateSequence s x1).tk.count = s.tk.count := by
  refine ⟨?_, ?_⟩ <;> (simp only [State.lateSequence]; (repeat' split) <;> simp_all)

@[simp] theorem State.formEval_ticks (s) :
    (State.formEval s).pending = s.pending ∧ (State.formEval s).tk.count = s.tk.count := by
  refine ⟨?_, ?_⟩ <;> (simp only [State.formEval]; split <;> simp)

theorem State.snapshot_stays (s : State) : Ticked s s.snapshot := by
  unfold State.snapshot
  extract_lets s1 s2
  have h1 : Ticked s s1 := Ticked.trans (State.formEval_ticks ..) (Ticked.foldl _ (fun t a => State.evalPair_ticks ..) _ _)
  have h2 : Ticked s s2 := h1.trans (Ticked.foldl _ (fun t a => State.latchInput_ticks ..) _ _)
  exact h2.trans (Ticked.foldl _ (fun t a => State.lateSequence_ticks ..) _ _)
@[simp] theorem State.snapshot_ticks (s) :
    (State.snapshot s).pending = s.pending ∧ (State.snapshot s).tk.count = s.tk.count := by
  exact State.snapshot_stays ..

@[simp] theorem State.startCal_ticks (s x1 x2) :
    (State.startCal s x1 x2).pending = s.pending ∧ (State.startCal s x1 x2).tk.count = s.tk.count := by
  refine ⟨?_, ?_⟩ <;> simp [State.startCal]

@[simp] theorem State.endCal_ticks (s x1 x2 x3) :
    (State.endCal s x1 x2 x3).pending = s.pending ∧ (State.endCal s x1 x2 x3).tk.count = s.tk.count := by
  refine ⟨?_, ?_⟩ <;> (simp only [State.endCal]; split <;> simp)

theorem State.sensingMoved_stays (s : State) (x1) : Ticked s (s.sensingMoved x1) := by
  unfold State.sensingMoved
  extract_lets s1 s2
  have h1 : Ticked s s1 := Ticked.foldl _ (fun t a => State.updConv_ticks ..) _ _
  have h2 : Ticked s s2 := h1.trans (Ticked.foldl _ (fun t a => State.updInp_ticks ..) _ _)
  clear_value s2
  exact h2.trans ⟨rfl, rfl⟩
@[simp] theorem State.sensingMoved_ticks (s x1) :
    (State.sensingMoved s x1).pending = s.pending ∧ (State.sensingMoved s x1).tk.count = s.tk.count := by
  exact State.sensingMoved_stays ..

@[simp] theorem State.blankFrom_ticks (s x1 x2) :
    (State.blankFrom s x1 x2).pending = s.pending ∧ (State.blankFrom s x1 x2).tk.count = s.tk.count := by
  exact ⟨rfl, rfl⟩

@[simp] theorem State.gateOn_ticks (s x1 x2 x3) :
    (State.gateOn s x1 x2 x3).pending = s.pending ∧ (State.gateOn s x1 x2 x3).tk.count = s.tk.count := by
  exact ⟨rfl, rfl⟩

@[simp] theorem State.gateOff_ticks (s x1 x2 x3) :
    (State.gateOff s x1 x2 x3).pending = s.pending ∧ (State.gateOff s x1 x2 x3).tk.count = s.tk.count := by
  exact ⟨rfl, rfl⟩

@[simp] theorem State.arm_ticks (s x1 x2) :
    (State.arm s x1 x2).pending = s.pending ∧ (State.arm s x1 x2).tk.count = s.tk.count := by
  refine ⟨?_, ?_⟩ <;> (simp only [State.arm]; (repeat' split) <;> simp_all)

@[simp] theorem State.cmdOff_ticks (s x1 x2) :
    (State.cmdOff s x1 x2).pending = s.pending ∧ (State.cmdOff s x1 x2).tk.count = s.tk.count := by
  refine ⟨?_, ?_⟩ <;> (simp only [State.cmdOff]; (repeat' split) <;> simp_all)

@[simp] theorem State.holdOff_ticks (s x1 x2) :
    (State.holdOff s x1 x2).pending = s.pending ∧ (State.holdOff s x1 x2).tk.count = s.tk.count := by
  refine ⟨?_, ?_⟩ <;> (simp only [State.holdOff]; (repeat' split) <;> simp_all)

@[simp] theorem State.command_ticks (s x1 x2 x3) :
    (State.command s x1 x2 x3).pending = s.pending ∧ (State.command s x1 x2 x3).tk.count = s.tk.count := by
  refine ⟨?_, ?_⟩ <;> (simp only [State.command]; split <;> simp)

@[simp] theorem State.settleGate_ticks (s x1 x2) :
    (State.settleGate s x1 x2).pending = s.pending ∧ (State.settleGate s x1 x2).tk.count = s.tk.count := by
  refine ⟨?_, ?_⟩ <;> (unfold State.settleGate; (repeat' split) <;> simp)

@[simp] theorem State.driveLeg_ticks (s x1) :
    (State.driveLeg s x1).pending = s.pending ∧ (State.driveLeg s x1).tk.count = s.tk.count := by
  refine ⟨?_, ?_⟩ <;> (unfold State.driveLeg; (repeat' split) <;> simp)

@[simp] theorem State.drive_ticks (s x1) :
    (State.drive s x1).pending = s.pending ∧ (State.drive s x1).tk.count = s.tk.count := by
  refine ⟨?_, ?_⟩ <;> (simp only [State.drive]; split <;> simp)

@[simp] theorem State.driveAll_ticks (s x1) :
    (State.driveAll s x1).pending = s.pending ∧ (State.driveAll s x1).tk.count = s.tk.count := by
  refine ⟨?_, ?_⟩ <;> simp [State.driveAll]

@[simp] theorem State.softOff_ticks (s x1 x2) :
    (State.softOff s x1 x2).pending = s.pending ∧ (State.softOff s x1 x2).tk.count = s.tk.count := by
  refine ⟨?_, ?_⟩ <;> (simp only [State.softOff]; split <;> simp)

@[simp] theorem State.softIfOff_ticks (s x1 x2 x3) :
    (State.softIfOff s x1 x2 x3).pending = s.pending ∧ (State.softIfOff s x1 x2 x3).tk.count = s.tk.count := by
  refine ⟨?_, ?_⟩ <;> (simp only [State.softIfOff]; split <;> simp)

@[simp] theorem State.driveSoft_ticks (s x1) :
    (State.driveSoft s x1).pending = s.pending ∧ (State.driveSoft s x1).tk.count = s.tk.count := by
  refine ⟨?_, ?_⟩ <;> (simp [State.driveSoft])

@[simp] theorem State.countTrip_ticks (s x1) :
    (State.countTrip s x1).pending = s.pending ∧ (State.countTrip s x1).tk.count = s.tk.count := by
  refine ⟨?_, ?_⟩ <;> (simp only [State.countTrip]; (repeat' split) <;> simp_all)

@[simp] theorem State.tripLeg_ticks (s x1 x2) :
    (State.tripLeg s x1 x2).pending = s.pending ∧ (State.tripLeg s x1 x2).tk.count = s.tk.count := by
  refine ⟨?_, ?_⟩ <;> (unfold State.tripLeg; (repeat' split) <;> simp)

@[simp] theorem State.ocAct_ticks (s x1) :
    (State.ocAct s x1).pending = s.pending ∧ (State.ocAct s x1).tk.count = s.tk.count := by
  refine ⟨?_, ?_⟩ <;> (simp only [State.ocAct]; split <;> simp)

@[simp] theorem State.reportShort_ticks (s x1) :
    (State.reportShort s x1).pending = s.pending ∧ (State.reportShort s x1).tk.count = s.tk.count := by
  refine ⟨?_, ?_⟩ <;> (simp only [State.reportShort]; (repeat' split) <;> simp_all)

@[simp] theorem State.scAct_ticks (s x1) :
    (State.scAct s x1).pending = s.pending ∧ (State.scAct s x1).tk.count = s.tk.count := by
  refine ⟨?_, ?_⟩ <;> (simp only [State.scAct]; (repeat' split) <;> simp_all)

@[simp] theorem State.lineAct_ticks (s x1) :
    (State.lineAct s x1).pending = s.pending ∧ (State.lineAct s x1).tk.count = s.tk.count := by
  refine ⟨?_, ?_⟩ <;> (simp only [State.lineAct]; (repeat' split) <;> simp_all)

@[simp] theorem State.interlock_ticks (s x1) :
    (State.interlock s x1).pending = s.pending ∧ (State.interlock s x1).tk.count = s.tk.count := by
  refine ⟨?_, ?_⟩ <;> (simp only [State.interlock]; (repeat' split) <;> simp_all)

@[simp] theorem State.assigned_ticks (s x1 x2) :
    (State.assigned s x1 x2).pending = s.pending ∧ (State.assigned s x1 x2).tk.count = s.tk.count := by
  exact ⟨rfl, rfl⟩

theorem State.moveSpan_stays (s : State) (x1 x2) : Ticked s (s.moveSpan x1 x2) := by
  unfold State.moveSpan
  extract_lets step
  have h : Ticked s ((x2.legs.foldl step (s, [], [])).1) :=
    Ticked.foldl_on (fun b : State × List Nat × List Nat => b.1) step (fun b a => ⟨rfl, rfl⟩) x2.legs (s, [], [])
  generalize x2.legs.foldl step (s, [], []) = r at *
  obtain ⟨t, per, unc⟩ := r
  refine h.trans ?_
  refine Ticked.ite (State.raise_ticks ..) (Ticked.ite (State.raise_ticks ..) (.refl _))
@[simp] theorem State.moveSpan_ticks (s x1 x2) :
    (State.moveSpan s x1 x2).pending = s.pending ∧ (State.moveSpan s x1 x2).tk.count = s.tk.count := by
  exact State.moveSpan_stays ..

@[simp] theorem State.moveSets_ticks (s x1 x2) :
    (State.moveSets s x1 x2).pending = s.pending ∧ (State.moveSets s x1 x2).tk.count = s.tk.count := by
  refine ⟨?_, ?_⟩ <;> (simp only [State.moveSets]; split <;> simp)

@[simp] theorem State.latchPatterns_ticks (s x1) :
    (State.latchPatterns s x1).pending = s.pending ∧ (State.latchPatterns s x1).tk.count = s.tk.count := by
  refine ⟨?_, ?_⟩ <;> simp [State.latchPatterns]

theorem State.syncCheck_stays (s : State) (x1 x2) : Ticked s (s.syncCheck x1 x2) := by
  unfold State.syncCheck
  extract_lets fails t
  have h : Ticked s t := by
    refine Ticked.foldl _ (fun t l => ?_) _ _
    dsimp only
    refine Ticked.ite (Ticked.trans (State.updLeg_ticks ..) (State.raise_ticks ..)) (Ticked.ite (.refl _) (State.updLeg_ticks ..))
  exact h
@[simp] theorem State.syncCheck_ticks (s x1 x2) :
    (State.syncCheck s x1 x2).pending = s.pending ∧ (State.syncCheck s x1 x2).tk.count = s.tk.count := by
  exact State.syncCheck_stays ..

@[simp] theorem State.boundaryLegs_ticks (s x1) :
    (State.boundaryLegs s x1).pending = s.pending ∧ (State.boundaryLegs s x1).tk.count = s.tk.count := by
  refine ⟨?_, ?_⟩ <;> simp [State.boundaryLegs]

theorem State.capture_stays (s : State) (x1 x2) : Ticked s (s.capture x1 x2) := by
  unfold State.capture
  extract_lets q b amp trk exc newA newT newE s1 addr s2 s3 s4
  have h1 : Ticked s s1 := State.updPos_ticks ..
  have h2 : Ticked s s2 := h1.trans (Ticked.ite (State.stick_ticks ..) (.refl _))
  have h3 : Ticked s s3 := h2.trans (Ticked.ite (State.raise_ticks ..) (.refl _))
  have h4 : Ticked s s4 := h3.trans (Ticked.ite (State.raise_ticks ..) (.refl _))
  exact h4.trans (Ticked.ite (State.raise_ticks ..) (.refl _))
@[simp] theorem State.capture_ticks (s x1 x2) :
    (State.capture s x1 x2).pending = s.pending ∧ (State.capture s x1 x2).tk.count = s.tk.count := by
  exact State.capture_stays ..

@[simp] theorem State.tracSafe_ticks (s x1 x2) :
    (State.tracSafe s x1 x2).pending = s.pending ∧ (State.tracSafe s x1 x2).tk.count = s.tk.count := by
  exact ⟨rfl, rfl⟩

@[simp] theorem State.tracMode_ticks (x0 x1 x2 s) :
    (State.tracMode x0 x1 x2 s).2.pending = s.pending ∧ (State.tracMode x0 x1 x2 s).2.tk.count = s.tk.count := by
  refine ⟨?_, ?_⟩ <;> (simp only [State.tracMode]; split <;> simp)

@[simp] theorem State.tqTarget_ticks (x0 x1 s) :
    (State.tqTarget x0 x1 s).2.pending = s.pending ∧ (State.tqTarget x0 x1 s).2.tk.count = s.tk.count := by
  refine ⟨?_, ?_⟩ <;> (simp only [State.tqTarget]; split <;> simp)

@[simp] theorem State.spdTargetCmd_ticks (x0 x1 s) :
    (State.spdTargetCmd x0 x1 s).2.pending = s.pending ∧ (State.spdTargetCmd x0 x1 s).2.tk.count = s.tk.count := by
  refine ⟨?_, ?_⟩ <;> (simp only [State.spdTargetCmd]; split <;> simp)

@[simp] theorem State.posRearmCmd_ticks (x0 s) :
    (State.posRearmCmd x0 s).2.pending = s.pending ∧ (State.posRearmCmd x0 s).2.tk.count = s.tk.count := by
  refine ⟨?_, ?_⟩ <;> (simp only [State.posRearmCmd]; split <;> simp)

@[simp] theorem State.tracDip_ticks (x0 x1 x2 s) :
    (State.tracDip x0 x1 x2 s).pending = s.pending ∧ (State.tracDip x0 x1 x2 s).tk.count = s.tk.count := by
  exact ⟨rfl, rfl⟩

@[simp] theorem State.cSafe_ticks (s x1) :
    (State.cSafe s x1).pending = s.pending ∧ (State.cSafe s x1).tk.count = s.tk.count := by
  exact ⟨rfl, rfl⟩

@[simp] theorem State.cBypassExit_ticks (s) :
    (State.cBypassExit s).pending = s.pending ∧ (State.cBypassExit s).tk.count = s.tk.count := by
  refine ⟨?_, ?_⟩ <;> (simp only [State.cBypassExit]; split <;> simp)

@[simp] theorem State.cMode_ticks (x0 x1 s) :
    (State.cMode x0 x1 s).2.pending = s.pending ∧ (State.cMode x0 x1 s).2.tk.count = s.tk.count := by
  refine ⟨?_, ?_⟩ <;> (simp only [State.cMode]; split <;> simp)

@[simp] theorem State.cVtgtCmd_ticks (x0 s) :
    (State.cVtgtCmd x0 s).2.pending = s.pending ∧ (State.cVtgtCmd x0 s).2.tk.count = s.tk.count := by
  refine ⟨?_, ?_⟩ <;> (simp only [State.cVtgtCmd]; split <;> simp)

@[simp] theorem State.cItgtCmd_ticks (x0 s) :
    (State.cItgtCmd x0 s).2.pending = s.pending ∧ (State.cItgtCmd x0 s).2.tk.count = s.tk.count := by
  refine ⟨?_, ?_⟩ <;> (simp only [State.cItgtCmd]; split <;> simp)

@[simp] theorem State.cSetPhases_ticks (x0 s) :
    (State.cSetPhases x0 s).pending = s.pending ∧ (State.cSetPhases x0 s).tk.count = s.tk.count := by
  refine ⟨?_, ?_⟩ <;> (simp only [State.cSetPhases]; split <;> simp)

@[simp] theorem State.cPhasesCmd_ticks (x0 s) :
    (State.cPhasesCmd x0 s).2.pending = s.pending ∧ (State.cPhasesCmd x0 s).2.tk.count = s.tk.count := by
  refine ⟨?_, ?_⟩ <;> (simp only [State.cPhasesCmd]; split <;> simp)

@[simp] theorem State.cCrowbarCmd_ticks (s) :
    (State.cCrowbarCmd s).2.pending = s.pending ∧ (State.cCrowbarCmd s).2.tk.count = s.tk.count := by
  refine ⟨?_, ?_⟩ <;> (unfold State.cCrowbarCmd; (repeat' split) <;> simp)

@[simp] theorem State.qSafe_ticks (s x1) :
    (State.qSafe s x1).pending = s.pending ∧ (State.qSafe s x1).tk.count = s.tk.count := by
  exact ⟨rfl, rfl⟩

@[simp] theorem State.qPilotExit_ticks (s) :
    (State.qPilotExit s).pending = s.pending ∧ (State.qPilotExit s).tk.count = s.tk.count := by
  refine ⟨?_, ?_⟩ <;> (simp only [State.qPilotExit]; split <;> simp)

@[simp] theorem State.qMode_ticks (x0 x1 x2 s) :
    (State.qMode x0 x1 x2 s).2.pending = s.pending ∧ (State.qMode x0 x1 x2 s).2.tk.count = s.tk.count := by
  refine ⟨?_, ?_⟩ <;> (simp only [State.qMode]; split <;> simp)

@[simp] theorem State.qPowerCmd_ticks (x0 x1 s) :
    (State.qPowerCmd x0 x1 s).2.pending = s.pending ∧ (State.qPowerCmd x0 x1 s).2.tk.count = s.tk.count := by
  refine ⟨?_, ?_⟩ <;> (simp only [State.qPowerCmd]; (repeat' split) <;> simp_all)

@[simp] theorem State.sampleContactor_ticks (s x1 x2) :
    (State.sampleContactor s x1 x2).pending = s.pending ∧ (State.sampleContactor s x1 x2).tk.count = s.tk.count := by
  exact ⟨rfl, rfl⟩

@[simp] theorem State.thetaInit_ticks (s) :
    (State.thetaInit s).pending = s.pending ∧ (State.thetaInit s).tk.count = s.tk.count := by
  exact ⟨rfl, rfl⟩

@[simp] theorem State.bSafe_ticks (s x1) :
    (State.bSafe s x1).pending = s.pending ∧ (State.bSafe s x1).tk.count = s.tk.count := by
  exact ⟨rfl, rfl⟩

@[simp] theorem State.bMode_ticks (x0 s) :
    (State.bMode x0 s).2.pending = s.pending ∧ (State.bMode x0 s).2.tk.count = s.tk.count := by
  refine ⟨?_, ?_⟩ <;> (simp only [State.bMode]; split <;> simp)

@[simp] theorem State.stageDone_ticks (s x1 x2 x3) :
    (State.stageDone s x1 x2 x3).pending = s.pending ∧ (State.stageDone s x1 x2 x3).tk.count = s.tk.count := by
  exact ⟨rfl, rfl⟩

@[simp] theorem State.deckDone_ticks (s x1 x2 x3) :
    (State.deckDone s x1 x2 x3).pending = s.pending ∧ (State.deckDone s x1 x2 x3).tk.count = s.tk.count := by
  exact ⟨rfl, rfl⟩

@[simp] theorem State.aScan_ticks (s x1) :
    (State.aScan s x1).pending = s.pending ∧ (State.aScan s x1).tk.count = s.tk.count := by
  refine ⟨?_, ?_⟩ <;> (simp only [State.aScan]; split <;> simp)

@[simp] theorem State.aOps_ticks (s x1) :
    (State.aOps s x1).pending = s.pending ∧ (State.aOps s x1).tk.count = s.tk.count := by
  refine ⟨?_, ?_⟩ <;> (simp only [State.aOps]; (repeat' split) <;> simp_all)

@[simp] theorem State.aSafe_ticks (s x1 x2) :
    (State.aSafe s x1 x2).pending = s.pending ∧ (State.aSafe s x1 x2).tk.count = s.tk.count := by
  exact ⟨rfl, rfl⟩

@[simp] theorem State.aMode_ticks (x0 x1 s) :
    (State.aMode x0 x1 s).2.pending = s.pending ∧ (State.aMode x0 x1 s).2.tk.count = s.tk.count := by
  refine ⟨?_, ?_⟩ <;> (simp only [State.aMode]; split <;> simp)

@[simp] theorem State.aTo_ticks (s x1 x2) :
    (State.aTo s x1 x2).2.pending = s.pending ∧ (State.aTo s x1 x2).2.tk.count = s.tk.count := by
  refine ⟨?_, ?_⟩ <;> (unfold State.aTo; (repeat' split) <;> simp)

@[simp] theorem State.aHoldCmd_ticks (x0 x1 x2 s) :
    (State.aHoldCmd x0 x1 x2 s).2.pending = s.pending ∧ (State.aHoldCmd x0 x1 x2 s).2.tk.count = s.tk.count := by
  refine ⟨?_, ?_⟩ <;> (simp only [State.aHoldCmd]; (repeat' split) <;> simp_all)

@[simp] theorem State.aHoldHere_ticks (x0 s) :
    (State.aHoldHere x0 s).2.pending = s.pending ∧ (State.aHoldHere x0 s).2.tk.count = s.tk.count := by
  refine ⟨?_, ?_⟩ <;> (simp only [State.aHoldHere]; (repeat' split) <;> simp_all)

@[simp] theorem State.aStart_ticks (x0 x1 x2 x3 x4 s) :
    (State.aStart x0 x1 x2 x3 x4 s).2.pending = s.pending ∧ (State.aStart x0 x1 x2 x3 x4 s).2.tk.count = s.tk.count := by
  refine ⟨?_, ?_⟩ <;> (simp only [State.aStart]; (repeat' split) <;> simp_all)

@[simp] theorem State.aShiftCmd_ticks (x0 x1 x2 x3 s) :
    (State.aShiftCmd x0 x1 x2 x3 s).2.pending = s.pending ∧ (State.aShiftCmd x0 x1 x2 x3 s).2.tk.count = s.tk.count := by
  refine ⟨?_, ?_⟩ <;> (unfold State.aShiftCmd; (repeat' split) <;> simp)

@[simp] theorem State.aParkCmd_ticks (x0 x1 x2 s) :
    (State.aParkCmd x0 x1 x2 s).2.pending = s.pending ∧ (State.aParkCmd x0 x1 x2 s).2.tk.count = s.tk.count := by
  refine ⟨?_, ?_⟩ <;> (unfold State.aParkCmd; (repeat' split) <;> simp)

@[simp] theorem State.aReleaseCmd_ticks (x0 x1 x2 s) :
    (State.aReleaseCmd x0 x1 x2 s).2.pending = s.pending ∧ (State.aReleaseCmd x0 x1 x2 s).2.tk.count = s.tk.count := by
  refine ⟨?_, ?_⟩ <;> (unfold State.aReleaseCmd; (repeat' split) <;> simp)

@[simp] theorem State.aCurrentCmd_ticks (x0 x1 s) :
    (State.aCurrentCmd x0 x1 s).2.pending = s.pending ∧ (State.aCurrentCmd x0 x1 s).2.tk.count = s.tk.count := by
  refine ⟨?_, ?_⟩ <;> (simp only [State.aCurrentCmd]; split <;> simp)

@[simp] theorem State.aHomeCmd_ticks (x0 x1 x2 s) :
    (State.aHomeCmd x0 x1 x2 s).2.pending = s.pending ∧ (State.aHomeCmd x0 x1 x2 s).2.tk.count = s.tk.count := by
  refine ⟨?_, ?_⟩ <;> (simp only [State.aHomeCmd]; (repeat' split) <;> simp_all)

@[simp] theorem State.aRearmCmd_ticks (x0 s) :
    (State.aRearmCmd x0 s).2.pending = s.pending ∧ (State.aRearmCmd x0 s).2.tk.count = s.tk.count := by
  refine ⟨?_, ?_⟩ <;> (simp only [State.aRearmCmd]; split <;> simp)

@[simp] theorem State.desat_ticks (s x1 x2) :
    (State.desat s x1 x2).pending = s.pending ∧ (State.desat s x1 x2).tk.count = s.tk.count := by
  refine ⟨?_, ?_⟩ <;> (simp only [State.desat]; (repeat' split) <;> simp_all)

@[simp] theorem State.uvBoundary_ticks (s) :
    (State.uvBoundary s).pending = s.pending ∧ (State.uvBoundary s).tk.count = s.tk.count := by
  refine ⟨?_, ?_⟩ <;> simp [State.uvBoundary]

@[simp] theorem State.hvSupplyLost_ticks (s) :
    (State.hvSupplyLost s).pending = s.pending ∧ (State.hvSupplyLost s).tk.count = s.tk.count := by
  refine ⟨?_, ?_⟩ <;> simp [State.hvSupplyLost]

@[simp] theorem State.markUnprotected_ticks (s x1 x2) :
    (State.markUnprotected s x1 x2).pending = s.pending ∧ (State.markUnprotected s x1 x2).tk.count = s.tk.count := by
  refine ⟨?_, ?_⟩ <;> simp [State.markUnprotected]

@[simp] theorem State.testResult_ticks (s x1 x2 x3) :
    (State.testResult s x1 x2 x3).pending = s.pending ∧ (State.testResult s x1 x2 x3).tk.count = s.tk.count := by
  refine ⟨?_, ?_⟩ <;> (simp only [State.testResult]; split <;> simp)

@[simp] theorem State.commandedTest_ticks (s x1 x2) :
    (State.commandedTest s x1 x2).pending = s.pending ∧ (State.commandedTest s x1 x2).tk.count = s.tk.count := by
  refine ⟨?_, ?_⟩ <;> (simp only [State.commandedTest]; split <;> simp)

@[simp] theorem State.commandedDeckTest_ticks (s x1) :
    (State.commandedDeckTest s x1).pending = s.pending ∧ (State.commandedDeckTest s x1).tk.count = s.tk.count := by
  refine ⟨?_, ?_⟩ <;> simp [State.commandedDeckTest]

@[simp] theorem State.dtUpset_ticks (s x1) :
    (State.dtUpset s x1).pending = s.pending ∧ (State.dtUpset s x1).tk.count = s.tk.count := by
  refine ⟨?_, ?_⟩ <;> simp [State.dtUpset]

@[simp] theorem State.dtReadback_ticks (s x1) :
    (State.dtReadback s x1).pending = s.pending ∧ (State.dtReadback s x1).tk.count = s.tk.count := by
  refine ⟨?_, ?_⟩ <;> (simp only [State.dtReadback]; (repeat' split) <;> simp_all)

theorem State.dtBoundary_stays (s : State) : Ticked s s.dtBoundary.1 := by
  unfold State.dtBoundary
  extract_lets s1
  have h1 : Ticked s s1 := Ticked.foldl State.dtReadback State.dtReadback_ticks allLegs s
  clear_value s1
  exact h1
@[simp] theorem State.dtBoundary_ticks (s) :
    (State.dtBoundary s).1.pending = s.pending ∧ (State.dtBoundary s).1.tk.count = s.tk.count := by
  exact State.dtBoundary_stays ..

@[simp] theorem State.hallCount_ticks (s x1 x2) :
    (State.hallCount s x1 x2).pending = s.pending ∧ (State.hallCount s x1 x2).tk.count = s.tk.count := by
  refine ⟨?_, ?_⟩ <;> (simp only [State.hallCount]; split <;> simp)

@[simp] theorem State.hallBoundary_ticks (s) :
    (State.hallBoundary s).pending = s.pending ∧ (State.hallBoundary s).tk.count = s.tk.count := by
  exact ⟨rfl, rfl⟩

@[simp] theorem State.loseClock_ticks (s x1) :
    (State.loseClock s x1).pending = s.pending ∧ (State.loseClock s x1).tk.count = s.tk.count := by
  refine ⟨?_, ?_⟩ <;> (simp only [State.loseClock]; split <;> simp)

@[simp] theorem State.jobDone_ticks (s x1 x2 x3) :
    (State.jobDone s x1 x2 x3).pending = s.pending ∧ (State.jobDone s x1 x2 x3).tk.count = s.tk.count := by
  refine ⟨?_, ?_⟩ <;> (simp only [State.jobDone]; split <;> simp)

@[simp] theorem State.jobFault_ticks (s) :
    (State.jobFault s).pending = s.pending ∧ (State.jobFault s).tk.count = s.tk.count := by
  refine ⟨?_, ?_⟩ <;> simp [State.jobFault]

theorem State.charterInForce_stays (s : State) (x1) : Ticked s (s.charterInForce x1) := by
  unfold State.charterInForce
  extract_lets s1 s2
  have h1 : Ticked s s1 := by
    refine Ticked.foldl (fun t o => t.setReg o (copyGet x1 o)) ?_ chOffsets s
    exact fun t o => State.setReg_ticks ..
  have h2 : Ticked s s2 := h1.trans (State.updLegs_ticks ..)
  clear_value s1 s2
  exact h2.trans ⟨rfl, rfl⟩
@[simp] theorem State.charterInForce_ticks (s x1) :
    (State.charterInForce s x1).pending = s.pending ∧ (State.charterInForce s x1).tk.count = s.tk.count := by
  exact State.charterInForce_stays ..

theorem State.landTrims_stays (s : State) (x1) : Ticked s (s.landTrims x1) := by
  unfold State.landTrims
  exact Ticked.foldl _ (fun t i => State.setReg_ticks ..) _ _
@[simp] theorem State.landTrims_ticks (s x1) :
    (State.landTrims s x1).pending = s.pending ∧ (State.landTrims s x1).tk.count = s.tk.count := by
  exact State.landTrims_stays ..

@[simp] theorem State.calOverwritten_ticks (s) :
    (State.calOverwritten s).pending = s.pending ∧ (State.calOverwritten s).tk.count = s.tk.count := by
  exact ⟨rfl, rfl⟩

@[simp] theorem State.updSlot_ticks (s x1 x2) :
    (State.updSlot s x1 x2).pending = s.pending ∧ (State.updSlot s x1 x2).tk.count = s.tk.count := by
  exact ⟨rfl, rfl⟩

@[simp] theorem State.rowMissed_ticks (s x1 x2) :
    (State.rowMissed s x1 x2).pending = s.pending ∧ (State.rowMissed s x1 x2).tk.count = s.tk.count := by
  exact ⟨rfl, rfl⟩

@[simp] theorem State.written_ticks (s x1) :
    (State.written s x1).pending = s.pending := by
  unfold State.written; (repeat' split) <;> simp

@[simp] theorem State.writeFailed_ticks (s x1) :
    (State.writeFailed s x1).pending = s.pending ∧ (State.writeFailed s x1).tk.count = s.tk.count := by
  refine ⟨?_, ?_⟩ <;> (simp only [State.writeFailed]; split <;> simp)

@[simp] theorem State.armSlot_ticks (s) :
    (State.armSlot s).pending = s.pending ∧ (State.armSlot s).tk.count = s.tk.count := by
  refine ⟨?_, ?_⟩ <;> (simp only [State.armSlot]; split <;> simp)

@[simp] theorem State.closeRecord_ticks (s) :
    (State.closeRecord s).pending = s.pending ∧ (State.closeRecord s).tk.count = s.tk.count := by
  refine ⟨?_, ?_⟩ <;> (unfold State.closeRecord; (repeat' split) <;> simp)

@[simp] theorem State.recTrigDone_ticks (s x1 x2) :
    (State.recTrigDone s x1 x2).pending = s.pending ∧ (State.recTrigDone s x1 x2).tk.count = s.tk.count := by
  refine ⟨?_, ?_⟩ <;> (simp only [State.recTrigDone]; split <;> simp)

@[simp] theorem State.recTrigger_ticks (s x1) :
    (State.recTrigger s x1).pending = s.pending ∧ (State.recTrigger s x1).tk.count = s.tk.count := by
  refine ⟨?_, ?_⟩ <;> (simp only [State.recTrigger]; (repeat' split) <;> simp_all)

@[simp] theorem State.recorder_ticks (s x1) :
    (State.recorder s x1).pending = s.pending ∧ (State.recorder s x1).tk.count = s.tk.count := by
  refine ⟨?_, ?_⟩ <;> (simp only [State.recorder]; (repeat' split) <;> simp_all)

@[simp] theorem State.releaseBoundary_ticks (s) :
    (State.releaseBoundary s).pending = s.pending ∧ (State.releaseBoundary s).tk.count = s.tk.count := by
  refine ⟨?_, ?_⟩ <;> (simp only [State.releaseBoundary]; (repeat' split) <;> simp_all)

@[simp] theorem State.rejectPending_ticks (s) :
    (State.rejectPending s).pending = s.pending ∧ (State.rejectPending s).tk.count = s.tk.count := by
  refine ⟨?_, ?_⟩ <;> (simp only [State.rejectPending]; (repeat' split) <;> simp_all)

@[simp] theorem State.abutment_ticks (s x1) :
    (State.abutment s x1).pending = s.pending ∧ (State.abutment s x1).tk.count = s.tk.count := by
  refine ⟨?_, ?_⟩ <;> (simp [State.abutment])

@[simp] theorem State.startFail_ticks (s x1) :
    (State.startFail s x1).pending = s.pending ∧ (State.startFail s x1).tk.count = s.tk.count := by
  refine ⟨?_, ?_⟩ <;> (simp only [State.startFail]; split <;> simp)

@[simp] theorem State.pylTo_ticks (s x1 x2) :
    (State.pylTo s x1 x2).pending = s.pending ∧ (State.pylTo s x1 x2).tk.count = s.tk.count := by
  refine ⟨?_, ?_⟩ <;> simp [State.pylTo]

@[simp] theorem State.syncTracked_ticks (s x1) :
    (State.syncTracked s x1).pending = s.pending ∧ (State.syncTracked s x1).tk.count = s.tk.count := by
  refine ⟨?_, ?_⟩ <;> (simp only [State.syncTracked]; (repeat' split) <;> simp_all)

@[simp] theorem State.lineInvalid_ticks (s x1) :
    (State.lineInvalid s x1).pending = s.pending ∧ (State.lineInvalid s x1).tk.count = s.tk.count := by
  refine ⟨?_, ?_⟩ <;> simp [State.lineInvalid]

@[simp] theorem State.markBad_ticks (s x1) :
    (State.markBad s x1).pending = s.pending ∧ (State.markBad s x1).tk.count = s.tk.count := by
  refine ⟨?_, ?_⟩ <;> (simp only [State.markBad]; (repeat' split) <;> simp_all)

@[simp] theorem State.markGood_ticks (s x1) :
    (State.markGood s x1).pending = s.pending ∧ (State.markGood s x1).tk.count = s.tk.count := by
  refine ⟨?_, ?_⟩ <;> (simp only [State.markGood]; (repeat' split) <;> simp_all)

@[simp] theorem State.census_ticks (s x1 x2 x3) :
    (State.census s x1 x2 x3).pending = s.pending ∧ (State.census s x1 x2 x3).tk.count = s.tk.count := by
  refine ⟨?_, ?_⟩ <;> (simp only [State.census]; split <;> simp)

@[simp] theorem State.calMap_ticks (s x1 x2 x3) :
    (State.calMap s x1 x2 x3).pending = s.pending ∧ (State.calMap s x1 x2 x3).tk.count = s.tk.count := by
  refine ⟨?_, ?_⟩ <;> simp [State.calMap]

@[simp] theorem State.chanEvent_ticks (s x1 x2 x3 x4) :
    (State.chanEvent s x1 x2 x3 x4).pending = s.pending ∧ (State.chanEvent s x1 x2 x3 x4).tk.count = s.tk.count := by
  refine ⟨?_, ?_⟩ <;> simp [State.chanEvent]

theorem State.postChannel_stays (s : State) (x1 x2) : Ticked s (s.postChannel x1 x2) := by
  unfold State.postChannel
  extract_lets old
  refine Ticked.ite (.refl _) ?_
  generalize readingOf _ _ _ = r
  obtain ⟨v, bo, bs⟩ := r
  dsimp -zeta only
  refine Ticked.ite ⟨rfl, rfl⟩ ?_
  generalize throttleFactor _ _ _ _ _ = r
  obtain ⟨e, f⟩ := r
  dsimp -zeta only
  extract_lets warn shut throt broke t s1 s2 s3 s4
  have h1 : Ticked s s1 := ⟨rfl, rfl⟩
  have h2 : Ticked s s2 := h1.trans (Ticked.ite (State.chanEvent_ticks ..) (.refl _))
  have h3 : Ticked s s3 := h2.trans (Ticked.ite (.refl _) (State.chanEvent_ticks ..))
  have h4 : Ticked s s4 := h3.trans (Ticked.ite (.refl _) (State.chanEvent_ticks ..))
  exact h4.trans (Ticked.ite (State.chanEvent_ticks ..) (.refl _))
@[simp] theorem State.postChannel_ticks (s x1 x2) :
    (State.postChannel s x1 x2).pending = s.pending ∧ (State.postChannel s x1 x2).tk.count = s.tk.count := by
  exact State.postChannel_stays ..

@[simp] theorem State.derateEvent_ticks (s x1 x2 x3) :
    (State.derateEvent s x1 x2 x3).pending = s.pending ∧ (State.derateEvent s x1 x2 x3).tk.count = s.tk.count := by
  refine ⟨?_, ?_⟩ <;> (unfold State.derateEvent; (repeat' split) <;> simp)

@[simp] theorem State.postFactors_ticks (s) :
    (State.postFactors s).pending = s.pending ∧ (State.postFactors s).tk.count = s.tk.count := by
  refine ⟨?_, ?_⟩ <;> simp [State.postFactors]

@[simp] theorem State.brgTo_ticks (s x1 x2) :
    (State.brgTo s x1 x2).pending = s.pending ∧ (State.brgTo s x1 x2).tk.count = s.tk.count := by
  refine ⟨?_, ?_⟩ <;> (simp only [State.brgTo]; split <;> simp)

@[simp] theorem State.postBearing_ticks (s) :
    (State.postBearing s).pending = s.pending ∧ (State.postBearing s).tk.count = s.tk.count := by
  refine ⟨?_, ?_⟩ <;> (simp only [State.postBearing]; (repeat' split) <;> simp_all)

@[simp] theorem State.trestleInputs_ticks (s) :
    (State.trestleInputs s).pending = s.pending ∧ (State.trestleInputs s).tk.count = s.tk.count := by
  exact ⟨rfl, rfl⟩

@[simp] theorem State.thaw_ticks (s) :
    (State.thaw s).pending = s.pending ∧ (State.thaw s).tk.count = s.tk.count := by
  refine ⟨?_, ?_⟩ <;> simp [State.thaw]

@[simp] theorem State.updObj_ticks (s x1 x2 x3) :
    (State.updObj s x1 x2 x3).pending = s.pending ∧ (State.updObj s x1 x2 x3).tk.count = s.tk.count := by
  exact ⟨rfl, rfl⟩

theorem State.mapObjs_stays (s : State) (x1 x2) : Ticked s (s.mapObjs x1 x2) := by
  unfold State.mapObjs
  exact Ticked.foldl _ (fun t o => Ticked.ite (.refl _) (State.updObj_ticks ..)) _ _
@[simp] theorem State.mapObjs_ticks (s x1 x2) :
    (State.mapObjs s x1 x2).pending = s.pending ∧ (State.mapObjs s x1 x2).tk.count = s.tk.count := by
  exact State.mapObjs_stays ..

@[simp] theorem State.updPartner_ticks (s x1 x2) :
    (State.updPartner s x1 x2).pending = s.pending ∧ (State.updPartner s x1 x2).tk.count = s.tk.count := by
  exact ⟨rfl, rfl⟩

@[simp] theorem State.objEvent_ticks (s x1 x2 x3 x4) :
    (State.objEvent s x1 x2 x3 x4).pending = s.pending ∧ (State.objEvent s x1 x2 x3 x4).tk.count = s.tk.count := by
  refine ⟨?_, ?_⟩ <;> simp [State.objEvent]

@[simp] theorem State.offer_ticks (s x1) :
    (State.offer s x1).pending = s.pending ∧ (State.offer s x1).tk.count = s.tk.count := by
  refine ⟨?_, ?_⟩ <;> (simp only [State.offer]; (repeat' split) <;> simp_all)

@[simp] theorem State.reroute_ticks (s x1 x2) :
    (State.reroute s x1 x2).pending = s.pending ∧ (State.reroute s x1 x2).tk.count = s.tk.count := by
  refine ⟨?_, ?_⟩ <;> (simp only [State.reroute]; split <;> simp)

@[simp] theorem State.strandObj_ticks (s x1 x2) :
    (State.strandObj s x1 x2).pending = s.pending ∧ (State.strandObj s x1 x2).tk.count = s.tk.count := by
  refine ⟨?_, ?_⟩ <;> simp [State.strandObj]

@[simp] theorem State.request_ticks (s x1 x2) :
    (State.request s x1 x2).pending = s.pending ∧ (State.request s x1 x2).tk.count = s.tk.count := by
  refine ⟨?_, ?_⟩ <;> (simp only [State.request]; split <;> simp)

theorem State.unqueue_stays (s : State) (x1 x2) : Ticked s (s.unqueue x1 x2) := by
  unfold State.unqueue
  refine Ticked.ite ?_ (.refl _)
  extract_lets hit s1
  have h1 : Ticked s s1 := Ticked.foldl _ (fun t a => Ticked.ite (State.updPort_ticks ..) (.refl _)) _ _
  exact h1.trans (State.updObj_ticks ..)
@[simp] theorem State.unqueue_ticks (s x1 x2) :
    (State.unqueue s x1 x2).pending = s.pending ∧ (State.unqueue s x1 x2).tk.count = s.tk.count := by
  exact State.unqueue_stays ..

@[simp] theorem State.withdraw_ticks (s x1 x2) :
    (State.withdraw s x1 x2).pending = s.pending ∧ (State.withdraw s x1 x2).tk.count = s.tk.count := by
  refine ⟨?_, ?_⟩ <;> (simp only [State.withdraw]; split <;> simp)

theorem State.enterBusOff_stays (s : State) (x1) : Ticked s (s.enterBusOff x1) := by
  unfold State.enterBusOff
  extract_lets back s1 s2 s3
  have h1 : Ticked s s1 := State.updPort_ticks ..
  have h2 : Ticked s s2 := h1.trans (Ticked.trans (State.mapObjs_ticks ..) (State.raise_ticks ..))
  have h3 : Ticked s s3 := by
    refine h2.trans (Ticked.foldl _ (fun t e => ?_) _ _)
    exact Ticked.trans (State.updObj_ticks t ..) (State.offer_ticks ..)
  exact h3.trans (Ticked.foldl _ (fun t o => Ticked.ite (State.strandObj_ticks ..) (.refl _)) _ _)
@[simp] theorem State.enterBusOff_ticks (s x1) :
    (State.enterBusOff s x1).pending = s.pending ∧ (State.enterBusOff s x1).tk.count = s.tk.count := by
  exact State.enterBusOff_stays ..

@[simp] theorem State.confine_ticks (s x1) :
    (State.confine s x1).pending = s.pending ∧ (State.confine s x1).tk.count = s.tk.count := by
  refine ⟨?_, ?_⟩ <;> (simp only [State.confine]; (repeat' split) <;> simp_all)

@[simp] theorem State.frameDone_ticks (s x1) :
    (State.frameDone s x1).pending = s.pending ∧ (State.frameDone s x1).tk.count = s.tk.count := by
  refine ⟨?_, ?_⟩ <;> (simp [State.frameDone])

@[simp] theorem State.sentFrame_ticks (s x1 x2) :
    (State.sentFrame s x1 x2).pending = s.pending ∧ (State.sentFrame s x1 x2).tk.count = s.tk.count := by
  refine ⟨?_, ?_⟩ <;> (simp only [State.sentFrame]; (repeat' split) <;> simp_all)

@[simp] theorem State.collision_ticks (s x1 x2) :
    (State.collision s x1 x2).pending = s.pending ∧ (State.collision s x1 x2).tk.count = s.tk.count := by
  refine ⟨?_, ?_⟩ <;> (simp only [State.collision]; split <;> simp)

@[simp] theorem State.failedFrame_ticks (s x1 x2 x3 x4) :
    (State.failedFrame s x1 x2 x3 x4).pending = s.pending ∧ (State.failedFrame s x1 x2 x3 x4).tk.count = s.tk.count := by
  refine ⟨?_, ?_⟩ <;> (simp only [State.failedFrame]; (repeat' split) <;> simp_all)

@[simp] theorem State.measured_ticks (s x1 x2 x3) :
    (State.measured s x1 x2 x3).pending = s.pending ∧ (State.measured s x1 x2 x3).tk.count = s.tk.count := by
  refine ⟨?_, ?_⟩ <;> (simp only [State.measured]; split <;> simp)

theorem State.fillObj_stays (s : State) (x1 x2 x3) : Ticked s (s.fillObj x1 x2 x3) := by
  unfold State.fillObj
  extract_lets b s1 hit s2
  have h1 : Ticked s s1 := State.updObj_ticks ..
  have h2 : Ticked s s2 := h1.trans (Ticked.ite (Ticked.foldl _ (fun t a => Ticked.ite (State.updPort_ticks ..) (.refl _)) _ _) (.refl _))
  exact h2.trans (Ticked.ite (.refl _) (State.request_ticks ..))
@[simp] theorem State.fillObj_ticks (s x1 x2 x3) :
    (State.fillObj s x1 x2 x3).pending = s.pending ∧ (State.fillObj s x1 x2 x3).tk.count = s.tk.count := by
  exact State.fillObj_stays ..

@[simp] theorem State.startRecovery_ticks (s x1) :
    (State.startRecovery s x1).pending = s.pending ∧ (State.startRecovery s x1).tk.count = s.tk.count := by
  refine ⟨?_, ?_⟩ <;> simp [State.startRecovery]

@[simp] theorem State.store_ticks (s x1 x2 x3) :
    (State.store s x1 x2 x3).pending = s.pending ∧ (State.store s x1 x2 x3).tk.count = s.tk.count := by
  refine ⟨?_, ?_⟩ <;> (simp only [State.store]; (repeat' split) <;> simp_all)

theorem State.heartbeats_stays (s : State) (x1 x2) : Ticked s (s.heartbeats x1 x2) := by
  unfold State.heartbeats
  refine Ticked.foldl _ (fun t e => ?_) _ _
  refine Ticked.ite ?_ (.refl _)
  extract_lets t1
  have h1 : Ticked t t1 := State.updPartner_ticks ..
  exact h1.trans (Ticked.ite (State.raise_ticks ..) (.refl _))
@[simp] theorem State.heartbeats_ticks (s x1 x2) :
    (State.heartbeats s x1 x2).pending = s.pending ∧ (State.heartbeats s x1 x2).tk.count = s.tk.count := by
  exact State.heartbeats_stays ..

@[simp] theorem State.rxOk_ticks (s x1) :
    (State.rxOk s x1).pending = s.pending ∧ (State.rxOk s x1).tk.count = s.tk.count := by
  refine ⟨?_, ?_⟩ <;> (simp only [State.rxOk]; (repeat' split) <;> simp_all)

@[simp] theorem State.updateAvail_ticks (s) :
    (State.updateAvail s).pending = s.pending ∧ (State.updateAvail s).tk.count = s.tk.count := by
  refine ⟨?_, ?_⟩ <;> (simp only [State.updateAvail]; split <;> simp)

@[simp] theorem State.unstick_ticks (s x1 x2) :
    (State.unstick s x1 x2).pending = s.pending ∧ (State.unstick s x1 x2).tk.count = s.tk.count := by
  exact ⟨rfl, rfl⟩

theorem State.clearBits_stays (s : State) (x1 x2) : Ticked s (s.clearBits x1 x2) := by
  unfold State.clearBits
  extract_lets k r keep
  clear_value k r keep
  split
  case h_3 => exact Ticked.foldl _ (fun t b => Ticked.ite (State.updInp_ticks ..) (.refl _)) _ _
  case h_13 => split <;> exact State.updPort_ticks ..
  case h_14 => split <;> exact .refl _
  all_goals first
    | exact ⟨rfl, rfl⟩
    | exact State.unstick_ticks ..
    | exact State.updLeg_ticks ..
    | exact State.updRej_ticks ..
    | (split <;> exact ⟨rfl, rfl⟩)
@[simp] theorem State.clearBits_ticks (s x1 x2) :
    (State.clearBits s x1 x2).pending = s.pending ∧ (State.clearBits s x1 x2).tk.count = s.tk.count := by
  exact State.clearBits_stays ..

@[simp] theorem State.holdWrite_ticks (s x1 x2 x3) :
    (State.holdWrite s x1 x2 x3).pending = s.pending ∧ (State.holdWrite s x1 x2 x3).tk.count = s.tk.count := by
  exact ⟨rfl, rfl⟩

@[simp] theorem State.go_ticks (s) :
    (State.go s).pending = s.pending ∧ (State.go s).tk.count = s.tk.count := by
  refine ⟨?_, ?_⟩ <;> (simp only [State.go]; split <;> simp)

@[simp] theorem State.askAbut_ticks (s) :
    (State.askAbut s).pending = s.pending ∧ (State.askAbut s).tk.count = s.tk.count := by
  refine ⟨?_, ?_⟩ <;> (simp only [State.askAbut]; split <;> simp)

/-- Going on keeps what the outcome keeps. -/
theorem goOn_stays {s : State} {o : Host.Outcome State Fault Refusal} (h : outTicks o s) : Ticked s (goOn s o) := by
  cases o
  · exact h
  all_goals exact .refl s

/-- One bit of a W1S register. -/
theorem onBit_stays (s : State) (v i) (f : State → State) (h : ∀ t, Ticked t (f t)) : Ticked s (s.onBit v i f) := Ticked.ite (h s) (.refl _)

@[simp] theorem State.unmask_ticks (s x1) :
    (State.unmask s x1).pending = s.pending ∧ (State.unmask s x1).tk.count = s.tk.count := by
  refine ⟨?_, ?_⟩ <;> (simp only [State.unmask]; split <;> simp)

@[simp] theorem State.stepDaddr_ticks (s x1) :
    (State.stepDaddr s x1).pending = s.pending ∧ (State.stepDaddr s x1).tk.count = s.tk.count := by
  exact ⟨rfl, rfl⟩

@[simp] theorem State.writeObjData_ticks (s x1 x2) :
    (State.writeObjData s x1 x2).pending = s.pending ∧ (State.writeObjData s x1 x2).tk.count = s.tk.count := by
  refine ⟨?_, ?_⟩ <;> (simp only [State.writeObjData]; (repeat' split) <;> simp_all)

@[simp] theorem State.readsBack_ticks (s x1) :
    (State.readsBack s x1).pending = s.pending ∧ (State.readsBack s x1).tk.count = s.tk.count := by
  exact ⟨rfl, rfl⟩

@[simp] theorem State.readEcc_ticks (s x1) :
    (State.readEcc s x1).pending = s.pending ∧ (State.readEcc s x1).tk.count = s.tk.count := by
  refine ⟨?_, ?_⟩ <;> (unfold State.readEcc; (repeat' split) <;> simp)

@[simp] theorem State.advance_ticks (s x1 x2) :
    (State.advance s x1 x2).pending = s.pending ∧ (State.advance s x1 x2).tk.count = s.tk.count := by
  exact ⟨rfl, rfl⟩

@[simp] theorem State.keystoneSafe_ticks (s) :
    (State.keystoneSafe s).pending = s.pending ∧ (State.keystoneSafe s).tk.count = s.tk.count := by
  refine ⟨?_, ?_⟩ <;> simp [State.keystoneSafe]

@[simp] theorem State.giveUpAll_ticks (s x1) :
    (State.giveUpAll s x1).pending = s.pending ∧ (State.giveUpAll s x1).tk.count = s.tk.count := by
  refine ⟨?_, ?_⟩ <;> (simp only [State.giveUpAll]; split <;> simp)

@[simp] theorem State.sendRelinquish_ticks (s x1) :
    (State.sendRelinquish s x1).pending = s.pending ∧ (State.sendRelinquish s x1).tk.count = s.tk.count := by
  refine ⟨?_, ?_⟩ <;> (simp only [State.sendRelinquish]; split <;> simp)

@[simp] theorem State.assertFault_ticks (s x1 x2) :
    (State.assertFault s x1 x2).pending = s.pending ∧ (State.assertFault s x1 x2).tk.count = s.tk.count := by
  refine ⟨?_, ?_⟩ <;> (simp only [State.assertFault]; (repeat' split) <;> simp_all)

@[simp] theorem State.watchdogFault_ticks (s) :
    (State.watchdogFault s).pending = s.pending ∧ (State.watchdogFault s).tk.count = s.tk.count := by
  refine ⟨?_, ?_⟩ <;> simp [State.watchdogFault]

@[simp] theorem State.watchdogBoundary_ticks (s) :
    (State.watchdogBoundary s).pending = s.pending ∧ (State.watchdogBoundary s).tk.count = s.tk.count := by
  exact ⟨rfl, rfl⟩

@[simp] theorem State.digestFault_ticks (s) :
    (State.digestFault s).pending = s.pending ∧ (State.digestFault s).tk.count = s.tk.count := by
  refine ⟨?_, ?_⟩ <;> (simp only [State.digestFault]; split <;> simp)

@[simp] theorem State.gotLanes_ticks (s x1 x2) :
    (State.gotLanes s x1 x2).pending = s.pending ∧ (State.gotLanes s x1 x2).tk.count = s.tk.count := by
  exact ⟨rfl, rfl⟩

@[simp] theorem State.judgeLane_ticks (s x1) :
    (State.judgeLane s x1).pending = s.pending ∧ (State.judgeLane s x1).tk.count = s.tk.count := by
  refine ⟨?_, ?_⟩ <;> (simp only [State.judgeLane]; (repeat' split) <;> simp_all)

@[simp] theorem State.e086_ticks (s x1) :
    (State.e086 s x1).pending = s.pending ∧ (State.e086 s x1).tk.count = s.tk.count := by
  refine ⟨?_, ?_⟩ <;> simp [State.e086]

@[simp] theorem State.shakeCount_ticks (s) :
    (State.shakeCount s).pending = s.pending ∧ (State.shakeCount s).tk.count = s.tk.count := by
  refine ⟨?_, ?_⟩ <;> (simp only [State.shakeCount]; split <;> simp)

@[simp] theorem State.shakeBoundary_ticks (s) :
    (State.shakeBoundary s).pending = s.pending ∧ (State.shakeBoundary s).tk.count = s.tk.count := by
  refine ⟨?_, ?_⟩ <;> (simp only [State.shakeBoundary]; split <;> simp)

@[simp] theorem State.pairBoundary_ticks (s) :
    (State.pairBoundary s).pending = s.pending ∧ (State.pairBoundary s).tk.count = s.tk.count := by
  refine ⟨?_, ?_⟩ <;> (simp only [State.pairBoundary]; (repeat' split) <;> simp_all)

@[simp] theorem State.goAlone_ticks (s) :
    (State.goAlone s).pending = s.pending ∧ (State.goAlone s).tk.count = s.tk.count := by
  exact ⟨rfl, rfl⟩

@[simp] theorem State.staleAcknowledged_ticks (s) :
    (State.staleAcknowledged s).pending = s.pending ∧ (State.staleAcknowledged s).tk.count = s.tk.count := by
  refine ⟨?_, ?_⟩ <;> simp [State.staleAcknowledged]

@[simp] theorem State.scheduleTakeover_ticks (s x1 x2 x3 x4) :
    (State.scheduleTakeover s x1 x2 x3 x4).pending = s.pending ∧ (State.scheduleTakeover s x1 x2 x3 x4).tk.count = s.tk.count := by
  refine ⟨?_, ?_⟩ <;> (simp only [State.scheduleTakeover]; split <;> simp)

@[simp] theorem State.judgePosition_ticks (s x1 x2) :
    (State.judgePosition s x1 x2).pending = s.pending ∧ (State.judgePosition s x1 x2).tk.count = s.tk.count := by
  refine ⟨?_, ?_⟩ <;> (simp only [State.judgePosition]; (repeat' split) <;> simp_all)

@[simp] theorem State.judgeOverlap_ticks (s x1) :
    (State.judgeOverlap s x1).pending = s.pending ∧ (State.judgeOverlap s x1).tk.count = s.tk.count := by
  refine ⟨?_, ?_⟩ <;> (simp only [State.judgeOverlap]; (repeat' split) <;> simp_all)

theorem State.judgeWarnings_stays (s : State) (x1) : Ticked s (s.judgeWarnings x1) := by
  unfold State.judgeWarnings
  extract_lets g tol w sp run at5 car crun at6 stg v t t1 t2
  refine Ticked.ite (.refl _) ?_
  have h : Ticked s t := ⟨rfl, rfl⟩
  have h1 : Ticked s t1 := h.trans (Ticked.ite (State.e086_ticks ..) (.refl _))
  have h2 : Ticked s t2 := h1.trans (Ticked.ite (State.e086_ticks ..) (.refl _))
  exact h2.trans (Ticked.ite (State.e086_ticks ..) (.refl _))
@[simp] theorem State.judgeWarnings_ticks (s x1) :
    (State.judgeWarnings s x1).pending = s.pending ∧ (State.judgeWarnings s x1).tk.count = s.tk.count := by
  exact State.judgeWarnings_stays ..

@[simp] theorem State.judgeDigest_ticks (s x1) :
    (State.judgeDigest s x1).pending = s.pending ∧ (State.judgeDigest s x1).tk.count = s.tk.count := by
  refine ⟨?_, ?_⟩ <;> (simp only [State.judgeDigest]; split <;> simp)

@[simp] theorem State.judgeCompletions_ticks (s x1) :
    (State.judgeCompletions s x1).pending = s.pending ∧ (State.judgeCompletions s x1).tk.count = s.tk.count := by
  exact ⟨rfl, rfl⟩

@[simp] theorem State.judgeRelq_ticks (s x1) :
    (State.judgeRelq s x1).pending = s.pending ∧ (State.judgeRelq s x1).tk.count = s.tk.count := by
  refine ⟨?_, ?_⟩ <;> (simp only [State.judgeRelq]; split <;> simp)

@[simp] theorem State.useFrame_ticks (s x1) :
    (State.useFrame s x1).pending = s.pending ∧ (State.useFrame s x1).tk.count = s.tk.count := by
  refine ⟨?_, ?_⟩ <;> (unfold State.useFrame; (repeat' split) <;> simp)

@[simp] theorem State.missFrame_ticks (s) :
    (State.missFrame s).pending = s.pending ∧ (State.missFrame s).tk.count = s.tk.count := by
  refine ⟨?_, ?_⟩ <;> (simp only [State.missFrame]; (repeat' split) <;> simp_all)

@[simp] theorem State.judgeFrame_ticks (s) :
    (State.judgeFrame s).pending = s.pending ∧ (State.judgeFrame s).tk.count = s.tk.count := by
  refine ⟨?_, ?_⟩ <;> (simp only [State.judgeFrame]; (repeat' split) <;> simp_all)

@[simp] theorem State.tieSelfCheck_ticks (s x1) :
    (State.tieSelfCheck s x1).pending = s.pending ∧ (State.tieSelfCheck s x1).tk.count = s.tk.count := by
  refine ⟨?_, ?_⟩ <;> (simp only [State.tieSelfCheck]; (repeat' split) <;> simp_all)

@[simp] theorem State.shadowMismatch_ticks (s x1 x2 x3) :
    (State.shadowMismatch s x1 x2 x3).pending = s.pending ∧ (State.shadowMismatch s x1 x2 x3).tk.count = s.tk.count := by
  refine ⟨?_, ?_⟩ <;> simp [State.shadowMismatch]

@[simp] theorem State.shadowVerdict_ticks (s x1) :
    (State.shadowVerdict s x1).pending = s.pending ∧ (State.shadowVerdict s x1).tk.count = s.tk.count := by
  refine ⟨?_, ?_⟩ <;> (simp only [State.shadowVerdict]; split <;> simp)

theorem State.shadow_stays (s : State) : Ticked s s.shadow.1 := by
  unfold State.shadow
  extract_lets -merge +onlyGivenNames _ s1
  have h1 : Ticked s s1 := ⟨rfl, rfl⟩
  clear_value s1
  split
  · exact h1
  extract_lets f adopt es bad given c t1 t2
  have h2 : Ticked s t1 := h1.trans (Ticked.foldl _ (fun t b => State.shadowMismatch_ticks ..) _ _)
  have h3 : Ticked s t2 := h2.trans (Ticked.foldl _ (fun t b => State.shadowVerdict_ticks ..) _ _)
  clear_value t2
  exact Ticked.trans h3 ⟨rfl, rfl⟩
@[simp] theorem State.shadow_ticks (s) :
    (State.shadow s).1.pending = s.pending ∧ (State.shadow s).1.tk.count = s.tk.count := by
  exact State.shadow_stays ..

@[simp] theorem State.followInputs_ticks (s) :
    (State.followInputs s).pending = s.pending ∧ (State.followInputs s).tk.count = s.tk.count := by
  exact ⟨rfl, rfl⟩

theorem State.adoptStandby_stays (s : State) : Ticked s s.adoptStandby := by
  unfold State.adoptStandby
  exact Ticked.foldl _ (fun t a => Ticked.ite (State.withStage_ticks ..) (.refl _)) _ _
@[simp] theorem State.adoptStandby_ticks (s) :
    (State.adoptStandby s).pending = s.pending ∧ (State.adoptStandby s).tk.count = s.tk.count := by
  exact State.adoptStandby_stays ..

theorem State.copyStandby_stays (s : State) : Ticked s s.copyStandby := by
  unfold State.copyStandby
  exact Ticked.ite (.refl _) (Ticked.foldl _ (fun t a => Ticked.ite (.refl _) (State.withStage_ticks ..)) _ _)
@[simp] theorem State.copyStandby_ticks (s) :
    (State.copyStandby s).pending = s.pending ∧ (State.copyStandby s).tk.count = s.tk.count := by
  exact State.copyStandby_stays ..

@[simp] theorem State.relinquish_ticks (s) :
    (State.relinquish s).pending = s.pending ∧ (State.relinquish s).tk.count = s.tk.count := by
  refine ⟨?_, ?_⟩ <;> (simp only [State.relinquish]; split <;> simp)

@[simp] theorem State.claim_ticks (s x1) :
    (State.claim s x1).pending = s.pending ∧ (State.claim s x1).tk.count = s.tk.count := by
  exact ⟨rfl, rfl⟩

@[simp] theorem State.claimNext_ticks (s) :
    (State.claimNext s).pending = s.pending ∧ (State.claimNext s).tk.count = s.tk.count := by
  exact ⟨rfl, rfl⟩

@[simp] theorem State.takeOne_ticks (s x1) :
    (State.takeOne s x1).pending = s.pending ∧ (State.takeOne s x1).tk.count = s.tk.count := by
  refine ⟨?_, ?_⟩ <;> (simp [State.takeOne])

@[simp] theorem State.takeOver_ticks (s) :
    (State.takeOver s).pending = s.pending ∧ (State.takeOver s).tk.count = s.tk.count := by
  refine ⟨?_, ?_⟩ <;> (simp [State.takeOver])

@[simp] theorem State.rebindOpen_ticks (s) :
    (State.rebindOpen s).pending = s.pending ∧ (State.rebindOpen s).tk.count = s.tk.count := by
  refine ⟨?_, ?_⟩ <;> (simp only [State.rebindOpen]; split <;> simp)

@[simp] theorem State.closeOpen_ticks (s) :
    (State.closeOpen s).pending = s.pending ∧ (State.closeOpen s).tk.count = s.tk.count := by
  refine ⟨?_, ?_⟩ <;> (simp only [State.closeOpen]; split <;> simp)

@[simp] theorem State.stageHandover_ticks (s x1) :
    (State.stageHandover s x1).pending = s.pending ∧ (State.stageHandover s x1).tk.count = s.tk.count := by
  refine ⟨?_, ?_⟩ <;> (simp only [State.stageHandover]; split <;> simp)

@[simp] theorem State.handover_ticks (s x1) :
    (State.handover s x1).pending = s.pending ∧ (State.handover s x1).tk.count = s.tk.count := by
  refine ⟨?_, ?_⟩ <;> (simp only [State.handover]; (repeat' split) <;> simp_all)

@[simp] theorem State.setRegs_ticks (s x1) :
    (State.setRegs s x1).pending = s.pending ∧ (State.setRegs s x1).tk.count = s.tk.count := by
  refine ⟨?_, ?_⟩ <;> simp [State.setRegs]

@[simp] theorem State.setLanded_ticks (s x1) :
    (State.setLanded s x1).pending = s.pending ∧ (State.setLanded s x1).tk.count = s.tk.count := by
  refine ⟨?_, ?_⟩ <;> (simp only [State.setLanded]; split <;> simp)

@[simp] theorem State.setRefused_ticks (s x1) :
    (State.setRefused s x1).pending = s.pending ∧ (State.setRefused s x1).tk.count = s.tk.count := by
  refine ⟨?_, ?_⟩ <;> (simp only [State.setRefused]; split <;> simp)

@[simp] theorem State.landSet_ticks (s x1 x2) :
    (State.landSet s x1 x2).pending = s.pending ∧ (State.landSet s x1 x2).tk.count = s.tk.count := by
  refine ⟨?_, ?_⟩ <;> (simp only [State.landSet]; split <;> simp)

@[simp] theorem State.landWrites_ticks (s x1) :
    (State.landWrites s x1).pending = s.pending ∧ (State.landWrites s x1).tk.count = s.tk.count := by
  refine ⟨?_, ?_⟩ <;> simp [State.landWrites]

@[simp] theorem State.landTl_ticks (s x1) :
    (State.landTl s x1).pending = s.pending ∧ (State.landTl s x1).tk.count = s.tk.count := by
  refine ⟨?_, ?_⟩ <;> (simp only [State.landTl]; split <;> simp)

@[simp] theorem State.overrideTl_ticks (s x1 x2) :
    (State.overrideTl s x1 x2).pending = s.pending ∧ (State.overrideTl s x1 x2).tk.count = s.tk.count := by
  exact ⟨rfl, rfl⟩

@[simp] theorem State.putSlot_ticks (s x1 x2) :
    (State.putSlot s x1 x2).pending = s.pending ∧ (State.putSlot s x1 x2).tk.count = s.tk.count := by
  exact ⟨rfl, rfl⟩

@[simp] theorem State.armImage_ticks (s x1) :
    (State.armImage s x1).pending = s.pending ∧ (State.armImage s x1).tk.count = s.tk.count := by
  refine ⟨?_, ?_⟩ <;> simp [State.armImage]

@[simp] theorem State.ltDone_ticks (s x1 x2 x3) :
    (State.ltDone s x1 x2 x3).pending = s.pending ∧ (State.ltDone s x1 x2 x3).tk.count = s.tk.count := by
  refine ⟨?_, ?_⟩ <;> (simp only [State.ltDone]; split <;> simp)

@[simp] theorem State.ltAdvance_ticks (s x1) :
    (State.ltAdvance s x1).pending = s.pending ∧ (State.ltAdvance s x1).tk.count = s.tk.count := by
  exact ⟨rfl, rfl⟩

@[simp] theorem State.ltEvent_ticks (s x1 x2 x3) :
    (State.ltEvent s x1 x2 x3).pending = s.pending ∧ (State.ltEvent s x1 x2 x3).tk.count = s.tk.count := by
  refine ⟨?_, ?_⟩ <;> simp [State.ltEvent]

@[simp] theorem State.realignLeg_ticks (s x1 x2) :
    (State.realignLeg s x1 x2).pending = s.pending ∧ (State.realignLeg s x1 x2).tk.count = s.tk.count := by
  exact ⟨rfl, rfl⟩

@[simp] theorem State.realign_ticks (s x1 x2) :
    (State.realign s x1 x2).1.pending = s.pending ∧ (State.realign s x1 x2).1.tk.count = s.tk.count := by
  refine ⟨?_, ?_⟩ <;> simp [State.realign]

@[simp] theorem State.putCmpl_ticks (s x1) :
    (State.putCmpl s x1).pending = s.pending ∧ (State.putCmpl s x1).tk.count = s.tk.count := by
  exact ⟨rfl, rfl⟩

@[simp] theorem State.writeCompletions_ticks (s) :
    (State.writeCompletions s).pending = s.pending ∧ (State.writeCompletions s).tk.count = s.tk.count := by
  refine ⟨?_, ?_⟩ <;> (simp only [State.writeCompletions]; split <;> simp)

@[simp] theorem State.advanceProd_ticks (s) :
    (State.advanceProd s).pending = s.pending ∧ (State.advanceProd s).tk.count = s.tk.count := by
  refine ⟨?_, ?_⟩ <;> (simp only [State.advanceProd]; (repeat' split) <;> simp_all)

@[simp] theorem State.judgeRsv_ticks (s) :
    (State.judgeRsv s).pending = s.pending ∧ (State.judgeRsv s).tk.count = s.tk.count := by
  refine ⟨?_, ?_⟩ <;> (simp only [State.judgeRsv]; split <;> simp)

@[simp] theorem State.putEvent_ticks (s x1) :
    (State.putEvent s x1).pending = s.pending ∧ (State.putEvent s x1).tk.count = s.tk.count := by
  refine ⟨?_, ?_⟩ <;> simp [State.putEvent]

@[simp] theorem State.endStorm_ticks (s) :
    (State.endStorm s).pending = s.pending ∧ (State.endStorm s).tk.count = s.tk.count := by
  refine ⟨?_, ?_⟩ <;> (simp only [State.endStorm]; split <;> simp)

@[simp] theorem State.writeEvents_ticks (s) :
    (State.writeEvents s).pending = s.pending ∧ (State.writeEvents s).tk.count = s.tk.count := by
  refine ⟨?_, ?_⟩ <;> (simp only [State.writeEvents]; (repeat' split) <;> simp_all)

@[simp] theorem State.writeTelemetry_ticks (s) :
    (State.writeTelemetry s).pending = s.pending ∧ (State.writeTelemetry s).tk.count = s.tk.count := by
  refine ⟨?_, ?_⟩ <;> (simp only [State.writeTelemetry]; (repeat' split) <;> simp_all)

@[simp] theorem State.publishObj_ticks (s x1 x2) :
    (State.publishObj s x1 x2).pending = s.pending ∧ (State.publishObj s x1 x2).tk.count = s.tk.count := by
  refine ⟨?_, ?_⟩ <;> (simp only [State.publishObj]; (repeat' split) <;> simp_all)

@[simp] theorem State.publish_ticks (s) :
    (State.publish s).pending = s.pending ∧ (State.publish s).tk.count = s.tk.count := by
  refine ⟨?_, ?_⟩ <;> (simp only [State.publish]; split <;> simp)

@[simp] theorem State.judgeFb_ticks (s) :
    (State.judgeFb s).pending = s.pending ∧ (State.judgeFb s).tk.count = s.tk.count := by
  exact ⟨rfl, rfl⟩

@[simp] theorem State.linkTo_ticks (s x1 x2 x3) :
    (State.linkTo s x1 x2 x3).pending = s.pending ∧ (State.linkTo s x1 x2 x3).tk.count = s.tk.count := by
  refine ⟨?_, ?_⟩ <;> simp [State.linkTo]

@[simp] theorem State.step1_ticks (s x1) :
    (State.step1 s x1).1.pending = s.pending ∧ (State.step1 s x1).1.tk.count = s.tk.count := by
  refine ⟨?_, ?_⟩ <;> (simp only [State.step1]; (repeat' split) <;> simp_all)

@[simp] theorem State.step2_ticks (s x1) :
    (State.step2 s x1).1.pending = s.pending ∧ (State.step2 s x1).1.tk.count = s.tk.count := by
  refine ⟨?_, ?_⟩ <;> (simp only [State.step2]; (repeat' split) <;> simp_all)

@[simp] theorem State.adoptFactory_ticks (s x1) :
    (State.adoptFactory s x1).pending = s.pending ∧ (State.adoptFactory s x1).tk.count = s.tk.count := by
  refine ⟨?_, ?_⟩ <;> (simp only [State.adoptFactory]; split <;> simp)

@[simp] theorem State.step3_ticks (s x1) :
    (State.step3 s x1).1.pending = s.pending ∧ (State.step3 s x1).1.tk.count = s.tk.count := by
  refine ⟨?_, ?_⟩ <;> (simp only [State.step3]; (repeat' split) <;> simp_all)

@[simp] theorem State.clearStaged_ticks (s) :
    (State.clearStaged s).pending = s.pending ∧ (State.clearStaged s).tk.count = s.tk.count := by
  exact ⟨rfl, rfl⟩

@[simp] theorem State.step4_ticks (s x1) :
    (State.step4 s x1).1.pending = s.pending ∧ (State.step4 s x1).1.tk.count = s.tk.count := by
  refine ⟨?_, ?_⟩ <;> (simp only [State.step4]; (repeat' split) <;> simp_all)

@[simp] theorem State.imagePer_ticks (s x1 x2) :
    (State.imagePer s x1 x2).pending = s.pending ∧ (State.imagePer s x1 x2).tk.count = s.tk.count := by
  refine ⟨?_, ?_⟩ <;> (simp only [State.imagePer]; split <;> simp)

@[simp] theorem State.loadImage_ticks (s x1) :
    (State.loadImage s x1).pending = s.pending ∧ (State.loadImage s x1).tk.count = s.tk.count := by
  refine ⟨?_, ?_⟩ <;> simp [State.loadImage]

@[simp] theorem State.copyMap_ticks (s x1 x2 x3) :
    (State.copyMap s x1 x2 x3).1.pending = s.pending ∧ (State.copyMap s x1 x2 x3).1.tk.count = s.tk.count := by
  exact ⟨rfl, rfl⟩

theorem State.copyMaps_stays (s : State) (x1 x2) : Ticked s (s.copyMaps x1 x2).1 := by
  unfold State.copyMaps
  extract_lets one
  refine Ticked.foldl_on (fun r : State × Bool => r.1) one (fun r q => ?_) _ (s, true)
  unfold one
  split
  · have h := State.copyMap_ticks r.1 x1 q.2 q.1
    generalize r.1.copyMap x1 q.2 q.1 = c at *
    obtain ⟨t, ok⟩ := c
    exact Ticked.trans h ⟨rfl, rfl⟩
  · exact .refl _
@[simp] theorem State.copyMaps_ticks (s x1 x2) :
    (State.copyMaps s x1 x2).1.pending = s.pending ∧ (State.copyMaps s x1 x2).1.tk.count = s.tk.count := by
  exact State.copyMaps_stays ..

@[simp] theorem State.step5_ticks (s x1) :
    (State.step5 s x1).1.pending = s.pending ∧ (State.step5 s x1).1.tk.count = s.tk.count := by
  refine ⟨?_, ?_⟩ <;> (simp only [State.step5]; (repeat' split) <;> simp_all)

@[simp] theorem State.steps_ticks (s x1) :
    (State.steps s x1).1.pending = s.pending ∧ (State.steps s x1).1.tk.count = s.tk.count := by
  refine ⟨?_, ?_⟩ <;> (simp only [State.steps]; (repeat' split) <;> simp_all)

@[simp] theorem State.startFinds_ticks (s x1) :
    (State.startFinds s x1).pending = s.pending ∧ (State.startFinds s x1).tk.count = s.tk.count := by
  refine ⟨?_, ?_⟩ <;> (simp only [State.startFinds]; (repeat' split) <;> simp_all)

theorem State.activate_stays (s : State) : Ticked s s.activate := by
  unfold State.activate
  extract_lets -merge +onlyGivenNames one s1
  have h : ∀ t a b c d, Ticked t (one t a b c d) := by
    intro t a b c d
    refine Ticked.ite (Ticked.ite ?_ ?_) (Ticked.ite ⟨rfl, rfl⟩ ⟨rfl, rfl⟩)
    all_goals
      refine Ticked.trans ?_ (State.raise_ticks ..)
      exact Ticked.ite ⟨rfl, rfl⟩ ⟨rfl, rfl⟩
  exact (h ..).trans (h ..)
@[simp] theorem State.activate_ticks (s) :
    (State.activate s).pending = s.pending ∧ (State.activate s).tk.count = s.tk.count := by
  exact State.activate_stays ..

@[simp] theorem State.takeOwners_ticks (s) :
    (State.takeOwners s).pending = s.pending ∧ (State.takeOwners s).tk.count = s.tk.count := by
  exact ⟨rfl, rfl⟩

@[simp] theorem State.takeAuto_ticks (s) :
    (State.takeAuto s).pending = s.pending ∧ (State.takeAuto s).tk.count = s.tk.count := by
  exact ⟨rfl, rfl⟩

@[simp] theorem State.deckReady_ticks (s) :
    (State.deckReady s).pending = s.pending ∧ (State.deckReady s).tk.count = s.tk.count := by
  refine ⟨?_, ?_⟩ <;> (simp only [State.deckReady]; split <;> simp)

@[simp] theorem State.startBoundary_ticks (s) :
    (State.startBoundary s).pending = s.pending ∧ (State.startBoundary s).tk.count = s.tk.count := by
  refine ⟨?_, ?_⟩ <;> (simp only [State.startBoundary]; (repeat' split) <;> simp_all)

@[simp] theorem State.calBoundary_ticks (s) :
    (State.calBoundary s).pending = s.pending ∧ (State.calBoundary s).tk.count = s.tk.count := by
  refine ⟨?_, ?_⟩ <;> (unfold State.calBoundary; (repeat' split) <;> simp)

@[simp] theorem State.route_ticks (s x1) :
    (State.route s x1).pending = s.pending ∧ (State.route s x1).tk.count = s.tk.count := by
  refine ⟨?_, ?_⟩ <;> (simp only [State.route]; split <;> simp)

@[simp] theorem State.unstage_ticks (s x1) :
    (State.unstage s x1).pending = s.pending ∧ (State.unstage s x1).tk.count = s.tk.count := by
  exact ⟨rfl, rfl⟩

@[simp] theorem State.deckFinish_ticks (s x1 x2 x3) :
    (State.deckFinish s x1 x2 x3).pending = s.pending ∧ (State.deckFinish s x1 x2 x3).tk.count = s.tk.count := by
  refine ⟨?_, ?_⟩ <;> simp [State.deckFinish]

@[simp] theorem State.leaveToTwin_ticks (s x1) :
    (State.leaveToTwin s x1).pending = s.pending ∧ (State.leaveToTwin s x1).tk.count = s.tk.count := by
  exact ⟨rfl, rfl⟩

@[simp] theorem State.safeOf_ticks (s x1 x2) :
    (State.safeOf s x1 x2).pending = s.pending ∧ (State.safeOf s x1 x2).tk.count = s.tk.count := by
  refine ⟨?_, ?_⟩ <;> (simp only [State.safeOf]; split <;> simp)

@[simp] theorem State.giveUpSpan_ticks (s x1 x2) :
    (State.giveUpSpan s x1 x2).pending = s.pending ∧ (State.giveUpSpan s x1 x2).tk.count = s.tk.count := by
  refine ⟨?_, ?_⟩ <;> (simp only [State.giveUpSpan]; split <;> simp)

@[simp] theorem State.judgeSpan_ticks (s x1) :
    (State.judgeSpan s x1).pending = s.pending ∧ (State.judgeSpan s x1).tk.count = s.tk.count := by
  refine ⟨?_, ?_⟩ <;> (unfold State.judgeSpan; (repeat' split) <;> simp)

theorem State.prepare_stays (s : State) : Ticked s s.prepare := by
  unfold State.prepare
  refine Ticked.ite (.refl _) ?_
  extract_lets -merge +onlyGivenNames _ s1 b _ s2 s3 r _ s4 s5 s6
  have h1 : Ticked s s1 := ⟨rfl, rfl⟩
  have h2 : Ticked s s2 := h1.trans (State.withStage_ticks ..)
  have h3 : Ticked s s3 := h2.trans (Ticked.foldl _ (fun t m => Ticked.ite (State.aScan_ticks ..) (.refl _)) _ _)
  have h4 : Ticked s s4 := h3.trans (Ticked.ite (State.withStage_ticks ..) (.refl _))
  have h5 : Ticked s s5 := h4.trans (Ticked.foldl State.judgeSpan State.judgeSpan_ticks _ _)
  have h6 : Ticked s s6 := h5.trans (Ticked.trans (State.cBypassExit_ticks ..) (State.qPilotExit_ticks ..))
  exact h6.trans (Ticked.foldl _ (fun t m => Ticked.ite (State.aOps_ticks ..) (.refl _)) _ _)
@[simp] theorem State.prepare_ticks (s) :
    (State.prepare s).pending = s.pending ∧ (State.prepare s).tk.count = s.tk.count := by
  exact State.prepare_stays ..

@[simp] theorem State.modeSpan_ticks (s x1 x2 x3 x4) :
    (State.modeSpan s x1 x2 x3 x4).2.pending = s.pending ∧ (State.modeSpan s x1 x2 x3 x4).2.tk.count = s.tk.count := by
  refine ⟨?_, ?_⟩ <;> (unfold State.modeSpan; (repeat' split) <;> simp)

theorem State.spanRun_stays (s : State) (d : Staged) : Ticked s (s.spanRun d).s := by
  unfold State.spanRun
  extract_lets x t m q0 long
  split
  all_goals first
    | exact State.modeSpan_ticks ..
    | exact State.tqTarget_ticks ..
    | exact State.spdTargetCmd_ticks ..
    | exact State.posRearmCmd_ticks ..
    | exact State.cVtgtCmd_ticks ..
    | exact State.cItgtCmd_ticks ..
    | exact State.cPhasesCmd_ticks ..
    | exact State.cCrowbarCmd_ticks ..
    | exact State.qPowerCmd_ticks ..
    | exact State.aHoldCmd_ticks ..
    | exact State.aShiftCmd_ticks ..
    | exact State.aParkCmd_ticks ..
    | exact State.aReleaseCmd_ticks ..
    | exact State.aCurrentCmd_ticks ..
    | exact State.aHomeCmd_ticks ..
    | exact State.aRearmCmd_ticks ..
@[simp] theorem State.spanRun_ticks (s x1) :
    (State.spanRun s x1).s.pending = s.pending ∧ (State.spanRun s x1).s.tk.count = s.tk.count := by
  exact State.spanRun_stays ..

@[simp] theorem State.spanDone_ticks (s x1 x2 x3 x4) :
    (State.spanDone s x1 x2 x3 x4).pending = s.pending ∧ (State.spanDone s x1 x2 x3 x4).tk.count = s.tk.count := by
  exact ⟨rfl, rfl⟩

@[simp] theorem State.modeRelinquish_ticks (s x1) :
    (State.modeRelinquish s x1).pending = s.pending ∧ (State.modeRelinquish s x1).tk.count = s.tk.count := by
  refine ⟨?_, ?_⟩ <;> (simp only [State.modeRelinquish]; (repeat' split) <;> simp_all)

@[simp] theorem State.spanCommand_ticks (s x1) :
    (State.spanCommand s x1).pending = s.pending ∧ (State.spanCommand s x1).tk.count = s.tk.count := by
  refine ⟨?_, ?_⟩ <;> (simp only [State.spanCommand]; (repeat' split) <;> simp_all)

@[simp] theorem State.abortCommand_ticks (s x1 x2) :
    (State.abortCommand s x1 x2).pending = s.pending ∧ (State.abortCommand s x1 x2).tk.count = s.tk.count := by
  refine ⟨?_, ?_⟩ <;> (simp only [State.abortCommand]; (repeat' split) <;> simp_all)

theorem State.ltWriteCommand_stays (s : State) (d) : Ticked s (s.ltWriteCommand d) := by
  unfold State.ltWriteCommand
  extract_lets k b x
  split
  · exact State.deckFinish_ticks ..
  · exact Ticked.trans (State.putSlot_ticks ..) (State.deckFinish_ticks ..)
@[simp] theorem State.ltWriteCommand_ticks (s x1) :
    (State.ltWriteCommand s x1).pending = s.pending ∧ (State.ltWriteCommand s x1).tk.count = s.tk.count := by
  exact State.ltWriteCommand_stays ..

@[simp] theorem State.ltClearCommand_ticks (s x1) :
    (State.ltClearCommand s x1).pending = s.pending ∧ (State.ltClearCommand s x1).tk.count = s.tk.count := by
  refine ⟨?_, ?_⟩ <;> simp [State.ltClearCommand]

@[simp] theorem State.calMapCommand_ticks (s x1) :
    (State.calMapCommand s x1).pending = s.pending ∧ (State.calMapCommand s x1).tk.count = s.tk.count := by
  refine ⟨?_, ?_⟩ <;> simp [State.calMapCommand]

@[simp] theorem State.registerCommand_ticks (s x1 x2 x3) :
    (State.registerCommand s x1 x2 x3).pending = s.pending ∧ (State.registerCommand s x1 x2 x3).tk.count = s.tk.count := by
  refine ⟨?_, ?_⟩ <;> simp [State.registerCommand]

@[simp] theorem State.pairRearmCommand_ticks (s x1) :
    (State.pairRearmCommand s x1).pending = s.pending ∧ (State.pairRearmCommand s x1).tk.count = s.tk.count := by
  refine ⟨?_, ?_⟩ <;> simp [State.pairRearmCommand]

@[simp] theorem State.adcTrigCommand_ticks (s x1) :
    (State.adcTrigCommand s x1).pending = s.pending ∧ (State.adcTrigCommand s x1).tk.count = s.tk.count := by
  refine ⟨?_, ?_⟩ <;> simp [State.adcTrigCommand]

@[simp] theorem State.tripClearCommand_ticks (s x1) :
    (State.tripClearCommand s x1).pending = s.pending ∧ (State.tripClearCommand s x1).tk.count = s.tk.count := by
  refine ⟨?_, ?_⟩ <;> simp [State.tripClearCommand]

@[simp] theorem State.pierClearCommand_ticks (s x1) :
    (State.pierClearCommand s x1).pending = s.pending ∧ (State.pierClearCommand s x1).tk.count = s.tk.count := by
  refine ⟨?_, ?_⟩ <;> simp [State.pierClearCommand]

@[simp] theorem State.jobCommand_ticks (s x1) :
    (State.jobCommand s x1).pending = s.pending ∧ (State.jobCommand s x1).tk.count = s.tk.count := by
  exact ⟨rfl, rfl⟩

@[simp] theorem State.deckEffect_ticks (s x1 x2 x3 x4) :
    (State.deckEffect s x1 x2 x3 x4).pending = s.pending ∧ (State.deckEffect s x1 x2 x3 x4).tk.count = s.tk.count := by
  refine ⟨?_, ?_⟩ <;> (simp only [State.deckEffect]; split <;> simp)

@[simp] theorem State.runSpan_ticks (s x1) :
    (State.runSpan s x1).pending = s.pending ∧ (State.runSpan s x1).tk.count = s.tk.count := by
  refine ⟨?_, ?_⟩ <;> (unfold State.runSpan; (repeat' split) <;> simp)

@[simp] theorem State.handoverNow_ticks (s x1) :
    (State.handoverNow s x1).pending = s.pending ∧ (State.handoverNow s x1).tk.count = s.tk.count := by
  refine ⟨?_, ?_⟩ <;> (simp only [State.handoverNow]; split <;> simp)

@[simp] theorem State.runDeck_ticks (s x1) :
    (State.runDeck s x1).pending = s.pending ∧ (State.runDeck s x1).tk.count = s.tk.count := by
  refine ⟨?_, ?_⟩ <;> (unfold State.runDeck; (repeat' split) <;> simp)

/-- A command on the deck keeps what its own run keeps. -/
@[simp] theorem State.testDone_ticks (s x1 x2 x3) :
    (State.testDone s x1 x2 x3).pending = s.pending ∧ (State.testDone s x1 x2 x3).tk.count = s.tk.count := by
  refine ⟨?_, ?_⟩ <;> (simp only [State.testDone]; split <;> simp)

@[simp] theorem State.actionSpan_ticks (s x1 x2) :
    (State.actionSpan s x1 x2).2.pending = s.pending ∧ (State.actionSpan s x1 x2).2.tk.count = s.tk.count := by
  refine ⟨?_, ?_⟩ <;> (simp only [State.actionSpan]; (repeat' split) <;> simp_all)

theorem State.runAction_stays (s : State) (x1) : Ticked s (s.runAction x1) := by
  unfold State.runAction
  extract_lets -merge +onlyGivenNames b v xs
  refine Ticked.ite ⟨rfl, rfl⟩ ?_
  extract_lets step
  have h : Ticked s (xs.foldl step (s, 0, 0)).1 := by
    refine Ticked.foldl_on (fun b : State × Nat × Nat => b.1) step (fun q x => ?_) _ (s, 0, 0)
    dsimp only [step]
    have ha := State.actionSpan_ticks q.1 x1 x
    generalize q.1.actionSpan x1 x = r at *
    split
    · exact .refl _
    · exact Ticked.trans ha (Ticked.foldl (fun (t : State) q => { t with stage := t.stage.quantity none q }) (fun t q => ⟨rfl, rfl⟩) _ _)
  generalize xs.foldl step (s, 0, 0) = r at *
  obtain ⟨t, st, no⟩ := r
  exact Ticked.trans h ⟨rfl, rfl⟩
@[simp] theorem State.runAction_ticks (s x1) :
    (State.runAction s x1).pending = s.pending ∧ (State.runAction s x1).tk.count = s.tk.count := by
  exact State.runAction_stays ..

theorem State.runProfile_stays (s : State) (x1) : Ticked s (s.runProfile x1) := by
  unfold State.runProfile
  extract_lets x m y act
  have h : ∀ r, act = some r → Ticked s r.2 := by
    intro r hr
    dsimp only [act] at hr
    repeat' split at hr
    all_goals first
      | (cases hr; done)
      | (cases hr
         first
           | exact State.modeSpan_ticks ..
           | exact State.aHoldHere_ticks ..
           | exact State.aParkCmd_ticks ..)
  clear_value act
  split
  · exact .refl _
  · exact State.withStage_ticks ..
  · exact Ticked.trans (h _ rfl) (State.withStage_ticks ..)
@[simp] theorem State.runProfile_ticks (s x1) :
    (State.runProfile s x1).pending = s.pending ∧ (State.runProfile s x1).tk.count = s.tk.count := by
  exact State.runProfile_stays ..

@[simp] theorem State.fetchSlip_ticks (s) :
    (State.fetchSlip s).pending = s.pending ∧ (State.fetchSlip s).tk.count = s.tk.count := by
  refine ⟨?_, ?_⟩ <;> (simp only [State.fetchSlip]; split <;> simp)

@[simp] theorem State.pageFailed_ticks (s) :
    (State.pageFailed s).pending = s.pending ∧ (State.pageFailed s).tk.count = s.tk.count := by
  refine ⟨?_, ?_⟩ <;> simp [State.pageFailed]

@[simp] theorem State.takePage_ticks (s x1) :
    (State.takePage s x1).pending = s.pending ∧ (State.takePage s x1).tk.count = s.tk.count := by
  exact ⟨rfl, rfl⟩

@[simp] theorem State.judgeFull_ticks (s) :
    (State.judgeFull s).pending = s.pending ∧ (State.judgeFull s).tk.count = s.tk.count := by
  refine ⟨?_, ?_⟩ <;> (simp only [State.judgeFull]; split <;> simp)

@[simp] theorem State.fetchError_ticks (s x1 x2 x3) :
    (State.fetchError s x1 x2 x3).pending = s.pending ∧ (State.fetchError s x1 x2 x3).tk.count = s.tk.count := by
  refine ⟨?_, ?_⟩ <;> simp [State.fetchError]

@[simp] theorem State.fetchOne_ticks (s x1) :
    (State.fetchOne s x1).pending = s.pending ∧ (State.fetchOne s x1).tk.count = s.tk.count := by
  refine ⟨?_, ?_⟩ <;> (simp only [State.fetchOne]; split <;> simp)

@[simp] theorem State.hostLoss_ticks (s x1) :
    (State.hostLoss s x1).pending = s.pending ∧ (State.hostLoss s x1).tk.count = s.tk.count := by
  refine ⟨?_, ?_⟩ <;> simp [State.hostLoss]

@[simp] theorem State.hostBack_ticks (s) :
    (State.hostBack s).pending = s.pending ∧ (State.hostBack s).tk.count = s.tk.count := by
  refine ⟨?_, ?_⟩ <;> simp [State.hostBack]

@[simp] theorem State.judgeHost_ticks (s x1 x2) :
    (State.judgeHost s x1 x2).pending = s.pending ∧ (State.judgeHost s x1 x2).tk.count = s.tk.count := by
  refine ⟨?_, ?_⟩ <;> (unfold State.judgeHost; (repeat' split) <;> simp)

@[simp] theorem State.takeDescs_ticks (s x1) :
    (State.takeDescs s x1).pending = s.pending ∧ (State.takeDescs s x1).tk.count = s.tk.count := by
  refine ⟨?_, ?_⟩ <;> simp [State.takeDescs]

@[simp] theorem State.fetchPage_ticks (s x1 x2) :
    (State.fetchPage s x1 x2).pending = s.pending ∧ (State.fetchPage s x1 x2).tk.count = s.tk.count := by
  refine ⟨?_, ?_⟩ <;> (simp only [State.fetchPage]; (repeat' split) <;> simp_all)

@[simp] theorem State.fbReply_ticks (s x1 x2 x3 x4) :
    (State.fbReply s x1 x2 x3 x4).pending = s.pending ∧ (State.fbReply s x1 x2 x3 x4).tk.count = s.tk.count := by
  refine ⟨?_, ?_⟩ <;> simp [State.fbReply]

@[simp] theorem State.fbRefuse_ticks (s x1 x2 x3) :
    (State.fbRefuse s x1 x2 x3).pending = s.pending ∧ (State.fbRefuse s x1 x2 x3).tk.count = s.tk.count := by
  refine ⟨?_, ?_⟩ <;> simp [State.fbRefuse]

theorem State.fbApply_stays (s : State) (x1) : Ticked s (s.fbApply x1) := by
  unfold State.fbApply
  extract_lets stopNo step
  have ha : ∀ act ∈ s.fbActs x1, ∀ t, Ticked t (act t).2 := by
    intro act h t
    unfold State.fbActs at h
    extract_lets at h
    split at h
    · rcases List.mem_append.mp h with h | h
      all_goals
        obtain ⟨x, -, rfl⟩ := List.mem_map.mp h
        first | exact State.modeSpan_ticks .. | exact State.aHoldHere_ticks ..
    · obtain ⟨x, -, rfl⟩ := List.mem_map.mp h
      exact State.modeSpan_ticks ..
    · obtain ⟨x, -, rfl⟩ := List.mem_map.mp h
      exact State.aParkCmd_ticks ..
    · exact absurd h List.not_mem_nil
  have h : ∀ (l : List (State → Verdict × State)) (q : State × Bool), (∀ act ∈ l, ∀ t, Ticked t (act t).2) → Ticked q.1 (l.foldl step q).1 := by
    intro l
    induction l with
    | nil => exact fun q _ => .refl _
    | cons a l ih =>
      intro q hl
      refine Ticked.trans ?_ (ih _ fun b hb => hl b (List.mem_cons_of_mem _ hb))
      dsimp only [step]
      split
      · exact .refl _
      · exact hl a List.mem_cons_self q.1
  have h := h _ (s, stopNo) ha
  generalize (s.fbActs x1).foldl step (s, stopNo) = r at *
  obtain ⟨t, no⟩ := r
  exact Ticked.trans h (State.withStage_ticks ..)
@[simp] theorem State.fbApply_ticks (s x1) :
    (State.fbApply s x1).pending = s.pending ∧ (State.fbApply s x1).tk.count = s.tk.count := by
  exact State.fbApply_stays ..

@[simp] theorem State.derateLink_ticks (s) :
    (State.derateLink s).pending = s.pending ∧ (State.derateLink s).tk.count = s.tk.count := by
  exact ⟨rfl, rfl⟩

@[simp] theorem State.keepS3_ticks (s x1 x2 x3 x4) :
    (State.keepS3 s x1 x2 x3 x4).pending = s.pending ∧ (State.keepS3 s x1 x2 x3 x4).tk.count = s.tk.count := by
  refine ⟨?_, ?_⟩ <;> (simp only [State.keepS3]; split <;> simp)

@[simp] theorem State.engines_ticks (s x1 x2 x3) :
    (State.engines s x1 x2 x3).1.pending = s.pending ∧ (State.engines s x1 x2 x3).1.tk.count = s.tk.count := by
  refine ⟨?_, ?_⟩ <;> simp [State.engines]

@[simp] theorem State.computeTrac_ticks (s x1 x2) :
    (State.computeTrac s x1 x2).pending = s.pending ∧ (State.computeTrac s x1 x2).tk.count = s.tk.count := by
  refine ⟨?_, ?_⟩ <;> (simp only [State.computeTrac]; split <;> simp)

@[simp] theorem State.computeC_ticks (s x1) :
    (State.computeC s x1).pending = s.pending ∧ (State.computeC s x1).tk.count = s.tk.count := by
  refine ⟨?_, ?_⟩ <;> (simp only [State.computeC]; split <;> simp)

@[simp] theorem State.computeQ_ticks (s x1) :
    (State.computeQ s x1).pending = s.pending ∧ (State.computeQ s x1).tk.count = s.tk.count := by
  refine ⟨?_, ?_⟩ <;> (simp only [State.computeQ]; split <;> simp)

@[simp] theorem State.computeB_ticks (s) :
    (State.computeB s).pending = s.pending ∧ (State.computeB s).tk.count = s.tk.count := by
  refine ⟨?_, ?_⟩ <;> (simp only [State.computeB]; split <;> simp)

@[simp] theorem State.computeA_ticks (s x1 x2) :
    (State.computeA s x1 x2).pending = s.pending ∧ (State.computeA s x1 x2).tk.count = s.tk.count := by
  refine ⟨?_, ?_⟩ <;> (unfold State.computeA; (repeat' split) <;> simp)

@[simp] theorem State.computeSpans_ticks (s) :
    (State.computeSpans s).pending = s.pending ∧ (State.computeSpans s).tk.count = s.tk.count := by
  refine ⟨?_, ?_⟩ <;> simp [State.computeSpans]

@[simp] theorem State.putOff_ticks (s x1 x2) :
    (State.putOff s x1 x2).2.pending = s.pending ∧ (State.putOff s x1 x2).2.tk.count = s.tk.count := by
  refine ⟨?_, ?_⟩ <;> (simp only [State.putOff]; split <;> simp)

/-- One staged command of the scan. -/
theorem runStaged_stays (p : State × Nat) (d : Staged) : Ticked p.1 (State.runStaged p d).1 := by
  unfold State.runStaged
  extract_lets -merge +onlyGivenNames s std
  have h : Ticked s (s.putOff d p.2).2 := State.putOff_ticks ..
  generalize s.putOff d p.2 = r at *
  obtain ⟨off, t⟩ := r
  dsimp -zeta only
  split
  · exact h
  extract_lets -merge +onlyGivenNames k
  split
  · exact State.runSpan_ticks ..
  split
  · exact .refl _
  split
  · exact ⟨rfl, rfl⟩
  split
  · exact State.leaveToTwin_ticks ..
  split
  · exact ⟨rfl, rfl⟩
  · extract_lets -merge +onlyGivenNames u
    have hu : Ticked s u := Ticked.ite (State.stageHandover_ticks ..) (.refl _)
    clear_value u
    exact Ticked.trans hu ⟨rfl, rfl⟩

theorem State.runCommands_stays (s : State) : Ticked s s.runCommands := by
  unfold State.runCommands
  extract_lets -merge +onlyGivenNames b s1 s2 s3
  have h1 : Ticked s s1 := Ticked.foldl State.runProfile State.runProfile_ticks _ _
  have h2 : Ticked s s2 := h1.trans (Ticked.foldl_on (fun b : State × Nat => b.1) State.runStaged (runStaged_stays) _ (s1, 0))
  have h3 : Ticked s s3 := h2.trans (Ticked.foldl _ (fun t f => State.fbApply_ticks ..) _ _)
  exact h3.trans (Ticked.foldl State.runAction State.runAction_ticks _ _)
@[simp] theorem State.runCommands_ticks (s) :
    (State.runCommands s).pending = s.pending ∧ (State.runCommands s).tk.count = s.tk.count := by
  exact State.runCommands_stays ..

@[simp] theorem State.judgeSlack_ticks (s x1) :
    (State.judgeSlack s x1).pending = s.pending ∧ (State.judgeSlack s x1).tk.count = s.tk.count := by
  refine ⟨?_, ?_⟩ <;> (simp only [State.judgeSlack]; split <;> simp)

@[simp] theorem State.doNote_ticks (s x1) :
    (State.doNote s x1).pending = s.pending ∧ (State.doNote s x1).tk.count = s.tk.count := by
  refine ⟨?_, ?_⟩ <;> (unfold State.doNote; (repeat' split) <;> simp)

@[simp] theorem State.raiseFound_ticks (s) :
    (State.raiseFound s).pending = s.pending ∧ (State.raiseFound s).tk.count = s.tk.count := by
  refine ⟨?_, ?_⟩ <;> simp [State.raiseFound]

@[simp] theorem State.dropRunning_ticks (s) :
    (State.dropRunning s).pending = s.pending ∧ (State.dropRunning s).tk.count = s.tk.count := by
  exact ⟨rfl, rfl⟩

@[simp] theorem State.faultCompletions_ticks (s) :
    (State.faultCompletions s).pending = s.pending ∧ (State.faultCompletions s).tk.count = s.tk.count := by
  refine ⟨?_, ?_⟩ <;> (simp only [State.faultCompletions]; split <;> simp)

@[simp] theorem State.sendFrame_ticks (s x1) :
    (State.sendFrame s x1).pending = s.pending ∧ (State.sendFrame s x1).tk.count = s.tk.count := by
  refine ⟨?_, ?_⟩ <;> (simp only [State.sendFrame]; (repeat' split) <;> simp_all)

@[simp] theorem State.dropEvents_ticks (s) :
    (State.dropEvents s).pending = s.pending ∧ (State.dropEvents s).tk.count = s.tk.count := by
  exact ⟨rfl, rfl⟩

@[simp] theorem State.writeRings_ticks (s) :
    (State.writeRings s).pending = s.pending ∧ (State.writeRings s).tk.count = s.tk.count := by
  refine ⟨?_, ?_⟩ <;> (unfold State.writeRings; (repeat' split) <;> simp)

@[simp] theorem State.commitStage_ticks (s x1) :
    (State.commitStage s x1).pending = s.pending ∧ (State.commitStage s x1).tk.count = s.tk.count := by
  refine ⟨?_, ?_⟩ <;> simp [State.commitStage]

@[simp] theorem State.actionAt_ticks (s x1 x2 x3 x4) :
    (State.actionAt s x1 x2 x3 x4).pending = s.pending ∧ (State.actionAt s x1 x2 x3 x4).tk.count = s.tk.count := by
  refine ⟨?_, ?_⟩ <;> (simp only [State.actionAt]; (repeat' split) <;> simp_all)

@[simp] theorem State.launchAt_ticks (s x1 x2 x3 x4) :
    (State.launchAt s x1 x2 x3 x4).pending = s.pending ∧ (State.launchAt s x1 x2 x3 x4).tk.count = s.tk.count := by
  refine ⟨?_, ?_⟩ <;> simp [State.launchAt]

theorem State.deckCommands_stays (s : State) (x1 x2 x3 x4) : Ticked s (s.deckCommands x1 x2 x3 x4) := by
  unfold State.deckCommands
  extract_lets due isReg later one
  have h : ∀ t d, Ticked t (one t d) := by
    intro t d
    dsimp only [one]
    split
    · exact State.deckFinish_ticks ..
    · exact Ticked.ite (.refl _) (Ticked.ite (State.unstage_ticks ..) (State.deckEffect_ticks ..))
  exact (Ticked.foldl one h _ _).trans (Ticked.foldl one h _ _)
@[simp] theorem State.deckCommands_ticks (s x1 x2 x3 x4) :
    (State.deckCommands s x1 x2 x3 x4).pending = s.pending ∧ (State.deckCommands s x1 x2 x3 x4).tk.count = s.tk.count := by
  exact State.deckCommands_stays ..

@[simp] theorem State.overdue_ticks (s x1 x2) :
    (State.overdue s x1 x2).pending = s.pending ∧ (State.overdue s x1 x2).tk.count = s.tk.count := by
  exact ⟨rfl, rfl⟩

@[simp] theorem State.overrun_ticks (s x1) :
    (State.overrun s x1).pending = s.pending ∧ (State.overrun s x1).tk.count = s.tk.count := by
  refine ⟨?_, ?_⟩ <;> (simp only [State.overrun]; (repeat' split) <;> simp_all)

@[simp] theorem State.overrunEvents_ticks (s x1 x2) :
    (State.overrunEvents s x1 x2).pending = s.pending ∧ (State.overrunEvents s x1 x2).tk.count = s.tk.count := by
  refine ⟨?_, ?_⟩ <;> (simp only [State.overrunEvents]; split <;> simp)

@[simp] theorem State.capacityBoundary_ticks (s) :
    (State.capacityBoundary s).pending = s.pending ∧ (State.capacityBoundary s).tk.count = s.tk.count := by
  show Ticked s _; unfold State.capacityBoundary; (try extract_lets); (repeat' first | split | exact Ticked.refl _ | with_reducible exact (Ticked.of (State.raise_ticks ..)) | with_reducible exact (Ticked.of (State.updateAvail_ticks ..)) | with_reducible refine Ticked.ite ?_ ?_ | with_reducible refine Ticked.trans ?_ (Ticked.of (State.raise_ticks ..)) | with_reducible refine Ticked.trans ?_ (Ticked.of (State.updateAvail_ticks ..)) | with_reducible refine Ticked.trans ?_ (Ticked.foldl _ (fun _ _ => ?_) _ _) | with_reducible refine Ticked.trans ?_ (Ticked.ite ?_ ?_) | with_reducible refine Ticked.trans ?_ (Ticked.lit _ _ (by rfl) ..))

theorem State.forgetRefusals_stays (s : State) : Ticked s s.forgetRefusals := by
  unfold State.forgetRefusals
  exact Ticked.foldl _ (fun t c => Ticked.ite (State.updConv_ticks ..) (.refl _)) _ _
@[simp] theorem State.forgetRefusals_ticks (s) :
    (State.forgetRefusals s).pending = s.pending ∧ (State.forgetRefusals s).tk.count = s.tk.count := by
  exact State.forgetRefusals_stays ..

@[simp] theorem State.openTick_ticks (s x1) :
    (State.openTick s x1).pending = s.pending ∧ (State.openTick s x1).tk.count = s.tk.count := by
  exact ⟨rfl, rfl⟩

@[simp] theorem State.captures_ticks (s x1) :
    (State.captures s x1).pending = s.pending ∧ (State.captures s x1).tk.count = s.tk.count := by
  refine ⟨?_, ?_⟩ <;> simp [State.captures]

@[simp] theorem State.giveUpSafe_ticks (s) :
    (State.giveUpSafe s).pending = s.pending ∧ (State.giveUpSafe s).tk.count = s.tk.count := by
  refine ⟨?_, ?_⟩ <;> simp [State.giveUpSafe]

theorem State.trussBoundary_stays (s : State) (x1 x2 x3) : Ticked s (s.trussBoundary x1 x2 x3) := by
  unfold State.trussBoundary
  extract_lets s1 s2
  have h1 : Ticked s s1 := Ticked.trans (State.moveSets_ticks ..) (State.latchPatterns_ticks ..)
  have h2 : Ticked s s2 := h1.trans (State.syncCheck_ticks ..)
  have h3 : Ticked s (s2.dtUpset x2.dtUpset).dtBoundary.1 := h2.trans (Ticked.trans (State.dtUpset_ticks ..) (State.dtBoundary_ticks ..))
  clear_value s2
  generalize (s2.dtUpset x2.dtUpset).dtBoundary = r at *
  obtain ⟨t, bad⟩ := r
  exact Ticked.trans h3 (Ticked.ite (State.digestFault_ticks ..) (.refl _))
@[simp] theorem State.trussBoundary_ticks (s x1 x2 x3) :
    (State.trussBoundary s x1 x2 x3).pending = s.pending ∧ (State.trussBoundary s x1 x2 x3).tk.count = s.tk.count := by
  exact State.trussBoundary_stays ..

@[simp] theorem State.startAndPair_ticks (s) :
    (State.startAndPair s).pending = s.pending ∧ (State.startAndPair s).tk.count = s.tk.count := by
  refine ⟨?_, ?_⟩ <;> (simp only [State.startAndPair]; split <;> simp)

@[simp] theorem State.lateLong_ticks (s) :
    (State.lateLong s).pending = s.pending ∧ (State.lateLong s).tk.count = s.tk.count := by
  refine ⟨?_, ?_⟩ <;> (simp only [State.lateLong]; split <;> simp)

theorem State.landTick_stays (s : State) (x1 x2 x3 x4 x5) : Ticked s (s.landTick x1 x2 x3 x4 x5) := by
  unfold State.landTick
  extract_lets -merge +onlyGivenNames b old posted landed s1 s2 s3
  have h1 : Ticked s s1 := Ticked.trans (State.landTl_ticks ..) (Ticked.trans (State.commitStage_ticks ..) (State.launchAt_ticks ..))
  have h2 : Ticked s s2 := h1.trans (Ticked.ite (.refl _) (Ticked.trans (State.deckCommands_ticks ..) (State.overdue_ticks ..)))
  have h3 : Ticked s s3 := h2.trans (Ticked.ite (State.keystoneSafe_ticks ..) (.refl _))
  exact h3.trans (Ticked.trans (State.giveUpSafe_ticks ..) (State.trussBoundary_ticks ..))
@[simp] theorem State.landTick_ticks (s x1 x2 x3 x4 x5) :
    (State.landTick s x1 x2 x3 x4 x5).pending = s.pending ∧ (State.landTick s x1 x2 x3 x4 x5).tk.count = s.tk.count := by
  exact State.landTick_stays ..

theorem State.beginTick_stays (s : State) (x1 x2) : Ticked s (s.beginTick x1 x2) := by
  unfold State.beginTick
  have cal : ∀ t : State, Ticked t t.calBoundary.capacityBoundary.startAndPair := fun t =>
    Ticked.trans (State.calBoundary_ticks t) (Ticked.trans (State.capacityBoundary_ticks _) (State.startAndPair_ticks _))
  have par : ∀ (t : State) (p k), Ticked t (t.releaseBoundary.trestleInputs.watchdogBoundary.sampleContactor p k) := fun t p k =>
    Ticked.trans (State.releaseBoundary_ticks t) (Ticked.trans (State.trestleInputs_ticks _)
      (Ticked.trans (State.watchdogBoundary_ticks _) (State.sampleContactor_ticks _ p k)))
  have opn : ∀ (t : State) (o), Ticked t ((t.openTick o).forgetRefusals.relinquish) := fun t o =>
    Ticked.trans (State.openTick_ticks t o) (Ticked.trans (State.forgetRefusals_ticks _) (State.relinquish_ticks _))
  have cap : Ticked s (s.captures x1).uvBoundary := Ticked.trans (State.captures_ticks s x1) (State.uvBoundary_ticks _)
  have leg : ∀ (t : State) (o), Ticked t (t.boundaryLegs o) := fun t o => State.boundaryLegs_ticks t o
  exact cap.trans ((opn _ x2).trans ((leg _ x2).trans ((par _ _ _).trans (cal _))))

@[simp] theorem State.beginTick_ticks (s x1 x2) :
    (State.beginTick s x1 x2).pending = s.pending ∧ (State.beginTick s x1 x2).tk.count = s.tk.count := by
  exact State.beginTick_stays ..

/-- A boundary opens the next tick: until its events are raised, ending the tick only counts it on. -/
theorem State.endTick_count (s : State) (inp : BoundaryIn) (o : Bool) : (s.endTick inp o).tk.count = s.tk.count + 1 := by
  unfold State.endTick
  simp only []
  split_ifs <;> simp

/-- A tick boundary that the deck takes opens the next tick (R43). -/
theorem execTickBoundary_count (inp : BoundaryIn) (s t : State)
    (h : s.start.ticking = true) (h1 : s.start.abut = false) (h2 : s.clocked = true) (h3 : s.pu ≠ 0)
    (h4 : execTickBoundary inp s = .next t) : t.tk.count = s.tk.count + 1 := by
  have c : (!s.start.ticking || s.start.abut || !s.clocked || decide (s.pu = 0)) = false := by simp [h, h1, h2, h3]
  unfold execTickBoundary at h4
  rw [c] at h4
  simp only [Bool.false_eq_true, if_false, Host.Outcome.next.injEq] at h4
  subst h4
  simp only [State.beginTick_ticks, State.landTick_ticks, State.endTick_count]

end Sys2Proof.Machine
end

