-- ==== Sys2Proof/Laws/State.lean ====
section
/-! SUPPORT. One lemma per field of State per update: what an update does not name it leaves alone. -/
namespace Sys2Proof.Machine

@[simp] theorem State.pending_setReg (s : State) (off v) : (s.setReg off v).pending = s.pending := rfl
@[simp] theorem State.freeCtr_setReg (s : State) (off v) : (s.setReg off v).freeCtr = s.freeCtr := rfl
@[simp] theorem State.tk_setReg (s : State) (off v) : (s.setReg off v).tk = s.tk := rfl
@[simp] theorem State.adc_setReg (s : State) (off v) : (s.setReg off v).adc = s.adc := rfl
@[simp] theorem State.rej_setReg (s : State) (off v) : (s.setReg off v).rej = s.rej := rfl
@[simp] theorem State.cur_setReg (s : State) (off v) : (s.setReg off v).cur = s.cur := rfl
@[simp] theorem State.stage_setReg (s : State) (off v) : (s.setReg off v).stage = s.stage := rfl
@[simp] theorem State.legs_setReg (s : State) (off v) : (s.setReg off v).legs = s.legs := rfl
@[simp] theorem State.par_setReg (s : State) (off v) : (s.setReg off v).par = s.par := rfl
@[simp] theorem State.pos0_setReg (s : State) (off v) : (s.setReg off v).pos0 = s.pos0 := rfl
@[simp] theorem State.pos1_setReg (s : State) (off v) : (s.setReg off v).pos1 = s.pos1 := rfl
@[simp] theorem State.cHw_setReg (s : State) (off v) : (s.setReg off v).cHw = s.cHw := rfl
@[simp] theorem State.pilot_setReg (s : State) (off v) : (s.setReg off v).pilot = s.pilot := rfl
@[simp] theorem State.hall_setReg (s : State) (off v) : (s.setReg off v).hall = s.hall := rfl
@[simp] theorem State.sticky_setReg (s : State) (off v) : (s.setReg off v).sticky = s.sticky := rfl
@[simp] theorem State.cwy_setReg (s : State) (off v) : (s.setReg off v).cwy = s.cwy := rfl
@[simp] theorem State.cal_setReg (s : State) (off v) : (s.setReg off v).cal = s.cal := rfl
@[simp] theorem State.kst_setReg (s : State) (off v) : (s.setReg off v).kst = s.kst := rfl
@[simp] theorem State.vdt_setReg (s : State) (off v) : (s.setReg off v).vdt = s.vdt := rfl
@[simp] theorem State.trl_setReg (s : State) (off v) : (s.setReg off v).trl = s.trl := rfl
@[simp] theorem State.start_setReg (s : State) (off v) : (s.setReg off v).start = s.start := rfl
@[simp] theorem State.image_setReg (s : State) (off v) : (s.setReg off v).image = s.image := rfl
@[simp] theorem State.snap_setReg (s : State) (off v) : (s.setReg off v).snap = s.snap := rfl
@[simp] theorem State.opened_setReg (s : State) (off v) : (s.setReg off v).opened = s.opened := rfl
@[simp] theorem State.pyl_setReg (s : State) (off v) : (s.setReg off v).pyl = s.pyl := rfl
@[simp] theorem State.hiLatch_setReg (s : State) (off v) : (s.setReg off v).hiLatch = s.hiLatch := rfl
@[simp] theorem State.lastRead_setReg (s : State) (off v) : (s.setReg off v).lastRead = s.lastRead := rfl
@[simp] theorem State.mrm_setReg (s : State) (off v) : (s.setReg off v).mrm = s.mrm := rfl
@[simp] theorem State.fp_setReg (s : State) (off v) : (s.setReg off v).fp = s.fp := rfl
@[simp] theorem State.pending_updLeg (s : State) (l f) : (s.updLeg l f).pending = s.pending := rfl
@[simp] theorem State.freeCtr_updLeg (s : State) (l f) : (s.updLeg l f).freeCtr = s.freeCtr := rfl
@[simp] theorem State.tk_updLeg (s : State) (l f) : (s.updLeg l f).tk = s.tk := rfl
@[simp] theorem State.bar_updLeg (s : State) (l f) : (s.updLeg l f).bar = s.bar := rfl
@[simp] theorem State.adc_updLeg (s : State) (l f) : (s.updLeg l f).adc = s.adc := rfl
@[simp] theorem State.rej_updLeg (s : State) (l f) : (s.updLeg l f).rej = s.rej := rfl
@[simp] theorem State.cur_updLeg (s : State) (l f) : (s.updLeg l f).cur = s.cur := rfl
@[simp] theorem State.stage_updLeg (s : State) (l f) : (s.updLeg l f).stage = s.stage := rfl
@[simp] theorem State.par_updLeg (s : State) (l f) : (s.updLeg l f).par = s.par := rfl
@[simp] theorem State.pos0_updLeg (s : State) (l f) : (s.updLeg l f).pos0 = s.pos0 := rfl
@[simp] theorem State.pos1_updLeg (s : State) (l f) : (s.updLeg l f).pos1 = s.pos1 := rfl
@[simp] theorem State.cHw_updLeg (s : State) (l f) : (s.updLeg l f).cHw = s.cHw := rfl
@[simp] theorem State.pilot_updLeg (s : State) (l f) : (s.updLeg l f).pilot = s.pilot := rfl
@[simp] theorem State.hall_updLeg (s : State) (l f) : (s.updLeg l f).hall = s.hall := rfl
@[simp] theorem State.sticky_updLeg (s : State) (l f) : (s.updLeg l f).sticky = s.sticky := rfl
@[simp] theorem State.cwy_updLeg (s : State) (l f) : (s.updLeg l f).cwy = s.cwy := rfl
@[simp] theorem State.cal_updLeg (s : State) (l f) : (s.updLeg l f).cal = s.cal := rfl
@[simp] theorem State.kst_updLeg (s : State) (l f) : (s.updLeg l f).kst = s.kst := rfl
@[simp] theorem State.vdt_updLeg (s : State) (l f) : (s.updLeg l f).vdt = s.vdt := rfl
@[simp] theorem State.trl_updLeg (s : State) (l f) : (s.updLeg l f).trl = s.trl := rfl
@[simp] theorem State.start_updLeg (s : State) (l f) : (s.updLeg l f).start = s.start := rfl
@[simp] theorem State.image_updLeg (s : State) (l f) : (s.updLeg l f).image = s.image := rfl
@[simp] theorem State.snap_updLeg (s : State) (l f) : (s.updLeg l f).snap = s.snap := rfl
@[simp] theorem State.opened_updLeg (s : State) (l f) : (s.updLeg l f).opened = s.opened := rfl
@[simp] theorem State.pyl_updLeg (s : State) (l f) : (s.updLeg l f).pyl = s.pyl := rfl
@[simp] theorem State.hiLatch_updLeg (s : State) (l f) : (s.updLeg l f).hiLatch = s.hiLatch := rfl
@[simp] theorem State.lastRead_updLeg (s : State) (l f) : (s.updLeg l f).lastRead = s.lastRead := rfl
@[simp] theorem State.mrm_updLeg (s : State) (l f) : (s.updLeg l f).mrm = s.mrm := rfl
@[simp] theorem State.fp_updLeg (s : State) (l f) : (s.updLeg l f).fp = s.fp := rfl
@[simp] theorem State.pending_updConv (s : State) (c f) : (s.updConv c f).pending = s.pending := rfl
@[simp] theorem State.freeCtr_updConv (s : State) (c f) : (s.updConv c f).freeCtr = s.freeCtr := rfl
@[simp] theorem State.tk_updConv (s : State) (c f) : (s.updConv c f).tk = s.tk := rfl
@[simp] theorem State.bar_updConv (s : State) (c f) : (s.updConv c f).bar = s.bar := rfl
@[simp] theorem State.rej_updConv (s : State) (c f) : (s.updConv c f).rej = s.rej := rfl
@[simp] theorem State.cur_updConv (s : State) (c f) : (s.updConv c f).cur = s.cur := rfl
@[simp] theorem State.stage_updConv (s : State) (c f) : (s.updConv c f).stage = s.stage := rfl
@[simp] theorem State.legs_updConv (s : State) (c f) : (s.updConv c f).legs = s.legs := rfl
@[simp] theorem State.par_updConv (s : State) (c f) : (s.updConv c f).par = s.par := rfl
@[simp] theorem State.pos0_updConv (s : State) (c f) : (s.updConv c f).pos0 = s.pos0 := rfl
@[simp] theorem State.pos1_updConv (s : State) (c f) : (s.updConv c f).pos1 = s.pos1 := rfl
@[simp] theorem State.cHw_updConv (s : State) (c f) : (s.updConv c f).cHw = s.cHw := rfl
@[simp] theorem State.pilot_updConv (s : State) (c f) : (s.updConv c f).pilot = s.pilot := rfl
@[simp] theorem State.hall_updConv (s : State) (c f) : (s.updConv c f).hall = s.hall := rfl
@[simp] theorem State.sticky_updConv (s : State) (c f) : (s.updConv c f).sticky = s.sticky := rfl
@[simp] theorem State.cwy_updConv (s : State) (c f) : (s.updConv c f).cwy = s.cwy := rfl
@[simp] theorem State.cal_updConv (s : State) (c f) : (s.updConv c f).cal = s.cal := rfl
@[simp] theorem State.kst_updConv (s : State) (c f) : (s.updConv c f).kst = s.kst := rfl
@[simp] theorem State.vdt_updConv (s : State) (c f) : (s.updConv c f).vdt = s.vdt := rfl
@[simp] theorem State.trl_updConv (s : State) (c f) : (s.updConv c f).trl = s.trl := rfl
@[simp] theorem State.start_updConv (s : State) (c f) : (s.updConv c f).start = s.start := rfl
@[simp] theorem State.image_updConv (s : State) (c f) : (s.updConv c f).image = s.image := rfl
@[simp] theorem State.snap_updConv (s : State) (c f) : (s.updConv c f).snap = s.snap := rfl
@[simp] theorem State.opened_updConv (s : State) (c f) : (s.updConv c f).opened = s.opened := rfl
@[simp] theorem State.pyl_updConv (s : State) (c f) : (s.updConv c f).pyl = s.pyl := rfl
@[simp] theorem State.hiLatch_updConv (s : State) (c f) : (s.updConv c f).hiLatch = s.hiLatch := rfl
@[simp] theorem State.lastRead_updConv (s : State) (c f) : (s.updConv c f).lastRead = s.lastRead := rfl
@[simp] theorem State.mrm_updConv (s : State) (c f) : (s.updConv c f).mrm = s.mrm := rfl
@[simp] theorem State.fp_updConv (s : State) (c f) : (s.updConv c f).fp = s.fp := rfl
@[simp] theorem State.pending_updInp (s : State) (i f) : (s.updInp i f).pending = s.pending := rfl
@[simp] theorem State.freeCtr_updInp (s : State) (i f) : (s.updInp i f).freeCtr = s.freeCtr := rfl
@[simp] theorem State.tk_updInp (s : State) (i f) : (s.updInp i f).tk = s.tk := rfl
@[simp] theorem State.bar_updInp (s : State) (i f) : (s.updInp i f).bar = s.bar := rfl
@[simp] theorem State.rej_updInp (s : State) (i f) : (s.updInp i f).rej = s.rej := rfl
@[simp] theorem State.cur_updInp (s : State) (i f) : (s.updInp i f).cur = s.cur := rfl
@[simp] theorem State.stage_updInp (s : State) (i f) : (s.updInp i f).stage = s.stage := rfl
@[simp] theorem State.legs_updInp (s : State) (i f) : (s.updInp i f).legs = s.legs := rfl
@[simp] theorem State.par_updInp (s : State) (i f) : (s.updInp i f).par = s.par := rfl
@[simp] theorem State.pos0_updInp (s : State) (i f) : (s.updInp i f).pos0 = s.pos0 := rfl
@[simp] theorem State.pos1_updInp (s : State) (i f) : (s.updInp i f).pos1 = s.pos1 := rfl
@[simp] theorem State.cHw_updInp (s : State) (i f) : (s.updInp i f).cHw = s.cHw := rfl
@[simp] theorem State.pilot_updInp (s : State) (i f) : (s.updInp i f).pilot = s.pilot := rfl
@[simp] theorem State.hall_updInp (s : State) (i f) : (s.updInp i f).hall = s.hall := rfl
@[simp] theorem State.sticky_updInp (s : State) (i f) : (s.updInp i f).sticky = s.sticky := rfl
@[simp] theorem State.cwy_updInp (s : State) (i f) : (s.updInp i f).cwy = s.cwy := rfl
@[simp] theorem State.cal_updInp (s : State) (i f) : (s.updInp i f).cal = s.cal := rfl
@[simp] theorem State.kst_updInp (s : State) (i f) : (s.updInp i f).kst = s.kst := rfl
@[simp] theorem State.vdt_updInp (s : State) (i f) : (s.updInp i f).vdt = s.vdt := rfl
@[simp] theorem State.trl_updInp (s : State) (i f) : (s.updInp i f).trl = s.trl := rfl
@[simp] theorem State.start_updInp (s : State) (i f) : (s.updInp i f).start = s.start := rfl
@[simp] theorem State.image_updInp (s : State) (i f) : (s.updInp i f).image = s.image := rfl
@[simp] theorem State.snap_updInp (s : State) (i f) : (s.updInp i f).snap = s.snap := rfl
@[simp] theorem State.opened_updInp (s : State) (i f) : (s.updInp i f).opened = s.opened := rfl
@[simp] theorem State.pyl_updInp (s : State) (i f) : (s.updInp i f).pyl = s.pyl := rfl
@[simp] theorem State.hiLatch_updInp (s : State) (i f) : (s.updInp i f).hiLatch = s.hiLatch := rfl
@[simp] theorem State.lastRead_updInp (s : State) (i f) : (s.updInp i f).lastRead = s.lastRead := rfl
@[simp] theorem State.mrm_updInp (s : State) (i f) : (s.updInp i f).mrm = s.mrm := rfl
@[simp] theorem State.fp_updInp (s : State) (i f) : (s.updInp i f).fp = s.fp := rfl
@[simp] theorem State.pending_updPair (s : State) (k f) : (s.updPair k f).pending = s.pending := rfl
@[simp] theorem State.freeCtr_updPair (s : State) (k f) : (s.updPair k f).freeCtr = s.freeCtr := rfl
@[simp] theorem State.tk_updPair (s : State) (k f) : (s.updPair k f).tk = s.tk := rfl
@[simp] theorem State.bar_updPair (s : State) (k f) : (s.updPair k f).bar = s.bar := rfl
@[simp] theorem State.rej_updPair (s : State) (k f) : (s.updPair k f).rej = s.rej := rfl
@[simp] theorem State.cur_updPair (s : State) (k f) : (s.updPair k f).cur = s.cur := rfl
@[simp] theorem State.stage_updPair (s : State) (k f) : (s.updPair k f).stage = s.stage := rfl
@[simp] theorem State.legs_updPair (s : State) (k f) : (s.updPair k f).legs = s.legs := rfl
@[simp] theorem State.par_updPair (s : State) (k f) : (s.updPair k f).par = s.par := rfl
@[simp] theorem State.pos0_updPair (s : State) (k f) : (s.updPair k f).pos0 = s.pos0 := rfl
@[simp] theorem State.pos1_updPair (s : State) (k f) : (s.updPair k f).pos1 = s.pos1 := rfl
@[simp] theorem State.cHw_updPair (s : State) (k f) : (s.updPair k f).cHw = s.cHw := rfl
@[simp] theorem State.pilot_updPair (s : State) (k f) : (s.updPair k f).pilot = s.pilot := rfl
@[simp] theorem State.hall_updPair (s : State) (k f) : (s.updPair k f).hall = s.hall := rfl
@[simp] theorem State.sticky_updPair (s : State) (k f) : (s.updPair k f).sticky = s.sticky := rfl
@[simp] theorem State.cwy_updPair (s : State) (k f) : (s.updPair k f).cwy = s.cwy := rfl
@[simp] theorem State.cal_updPair (s : State) (k f) : (s.updPair k f).cal = s.cal := rfl
@[simp] theorem State.kst_updPair (s : State) (k f) : (s.updPair k f).kst = s.kst := rfl
@[simp] theorem State.vdt_updPair (s : State) (k f) : (s.updPair k f).vdt = s.vdt := rfl
@[simp] theorem State.trl_updPair (s : State) (k f) : (s.updPair k f).trl = s.trl := rfl
@[simp] theorem State.start_updPair (s : State) (k f) : (s.updPair k f).start = s.start := rfl
@[simp] theorem State.image_updPair (s : State) (k f) : (s.updPair k f).image = s.image := rfl
@[simp] theorem State.snap_updPair (s : State) (k f) : (s.updPair k f).snap = s.snap := rfl
@[simp] theorem State.opened_updPair (s : State) (k f) : (s.updPair k f).opened = s.opened := rfl
@[simp] theorem State.pyl_updPair (s : State) (k f) : (s.updPair k f).pyl = s.pyl := rfl
@[simp] theorem State.hiLatch_updPair (s : State) (k f) : (s.updPair k f).hiLatch = s.hiLatch := rfl
@[simp] theorem State.lastRead_updPair (s : State) (k f) : (s.updPair k f).lastRead = s.lastRead := rfl
@[simp] theorem State.mrm_updPair (s : State) (k f) : (s.updPair k f).mrm = s.mrm := rfl
@[simp] theorem State.fp_updPair (s : State) (k f) : (s.updPair k f).fp = s.fp := rfl
@[simp] theorem State.pending_updRej (s : State) (g f) : (s.updRej g f).pending = s.pending := rfl
@[simp] theorem State.freeCtr_updRej (s : State) (g f) : (s.updRej g f).freeCtr = s.freeCtr := rfl
@[simp] theorem State.tk_updRej (s : State) (g f) : (s.updRej g f).tk = s.tk := rfl
@[simp] theorem State.bar_updRej (s : State) (g f) : (s.updRej g f).bar = s.bar := rfl
@[simp] theorem State.adc_updRej (s : State) (g f) : (s.updRej g f).adc = s.adc := rfl
@[simp] theorem State.cur_updRej (s : State) (g f) : (s.updRej g f).cur = s.cur := rfl
@[simp] theorem State.stage_updRej (s : State) (g f) : (s.updRej g f).stage = s.stage := rfl
@[simp] theorem State.legs_updRej (s : State) (g f) : (s.updRej g f).legs = s.legs := rfl
@[simp] theorem State.par_updRej (s : State) (g f) : (s.updRej g f).par = s.par := rfl
@[simp] theorem State.pos0_updRej (s : State) (g f) : (s.updRej g f).pos0 = s.pos0 := rfl
@[simp] theorem State.pos1_updRej (s : State) (g f) : (s.updRej g f).pos1 = s.pos1 := rfl
@[simp] theorem State.cHw_updRej (s : State) (g f) : (s.updRej g f).cHw = s.cHw := rfl
@[simp] theorem State.pilot_updRej (s : State) (g f) : (s.updRej g f).pilot = s.pilot := rfl
@[simp] theorem State.hall_updRej (s : State) (g f) : (s.updRej g f).hall = s.hall := rfl
@[simp] theorem State.sticky_updRej (s : State) (g f) : (s.updRej g f).sticky = s.sticky := rfl
@[simp] theorem State.cwy_updRej (s : State) (g f) : (s.updRej g f).cwy = s.cwy := rfl
@[simp] theorem State.cal_updRej (s : State) (g f) : (s.updRej g f).cal = s.cal := rfl
@[simp] theorem State.kst_updRej (s : State) (g f) : (s.updRej g f).kst = s.kst := rfl
@[simp] theorem State.vdt_updRej (s : State) (g f) : (s.updRej g f).vdt = s.vdt := rfl
@[simp] theorem State.trl_updRej (s : State) (g f) : (s.updRej g f).trl = s.trl := rfl
@[simp] theorem State.start_updRej (s : State) (g f) : (s.updRej g f).start = s.start := rfl
@[simp] theorem State.image_updRej (s : State) (g f) : (s.updRej g f).image = s.image := rfl
@[simp] theorem State.snap_updRej (s : State) (g f) : (s.updRej g f).snap = s.snap := rfl
@[simp] theorem State.opened_updRej (s : State) (g f) : (s.updRej g f).opened = s.opened := rfl
@[simp] theorem State.pyl_updRej (s : State) (g f) : (s.updRej g f).pyl = s.pyl := rfl
@[simp] theorem State.hiLatch_updRej (s : State) (g f) : (s.updRej g f).hiLatch = s.hiLatch := rfl
@[simp] theorem State.lastRead_updRej (s : State) (g f) : (s.updRej g f).lastRead = s.lastRead := rfl
@[simp] theorem State.mrm_updRej (s : State) (g f) : (s.updRej g f).mrm = s.mrm := rfl
@[simp] theorem State.fp_updRej (s : State) (g f) : (s.updRej g f).fp = s.fp := rfl
@[simp] theorem State.pending_updHall (s : State) (m f) : (s.updHall m f).pending = s.pending := rfl
@[simp] theorem State.freeCtr_updHall (s : State) (m f) : (s.updHall m f).freeCtr = s.freeCtr := rfl
@[simp] theorem State.tk_updHall (s : State) (m f) : (s.updHall m f).tk = s.tk := rfl
@[simp] theorem State.bar_updHall (s : State) (m f) : (s.updHall m f).bar = s.bar := rfl
@[simp] theorem State.adc_updHall (s : State) (m f) : (s.updHall m f).adc = s.adc := rfl
@[simp] theorem State.rej_updHall (s : State) (m f) : (s.updHall m f).rej = s.rej := rfl
@[simp] theorem State.cur_updHall (s : State) (m f) : (s.updHall m f).cur = s.cur := rfl
@[simp] theorem State.stage_updHall (s : State) (m f) : (s.updHall m f).stage = s.stage := rfl
@[simp] theorem State.legs_updHall (s : State) (m f) : (s.updHall m f).legs = s.legs := rfl
@[simp] theorem State.par_updHall (s : State) (m f) : (s.updHall m f).par = s.par := rfl
@[simp] theorem State.pos0_updHall (s : State) (m f) : (s.updHall m f).pos0 = s.pos0 := rfl
@[simp] theorem State.pos1_updHall (s : State) (m f) : (s.updHall m f).pos1 = s.pos1 := rfl
@[simp] theorem State.cHw_updHall (s : State) (m f) : (s.updHall m f).cHw = s.cHw := rfl
@[simp] theorem State.pilot_updHall (s : State) (m f) : (s.updHall m f).pilot = s.pilot := rfl
@[simp] theorem State.sticky_updHall (s : State) (m f) : (s.updHall m f).sticky = s.sticky := rfl
@[simp] theorem State.cwy_updHall (s : State) (m f) : (s.updHall m f).cwy = s.cwy := rfl
@[simp] theorem State.cal_updHall (s : State) (m f) : (s.updHall m f).cal = s.cal := rfl
@[simp] theorem State.kst_updHall (s : State) (m f) : (s.updHall m f).kst = s.kst := rfl
@[simp] theorem State.vdt_updHall (s : State) (m f) : (s.updHall m f).vdt = s.vdt := rfl
@[simp] theorem State.trl_updHall (s : State) (m f) : (s.updHall m f).trl = s.trl := rfl
@[simp] theorem State.start_updHall (s : State) (m f) : (s.updHall m f).start = s.start := rfl
@[simp] theorem State.image_updHall (s : State) (m f) : (s.updHall m f).image = s.image := rfl
@[simp] theorem State.snap_updHall (s : State) (m f) : (s.updHall m f).snap = s.snap := rfl
@[simp] theorem State.opened_updHall (s : State) (m f) : (s.updHall m f).opened = s.opened := rfl
@[simp] theorem State.pyl_updHall (s : State) (m f) : (s.updHall m f).pyl = s.pyl := rfl
@[simp] theorem State.hiLatch_updHall (s : State) (m f) : (s.updHall m f).hiLatch = s.hiLatch := rfl
@[simp] theorem State.lastRead_updHall (s : State) (m f) : (s.updHall m f).lastRead = s.lastRead := rfl
@[simp] theorem State.mrm_updHall (s : State) (m f) : (s.updHall m f).mrm = s.mrm := rfl
@[simp] theorem State.fp_updHall (s : State) (m f) : (s.updHall m f).fp = s.fp := rfl
@[simp] theorem State.pending_updPort (s : State) (p f) : (s.updPort p f).pending = s.pending := rfl
@[simp] theorem State.freeCtr_updPort (s : State) (p f) : (s.updPort p f).freeCtr = s.freeCtr := rfl
@[simp] theorem State.tk_updPort (s : State) (p f) : (s.updPort p f).tk = s.tk := rfl
@[simp] theorem State.bar_updPort (s : State) (p f) : (s.updPort p f).bar = s.bar := rfl
@[simp] theorem State.adc_updPort (s : State) (p f) : (s.updPort p f).adc = s.adc := rfl
@[simp] theorem State.rej_updPort (s : State) (p f) : (s.updPort p f).rej = s.rej := rfl
@[simp] theorem State.cur_updPort (s : State) (p f) : (s.updPort p f).cur = s.cur := rfl
@[simp] theorem State.stage_updPort (s : State) (p f) : (s.updPort p f).stage = s.stage := rfl
@[simp] theorem State.legs_updPort (s : State) (p f) : (s.updPort p f).legs = s.legs := rfl
@[simp] theorem State.par_updPort (s : State) (p f) : (s.updPort p f).par = s.par := rfl
@[simp] theorem State.pos0_updPort (s : State) (p f) : (s.updPort p f).pos0 = s.pos0 := rfl
@[simp] theorem State.pos1_updPort (s : State) (p f) : (s.updPort p f).pos1 = s.pos1 := rfl
@[simp] theorem State.cHw_updPort (s : State) (p f) : (s.updPort p f).cHw = s.cHw := rfl
@[simp] theorem State.pilot_updPort (s : State) (p f) : (s.updPort p f).pilot = s.pilot := rfl
@[simp] theorem State.hall_updPort (s : State) (p f) : (s.updPort p f).hall = s.hall := rfl
@[simp] theorem State.sticky_updPort (s : State) (p f) : (s.updPort p f).sticky = s.sticky := rfl
@[simp] theorem State.cwy_updPort (s : State) (p f) : (s.updPort p f).cwy = s.cwy := rfl
@[simp] theorem State.cal_updPort (s : State) (p f) : (s.updPort p f).cal = s.cal := rfl
@[simp] theorem State.kst_updPort (s : State) (p f) : (s.updPort p f).kst = s.kst := rfl
@[simp] theorem State.vdt_updPort (s : State) (p f) : (s.updPort p f).vdt = s.vdt := rfl
@[simp] theorem State.trl_updPort (s : State) (p f) : (s.updPort p f).trl = s.trl := rfl
@[simp] theorem State.start_updPort (s : State) (p f) : (s.updPort p f).start = s.start := rfl
@[simp] theorem State.image_updPort (s : State) (p f) : (s.updPort p f).image = s.image := rfl
@[simp] theorem State.snap_updPort (s : State) (p f) : (s.updPort p f).snap = s.snap := rfl
@[simp] theorem State.opened_updPort (s : State) (p f) : (s.updPort p f).opened = s.opened := rfl
@[simp] theorem State.pyl_updPort (s : State) (p f) : (s.updPort p f).pyl = s.pyl := rfl
@[simp] theorem State.hiLatch_updPort (s : State) (p f) : (s.updPort p f).hiLatch = s.hiLatch := rfl
@[simp] theorem State.lastRead_updPort (s : State) (p f) : (s.updPort p f).lastRead = s.lastRead := rfl
@[simp] theorem State.mrm_updPort (s : State) (p f) : (s.updPort p f).mrm = s.mrm := rfl
@[simp] theorem State.pending_stick (s : State) (f) : (s.stick f).pending = s.pending := rfl
@[simp] theorem State.freeCtr_stick (s : State) (f) : (s.stick f).freeCtr = s.freeCtr := rfl
@[simp] theorem State.tk_stick (s : State) (f) : (s.stick f).tk = s.tk := rfl
@[simp] theorem State.bar_stick (s : State) (f) : (s.stick f).bar = s.bar := rfl
@[simp] theorem State.adc_stick (s : State) (f) : (s.stick f).adc = s.adc := rfl
@[simp] theorem State.rej_stick (s : State) (f) : (s.stick f).rej = s.rej := rfl
@[simp] theorem State.cur_stick (s : State) (f) : (s.stick f).cur = s.cur := rfl
@[simp] theorem State.stage_stick (s : State) (f) : (s.stick f).stage = s.stage := rfl
@[simp] theorem State.legs_stick (s : State) (f) : (s.stick f).legs = s.legs := rfl
@[simp] theorem State.par_stick (s : State) (f) : (s.stick f).par = s.par := rfl
@[simp] theorem State.pos0_stick (s : State) (f) : (s.stick f).pos0 = s.pos0 := rfl
@[simp] theorem State.pos1_stick (s : State) (f) : (s.stick f).pos1 = s.pos1 := rfl
@[simp] theorem State.cHw_stick (s : State) (f) : (s.stick f).cHw = s.cHw := rfl
@[simp] theorem State.pilot_stick (s : State) (f) : (s.stick f).pilot = s.pilot := rfl
@[simp] theorem State.hall_stick (s : State) (f) : (s.stick f).hall = s.hall := rfl
@[simp] theorem State.cwy_stick (s : State) (f) : (s.stick f).cwy = s.cwy := rfl
@[simp] theorem State.cal_stick (s : State) (f) : (s.stick f).cal = s.cal := rfl
@[simp] theorem State.kst_stick (s : State) (f) : (s.stick f).kst = s.kst := rfl
@[simp] theorem State.vdt_stick (s : State) (f) : (s.stick f).vdt = s.vdt := rfl
@[simp] theorem State.trl_stick (s : State) (f) : (s.stick f).trl = s.trl := rfl
@[simp] theorem State.start_stick (s : State) (f) : (s.stick f).start = s.start := rfl
@[simp] theorem State.image_stick (s : State) (f) : (s.stick f).image = s.image := rfl
@[simp] theorem State.snap_stick (s : State) (f) : (s.stick f).snap = s.snap := rfl
@[simp] theorem State.opened_stick (s : State) (f) : (s.stick f).opened = s.opened := rfl
@[simp] theorem State.pyl_stick (s : State) (f) : (s.stick f).pyl = s.pyl := rfl
@[simp] theorem State.hiLatch_stick (s : State) (f) : (s.stick f).hiLatch = s.hiLatch := rfl
@[simp] theorem State.lastRead_stick (s : State) (f) : (s.stick f).lastRead = s.lastRead := rfl
@[simp] theorem State.mrm_stick (s : State) (f) : (s.stick f).mrm = s.mrm := rfl
@[simp] theorem State.fp_stick (s : State) (f) : (s.stick f).fp = s.fp := rfl
@[simp] theorem State.pending_at (s : State) (ofs) : (s.at ofs).pending = s.pending := rfl
@[simp] theorem State.freeCtr_at (s : State) (ofs) : (s.at ofs).freeCtr = s.freeCtr := rfl
@[simp] theorem State.bar_at (s : State) (ofs) : (s.at ofs).bar = s.bar := rfl
@[simp] theorem State.adc_at (s : State) (ofs) : (s.at ofs).adc = s.adc := rfl
@[simp] theorem State.rej_at (s : State) (ofs) : (s.at ofs).rej = s.rej := rfl
@[simp] theorem State.cur_at (s : State) (ofs) : (s.at ofs).cur = s.cur := rfl
@[simp] theorem State.stage_at (s : State) (ofs) : (s.at ofs).stage = s.stage := rfl
@[simp] theorem State.legs_at (s : State) (ofs) : (s.at ofs).legs = s.legs := rfl
@[simp] theorem State.par_at (s : State) (ofs) : (s.at ofs).par = s.par := rfl
@[simp] theorem State.pos0_at (s : State) (ofs) : (s.at ofs).pos0 = s.pos0 := rfl
@[simp] theorem State.pos1_at (s : State) (ofs) : (s.at ofs).pos1 = s.pos1 := rfl
@[simp] theorem State.cHw_at (s : State) (ofs) : (s.at ofs).cHw = s.cHw := rfl
@[simp] theorem State.pilot_at (s : State) (ofs) : (s.at ofs).pilot = s.pilot := rfl
@[simp] theorem State.hall_at (s : State) (ofs) : (s.at ofs).hall = s.hall := rfl
@[simp] theorem State.sticky_at (s : State) (ofs) : (s.at ofs).sticky = s.sticky := rfl
@[simp] theorem State.cwy_at (s : State) (ofs) : (s.at ofs).cwy = s.cwy := rfl
@[simp] theorem State.cal_at (s : State) (ofs) : (s.at ofs).cal = s.cal := rfl
@[simp] theorem State.kst_at (s : State) (ofs) : (s.at ofs).kst = s.kst := rfl
@[simp] theorem State.vdt_at (s : State) (ofs) : (s.at ofs).vdt = s.vdt := rfl
@[simp] theorem State.trl_at (s : State) (ofs) : (s.at ofs).trl = s.trl := rfl
@[simp] theorem State.start_at (s : State) (ofs) : (s.at ofs).start = s.start := rfl
@[simp] theorem State.image_at (s : State) (ofs) : (s.at ofs).image = s.image := rfl
@[simp] theorem State.snap_at (s : State) (ofs) : (s.at ofs).snap = s.snap := rfl
@[simp] theorem State.opened_at (s : State) (ofs) : (s.at ofs).opened = s.opened := rfl
@[simp] theorem State.pyl_at (s : State) (ofs) : (s.at ofs).pyl = s.pyl := rfl
@[simp] theorem State.hiLatch_at (s : State) (ofs) : (s.at ofs).hiLatch = s.hiLatch := rfl
@[simp] theorem State.lastRead_at (s : State) (ofs) : (s.at ofs).lastRead = s.lastRead := rfl
@[simp] theorem State.mrm_at (s : State) (ofs) : (s.at ofs).mrm = s.mrm := rfl
@[simp] theorem State.fp_at (s : State) (ofs) : (s.at ofs).fp = s.fp := rfl
@[simp] theorem State.pending_withStage (s : State) (c) : (s.withStage c).pending = s.pending := rfl
@[simp] theorem State.freeCtr_withStage (s : State) (c) : (s.withStage c).freeCtr = s.freeCtr := rfl
@[simp] theorem State.tk_withStage (s : State) (c) : (s.withStage c).tk = s.tk := rfl
@[simp] theorem State.bar_withStage (s : State) (c) : (s.withStage c).bar = s.bar := rfl
@[simp] theorem State.adc_withStage (s : State) (c) : (s.withStage c).adc = s.adc := rfl
@[simp] theorem State.rej_withStage (s : State) (c) : (s.withStage c).rej = s.rej := rfl
@[simp] theorem State.cur_withStage (s : State) (c) : (s.withStage c).cur = s.cur := rfl
@[simp] theorem State.legs_withStage (s : State) (c) : (s.withStage c).legs = s.legs := rfl
@[simp] theorem State.par_withStage (s : State) (c) : (s.withStage c).par = s.par := rfl
@[simp] theorem State.pos0_withStage (s : State) (c) : (s.withStage c).pos0 = s.pos0 := rfl
@[simp] theorem State.pos1_withStage (s : State) (c) : (s.withStage c).pos1 = s.pos1 := rfl
@[simp] theorem State.cHw_withStage (s : State) (c) : (s.withStage c).cHw = s.cHw := rfl
@[simp] theorem State.pilot_withStage (s : State) (c) : (s.withStage c).pilot = s.pilot := rfl
@[simp] theorem State.hall_withStage (s : State) (c) : (s.withStage c).hall = s.hall := rfl
@[simp] theorem State.sticky_withStage (s : State) (c) : (s.withStage c).sticky = s.sticky := rfl
@[simp] theorem State.cwy_withStage (s : State) (c) : (s.withStage c).cwy = s.cwy := rfl
@[simp] theorem State.cal_withStage (s : State) (c) : (s.withStage c).cal = s.cal := rfl
@[simp] theorem State.kst_withStage (s : State) (c) : (s.withStage c).kst = s.kst := rfl
@[simp] theorem State.vdt_withStage (s : State) (c) : (s.withStage c).vdt = s.vdt := rfl
@[simp] theorem State.trl_withStage (s : State) (c) : (s.withStage c).trl = s.trl := rfl
@[simp] theorem State.start_withStage (s : State) (c) : (s.withStage c).start = s.start := rfl
@[simp] theorem State.image_withStage (s : State) (c) : (s.withStage c).image = s.image := rfl
@[simp] theorem State.snap_withStage (s : State) (c) : (s.withStage c).snap = s.snap := rfl
@[simp] theorem State.opened_withStage (s : State) (c) : (s.withStage c).opened = s.opened := rfl
@[simp] theorem State.pyl_withStage (s : State) (c) : (s.withStage c).pyl = s.pyl := rfl
@[simp] theorem State.hiLatch_withStage (s : State) (c) : (s.withStage c).hiLatch = s.hiLatch := rfl
@[simp] theorem State.lastRead_withStage (s : State) (c) : (s.withStage c).lastRead = s.lastRead := rfl
@[simp] theorem State.mrm_withStage (s : State) (c) : (s.withStage c).mrm = s.mrm := rfl
@[simp] theorem State.fp_withStage (s : State) (c) : (s.withStage c).fp = s.fp := rfl
@[simp] theorem State.freeCtr_withFront (s : State) (c) : (s.withFront c).freeCtr = s.freeCtr := rfl
@[simp] theorem State.tk_withFront (s : State) (c) : (s.withFront c).tk = s.tk := rfl
@[simp] theorem State.bar_withFront (s : State) (c) : (s.withFront c).bar = s.bar := rfl
@[simp] theorem State.adc_withFront (s : State) (c) : (s.withFront c).adc = s.adc := rfl
@[simp] theorem State.rej_withFront (s : State) (c) : (s.withFront c).rej = s.rej := rfl
@[simp] theorem State.cur_withFront (s : State) (c) : (s.withFront c).cur = s.cur := rfl
@[simp] theorem State.stage_withFront (s : State) (c) : (s.withFront c).stage = s.stage := rfl
@[simp] theorem State.legs_withFront (s : State) (c) : (s.withFront c).legs = s.legs := rfl
@[simp] theorem State.par_withFront (s : State) (c) : (s.withFront c).par = s.par := rfl
@[simp] theorem State.pos0_withFront (s : State) (c) : (s.withFront c).pos0 = s.pos0 := rfl
@[simp] theorem State.pos1_withFront (s : State) (c) : (s.withFront c).pos1 = s.pos1 := rfl
@[simp] theorem State.cHw_withFront (s : State) (c) : (s.withFront c).cHw = s.cHw := rfl
@[simp] theorem State.pilot_withFront (s : State) (c) : (s.withFront c).pilot = s.pilot := rfl
@[simp] theorem State.hall_withFront (s : State) (c) : (s.withFront c).hall = s.hall := rfl
@[simp] theorem State.sticky_withFront (s : State) (c) : (s.withFront c).sticky = s.sticky := rfl
@[simp] theorem State.cwy_withFront (s : State) (c) : (s.withFront c).cwy = s.cwy := rfl
@[simp] theorem State.cal_withFront (s : State) (c) : (s.withFront c).cal = s.cal := rfl
@[simp] theorem State.kst_withFront (s : State) (c) : (s.withFront c).kst = s.kst := rfl
@[simp] theorem State.vdt_withFront (s : State) (c) : (s.withFront c).vdt = s.vdt := rfl
@[simp] theorem State.trl_withFront (s : State) (c) : (s.withFront c).trl = s.trl := rfl
@[simp] theorem State.start_withFront (s : State) (c) : (s.withFront c).start = s.start := rfl
@[simp] theorem State.image_withFront (s : State) (c) : (s.withFront c).image = s.image := rfl
@[simp] theorem State.snap_withFront (s : State) (c) : (s.withFront c).snap = s.snap := rfl
@[simp] theorem State.opened_withFront (s : State) (c) : (s.withFront c).opened = s.opened := rfl
@[simp] theorem State.pyl_withFront (s : State) (c) : (s.withFront c).pyl = s.pyl := rfl
@[simp] theorem State.hiLatch_withFront (s : State) (c) : (s.withFront c).hiLatch = s.hiLatch := rfl
@[simp] theorem State.lastRead_withFront (s : State) (c) : (s.withFront c).lastRead = s.lastRead := rfl
@[simp] theorem State.mrm_withFront (s : State) (c) : (s.withFront c).mrm = s.mrm := rfl
@[simp] theorem State.fp_withFront (s : State) (c) : (s.withFront c).fp = s.fp := rfl
@[simp] theorem State.pending_readsBack (s : State) (v) : (s.readsBack v).pending = s.pending := rfl
@[simp] theorem State.freeCtr_readsBack (s : State) (v) : (s.readsBack v).freeCtr = s.freeCtr := rfl
@[simp] theorem State.tk_readsBack (s : State) (v) : (s.readsBack v).tk = s.tk := rfl
@[simp] theorem State.bar_readsBack (s : State) (v) : (s.readsBack v).bar = s.bar := rfl
@[simp] theorem State.adc_readsBack (s : State) (v) : (s.readsBack v).adc = s.adc := rfl
@[simp] theorem State.rej_readsBack (s : State) (v) : (s.readsBack v).rej = s.rej := rfl
@[simp] theorem State.cur_readsBack (s : State) (v) : (s.readsBack v).cur = s.cur := rfl
@[simp] theorem State.stage_readsBack (s : State) (v) : (s.readsBack v).stage = s.stage := rfl
@[simp] theorem State.legs_readsBack (s : State) (v) : (s.readsBack v).legs = s.legs := rfl
@[simp] theorem State.par_readsBack (s : State) (v) : (s.readsBack v).par = s.par := rfl
@[simp] theorem State.pos0_readsBack (s : State) (v) : (s.readsBack v).pos0 = s.pos0 := rfl
@[simp] theorem State.pos1_readsBack (s : State) (v) : (s.readsBack v).pos1 = s.pos1 := rfl
@[simp] theorem State.cHw_readsBack (s : State) (v) : (s.readsBack v).cHw = s.cHw := rfl
@[simp] theorem State.pilot_readsBack (s : State) (v) : (s.readsBack v).pilot = s.pilot := rfl
@[simp] theorem State.hall_readsBack (s : State) (v) : (s.readsBack v).hall = s.hall := rfl
@[simp] theorem State.sticky_readsBack (s : State) (v) : (s.readsBack v).sticky = s.sticky := rfl
@[simp] theorem State.cwy_readsBack (s : State) (v) : (s.readsBack v).cwy = s.cwy := rfl
@[simp] theorem State.cal_readsBack (s : State) (v) : (s.readsBack v).cal = s.cal := rfl
@[simp] theorem State.kst_readsBack (s : State) (v) : (s.readsBack v).kst = s.kst := rfl
@[simp] theorem State.vdt_readsBack (s : State) (v) : (s.readsBack v).vdt = s.vdt := rfl
@[simp] theorem State.trl_readsBack (s : State) (v) : (s.readsBack v).trl = s.trl := rfl
@[simp] theorem State.start_readsBack (s : State) (v) : (s.readsBack v).start = s.start := rfl
@[simp] theorem State.image_readsBack (s : State) (v) : (s.readsBack v).image = s.image := rfl
@[simp] theorem State.snap_readsBack (s : State) (v) : (s.readsBack v).snap = s.snap := rfl
@[simp] theorem State.opened_readsBack (s : State) (v) : (s.readsBack v).opened = s.opened := rfl
@[simp] theorem State.pyl_readsBack (s : State) (v) : (s.readsBack v).pyl = s.pyl := rfl
@[simp] theorem State.hiLatch_readsBack (s : State) (v) : (s.readsBack v).hiLatch = s.hiLatch := rfl
@[simp] theorem State.mrm_readsBack (s : State) (v) : (s.readsBack v).mrm = s.mrm := rfl
@[simp] theorem State.fp_readsBack (s : State) (v) : (s.readsBack v).fp = s.fp := rfl
@[simp] theorem State.pending_unstage (s : State) (q) : (s.unstage q).pending = s.pending := rfl
@[simp] theorem State.freeCtr_unstage (s : State) (q) : (s.unstage q).freeCtr = s.freeCtr := rfl
@[simp] theorem State.tk_unstage (s : State) (q) : (s.unstage q).tk = s.tk := rfl
@[simp] theorem State.bar_unstage (s : State) (q) : (s.unstage q).bar = s.bar := rfl
@[simp] theorem State.adc_unstage (s : State) (q) : (s.unstage q).adc = s.adc := rfl
@[simp] theorem State.rej_unstage (s : State) (q) : (s.unstage q).rej = s.rej := rfl
@[simp] theorem State.cur_unstage (s : State) (q) : (s.unstage q).cur = s.cur := rfl
@[simp] theorem State.stage_unstage (s : State) (q) : (s.unstage q).stage = s.stage := rfl
@[simp] theorem State.legs_unstage (s : State) (q) : (s.unstage q).legs = s.legs := rfl
@[simp] theorem State.par_unstage (s : State) (q) : (s.unstage q).par = s.par := rfl
@[simp] theorem State.pos0_unstage (s : State) (q) : (s.unstage q).pos0 = s.pos0 := rfl
@[simp] theorem State.pos1_unstage (s : State) (q) : (s.unstage q).pos1 = s.pos1 := rfl
@[simp] theorem State.cHw_unstage (s : State) (q) : (s.unstage q).cHw = s.cHw := rfl
@[simp] theorem State.pilot_unstage (s : State) (q) : (s.unstage q).pilot = s.pilot := rfl
@[simp] theorem State.hall_unstage (s : State) (q) : (s.unstage q).hall = s.hall := rfl
@[simp] theorem State.sticky_unstage (s : State) (q) : (s.unstage q).sticky = s.sticky := rfl
@[simp] theorem State.cal_unstage (s : State) (q) : (s.unstage q).cal = s.cal := rfl
@[simp] theorem State.kst_unstage (s : State) (q) : (s.unstage q).kst = s.kst := rfl
@[simp] theorem State.vdt_unstage (s : State) (q) : (s.unstage q).vdt = s.vdt := rfl
@[simp] theorem State.trl_unstage (s : State) (q) : (s.unstage q).trl = s.trl := rfl
@[simp] theorem State.start_unstage (s : State) (q) : (s.unstage q).start = s.start := rfl
@[simp] theorem State.image_unstage (s : State) (q) : (s.unstage q).image = s.image := rfl
@[simp] theorem State.snap_unstage (s : State) (q) : (s.unstage q).snap = s.snap := rfl
@[simp] theorem State.opened_unstage (s : State) (q) : (s.unstage q).opened = s.opened := rfl
@[simp] theorem State.pyl_unstage (s : State) (q) : (s.unstage q).pyl = s.pyl := rfl
@[simp] theorem State.hiLatch_unstage (s : State) (q) : (s.unstage q).hiLatch = s.hiLatch := rfl
@[simp] theorem State.lastRead_unstage (s : State) (q) : (s.unstage q).lastRead = s.lastRead := rfl
@[simp] theorem State.mrm_unstage (s : State) (q) : (s.unstage q).mrm = s.mrm := rfl
@[simp] theorem State.fp_unstage (s : State) (q) : (s.unstage q).fp = s.fp := rfl
@[simp] theorem State.pending_putSlot (s : State) (k x) : (s.putSlot k x).pending = s.pending := rfl
@[simp] theorem State.freeCtr_putSlot (s : State) (k x) : (s.putSlot k x).freeCtr = s.freeCtr := rfl
@[simp] theorem State.tk_putSlot (s : State) (k x) : (s.putSlot k x).tk = s.tk := rfl
@[simp] theorem State.bar_putSlot (s : State) (k x) : (s.putSlot k x).bar = s.bar := rfl
@[simp] theorem State.adc_putSlot (s : State) (k x) : (s.putSlot k x).adc = s.adc := rfl
@[simp] theorem State.rej_putSlot (s : State) (k x) : (s.putSlot k x).rej = s.rej := rfl
@[simp] theorem State.cur_putSlot (s : State) (k x) : (s.putSlot k x).cur = s.cur := rfl
@[simp] theorem State.stage_putSlot (s : State) (k x) : (s.putSlot k x).stage = s.stage := rfl
@[simp] theorem State.legs_putSlot (s : State) (k x) : (s.putSlot k x).legs = s.legs := rfl
@[simp] theorem State.par_putSlot (s : State) (k x) : (s.putSlot k x).par = s.par := rfl
@[simp] theorem State.pos0_putSlot (s : State) (k x) : (s.putSlot k x).pos0 = s.pos0 := rfl
@[simp] theorem State.pos1_putSlot (s : State) (k x) : (s.putSlot k x).pos1 = s.pos1 := rfl
@[simp] theorem State.cHw_putSlot (s : State) (k x) : (s.putSlot k x).cHw = s.cHw := rfl
@[simp] theorem State.pilot_putSlot (s : State) (k x) : (s.putSlot k x).pilot = s.pilot := rfl
@[simp] theorem State.hall_putSlot (s : State) (k x) : (s.putSlot k x).hall = s.hall := rfl
@[simp] theorem State.sticky_putSlot (s : State) (k x) : (s.putSlot k x).sticky = s.sticky := rfl
@[simp] theorem State.cwy_putSlot (s : State) (k x) : (s.putSlot k x).cwy = s.cwy := rfl
@[simp] theorem State.cal_putSlot (s : State) (k x) : (s.putSlot k x).cal = s.cal := rfl
@[simp] theorem State.kst_putSlot (s : State) (k x) : (s.putSlot k x).kst = s.kst := rfl
@[simp] theorem State.vdt_putSlot (s : State) (k x) : (s.putSlot k x).vdt = s.vdt := rfl
@[simp] theorem State.trl_putSlot (s : State) (k x) : (s.putSlot k x).trl = s.trl := rfl
@[simp] theorem State.start_putSlot (s : State) (k x) : (s.putSlot k x).start = s.start := rfl
@[simp] theorem State.image_putSlot (s : State) (k x) : (s.putSlot k x).image = s.image := rfl
@[simp] theorem State.snap_putSlot (s : State) (k x) : (s.putSlot k x).snap = s.snap := rfl
@[simp] theorem State.opened_putSlot (s : State) (k x) : (s.putSlot k x).opened = s.opened := rfl
@[simp] theorem State.hiLatch_putSlot (s : State) (k x) : (s.putSlot k x).hiLatch = s.hiLatch := rfl
@[simp] theorem State.lastRead_putSlot (s : State) (k x) : (s.putSlot k x).lastRead = s.lastRead := rfl
@[simp] theorem State.mrm_putSlot (s : State) (k x) : (s.putSlot k x).mrm = s.mrm := rfl
@[simp] theorem State.fp_putSlot (s : State) (k x) : (s.putSlot k x).fp = s.fp := rfl
@[simp] theorem State.pending_updObj (s : State) (p o f) : (s.updObj p o f).pending = s.pending := rfl
@[simp] theorem State.freeCtr_updObj (s : State) (p o f) : (s.updObj p o f).freeCtr = s.freeCtr := rfl
@[simp] theorem State.tk_updObj (s : State) (p o f) : (s.updObj p o f).tk = s.tk := rfl
@[simp] theorem State.bar_updObj (s : State) (p o f) : (s.updObj p o f).bar = s.bar := rfl
@[simp] theorem State.adc_updObj (s : State) (p o f) : (s.updObj p o f).adc = s.adc := rfl
@[simp] theorem State.rej_updObj (s : State) (p o f) : (s.updObj p o f).rej = s.rej := rfl
@[simp] theorem State.cur_updObj (s : State) (p o f) : (s.updObj p o f).cur = s.cur := rfl
@[simp] theorem State.stage_updObj (s : State) (p o f) : (s.updObj p o f).stage = s.stage := rfl
@[simp] theorem State.legs_updObj (s : State) (p o f) : (s.updObj p o f).legs = s.legs := rfl
@[simp] theorem State.par_updObj (s : State) (p o f) : (s.updObj p o f).par = s.par := rfl
@[simp] theorem State.pos0_updObj (s : State) (p o f) : (s.updObj p o f).pos0 = s.pos0 := rfl
@[simp] theorem State.pos1_updObj (s : State) (p o f) : (s.updObj p o f).pos1 = s.pos1 := rfl
@[simp] theorem State.cHw_updObj (s : State) (p o f) : (s.updObj p o f).cHw = s.cHw := rfl
@[simp] theorem State.pilot_updObj (s : State) (p o f) : (s.updObj p o f).pilot = s.pilot := rfl
@[simp] theorem State.hall_updObj (s : State) (p o f) : (s.updObj p o f).hall = s.hall := rfl
@[simp] theorem State.sticky_updObj (s : State) (p o f) : (s.updObj p o f).sticky = s.sticky := rfl
@[simp] theorem State.cwy_updObj (s : State) (p o f) : (s.updObj p o f).cwy = s.cwy := rfl
@[simp] theorem State.cal_updObj (s : State) (p o f) : (s.updObj p o f).cal = s.cal := rfl
@[simp] theorem State.kst_updObj (s : State) (p o f) : (s.updObj p o f).kst = s.kst := rfl
@[simp] theorem State.vdt_updObj (s : State) (p o f) : (s.updObj p o f).vdt = s.vdt := rfl
@[simp] theorem State.trl_updObj (s : State) (p o f) : (s.updObj p o f).trl = s.trl := rfl
@[simp] theorem State.start_updObj (s : State) (p o f) : (s.updObj p o f).start = s.start := rfl
@[simp] theorem State.image_updObj (s : State) (p o f) : (s.updObj p o f).image = s.image := rfl
@[simp] theorem State.snap_updObj (s : State) (p o f) : (s.updObj p o f).snap = s.snap := rfl
@[simp] theorem State.opened_updObj (s : State) (p o f) : (s.updObj p o f).opened = s.opened := rfl
@[simp] theorem State.pyl_updObj (s : State) (p o f) : (s.updObj p o f).pyl = s.pyl := rfl
@[simp] theorem State.hiLatch_updObj (s : State) (p o f) : (s.updObj p o f).hiLatch = s.hiLatch := rfl
@[simp] theorem State.lastRead_updObj (s : State) (p o f) : (s.updObj p o f).lastRead = s.lastRead := rfl
@[simp] theorem State.mrm_updObj (s : State) (p o f) : (s.updObj p o f).mrm = s.mrm := rfl
@[simp] theorem State.pending_updPartner (s : State) (n f) : (s.updPartner n f).pending = s.pending := rfl
@[simp] theorem State.freeCtr_updPartner (s : State) (n f) : (s.updPartner n f).freeCtr = s.freeCtr := rfl
@[simp] theorem State.tk_updPartner (s : State) (n f) : (s.updPartner n f).tk = s.tk := rfl
@[simp] theorem State.bar_updPartner (s : State) (n f) : (s.updPartner n f).bar = s.bar := rfl
@[simp] theorem State.adc_updPartner (s : State) (n f) : (s.updPartner n f).adc = s.adc := rfl
@[simp] theorem State.rej_updPartner (s : State) (n f) : (s.updPartner n f).rej = s.rej := rfl
@[simp] theorem State.cur_updPartner (s : State) (n f) : (s.updPartner n f).cur = s.cur := rfl
@[simp] theorem State.stage_updPartner (s : State) (n f) : (s.updPartner n f).stage = s.stage := rfl
@[simp] theorem State.legs_updPartner (s : State) (n f) : (s.updPartner n f).legs = s.legs := rfl
@[simp] theorem State.par_updPartner (s : State) (n f) : (s.updPartner n f).par = s.par := rfl
@[simp] theorem State.pos0_updPartner (s : State) (n f) : (s.updPartner n f).pos0 = s.pos0 := rfl
@[simp] theorem State.pos1_updPartner (s : State) (n f) : (s.updPartner n f).pos1 = s.pos1 := rfl
@[simp] theorem State.cHw_updPartner (s : State) (n f) : (s.updPartner n f).cHw = s.cHw := rfl
@[simp] theorem State.pilot_updPartner (s : State) (n f) : (s.updPartner n f).pilot = s.pilot := rfl
@[simp] theorem State.hall_updPartner (s : State) (n f) : (s.updPartner n f).hall = s.hall := rfl
@[simp] theorem State.sticky_updPartner (s : State) (n f) : (s.updPartner n f).sticky = s.sticky := rfl
@[simp] theorem State.cwy_updPartner (s : State) (n f) : (s.updPartner n f).cwy = s.cwy := rfl
@[simp] theorem State.cal_updPartner (s : State) (n f) : (s.updPartner n f).cal = s.cal := rfl
@[simp] theorem State.kst_updPartner (s : State) (n f) : (s.updPartner n f).kst = s.kst := rfl
@[simp] theorem State.vdt_updPartner (s : State) (n f) : (s.updPartner n f).vdt = s.vdt := rfl
@[simp] theorem State.trl_updPartner (s : State) (n f) : (s.updPartner n f).trl = s.trl := rfl
@[simp] theorem State.start_updPartner (s : State) (n f) : (s.updPartner n f).start = s.start := rfl
@[simp] theorem State.image_updPartner (s : State) (n f) : (s.updPartner n f).image = s.image := rfl
@[simp] theorem State.snap_updPartner (s : State) (n f) : (s.updPartner n f).snap = s.snap := rfl
@[simp] theorem State.opened_updPartner (s : State) (n f) : (s.updPartner n f).opened = s.opened := rfl
@[simp] theorem State.pyl_updPartner (s : State) (n f) : (s.updPartner n f).pyl = s.pyl := rfl
@[simp] theorem State.hiLatch_updPartner (s : State) (n f) : (s.updPartner n f).hiLatch = s.hiLatch := rfl
@[simp] theorem State.lastRead_updPartner (s : State) (n f) : (s.updPartner n f).lastRead = s.lastRead := rfl
@[simp] theorem State.mrm_updPartner (s : State) (n f) : (s.updPartner n f).mrm = s.mrm := rfl
@[simp] theorem State.pending_updSlot (s : State) (k f) : (s.updSlot k f).pending = s.pending := rfl
@[simp] theorem State.freeCtr_updSlot (s : State) (k f) : (s.updSlot k f).freeCtr = s.freeCtr := rfl
@[simp] theorem State.tk_updSlot (s : State) (k f) : (s.updSlot k f).tk = s.tk := rfl
@[simp] theorem State.bar_updSlot (s : State) (k f) : (s.updSlot k f).bar = s.bar := rfl
@[simp] theorem State.adc_updSlot (s : State) (k f) : (s.updSlot k f).adc = s.adc := rfl
@[simp] theorem State.rej_updSlot (s : State) (k f) : (s.updSlot k f).rej = s.rej := rfl
@[simp] theorem State.cur_updSlot (s : State) (k f) : (s.updSlot k f).cur = s.cur := rfl
@[simp] theorem State.stage_updSlot (s : State) (k f) : (s.updSlot k f).stage = s.stage := rfl
@[simp] theorem State.legs_updSlot (s : State) (k f) : (s.updSlot k f).legs = s.legs := rfl
@[simp] theorem State.par_updSlot (s : State) (k f) : (s.updSlot k f).par = s.par := rfl
@[simp] theorem State.pos0_updSlot (s : State) (k f) : (s.updSlot k f).pos0 = s.pos0 := rfl
@[simp] theorem State.pos1_updSlot (s : State) (k f) : (s.updSlot k f).pos1 = s.pos1 := rfl
@[simp] theorem State.cHw_updSlot (s : State) (k f) : (s.updSlot k f).cHw = s.cHw := rfl
@[simp] theorem State.pilot_updSlot (s : State) (k f) : (s.updSlot k f).pilot = s.pilot := rfl
@[simp] theorem State.hall_updSlot (s : State) (k f) : (s.updSlot k f).hall = s.hall := rfl
@[simp] theorem State.sticky_updSlot (s : State) (k f) : (s.updSlot k f).sticky = s.sticky := rfl
@[simp] theorem State.cwy_updSlot (s : State) (k f) : (s.updSlot k f).cwy = s.cwy := rfl
@[simp] theorem State.cal_updSlot (s : State) (k f) : (s.updSlot k f).cal = s.cal := rfl
@[simp] theorem State.kst_updSlot (s : State) (k f) : (s.updSlot k f).kst = s.kst := rfl
@[simp] theorem State.vdt_updSlot (s : State) (k f) : (s.updSlot k f).vdt = s.vdt := rfl
@[simp] theorem State.trl_updSlot (s : State) (k f) : (s.updSlot k f).trl = s.trl := rfl
@[simp] theorem State.start_updSlot (s : State) (k f) : (s.updSlot k f).start = s.start := rfl
@[simp] theorem State.image_updSlot (s : State) (k f) : (s.updSlot k f).image = s.image := rfl
@[simp] theorem State.snap_updSlot (s : State) (k f) : (s.updSlot k f).snap = s.snap := rfl
@[simp] theorem State.opened_updSlot (s : State) (k f) : (s.updSlot k f).opened = s.opened := rfl
@[simp] theorem State.pyl_updSlot (s : State) (k f) : (s.updSlot k f).pyl = s.pyl := rfl
@[simp] theorem State.hiLatch_updSlot (s : State) (k f) : (s.updSlot k f).hiLatch = s.hiLatch := rfl
@[simp] theorem State.lastRead_updSlot (s : State) (k f) : (s.updSlot k f).lastRead = s.lastRead := rfl
@[simp] theorem State.fp_updSlot (s : State) (k f) : (s.updSlot k f).fp = s.fp := rfl

@[simp] theorem State.pending_logEvent (s : State) (e) : (s.logEvent e).pending = s.pending := by
  simp only [State.logEvent]; (repeat' split) <;> rfl
@[simp] theorem State.freeCtr_logEvent (s : State) (e) : (s.logEvent e).freeCtr = s.freeCtr := by
  simp only [State.logEvent]; (repeat' split) <;> rfl
@[simp] theorem State.tk_logEvent (s : State) (e) : (s.logEvent e).tk = s.tk := by
  simp only [State.logEvent]; (repeat' split) <;> rfl
@[simp] theorem State.bar_logEvent (s : State) (e) : (s.logEvent e).bar = s.bar := by
  simp only [State.logEvent]; (repeat' split) <;> rfl
@[simp] theorem State.adc_logEvent (s : State) (e) : (s.logEvent e).adc = s.adc := by
  simp only [State.logEvent]; (repeat' split) <;> rfl
@[simp] theorem State.rej_logEvent (s : State) (e) : (s.logEvent e).rej = s.rej := by
  simp only [State.logEvent]; (repeat' split) <;> rfl
@[simp] theorem State.cur_logEvent (s : State) (e) : (s.logEvent e).cur = s.cur := by
  simp only [State.logEvent]; (repeat' split) <;> rfl
@[simp] theorem State.stage_logEvent (s : State) (e) : (s.logEvent e).stage = s.stage := by
  simp only [State.logEvent]; (repeat' split) <;> rfl
@[simp] theorem State.legs_logEvent (s : State) (e) : (s.logEvent e).legs = s.legs := by
  simp only [State.logEvent]; (repeat' split) <;> rfl
@[simp] theorem State.par_logEvent (s : State) (e) : (s.logEvent e).par = s.par := by
  simp only [State.logEvent]; (repeat' split) <;> rfl
@[simp] theorem State.pos0_logEvent (s : State) (e) : (s.logEvent e).pos0 = s.pos0 := by
  simp only [State.logEvent]; (repeat' split) <;> rfl
@[simp] theorem State.pos1_logEvent (s : State) (e) : (s.logEvent e).pos1 = s.pos1 := by
  simp only [State.logEvent]; (repeat' split) <;> rfl
@[simp] theorem State.cHw_logEvent (s : State) (e) : (s.logEvent e).cHw = s.cHw := by
  simp only [State.logEvent]; (repeat' split) <;> rfl
@[simp] theorem State.pilot_logEvent (s : State) (e) : (s.logEvent e).pilot = s.pilot := by
  simp only [State.logEvent]; (repeat' split) <;> rfl
@[simp] theorem State.hall_logEvent (s : State) (e) : (s.logEvent e).hall = s.hall := by
  simp only [State.logEvent]; (repeat' split) <;> rfl
@[simp] theorem State.sticky_logEvent (s : State) (e) : (s.logEvent e).sticky = s.sticky := by
  simp only [State.logEvent]; (repeat' split) <;> rfl
@[simp] theorem State.cwy_logEvent (s : State) (e) : (s.logEvent e).cwy = s.cwy := by
  simp only [State.logEvent]; (repeat' split) <;> rfl
@[simp] theorem State.cal_logEvent (s : State) (e) : (s.logEvent e).cal = s.cal := by
  simp only [State.logEvent]; (repeat' split) <;> rfl
@[simp] theorem State.kst_logEvent (s : State) (e) : (s.logEvent e).kst = s.kst := by
  simp only [State.logEvent]; (repeat' split) <;> rfl
@[simp] theorem State.vdt_logEvent (s : State) (e) : (s.logEvent e).vdt = s.vdt := by
  simp only [State.logEvent]; (repeat' split) <;> rfl
@[simp] theorem State.trl_logEvent (s : State) (e) : (s.logEvent e).trl = s.trl := by
  simp only [State.logEvent]; (repeat' split) <;> rfl
@[simp] theorem State.start_logEvent (s : State) (e) : (s.logEvent e).start = s.start := by
  simp only [State.logEvent]; (repeat' split) <;> rfl
@[simp] theorem State.image_logEvent (s : State) (e) : (s.logEvent e).image = s.image := by
  simp only [State.logEvent]; (repeat' split) <;> rfl
@[simp] theorem State.snap_logEvent (s : State) (e) : (s.logEvent e).snap = s.snap := by
  simp only [State.logEvent]; (repeat' split) <;> rfl
@[simp] theorem State.opened_logEvent (s : State) (e) : (s.logEvent e).opened = s.opened := by
  simp only [State.logEvent]; (repeat' split) <;> rfl
@[simp] theorem State.pyl_logEvent (s : State) (e) : (s.logEvent e).pyl = s.pyl := by
  simp only [State.logEvent]; (repeat' split) <;> rfl
@[simp] theorem State.hiLatch_logEvent (s : State) (e) : (s.logEvent e).hiLatch = s.hiLatch := by
  simp only [State.logEvent]; (repeat' split) <;> rfl
@[simp] theorem State.lastRead_logEvent (s : State) (e) : (s.logEvent e).lastRead = s.lastRead := by
  simp only [State.logEvent]; (repeat' split) <;> rfl
@[simp] theorem State.fp_logEvent (s : State) (e) : (s.logEvent e).fp = s.fp := by
  simp only [State.logEvent]; (repeat' split) <;> rfl
@[simp] theorem State.pending_noteTrigger (s : State) (e) : (s.noteTrigger e).pending = s.pending := by
  simp only [State.noteTrigger]; (repeat' split) <;> rfl
@[simp] theorem State.freeCtr_noteTrigger (s : State) (e) : (s.noteTrigger e).freeCtr = s.freeCtr := by
  simp only [State.noteTrigger]; (repeat' split) <;> rfl
@[simp] theorem State.tk_noteTrigger (s : State) (e) : (s.noteTrigger e).tk = s.tk := by
  simp only [State.noteTrigger]; (repeat' split) <;> rfl
@[simp] theorem State.bar_noteTrigger (s : State) (e) : (s.noteTrigger e).bar = s.bar := by
  simp only [State.noteTrigger]; (repeat' split) <;> rfl
@[simp] theorem State.adc_noteTrigger (s : State) (e) : (s.noteTrigger e).adc = s.adc := by
  simp only [State.noteTrigger]; (repeat' split) <;> rfl
@[simp] theorem State.rej_noteTrigger (s : State) (e) : (s.noteTrigger e).rej = s.rej := by
  simp only [State.noteTrigger]; (repeat' split) <;> rfl
@[simp] theorem State.cur_noteTrigger (s : State) (e) : (s.noteTrigger e).cur = s.cur := by
  simp only [State.noteTrigger]; (repeat' split) <;> rfl
@[simp] theorem State.stage_noteTrigger (s : State) (e) : (s.noteTrigger e).stage = s.stage := by
  simp only [State.noteTrigger]; (repeat' split) <;> rfl
@[simp] theorem State.legs_noteTrigger (s : State) (e) : (s.noteTrigger e).legs = s.legs := by
  simp only [State.noteTrigger]; (repeat' split) <;> rfl
@[simp] theorem State.par_noteTrigger (s : State) (e) : (s.noteTrigger e).par = s.par := by
  simp only [State.noteTrigger]; (repeat' split) <;> rfl
@[simp] theorem State.pos0_noteTrigger (s : State) (e) : (s.noteTrigger e).pos0 = s.pos0 := by
  simp only [State.noteTrigger]; (repeat' split) <;> rfl
@[simp] theorem State.pos1_noteTrigger (s : State) (e) : (s.noteTrigger e).pos1 = s.pos1 := by
  simp only [State.noteTrigger]; (repeat' split) <;> rfl
@[simp] theorem State.cHw_noteTrigger (s : State) (e) : (s.noteTrigger e).cHw = s.cHw := by
  simp only [State.noteTrigger]; (repeat' split) <;> rfl
@[simp] theorem State.pilot_noteTrigger (s : State) (e) : (s.noteTrigger e).pilot = s.pilot := by
  simp only [State.noteTrigger]; (repeat' split) <;> rfl
@[simp] theorem State.hall_noteTrigger (s : State) (e) : (s.noteTrigger e).hall = s.hall := by
  simp only [State.noteTrigger]; (repeat' split) <;> rfl
@[simp] theorem State.sticky_noteTrigger (s : State) (e) : (s.noteTrigger e).sticky = s.sticky := by
  simp only [State.noteTrigger]; (repeat' split) <;> rfl
@[simp] theorem State.cwy_noteTrigger (s : State) (e) : (s.noteTrigger e).cwy = s.cwy := by
  simp only [State.noteTrigger]; (repeat' split) <;> rfl
@[simp] theorem State.cal_noteTrigger (s : State) (e) : (s.noteTrigger e).cal = s.cal := by
  simp only [State.noteTrigger]; (repeat' split) <;> rfl
@[simp] theorem State.kst_noteTrigger (s : State) (e) : (s.noteTrigger e).kst = s.kst := by
  simp only [State.noteTrigger]; (repeat' split) <;> rfl
@[simp] theorem State.vdt_noteTrigger (s : State) (e) : (s.noteTrigger e).vdt = s.vdt := by
  simp only [State.noteTrigger]; (repeat' split) <;> rfl
@[simp] theorem State.trl_noteTrigger (s : State) (e) : (s.noteTrigger e).trl = s.trl := by
  simp only [State.noteTrigger]; (repeat' split) <;> rfl
@[simp] theorem State.start_noteTrigger (s : State) (e) : (s.noteTrigger e).start = s.start := by
  simp only [State.noteTrigger]; (repeat' split) <;> rfl
@[simp] theorem State.image_noteTrigger (s : State) (e) : (s.noteTrigger e).image = s.image := by
  simp only [State.noteTrigger]; (repeat' split) <;> rfl
@[simp] theorem State.snap_noteTrigger (s : State) (e) : (s.noteTrigger e).snap = s.snap := by
  simp only [State.noteTrigger]; (repeat' split) <;> rfl
@[simp] theorem State.opened_noteTrigger (s : State) (e) : (s.noteTrigger e).opened = s.opened := by
  simp only [State.noteTrigger]; (repeat' split) <;> rfl
@[simp] theorem State.pyl_noteTrigger (s : State) (e) : (s.noteTrigger e).pyl = s.pyl := by
  simp only [State.noteTrigger]; (repeat' split) <;> rfl
@[simp] theorem State.hiLatch_noteTrigger (s : State) (e) : (s.noteTrigger e).hiLatch = s.hiLatch := by
  simp only [State.noteTrigger]; (repeat' split) <;> rfl
@[simp] theorem State.lastRead_noteTrigger (s : State) (e) : (s.noteTrigger e).lastRead = s.lastRead := by
  simp only [State.noteTrigger]; (repeat' split) <;> rfl
@[simp] theorem State.fp_noteTrigger (s : State) (e) : (s.noteTrigger e).fp = s.fp := by
  simp only [State.noteTrigger]; (repeat' split) <;> rfl
@[simp] theorem State.pending_raise (s : State) (code addr cause val val2) : (s.raise code addr cause val val2).pending = s.pending := by
  simp only [State.raise]; split <;> simp
@[simp] theorem State.pending_accessViolation (s : State) (off) : (s.accessViolation off).pending = s.pending := by
  simp [State.accessViolation]
@[simp] theorem State.freeCtr_raise (s : State) (code addr cause val val2) : (s.raise code addr cause val val2).freeCtr = s.freeCtr := by
  simp only [State.raise]; split <;> simp
@[simp] theorem State.freeCtr_accessViolation (s : State) (off) : (s.accessViolation off).freeCtr = s.freeCtr := by
  simp [State.accessViolation]
@[simp] theorem State.tk_raise (s : State) (code addr cause val val2) : (s.raise code addr cause val val2).tk = s.tk := by
  simp only [State.raise]; split <;> simp
@[simp] theorem State.tk_accessViolation (s : State) (off) : (s.accessViolation off).tk = s.tk := by
  simp [State.accessViolation]
@[simp] theorem State.bar_raise (s : State) (code addr cause val val2) : (s.raise code addr cause val val2).bar = s.bar := by
  simp only [State.raise]; split <;> simp
@[simp] theorem State.bar_accessViolation (s : State) (off) : (s.accessViolation off).bar = s.bar := by
  simp [State.accessViolation]
@[simp] theorem State.adc_raise (s : State) (code addr cause val val2) : (s.raise code addr cause val val2).adc = s.adc := by
  simp only [State.raise]; split <;> simp
@[simp] theorem State.adc_accessViolation (s : State) (off) : (s.accessViolation off).adc = s.adc := by
  simp [State.accessViolation]
@[simp] theorem State.rej_raise (s : State) (code addr cause val val2) : (s.raise code addr cause val val2).rej = s.rej := by
  simp only [State.raise]; split <;> simp
@[simp] theorem State.rej_accessViolation (s : State) (off) : (s.accessViolation off).rej = s.rej := by
  simp [State.accessViolation]
@[simp] theorem State.cur_raise (s : State) (code addr cause val val2) : (s.raise code addr cause val val2).cur = s.cur := by
  simp only [State.raise]; split <;> simp
@[simp] theorem State.cur_accessViolation (s : State) (off) : (s.accessViolation off).cur = s.cur := by
  simp [State.accessViolation]
@[simp] theorem State.stage_raise (s : State) (code addr cause val val2) : (s.raise code addr cause val val2).stage = s.stage := by
  simp only [State.raise]; split <;> simp
@[simp] theorem State.stage_accessViolation (s : State) (off) : (s.accessViolation off).stage = s.stage := by
  simp [State.accessViolation]
@[simp] theorem State.legs_raise (s : State) (code addr cause val val2) : (s.raise code addr cause val val2).legs = s.legs := by
  simp only [State.raise]; split <;> simp
@[simp] theorem State.legs_accessViolation (s : State) (off) : (s.accessViolation off).legs = s.legs := by
  simp [State.accessViolation]
@[simp] theorem State.par_raise (s : State) (code addr cause val val2) : (s.raise code addr cause val val2).par = s.par := by
  simp only [State.raise]; split <;> simp
@[simp] theorem State.par_accessViolation (s : State) (off) : (s.accessViolation off).par = s.par := by
  simp [State.accessViolation]
@[simp] theorem State.pos0_raise (s : State) (code addr cause val val2) : (s.raise code addr cause val val2).pos0 = s.pos0 := by
  simp only [State.raise]; split <;> simp
@[simp] theorem State.pos0_accessViolation (s : State) (off) : (s.accessViolation off).pos0 = s.pos0 := by
  simp [State.accessViolation]
@[simp] theorem State.pos1_raise (s : State) (code addr cause val val2) : (s.raise code addr cause val val2).pos1 = s.pos1 := by
  simp only [State.raise]; split <;> simp
@[simp] theorem State.pos1_accessViolation (s : State) (off) : (s.accessViolation off).pos1 = s.pos1 := by
  simp [State.accessViolation]
@[simp] theorem State.cHw_raise (s : State) (code addr cause val val2) : (s.raise code addr cause val val2).cHw = s.cHw := by
  simp only [State.raise]; split <;> simp
@[simp] theorem State.cHw_accessViolation (s : State) (off) : (s.accessViolation off).cHw = s.cHw := by
  simp [State.accessViolation]
@[simp] theorem State.pilot_raise (s : State) (code addr cause val val2) : (s.raise code addr cause val val2).pilot = s.pilot := by
  simp only [State.raise]; split <;> simp
@[simp] theorem State.pilot_accessViolation (s : State) (off) : (s.accessViolation off).pilot = s.pilot := by
  simp [State.accessViolation]
@[simp] theorem State.hall_raise (s : State) (code addr cause val val2) : (s.raise code addr cause val val2).hall = s.hall := by
  simp only [State.raise]; split <;> simp
@[simp] theorem State.hall_accessViolation (s : State) (off) : (s.accessViolation off).hall = s.hall := by
  simp [State.accessViolation]
@[simp] theorem State.sticky_raise (s : State) (code addr cause val val2) : (s.raise code addr cause val val2).sticky = s.sticky := by
  simp only [State.raise]; split <;> simp
@[simp] theorem State.sticky_accessViolation (s : State) (off) : (s.accessViolation off).sticky = s.sticky := by
  simp [State.accessViolation]
@[simp] theorem State.cal_raise (s : State) (code addr cause val val2) : (s.raise code addr cause val val2).cal = s.cal := by
  simp only [State.raise]; split <;> simp
@[simp] theorem State.cal_accessViolation (s : State) (off) : (s.accessViolation off).cal = s.cal := by
  simp [State.accessViolation]
@[simp] theorem State.kst_raise (s : State) (code addr cause val val2) : (s.raise code addr cause val val2).kst = s.kst := by
  simp only [State.raise]; split <;> simp
@[simp] theorem State.kst_accessViolation (s : State) (off) : (s.accessViolation off).kst = s.kst := by
  simp [State.accessViolation]
@[simp] theorem State.vdt_raise (s : State) (code addr cause val val2) : (s.raise code addr cause val val2).vdt = s.vdt := by
  simp only [State.raise]; split <;> simp
@[simp] theorem State.vdt_accessViolation (s : State) (off) : (s.accessViolation off).vdt = s.vdt := by
  simp [State.accessViolation]
@[simp] theorem State.trl_raise (s : State) (code addr cause val val2) : (s.raise code addr cause val val2).trl = s.trl := by
  simp only [State.raise]; split <;> simp
@[simp] theorem State.trl_accessViolation (s : State) (off) : (s.accessViolation off).trl = s.trl := by
  simp [State.accessViolation]
@[simp] theorem State.start_raise (s : State) (code addr cause val val2) : (s.raise code addr cause val val2).start = s.start := by
  simp only [State.raise]; split <;> simp
@[simp] theorem State.start_accessViolation (s : State) (off) : (s.accessViolation off).start = s.start := by
  simp [State.accessViolation]
@[simp] theorem State.image_raise (s : State) (code addr cause val val2) : (s.raise code addr cause val val2).image = s.image := by
  simp only [State.raise]; split <;> simp
@[simp] theorem State.image_accessViolation (s : State) (off) : (s.accessViolation off).image = s.image := by
  simp [State.accessViolation]
@[simp] theorem State.snap_raise (s : State) (code addr cause val val2) : (s.raise code addr cause val val2).snap = s.snap := by
  simp only [State.raise]; split <;> simp
@[simp] theorem State.snap_accessViolation (s : State) (off) : (s.accessViolation off).snap = s.snap := by
  simp [State.accessViolation]
@[simp] theorem State.opened_raise (s : State) (code addr cause val val2) : (s.raise code addr cause val val2).opened = s.opened := by
  simp only [State.raise]; split <;> simp
@[simp] theorem State.opened_accessViolation (s : State) (off) : (s.accessViolation off).opened = s.opened := by
  simp [State.accessViolation]
@[simp] theorem State.pyl_raise (s : State) (code addr cause val val2) : (s.raise code addr cause val val2).pyl = s.pyl := by
  simp only [State.raise]; split <;> simp
@[simp] theorem State.pyl_accessViolation (s : State) (off) : (s.accessViolation off).pyl = s.pyl := by
  simp [State.accessViolation]
@[simp] theorem State.hiLatch_raise (s : State) (code addr cause val val2) : (s.raise code addr cause val val2).hiLatch = s.hiLatch := by
  simp only [State.raise]; split <;> simp
@[simp] theorem State.hiLatch_accessViolation (s : State) (off) : (s.accessViolation off).hiLatch = s.hiLatch := by
  simp [State.accessViolation]
@[simp] theorem State.lastRead_raise (s : State) (code addr cause val val2) : (s.raise code addr cause val val2).lastRead = s.lastRead := by
  simp only [State.raise]; split <;> simp
@[simp] theorem State.lastRead_accessViolation (s : State) (off) : (s.accessViolation off).lastRead = s.lastRead := by
  simp [State.accessViolation]
@[simp] theorem State.fp_raise (s : State) (code addr cause val val2) : (s.raise code addr cause val val2).fp = s.fp := by
  simp only [State.raise]; split <;> simp
@[simp] theorem State.fp_accessViolation (s : State) (off) : (s.accessViolation off).fp = s.fp := by
  simp [State.accessViolation]
@[simp] theorem State.cwy_accViol_raise (s : State) (code addr cause val val2) : (s.raise code addr cause val val2).cwy.accViol = s.cwy.accViol := by
  simp only [State.raise]; split <;> simp
@[simp] theorem State.cwy_pageCrc_raise (s : State) (code addr cause val val2) : (s.raise code addr cause val val2).cwy.pageCrc = s.cwy.pageCrc := by
  simp only [State.raise]; split <;> simp
@[simp] theorem State.cwy_cmdFull_raise (s : State) (code addr cause val val2) : (s.raise code addr cause val val2).cwy.cmdFull = s.cwy.cmdFull := by
  simp only [State.raise]; split <;> simp
@[simp] theorem State.cwy_evtRsv_raise (s : State) (code addr cause val val2) : (s.raise code addr cause val val2).cwy.evtRsv = s.cwy.evtRsv := by
  simp only [State.raise]; split <;> simp
@[simp] theorem State.cwy_storm_raise (s : State) (code addr cause val val2) : (s.raise code addr cause val val2).cwy.storm = s.cwy.storm := by
  simp only [State.raise]; split <;> simp
@[simp] theorem State.cwy_hostLost_raise (s : State) (code addr cause val val2) : (s.raise code addr cause val val2).cwy.hostLost = s.cwy.hostLost := by
  simp only [State.raise]; split <;> simp
@[simp] theorem State.cwy_fbActive_raise (s : State) (code addr cause val val2) : (s.raise code addr cause val val2).cwy.fbActive = s.cwy.fbActive := by
  simp only [State.raise]; split <;> simp
@[simp] theorem State.cwy_tlmGap_raise (s : State) (code addr cause val val2) : (s.raise code addr cause val val2).cwy.tlmGap = s.cwy.tlmGap := by
  simp only [State.raise]; split <;> simp
@[simp] theorem State.cwy_linkUp_raise (s : State) (code addr cause val val2) : (s.raise code addr cause val val2).cwy.linkUp = s.cwy.linkUp := by
  simp only [State.raise]; split <;> simp
@[simp] theorem State.cwy_run_raise (s : State) (code addr cause val val2) : (s.raise code addr cause val val2).cwy.run = s.cwy.run := by
  simp only [State.raise]; split <;> simp
@[simp] theorem State.cwy_avAddr_raise (s : State) (code addr cause val val2) : (s.raise code addr cause val val2).cwy.avAddr = s.cwy.avAddr := by
  simp only [State.raise]; split <;> simp
@[simp] theorem State.cwy_cmdFetched_raise (s : State) (code addr cause val val2) : (s.raise code addr cause val val2).cwy.cmdFetched = s.cwy.cmdFetched := by
  simp only [State.raise]; split <;> simp
@[simp] theorem State.cwy_lateCount_raise (s : State) (code addr cause val val2) : (s.raise code addr cause val val2).cwy.lateCount = s.cwy.lateCount := by
  simp only [State.raise]; split <;> simp
@[simp] theorem State.cwy_dcrcCount_raise (s : State) (code addr cause val val2) : (s.raise code addr cause val val2).cwy.dcrcCount = s.cwy.dcrcCount := by
  simp only [State.raise]; split <;> simp
@[simp] theorem State.cwy_seqCount_raise (s : State) (code addr cause val val2) : (s.raise code addr cause val val2).cwy.seqCount = s.cwy.seqCount := by
  simp only [State.raise]; split <;> simp
@[simp] theorem State.cwy_pageErr_raise (s : State) (code addr cause val val2) : (s.raise code addr cause val val2).cwy.pageErr = s.cwy.pageErr := by
  simp only [State.raise]; split <;> simp
@[simp] theorem State.cwy_evtDrop_raise (s : State) (code addr cause val val2) : (s.raise code addr cause val val2).cwy.evtDrop = s.cwy.evtDrop := by
  simp only [State.raise]; split <;> simp
@[simp] theorem State.cwy_stormCount_raise (s : State) (code addr cause val val2) : (s.raise code addr cause val val2).cwy.stormCount = s.cwy.stormCount := by
  simp only [State.raise]; split <;> simp
@[simp] theorem State.cwy_tlmGaps_raise (s : State) (code addr cause val val2) : (s.raise code addr cause val val2).cwy.tlmGaps = s.cwy.tlmGaps := by
  simp only [State.raise]; split <;> simp
@[simp] theorem State.cwy_hlTick_raise (s : State) (code addr cause val val2) : (s.raise code addr cause val val2).cwy.hlTick = s.cwy.hlTick := by
  simp only [State.raise]; split <;> simp
@[simp] theorem State.cwy_cmdProd_raise (s : State) (code addr cause val val2) : (s.raise code addr cause val val2).cwy.cmdProd = s.cwy.cmdProd := by
  simp only [State.raise]; split <;> simp
@[simp] theorem State.cwy_cmplCons_raise (s : State) (code addr cause val val2) : (s.raise code addr cause val val2).cwy.cmplCons = s.cwy.cmplCons := by
  simp only [State.raise]; split <;> simp
@[simp] theorem State.cwy_evtCons_raise (s : State) (code addr cause val val2) : (s.raise code addr cause val val2).cwy.evtCons = s.cwy.evtCons := by
  simp only [State.raise]; split <;> simp
@[simp] theorem State.cwy_tlmCons_raise (s : State) (code addr cause val val2) : (s.raise code addr cause val val2).cwy.tlmCons = s.cwy.tlmCons := by
  simp only [State.raise]; split <;> simp
@[simp] theorem State.cwy_beat_raise (s : State) (code addr cause val val2) : (s.raise code addr cause val val2).cwy.beat = s.cwy.beat := by
  simp only [State.raise]; split <;> simp
@[simp] theorem State.cwy_beatSame_raise (s : State) (code addr cause val val2) : (s.raise code addr cause val val2).cwy.beatSame = s.cwy.beatSame := by
  simp only [State.raise]; split <;> simp
@[simp] theorem State.cwy_noFetch_raise (s : State) (code addr cause val val2) : (s.raise code addr cause val val2).cwy.noFetch = s.cwy.noFetch := by
  simp only [State.raise]; split <;> simp
@[simp] theorem State.cwy_fetchTick_raise (s : State) (code addr cause val val2) : (s.raise code addr cause val val2).cwy.fetchTick = s.cwy.fetchTick := by
  simp only [State.raise]; split <;> simp
@[simp] theorem State.cwy_fullRaised_raise (s : State) (code addr cause val val2) : (s.raise code addr cause val val2).cwy.fullRaised = s.cwy.fullRaised := by
  simp only [State.raise]; split <;> simp
@[simp] theorem State.cwy_staged_raise (s : State) (code addr cause val val2) : (s.raise code addr cause val val2).cwy.staged = s.cwy.staged := by
  simp only [State.raise]; split <;> simp
@[simp] theorem State.cwy_cmplDue_raise (s : State) (code addr cause val val2) : (s.raise code addr cause val val2).cwy.cmplDue = s.cwy.cmplDue := by
  simp only [State.raise]; split <;> simp
@[simp] theorem State.cwy_cmplDone_raise (s : State) (code addr cause val val2) : (s.raise code addr cause val val2).cwy.cmplDone = s.cwy.cmplDone := by
  simp only [State.raise]; split <;> simp
@[simp] theorem State.cwy_cmplProd_raise (s : State) (code addr cause val val2) : (s.raise code addr cause val val2).cwy.cmplProd = s.cwy.cmplProd := by
  simp only [State.raise]; split <;> simp
@[simp] theorem State.cwy_twinSlots_raise (s : State) (code addr cause val val2) : (s.raise code addr cause val val2).cwy.twinSlots = s.cwy.twinSlots := by
  simp only [State.raise]; split <;> simp
@[simp] theorem State.cwy_doneTags_raise (s : State) (code addr cause val val2) : (s.raise code addr cause val val2).cwy.doneTags = s.cwy.doneTags := by
  simp only [State.raise]; split <;> simp
@[simp] theorem State.cwy_evtProd_raise (s : State) (code addr cause val val2) : (s.raise code addr cause val val2).cwy.evtProd = s.cwy.evtProd := by
  simp only [State.raise]; split <;> simp
@[simp] theorem State.cwy_tlmProd_raise (s : State) (code addr cause val val2) : (s.raise code addr cause val val2).cwy.tlmProd = s.cwy.tlmProd := by
  simp only [State.raise]; split <;> simp
@[simp] theorem State.cwy_gapRun_raise (s : State) (code addr cause val val2) : (s.raise code addr cause val val2).cwy.gapRun = s.cwy.gapRun := by
  simp only [State.raise]; split <;> simp
@[simp] theorem State.cwy_stormEvents_raise (s : State) (code addr cause val val2) : (s.raise code addr cause val val2).cwy.stormEvents = s.cwy.stormEvents := by
  simp only [State.raise]; split <;> simp
@[simp] theorem State.cwy_stormWritten_raise (s : State) (code addr cause val val2) : (s.raise code addr cause val val2).cwy.stormWritten = s.cwy.stormWritten := by
  simp only [State.raise]; split <;> simp
@[simp] theorem State.cwy_stormTicks_raise (s : State) (code addr cause val val2) : (s.raise code addr cause val val2).cwy.stormTicks = s.cwy.stormTicks := by
  simp only [State.raise]; split <;> simp
@[simp] theorem State.cwy_stormQuiet_raise (s : State) (code addr cause val val2) : (s.raise code addr cause val val2).cwy.stormQuiet = s.cwy.stormQuiet := by
  simp only [State.raise]; split <;> simp
@[simp] theorem State.cwy_cmplRing_raise (s : State) (code addr cause val val2) : (s.raise code addr cause val val2).cwy.cmplRing = s.cwy.cmplRing := by
  simp only [State.raise]; split <;> simp
@[simp] theorem State.cwy_evtRing_raise (s : State) (code addr cause val val2) : (s.raise code addr cause val val2).cwy.evtRing = s.cwy.evtRing := by
  simp only [State.raise]; split <;> simp
@[simp] theorem State.cwy_tlmRing_raise (s : State) (code addr cause val val2) : (s.raise code addr cause val val2).cwy.tlmRing = s.cwy.tlmRing := by
  simp only [State.raise]; split <;> simp
@[simp] theorem State.cwy_deckTick_raise (s : State) (code addr cause val val2) : (s.raise code addr cause val val2).cwy.deckTick = s.cwy.deckTick := by
  simp only [State.raise]; split <;> simp
@[simp] theorem State.cwy_vectors_raise (s : State) (code addr cause val val2) : (s.raise code addr cause val val2).cwy.vectors = s.cwy.vectors := by
  simp only [State.raise]; split <;> simp
@[simp] theorem State.cwy_pba_raise (s : State) (code addr cause val val2) : (s.raise code addr cause val val2).cwy.pba = s.cwy.pba := by
  simp only [State.raise]; split <;> simp
@[simp] theorem State.cwy_profile_raise (s : State) (code addr cause val val2) : (s.raise code addr cause val val2).cwy.profile = s.cwy.profile := by
  simp only [State.raise]; split <;> simp
@[simp] theorem State.cwy_fbCounter_raise (s : State) (code addr cause val val2) : (s.raise code addr cause val val2).cwy.fbCounter = s.cwy.fbCounter := by
  simp only [State.raise]; split <;> simp
@[simp] theorem State.cwy_fbStaged_raise (s : State) (code addr cause val val2) : (s.raise code addr cause val val2).cwy.fbStaged = s.cwy.fbStaged := by
  simp only [State.raise]; split <;> simp
@[simp] theorem State.cwy_job_raise (s : State) (code addr cause val val2) : (s.raise code addr cause val val2).cwy.job = s.cwy.job := by
  simp only [State.raise]; split <;> simp
@[simp] theorem State.cwy_tests_raise (s : State) (code addr cause val val2) : (s.raise code addr cause val val2).cwy.tests = s.cwy.tests := by
  simp only [State.raise]; split <;> simp
@[simp] theorem State.mrm_mem_raise (s : State) (code addr cause val val2) : (s.raise code addr cause val val2).mrm.mem = s.mrm.mem := by
  simp only [State.raise, State.logEvent, State.noteTrigger]; (repeat' split) <;> rfl
@[simp] theorem State.mrm_wrFail_raise (s : State) (code addr cause val val2) : (s.raise code addr cause val val2).mrm.wrFail = s.mrm.wrFail := by
  simp only [State.raise, State.logEvent, State.noteTrigger]; (repeat' split) <;> rfl
@[simp] theorem State.mrm_rdErr_raise (s : State) (code addr cause val val2) : (s.raise code addr cause val val2).mrm.rdErr = s.mrm.rdErr := by
  simp only [State.raise, State.logEvent, State.noteTrigger]; (repeat' split) <;> rfl
@[simp] theorem State.mrm_corr_raise (s : State) (code addr cause val val2) : (s.raise code addr cause val val2).mrm.corr = s.mrm.corr := by
  simp only [State.raise, State.logEvent, State.noteTrigger]; (repeat' split) <;> rfl
@[simp] theorem State.mrm_uncorr_raise (s : State) (code addr cause val val2) : (s.raise code addr cause val val2).mrm.uncorr = s.mrm.uncorr := by
  simp only [State.raise, State.logEvent, State.noteTrigger]; (repeat' split) <;> rfl
@[simp] theorem State.mrm_head_raise (s : State) (code addr cause val val2) : (s.raise code addr cause val val2).mrm.head = s.mrm.head := by
  simp only [State.raise, State.logEvent, State.noteTrigger]; (repeat' split) <;> rfl
@[simp] theorem State.mrm_log_raise (s : State) (code addr cause val val2) : (s.raise code addr cause val val2).mrm.log = s.mrm.log := by
  simp only [State.raise, State.logEvent, State.noteTrigger]; (repeat' split) <;> rfl
@[simp] theorem State.mrm_slots_raise (s : State) (code addr cause val val2) : (s.raise code addr cause val val2).mrm.slots = s.mrm.slots := by
  simp only [State.raise, State.logEvent, State.noteTrigger]; (repeat' split) <;> rfl
@[simp] theorem State.mrm_hdrs_raise (s : State) (code addr cause val val2) : (s.raise code addr cause val val2).mrm.hdrs = s.mrm.hdrs := by
  simp only [State.raise, State.logEvent, State.noteTrigger]; (repeat' split) <;> rfl
@[simp] theorem State.mrm_open__raise (s : State) (code addr cause val val2) : (s.raise code addr cause val val2).mrm.open_ = s.mrm.open_ := by
  simp only [State.raise, State.logEvent, State.noteTrigger]; (repeat' split) <;> rfl
@[simp] theorem State.mrm_records_raise (s : State) (code addr cause val val2) : (s.raise code addr cause val val2).mrm.records = s.mrm.records := by
  simp only [State.raise, State.logEvent, State.noteTrigger]; (repeat' split) <;> rfl
@[simp] theorem State.mrm_miss_raise (s : State) (code addr cause val val2) : (s.raise code addr cause val val2).mrm.miss = s.mrm.miss := by
  simp only [State.raise, State.logEvent, State.noteTrigger]; (repeat' split) <;> rfl
@[simp] theorem State.mrm_release_raise (s : State) (code addr cause val val2) : (s.raise code addr cause val val2).mrm.release = s.mrm.release := by
  simp only [State.raise, State.logEvent, State.noteTrigger]; (repeat' split) <;> rfl
@[simp] theorem State.mrm_copyA_raise (s : State) (code addr cause val val2) : (s.raise code addr cause val val2).mrm.copyA = s.mrm.copyA := by
  simp only [State.raise, State.logEvent, State.noteTrigger]; (repeat' split) <;> rfl
@[simp] theorem State.mrm_copyB_raise (s : State) (code addr cause val val2) : (s.raise code addr cause val val2).mrm.copyB = s.mrm.copyB := by
  simp only [State.raise, State.logEvent, State.noteTrigger]; (repeat' split) <;> rfl
@[simp] theorem State.mrm_ledger_raise (s : State) (code addr cause val val2) : (s.raise code addr cause val val2).mrm.ledger = s.mrm.ledger := by
  simp only [State.raise, State.logEvent, State.noteTrigger]; (repeat' split) <;> rfl
@[simp] theorem State.mrm_lands_raise (s : State) (code addr cause val val2) : (s.raise code addr cause val val2).mrm.lands = s.mrm.lands := by
  simp only [State.raise, State.logEvent, State.noteTrigger]; (repeat' split) <;> rfl
@[simp] theorem State.mrm_calSet_raise (s : State) (code addr cause val val2) : (s.raise code addr cause val val2).mrm.calSet = s.mrm.calSet := by
  simp only [State.raise, State.logEvent, State.noteTrigger]; (repeat' split) <;> rfl
@[simp] theorem State.mrm_calStaged_raise (s : State) (code addr cause val val2) : (s.raise code addr cause val val2).mrm.calStaged = s.mrm.calStaged := by
  simp only [State.raise, State.logEvent, State.noteTrigger]; (repeat' split) <;> rfl
@[simp] theorem State.mrm_calUser_raise (s : State) (code addr cause val val2) : (s.raise code addr cause val val2).mrm.calUser = s.mrm.calUser := by
  simp only [State.raise, State.logEvent, State.noteTrigger]; (repeat' split) <;> rfl
@[simp] theorem State.mrm_calCount_raise (s : State) (code addr cause val val2) : (s.raise code addr cause val val2).mrm.calCount = s.mrm.calCount := by
  simp only [State.raise, State.logEvent, State.noteTrigger]; (repeat' split) <;> rfl
@[simp] theorem State.mrm_calStamp_raise (s : State) (code addr cause val val2) : (s.raise code addr cause val val2).mrm.calStamp = s.mrm.calStamp := by
  simp only [State.raise, State.logEvent, State.noteTrigger]; (repeat' split) <;> rfl
@[simp] theorem State.mrm_calLands_raise (s : State) (code addr cause val val2) : (s.raise code addr cause val val2).mrm.calLands = s.mrm.calLands := by
  simp only [State.raise, State.logEvent, State.noteTrigger]; (repeat' split) <;> rfl
@[simp] theorem State.mrm_blockDone_raise (s : State) (code addr cause val val2) : (s.raise code addr cause val val2).mrm.blockDone = s.mrm.blockDone := by
  simp only [State.raise, State.logEvent, State.noteTrigger]; (repeat' split) <;> rfl
/-- An access violation leaves its offset and its flag behind (R20). -/
@[simp] theorem State.accViol_accessViolation (s : State) (off) : (s.accessViolation off).cwy.accViol = true := by
  simp [State.accessViolation]
@[simp] theorem State.avAddr_accessViolation (s : State) (off) : (s.accessViolation off).cwy.avAddr = off := by
  simp [State.accessViolation]

end Sys2Proof.Machine
end

