-- ==== Sys2Proof/Laws/Events.lean ====
section
/-! SUPPORT. What raising an event leaves: where the event goes, and that raising keeps events that wait. -/
namespace Sys2Proof.Machine

theorem State.logEvent_cwy (s : State) (e : Event) : (s.logEvent e).cwy = s.cwy := by
  unfold State.logEvent
  simp only []
  split_ifs <;> rfl

theorem State.noteTrigger_cwy (s : State) (e : Event) : (s.noteTrigger e).cwy = s.cwy := by
  unfold State.noteTrigger
  split_ifs <;> rfl

/-- An event pushed onto the protection queue waits there. -/
theorem pqPush_mem (pu : Nat) (e : Event) (l : List Event) : ∃ x ∈ pqPush pu e l, x.code = e.code ∧ x.addr = e.addr := by
  induction l with
  | nil => exact ⟨e, List.mem_singleton.mpr rfl, rfl, rfl⟩
  | cons a t ih =>
    unfold pqPush
    split
    · rename_i h
      exact ⟨_, List.mem_cons_self, h⟩
    · obtain ⟨x, hx, hc⟩ := ih
      exact ⟨x, List.mem_cons_of_mem _ hx, hc⟩

/-- Pushing keeps every code and address that waits. -/
theorem pqPush_keeps (pu : Nat) (e : Event) (l : List Event) (code : Nat) (addr : AddrWord)
    (h : ∃ x ∈ l, x.code = code ∧ x.addr = addr) : ∃ x ∈ pqPush pu e l, x.code = code ∧ x.addr = addr := by
  induction l with
  | nil => simp at h
  | cons a t ih =>
    obtain ⟨x, hx, hc⟩ := h
    unfold pqPush
    split
    · rcases List.mem_cons.mp hx with rfl | hx
      · exact ⟨_, List.mem_cons_self, hc⟩
      · exact ⟨x, List.mem_cons_of_mem _ hx, hc⟩
    · rcases List.mem_cons.mp hx with rfl | hx
      · exact ⟨_, List.mem_cons_self, hc⟩
      · obtain ⟨y, hy, hc⟩ := ih ⟨x, hx, hc⟩
        exact ⟨y, List.mem_cons_of_mem _ hy, hc⟩

/-- A protection event that is raised waits in the protection queue. -/
theorem State.raise_protects (s : State) (code : Nat) (addr : AddrWord) (cause : Nat) (val val2 : Int) (h : code < 32) :
    (s.raise code addr cause val val2).protects code addr := by
  unfold State.raise
  simp only [h, if_true]
  exact pqPush_mem _ _ _

/-- Raising an event keeps the protection events that wait. -/
theorem State.raise_keeps_protects (s : State) (code : Nat) (addr : AddrWord) (cause : Nat) (val val2 : Int) (k : Nat)
    (a : AddrWord) (h : s.protects k a) : (s.raise code addr cause val val2).protects k a := by
  unfold State.raise
  simp only []
  split
  · refine pqPush_keeps _ _ _ _ _ ?_
    rw [State.noteTrigger_cwy, State.logEvent_cwy]
    exact h
  · show ∃ e ∈ ((s.logEvent _).noteTrigger _).cwy.pq, _
    rw [State.noteTrigger_cwy, State.logEvent_cwy]
    exact h

/-- An event that is not a protection event joins the list of the tick. -/
theorem State.raise_reports (s : State) (code : Nat) (addr : AddrWord) (cause : Nat) (val val2 : Int) (h : 32 ≤ code) :
    s.reports (s.raise code addr cause val val2) code addr cause val val2 := by
  unfold State.reports State.raise
  simp only [Nat.not_lt.mpr h, if_false, State.noteTrigger_cwy, State.logEvent_cwy]
  exact ⟨_, rfl, rfl, rfl, rfl, rfl, rfl⟩

end Sys2Proof.Machine
end

