-- ==== Sys2Proof/Laws/Legs.lean ====
section
/-! SUPPORT. What driving the legs can do: it moves the gates, the blanking windows and the flags of a swallowed edge, and nothing else. -/
namespace Sys2Proof.Machine

/-- A leg reads back what it was changed to. -/
theorem State.leg_updLeg_same (s : State) (l : Nat) (f : LegS → LegS) (h : s.partsOk = true) :
    (s.updLeg l f).leg l = f (s.leg l) := Store.get_put_same (wf_legs h)
/-- Changing a leg leaves every other one alone. -/
theorem State.leg_updLeg_ne (s : State) (l k : Nat) (f : LegS → LegS) (h : s.partsOk = true) (n : k ≠ l) :
    (s.updLeg l f).leg k = s.leg k := Store.get_put_ne (wf_legs h) n
/-- Changing a leg leaves everything but the legs alone. -/
@[simp] theorem State.legless_updLeg (s : State) (l : Nat) (f : LegS → LegS) : (s.updLeg l f).legless = s.legless := rfl
/-- A change of a leg keeps the sparse stores canonical. -/
theorem State.updLeg_sound (s : State) (l : Nat) (f : LegS → LegS) (h : s.partsOk = true) : (s.updLeg l f).partsOk = true := by
  rw [State.partsOk_iff] at h ⊢
  exact ⟨h.1, Store.put_wf h.2.1, h.2.2⟩

/-- `t` differs from `s` in its legs alone, and there only in what driving the gates moves. -/
structure Driven (s t : State) : Prop where
  rest : t.legless = s.legless
  sound : s.partsOk = true → t.partsOk = true
  still : s.partsOk = true → ∀ k, (t.leg k).still = (s.leg k).still

/-- Nothing has moved. -/
theorem Driven.refl (s : State) : Driven s s := ⟨rfl, id, fun _ _ => rfl⟩
/-- One drive after another. -/
theorem Driven.trans {s t u : State} (h : Driven s t) (k : Driven t u) : Driven s u :=
  ⟨k.rest.trans h.rest, fun x => k.sound (h.sound x), fun x j => (k.still (h.sound x) j).trans (h.still x j)⟩
/-- Either branch. -/
theorem Driven.ite {c : Prop} [Decidable c] {s t u : State} (h : Driven s t) (k : Driven s u) : Driven s (if c then t else u) := by
  split <;> assumption
/-- A change of one leg that keeps its still part. -/
theorem Driven.leg (s : State) (l : Nat) (f : LegS → LegS) (hf : ∀ g, (f g).still = g.still) : Driven s (s.updLeg l f) := by
  refine ⟨rfl, s.updLeg_sound l f, fun h k => ?_⟩
  by_cases e : k = l
  · rw [e, s.leg_updLeg_same l f h, hf]
  · rw [s.leg_updLeg_ne l k f h e]
/-- A fold of drives. -/
theorem Driven.foldl {α : Type} (g : State → α → State) (h : ∀ t a, Driven t (g t a)) (l : List α) (s : State) : Driven s (l.foldl g s) := by
  induction l generalizing s with
  | nil => exact .refl s
  | cons a l ih => exact (h s a).trans (ih _)

/-- Changing a pier keeps the still part of its leg. -/
@[simp] theorem LegS.still_updPier (g : LegS) (x : Switch) (f : PierS → PierS) : (g.updPier x f).still = g.still := by
  cases x <;> rfl

theorem State.blankFrom_driven (s : State) (l : Nat) (t : Instant) : Driven s (s.blankFrom l t) := Driven.leg _ _ _ fun _ => rfl
theorem State.gateOn_driven (s : State) (l : Nat) (x : Switch) (t : Instant) : Driven s (s.gateOn l x t) :=
  (Driven.leg s l _ fun g => g.still_updPier x _).trans (State.blankFrom_driven ..)
theorem State.gateOff_driven (s : State) (l : Nat) (x : Switch) (t : Instant) : Driven s (s.gateOff l x t) :=
  (Driven.leg s l _ fun g => g.still_updPier x _).trans (State.blankFrom_driven ..)
theorem State.arm_driven (s : State) (l : Nat) (x : Switch) : Driven s (s.arm l x) := by
  unfold State.arm
  exact .ite (.ite (State.gateOn_driven ..) (Driven.leg s l _ fun g => g.still_updPier x _)) (.refl s)
theorem State.holdOff_driven (s : State) (l : Nat) (x : Switch) : Driven s (s.holdOff l x) := by
  unfold State.holdOff
  have h := Driven.leg s l (fun g => g.updPier x (fun p => { p with onAt := none })) fun g => g.still_updPier x _
  exact .ite (.ite (h.trans (State.gateOff_driven ..)) h) (.refl s)
theorem State.cmdOff_driven (s : State) (l : Nat) (x : Switch) : Driven s (s.cmdOff l x) := by
  unfold State.cmdOff
  have h := Driven.leg s l (fun g => g.updPier x (fun p => { p with cmd := false })) fun g => g.still_updPier x _
  have q : ∀ u : State, Driven u (u.updLeg l (fun g => { g with swallow := true, swallowCount := satInc g.swallowCount max16 })) :=
    fun u => Driven.leg u l _ fun _ => rfl
  refine .ite (.ite (.ite h (h.trans (State.gateOff_driven ..))) ?_) (.refl s)
  refine Driven.trans ?_ (Driven.leg _ l _ fun g => g.still_updPier x _)
  exact .ite h (h.trans (q _))
theorem State.command_driven (s : State) (l : Nat) (x : Switch) (on : Bool) : Driven s (s.command l x on) := by
  unfold State.command
  exact .ite ((Driven.leg s l _ fun g => g.still_updPier x _).trans (State.arm_driven ..)) (State.cmdOff_driven ..)
theorem State.settleGate_driven (s : State) (l : Nat) (x : Switch) : Driven s (s.settleGate l x) := by
  unfold State.settleGate
  split
  · exact .ite (State.gateOn_driven ..) (.refl s)
  · exact .refl s
/-- Driving a leg moves its gates alone. -/
theorem State.driveLeg_driven (s : State) (l : Nat) : Driven s (s.driveLeg l) := by
  unfold State.driveLeg
  generalize s.legCommand l (s.tauOf l) = c
  obtain ⟨h, w⟩ := c
  dsimp -zeta only
  extract_lets s1 s2 s3 s4 s5 s6
  have h1 : Driven s s1 := Driven.leg s l _ fun _ => rfl
  have h2 : Driven s s2 := h1.trans ((State.settleGate_driven ..).trans (State.settleGate_driven ..))
  have h3 : Driven s s3 := h2.trans ((State.holdOff_driven ..).trans (State.holdOff_driven ..))
  have h4 : Driven s s4 := h3.trans (.ite (.refl _) (State.command_driven ..))
  have h5 : Driven s s5 := h4.trans (.ite (.refl _) (State.command_driven ..))
  have h6 : Driven s s6 := h5.trans (.ite (State.command_driven ..) (.refl _))
  exact h6.trans (.ite (State.command_driven ..) (.refl _))
/-- Driving a leg, or the three legs of a motor, moves their gates alone. -/
theorem State.drive_driven (s : State) (l : Nat) : Driven s (s.drive l) := by
  unfold State.drive
  exact .ite ((State.driveLeg_driven ..).trans ((State.driveLeg_driven ..).trans (State.driveLeg_driven ..))) (State.driveLeg_driven ..)
/-- Driving a list of legs moves their gates alone. -/
theorem State.driveAll_driven (s : State) (ls : List Nat) : Driven s (s.driveAll ls) :=
  Driven.foldl State.driveLeg State.driveLeg_driven ls s

/-- A field of the still part of a leg is what it was. -/
theorem Driven.field {α : Type} {s t : State} (h : Driven s t) (p : s.partsOk = true) (f : LegS → α)
    (hf : ∀ g : LegS, f g.still = f g) (k : Nat) : f (t.leg k) = f (s.leg k) := by
  rw [← hf (t.leg k), h.still p k, hf]
/-- A field other than the legs is what it was. -/
theorem Driven.other {α : Type} {s t : State} (h : Driven s t) (f : State → α) (hf : ∀ u : State, f u.legless = f u) :
    f t = f s := by
  rw [← hf t, h.rest, hf]

end Sys2Proof.Machine
end

