-- ==== Sys2Proof/Laws/Ports.lean ====
section
/-! SUPPORT. What the field ports can do: they change ports, the ledger and their events, and leave the registers, the legs, the spans and the tick alone. -/
namespace Sys2Proof.Machine

/-- Raising an event leaves the fall-back path, the link and the pending vectors of the Causeway alone. -/
theorem State.raise_link (s : State) (code addr cause val val2) :
    (s.raise code addr cause val val2).cwy.linkUp = s.cwy.linkUp ∧
    (s.raise code addr cause val val2).cwy.fbCounter = s.cwy.fbCounter ∧
    (s.raise code addr cause val val2).cwy.fbStaged = s.cwy.fbStaged ∧
    (s.raise code addr cause val val2).cwy.pba = s.cwy.pba := by
  unfold State.raise
  simp only [State.noteTrigger_cwy, State.logEvent_cwy]
  split <;> simp

/-- `t` differs from `s` in its ports and events; of a port `p` it keeps what `v p` sees. -/
structure Ported {α : Type} (v : Nat → PortS → α) (s t : State) : Prop where
  bar : t.bar = s.bar
  legs : t.legs = s.legs
  cur : t.cur = s.cur
  stage : t.stage = s.stage
  tk : t.tk = s.tk
  kst : t.kst = s.kst
  start : t.start = s.start
  ms : t.fp.rrMs = s.fp.rrMs ∧ t.fp.ageMs = s.fp.ageMs ∧ t.fp.fbIn = s.fp.fbIn
  fb : t.cwy.fbCounter = s.cwy.fbCounter ∧ t.cwy.fbStaged = s.cwy.fbStaged
  sound : Store.wf (fun _ => PortS.init) s.fp.port = true → Store.wf (fun _ => PortS.init) t.fp.port = true
  view : Store.wf (fun _ => PortS.init) s.fp.port = true → ∀ q, v q (t.port q) = v q (s.port q)

variable {α : Type} {v : Nat → PortS → α}

theorem Ported.refl (s : State) : Ported v s s :=
  ⟨rfl, rfl, rfl, rfl, rfl, rfl, rfl, ⟨rfl, rfl, rfl⟩, ⟨rfl, rfl⟩, id, fun _ _ => rfl⟩
theorem Ported.trans {s t u : State} (h : Ported v s t) (k : Ported v t u) : Ported v s u :=
  ⟨k.bar.trans h.bar, k.legs.trans h.legs, k.cur.trans h.cur, k.stage.trans h.stage, k.tk.trans h.tk, k.kst.trans h.kst,
   k.start.trans h.start, ⟨k.ms.1.trans h.ms.1, k.ms.2.1.trans h.ms.2.1, k.ms.2.2.trans h.ms.2.2⟩,
   ⟨k.fb.1.trans h.fb.1, k.fb.2.trans h.fb.2⟩, fun w => k.sound (h.sound w),
   fun w q => (k.view (h.sound w) q).trans (h.view w q)⟩
theorem Ported.ite {c : Prop} [Decidable c] {s t u : State} (h : Ported v s t) (k : Ported v s u) :
    Ported v s (if c then t else u) := by
  split <;> assumption
/-- A fold of such changes. -/
theorem Ported.foldl {β : Type} (g : State → β → State) (h : ∀ t a, Ported v t (g t a)) (l : List β) (s : State) :
    Ported v s (l.foldl g s) := by
  induction l generalizing s with
  | nil => exact .refl s
  | cons a l ih => exact (h s a).trans (ih _)
/-- A change of one port that keeps what is seen of it. -/
theorem Ported.port (s : State) (p : Nat) (f : PortS → PortS) (hf : ∀ x, v p (f x) = v p x) : Ported v s (s.updPort p f) := by
  refine ⟨rfl, rfl, rfl, rfl, rfl, rfl, rfl, ⟨rfl, rfl, rfl⟩, ⟨rfl, rfl⟩, fun w => Store.put_wf w, fun w q => ?_⟩
  by_cases e : q = p
  · rw [e]; exact (congrArg (v p) (Store.get_put_same w)).trans (hf _)
  · exact congrArg (v q) (Store.get_put_ne w e)
/-- A port reads back what it was changed to, and every other port is as before. -/
theorem State.port_updPort_same (s : State) (p : Nat) (f : PortS → PortS)
    (h : Store.wf (fun _ => PortS.init) s.fp.port = true) : (s.updPort p f).port p = f (s.port p) := Store.get_put_same h
theorem State.port_updPort_ne (s : State) (p q : Nat) (f : PortS → PortS)
    (h : Store.wf (fun _ => PortS.init) s.fp.port = true) (n : q ≠ p) : (s.updPort p f).port q = s.port q := Store.get_put_ne h n
/-- An event. -/
theorem Ported.raise (s : State) (code addr cause val val2) : Ported v s (s.raise code addr cause val val2) := by
  obtain ⟨_, b, c, _⟩ := s.raise_link code addr cause val val2
  have e : (s.raise code addr cause val val2).fp = s.fp := State.fp_raise ..
  refine ⟨State.bar_raise .., State.legs_raise .., State.cur_raise .., State.stage_raise .., State.tk_raise .., State.kst_raise ..,
    State.start_raise .., by rw [e]; exact ⟨rfl, rfl, rfl⟩, ⟨b, c⟩, fun w => by rw [e]; exact w, fun _ q => ?_⟩
  show v q (Store.get _ (State.raise _ _ _ _ _ _).fp.port q) = _
  rw [e]; rfl
/-- A use of a free value. -/
theorem Ported.free (s : State) (n : Nat) : Ported v s { s with freeCtr := n } :=
  ⟨rfl, rfl, rfl, rfl, rfl, rfl, rfl, ⟨rfl, rfl, rfl⟩, ⟨rfl, rfl⟩, id, fun _ _ => rfl⟩

/-- What is seen does not depend on the objects, the frame being sent or the queue of a port. -/
def Calm (v : Nat → PortS → α) : Prop := ∀ p x a b c, v p { x with obj := a, tx := b, queue := c } = v p x

theorem State.updObj_ported (h : Calm v) (s : State) (p o : Nat) (f : ObjS → ObjS) : Ported v s (s.updObj p o f) :=
  .port s p _ fun x => h p x _ _ _
theorem State.objEvent_ported (s : State) (code cause p o : Nat) : Ported v s (s.objEvent code cause p o) := .raise ..
theorem State.mapObjs_ported (h : Calm v) (s : State) (p : Nat) (f : ObjS → ObjS) : Ported v s (s.mapObjs p f) :=
  .foldl _ (fun t o => .ite (.refl t) (t.updObj_ported h p o f)) _ s
theorem State.offer_ported (h : Calm v) (s : State) (p : Nat) : Ported v s (s.offer p) := by
  unfold State.offer
  refine .ite ?_ (.refl s)
  split
  · exact .port s p _ fun x => h p x _ _ _
  · exact .refl s
theorem State.reroute_ported (h : Calm v) (s : State) (p o : Nat) : Ported v s (s.reroute p o) := by
  unfold State.reroute
  split
  · rename_i a _
    have k : Ported v s (s.updPort a (fun y => { y with queue := y.queue ++ [{ port := p, obj := o, data := (s.obj p o).data }] })) :=
      .port s a _ fun x => h a x _ _ _
    exact ((k.trans (State.updObj_ported h ..)).trans (State.objEvent_ported ..)).trans (State.offer_ported h ..)
  · exact .refl s
theorem State.strandObj_ported (h : Calm v) (s : State) (p o : Nat) : Ported v s (s.strandObj p o) :=
  ((State.updObj_ported h s p o _).trans (State.objEvent_ported ..)).trans (State.reroute_ported h ..)
theorem State.request_ported (h : Calm v) (s : State) (p o : Nat) : Ported v s (s.request p o) := by
  unfold State.request
  have k := State.updObj_ported h s p o (fun b => { b with pend := true })
  exact .ite (k.trans (State.strandObj_ported h ..)) (k.trans (State.offer_ported h ..))
theorem State.unqueue_ported (h : Calm v) (s : State) (p o : Nat) : Ported v s (s.unqueue p o) := by
  unfold State.unqueue
  refine .ite (Ported.trans ?_ (State.updObj_ported h ..)) (.refl s)
  exact .foldl _ (fun t a => .ite (.port t a _ fun x => h a x _ _ _) (.refl t)) _ s
theorem State.fillObj_ported (h : Calm v) (s : State) (p o : Nat) (bytes : List Byte) : Ported v s (s.fillObj p o bytes) := by
  unfold State.fillObj
  extract_lets b s1 hit s2
  have k1 : Ported v s s1 := State.updObj_ported h ..
  have k2 : Ported v s s2 :=
    .ite (k1.trans (.foldl _ (fun t a => .ite (.port t a _ fun x => h a x _ _ _) (.refl t)) _ s1)) k1
  exact .ite k2 (k2.trans (State.request_ported h ..))
/-- What is seen does not depend on the state of confinement either. -/
def Calmer (v : Nat → PortS → α) : Prop :=
  Calm v ∧ ∀ p x a b c d e, v p { x with st := a, passiveSeen := b, busoffSeen := c, busoffs := d, offAt := e } = v p x
theorem State.enterBusOff_ported (h : Calmer v) (s : State) (p : Nat) : Ported v s (s.enterBusOff p) := by
  unfold State.enterBusOff
  extract_lets back s1 s2 s3
  have k1 : Ported v s s1 := by
    refine .port s p _ fun x => ?_
    exact (h.1 p { x with st := .busOff, busoffSeen := true, busoffs := satInc x.busoffs max16, offAt := s.tk.now } _ _ _).trans (h.2 p x _ _ _ _ _)
  have k2 : Ported v s s2 := (k1.trans (State.mapObjs_ported h.1 ..)).trans (.raise ..)
  have k3 : Ported v s s3 := k2.trans (.foldl _ (fun t e => (State.updObj_ported h.1 ..).trans (State.offer_ported h.1 ..)) _ s2)
  exact k3.trans (.foldl _ (fun t o => .ite (State.strandObj_ported h.1 ..) (.refl t)) _ s3)
theorem State.confine_ported (h : Calmer v) (s : State) (p : Nat) : Ported v s (s.confine p) := by
  unfold State.confine
  have k1 : Ported v s (s.updPort p (fun x => { x with st := .passive, passiveSeen := true })) :=
    .port s p _ fun x => h.2 p x _ _ x.busoffSeen x.busoffs x.offAt
  have k2 : Ported v s (s.updPort p (fun x => { x with st := .active })) :=
    .port s p _ fun x => h.2 p x _ x.passiveSeen x.busoffSeen x.busoffs x.offAt
  exact .ite (State.enterBusOff_ported h s p) (.ite (k1.trans (.raise ..)) (.ite (k2.trans (.raise ..)) (.refl s)))

end Sys2Proof.Machine
end

