-- ==== Sys2Proof/Laws/Protection.lean ====
section
/-! SUPPORT. What the protection of the legs can do: it changes legs, raises events and marks the Parapet, and leaves every register, the converters, the controlled state, the stage and the tick alone. -/
namespace Sys2Proof.Machine

/-- Raising an event leaves every leg alone. -/
@[simp] theorem State.leg_raise (s : State) (code addr cause val val2) (k : Nat) :
    (s.raise code addr cause val val2).leg k = s.leg k := by
  show Store.get LegS.init (s.raise code addr cause val val2).legs k = _
  rw [State.legs_raise]; rfl
/-- Raising an event keeps the sparse stores canonical. -/
theorem State.raise_sound (s : State) (code addr cause val val2) (h : s.partsOk = true) :
    (s.raise code addr cause val val2).partsOk = true := by
  have e : (s.raise code addr cause val val2).fp.port = s.fp.port := by simp
  simp only [State.partsOk] at *; simpa using h

/-- `t` differs from `s` in its legs, its events and what the Parapet marks; of a leg `k` it keeps what `v k` sees. -/
structure Guarded {α : Type} (v : Nat → LegS → α) (s t : State) : Prop where
  bar : t.bar = s.bar
  adc : t.adc = s.adc
  cur : t.cur = s.cur
  stage : t.stage = s.stage
  tk : t.tk = s.tk
  start : t.start = s.start
  events : ∀ c a, s.protects c a → t.protects c a
  sound : s.partsOk = true → t.partsOk = true
  view : s.partsOk = true → ∀ k, v k (t.leg k) = v k (s.leg k)

variable {α : Type} {v : Nat → LegS → α}

/-- Nothing has changed. -/
theorem Guarded.refl (s : State) : Guarded v s s := ⟨rfl, rfl, rfl, rfl, rfl, rfl, fun _ _ => id, id, fun _ _ => rfl⟩
/-- One change after another. -/
theorem Guarded.trans {s t u : State} (h : Guarded v s t) (k : Guarded v t u) : Guarded v s u :=
  ⟨k.bar.trans h.bar, k.adc.trans h.adc, k.cur.trans h.cur, k.stage.trans h.stage, k.tk.trans h.tk, k.start.trans h.start,
   fun c a x => k.events c a (h.events c a x), fun x => k.sound (h.sound x),
   fun x j => (k.view (h.sound x) j).trans (h.view x j)⟩
/-- Either branch. -/
theorem Guarded.ite {c : Prop} [Decidable c] {s t u : State} (h : Guarded v s t) (k : Guarded v s u) :
    Guarded v s (if c then t else u) := by
  split <;> assumption
/-- A change of one leg that keeps what is seen of it. -/
theorem Guarded.leg (s : State) (l : Nat) (f : LegS → LegS) (hf : ∀ g, v l (f g) = v l g) : Guarded v s (s.updLeg l f) := by
  refine ⟨rfl, rfl, rfl, rfl, rfl, rfl, fun _ _ => id, s.updLeg_sound l f, fun h k => ?_⟩
  by_cases e : k = l
  · rw [e, s.leg_updLeg_same l f h, hf]
  · rw [s.leg_updLeg_ne l k f h e]
/-- A change of several legs that keeps what is seen of them. -/
theorem Guarded.legs (s : State) (ls : List Nat) (f : Nat → LegS → LegS) (hf : ∀ k g, v k (f k g) = v k g) :
    Guarded v s (s.updLegs ls f) := by
  unfold State.updLegs
  induction ls generalizing s with
  | nil => exact .refl s
  | cons a l ih => exact (Guarded.leg s a (f a) (hf a)).trans (ih _)
/-- An event. -/
theorem Guarded.raise (s : State) (code addr cause val val2) : Guarded v s (s.raise code addr cause val val2) :=
  ⟨by simp, by simp, by simp, by simp, by simp, by simp, fun c a => s.raise_keeps_protects code addr cause val val2 c a,
   s.raise_sound code addr cause val val2, fun _ k => by rw [State.leg_raise]⟩
/-- A mark of the Parapet. -/
theorem Guarded.par (s : State) (p : ParS) : Guarded v s { s with par := p } :=
  ⟨rfl, rfl, rfl, rfl, rfl, rfl, fun _ _ => id, id, fun _ _ => rfl⟩
/-- A mark of the converters' hardware. -/
theorem Guarded.cHw (s : State) (p : CHwS) : Guarded v s { s with cHw := p } :=
  ⟨rfl, rfl, rfl, rfl, rfl, rfl, fun _ _ => id, id, fun _ _ => rfl⟩
/-- A drive of the gates, where they are not seen. -/
theorem Guarded.driven {s t : State} (h : Driven s t) (hv : ∀ k g, v k g.still = v k g) : Guarded v s t := by
  refine ⟨h.other State.bar fun _ => rfl, h.other State.adc fun _ => rfl, h.other State.cur fun _ => rfl,
    h.other State.stage fun _ => rfl, h.other State.tk fun _ => rfl, h.other State.start fun _ => rfl, fun c a x => ?_,
    h.sound, fun p k => ?_⟩
  · have e := h.other State.cwy fun _ => rfl
    unfold State.protects at *; rw [e]; exact x
  · rw [← hv k (t.leg k), h.still p k, hv]

/-- The interlock marks its own leg and raises E003 and E004 (R116). -/
theorem State.interlock_guarded (s : State) (l : Nat) (hv : ∀ g a b c d,
    v l { g with stBlock := a, stCounted := b, stCount := c, stTrip := d } = v l g) : Guarded v s (s.interlock l) := by
  unfold State.interlock
  have h0 : ∀ (u : State) (a : Bool), Guarded v u (u.updLeg l (fun g => { g with stTrip := a })) :=
    fun u a => Guarded.leg u l _ fun g => hv g _ _ _ _
  have h1 : Guarded v s (s.updLeg l (fun g => { g with stBlock := true, stCounted := true, stCount := satInc g.stCount max32 })) :=
    Guarded.leg s l _ fun g => hv g _ _ _ _
  have h2 : ∀ a, Guarded v s (s.updLeg l (fun g => { g with stBlock := a })) := fun a => Guarded.leg s l _ fun g => hv g _ _ _ _
  extract_lets g x bad s1 s2 n win p s3
  have k2 : Guarded v s s2 := h1.trans (.raise ..)
  have k3 : Guarded v s s3 := (k2.trans (h0 _ _)).trans (.raise ..)
  exact .ite (.ite k2 (.ite (k2.trans (.par ..)) (k3.trans (.par ..)))) (h2 _)

/-- Counting a trip period marks its own leg and raises E005 (R119, R120). -/
theorem State.countTrip_guarded (s : State) (l : Nat) (hv : ∀ g a b c d,
    v l { g with tripCounted := a, tripTotal := b, tripTicks := c, tripLatch := d } = v l g) : Guarded v s (s.countTrip l) := by
  unfold State.countTrip
  have h0 : ∀ u : State, Guarded v u (u.updLeg l (fun g => { g with tripLatch := true })) :=
    fun u => Guarded.leg u l _ fun g => hv g _ _ _ _
  extract_lets g n win ticks s1
  have k1 : Guarded v s s1 := Guarded.leg s l _ fun g => hv g _ _ _ _
  exact .ite (.refl s) (.ite ((k1.trans (h0 _)).trans (.raise ..)) k1)

/-- The start of a soft turn-off marks its own leg (R139). -/
theorem State.softOff_guarded (s : State) (l : Nat) (x : Switch) (hv : ∀ g a p q, v l { g with softOff := a, hs := p, ls := q } = v l g) :
    Guarded v s (s.softOff l x) := by
  unfold State.softOff
  exact .ite (.leg _ _ _ fun g => by cases x <;> exact hv g _ _ _) (.refl s)

/-- A fold of changes. -/
theorem Guarded.foldl {β : Type} (g : State → β → State) (h : ∀ t a, Guarded v t (g t a)) (l : List β) (s : State) :
    Guarded v s (l.foldl g s) := by
  induction l generalizing s with
  | nil => exact .refl s
  | cons a l ih => exact (h s a).trans (ih _)
/-- A drive that turns off softly (R139). -/
theorem State.driveSoft_guarded (s : State) (l : Nat) (hs : ∀ g a p q, v l { g with softOff := a, hs := p, ls := q } = v l g)
    (hv : ∀ k g, v k g.still = v k g) : Guarded v s (s.driveSoft l) := by
  unfold State.driveSoft
  have h : ∀ (u : State) x b, Guarded v u (u.softIfOff l x b) := fun u x b => .ite (.refl u) (u.softOff_guarded l x hs)
  exact ((h s _ _).trans (h _ _ _)).trans (.driven (State.driveLeg_driven ..) hv)

/-- A block of a leg's switches. -/
theorem LegS.block_view (g : LegS) (x : Switch) (hv : ∀ a b c d, v l { g with blkHs := a, blkLs := b, fwHs := c, fwLs := d } = v l g) :
    v l (g.block x) = v l g := by cases x <;> exact hv _ _ _ _

/-- A trip of a leg (R119, R141). -/
theorem State.tripLeg_guarded (s : State) (l : Nat) (soft : Bool)
    (hb : ∀ g a b c d, v l { g with blkHs := a, blkLs := b, fwHs := c, fwLs := d } = v l g)
    (hs : ∀ g a p q, v l { g with softOff := a, hs := p, ls := q } = v l g)
    (ht : ∀ g a b c d, v l { g with tripCounted := a, tripTotal := b, tripTicks := c, tripLatch := d } = v l g)
    (hv : ∀ k g, v k g.still = v k g) : Guarded v s (s.tripLeg l soft) := by
  unfold State.tripLeg
  have hd : ∀ u : State, Guarded v u (u.drive l) := fun u => .driven (u.drive_driven l) hv
  extract_lets s1 s2
  have k1 : Guarded v s s1 := by
    show Guarded v s (match s.tripSwitch l with | some x => s.updLeg l (fun g => g.block x) | none => s)
    split
    · exact .leg _ _ _ fun g => g.block_view _ (hb g)
    · exact .refl s
  exact (k1.trans (s1.countTrip_guarded l ht)).trans (.ite (State.driveSoft_guarded _ _ hs hv) (hd _))

/-- A short circuit of a span with two legs or more shorted (R142). -/
theorem State.reportShort_guarded (s : State) (l : Nat) (hn : ∀ k g a b, v k { g with shortNow := a, parEnd := b } = v k g)
    (hs : ∀ k g a p q, v k { g with softOff := a, hs := p, ls := q } = v k g)
    (hv : ∀ k g, v k g.still = v k g) : Guarded v s (s.reportShort l) := by
  unfold State.reportShort
  have h1 : ∀ u : State, Guarded v u (u.updLeg l (fun g => { g with shortNow := true })) :=
    fun u => .leg _ _ _ fun g => hn l g _ _
  have h2 : ∀ (u : State) ls e, Guarded v u (u.updLegs ls (fun _ g => { g with parEnd := e })) :=
    fun u ls e => .legs _ _ _ fun k g => hn k g _ _
  extract_lets x s1 shorts fresh s2 p s3
  have k2 : Guarded v s s2 := (h1 s).trans (h2 _ _ _)
  have k3 : Guarded v s s3 := .ite (k2.trans ((Guarded.par ..).trans (.raise ..))) k2
  exact .ite (k3.trans (.foldl State.driveSoft (fun t k => t.driveSoft_guarded k (hs k) hv) _ _)) (h1 s)

/-- Marking a leg unprotected (R148). -/
theorem State.markUnprotected_guarded (s : State) (l cause : Nat) (hu : ∀ g a, v l { g with unprot := a } = v l g)
    (hv : ∀ k g, v k g.still = v k g) : Guarded v s (s.markUnprotected l cause) := by
  unfold State.markUnprotected
  have h1 : Guarded v s (s.updLeg l (fun g => { g with unprot := true })) := .leg _ _ _ fun g => hu g _
  exact (h1.trans (.raise ..)).trans (.driven (State.driveLeg_driven ..) hv)

/-- A leg marked unprotected is so, with E008. -/
theorem State.markUnprotected_spec (s : State) (l cause : Nat) (h : s.partsOk = true) :
    ((s.markUnprotected l cause).leg l).unprot = true ∧ (s.markUnprotected l cause).protects 8 (s.legAddr l) := by
  unfold State.markUnprotected
  have d := ((s.updLeg l (fun g => { g with unprot := true })).raise 8 (s.legAddr l) cause 0 0).driveLeg_driven l
  have k := (s.updLeg l (fun g => { g with unprot := true })).raise_sound 8 (s.legAddr l) cause 0 0 (s.updLeg_sound l _ h)
  refine ⟨?_, ?_⟩
  · rw [d.field k LegS.unprot (fun _ => rfl), State.leg_raise, s.leg_updLeg_same l _ h]
  · exact (Guarded.driven (v := fun _ g => g.still) d fun _ _ => rfl).events _ _ (State.raise_protects _ _ _ _ _ _ (by omega))

/-! ### The fault line -/

/-- `t` keeps the registers, the inputs, the Keystone, the Parapet and the waiting events of `s`, and of its legs all but
what driving the gates moves. -/
structure Halted (s t : State) : Prop where
  bar : t.bar = s.bar
  adc : t.adc = s.adc
  kst : t.kst = s.kst
  par : t.par.still = s.par.still
  events : ∀ c a, s.protects c a → t.protects c a
  still : s.partsOk = true → ∀ k, (t.leg k).still = (s.leg k).still

theorem Halted.refl (s : State) : Halted s s := ⟨rfl, rfl, rfl, rfl, fun _ _ => id, fun _ _ => rfl⟩
theorem Halted.ite {c : Prop} [Decidable c] {s t u : State} (h : Halted s t) (k : Halted s u) : Halted s (if c then t else u) := by
  split <;> assumption
theorem Halted.raise (s : State) (code addr cause val val2) : Halted s (s.raise code addr cause val val2) :=
  ⟨by simp, by simp, by simp, by simp, fun c a => s.raise_keeps_protects code addr cause val val2 c a, fun _ k => by rw [State.leg_raise]⟩
theorem Halted.driven {s t : State} (h : Driven s t) : Halted s t :=
  ⟨h.other State.bar fun _ => rfl, h.other State.adc fun _ => rfl, h.other State.kst fun _ => rfl, congrArg ParS.still (h.other State.par fun _ => rfl),
   (Guarded.driven (v := fun _ g => g.still) h fun _ _ => rfl).events, h.still⟩
/-- A change of what no part of the record names. -/
theorem Halted.of {s t : State} (b : t.bar = s.bar) (a : t.adc = s.adc) (k : t.kst = s.kst) (p : t.par.still = s.par.still)
    (c : t.cwy.pq = s.cwy.pq) (l : t.legs = s.legs) : Halted s t :=
  ⟨b, a, k, p, fun _ _ h => by unfold State.protects at *; rw [c]; exact h,
   fun _ k => by show (Store.get LegS.init t.legs k).still = _; rw [l]; rfl⟩
/-- One change after another, where the first keeps the stores sound. -/
theorem Halted.trans {s t u : State} (h : Halted s t) (o : s.partsOk = true → t.partsOk = true) (k : Halted t u) : Halted s u :=
  ⟨k.bar.trans h.bar, k.adc.trans h.adc, k.kst.trans h.kst, k.par.trans h.par, fun c a x => k.events c a (h.events c a x),
   fun x j => (k.still (o x) j).trans (h.still x j)⟩

/-- Abutment mode stops the deck and leaves its registers and the Keystone alone (R409). -/
theorem State.abutment_halted (s : State) (cause : Nat) : Halted s (s.abutment cause) := by
  have hf : ∀ (l : List Nat) (u : State), Halted u (l.foldl (fun (t : State) p => t.updPort p (fun x => { x with st := .off, tx := none })) u) ∧
      (u.partsOk = true → (l.foldl (fun (t : State) p => t.updPort p (fun x => { x with st := .off, tx := none })) u).partsOk = true) := by
    intro l
    induction l with
    | nil => exact fun u => ⟨.refl u, id⟩
    | cons p l ih =>
      intro u
      have o : u.partsOk = true → (u.updPort p (fun x => { x with st := .off, tx := none })).partsOk = true := by
        intro h
        rw [State.partsOk_iff] at h ⊢
        obtain ⟨a1, a2, a3, a4, a5, a6, a7, a8⟩ := h
        exact ⟨a1, a2, a3, a4, a5, a6, a7, Store.put_wf a8⟩
      have h1 : Halted u (u.updPort p (fun x => { x with st := .off, tx := none })) := .of rfl rfl rfl rfl rfl rfl
      exact ⟨h1.trans o (ih _).1, fun h => (ih _).2 (o h)⟩
  unfold State.abutment
  extract_lets -merge +onlyGivenNames _ _ _ s1 s2
  have h1 : Halted s s1 := .of rfl rfl rfl rfl rfl rfl
  have o1 : s.partsOk = true → s1.partsOk = true := id
  have h2 : Halted s1 s2 := (hf _ s1).1
  have o2 : s1.partsOk = true → s2.partsOk = true := (hf _ s1).2
  clear_value s2
  have h3 : Halted s2 (s2.raise 98 s.deckAddr cause 0 0) := .raise ..
  exact (((h1.trans o1 h2).trans (o2 ∘ o1) h3).trans (fun h => s2.raise_sound _ _ _ _ _ (o2 (o1 h))) (.driven (State.driveAll_driven ..)))

/-- An event after a change of the start's own data. -/
theorem Halted.startRaise (s : State) (q : StartS) (code addr cause val val2) : Halted s (({ s with start := q }).raise code addr cause val val2) := by
  have h : Halted s { s with start := q } := .of rfl rfl rfl rfl rfl rfl
  exact h.trans (fun h => h) (.raise ..)

/-- A failed start stops the deck and leaves its registers and the Keystone alone (R400). -/
theorem State.startFail_halted (s : State) (cause : Nat) : Halted s (s.startFail cause) := by
  have hr : ∀ u : State, Halted u u.rejectPending := by
    intro u
    unfold State.rejectPending
    extract_lets _ v
    have hv : Halted u v := .ite (Halted.startRaise ..) (.refl u)
    have ov : u.partsOk = true → v.partsOk = true := by
      intro h
      show State.partsOk (if u.start.fwPend then _ else _) = true
      split
      · exact State.raise_sound _ _ _ _ _ _ h
      · exact h
    clear_value v
    exact .ite (hv.trans ov (Halted.startRaise ..)) hv
  unfold State.startFail
  extract_lets count step _ s1 s2
  have h1 : Halted s s1 := .of rfl rfl rfl rfl rfl rfl
  have o1 : s.partsOk = true → s1.partsOk = true := id
  have h2 : Halted s s2 := (h1.trans o1 (.raise ..)).trans (fun h => s1.raise_sound _ _ _ _ _ (o1 h)) (hr _)
  have o2 : s.partsOk = true → s2.partsOk = true := fun h => State.rejectPending_parts _ (s1.raise_sound _ _ _ _ _ (o1 h))
  clear_value s2
  exact .ite (h2.trans o2 (s2.abutment_halted _)) h2

/-- What the fault line's assertion does to the Keystone. -/
def KstS.asserted (k : KstS) (s : State) : KstS :=
  if k.faultLine then k else { k with faultLine := true, lockstepOk := false, faultTick := s.tk.count, firstOpen := s.cwy.firstUnwritten }

/-- Giving up spans keeps everything but the viaduct. -/
theorem State.giveUpAll_halted (s : State) (cause : Nat) : Halted s (s.giveUpAll cause) := by
  unfold State.giveUpAll
  exact .ite (.of rfl rfl rfl rfl rfl rfl) (.refl s)

/-- Sending the relinquish frame moves the viaduct alone. -/
theorem State.sendRelinquish_halted (s : State) (cause : Nat) : Halted s (s.sendRelinquish cause) := by
  unfold State.sendRelinquish
  exact .ite (.of rfl rfl rfl rfl rfl rfl) (.refl s)

/-- Asserting the fault line (R249): the line, the tick and the first open completion, the event of the cause, and nothing
of the registers, the inputs, the Parapet or of a leg but its gates. -/
theorem State.assertFault_spec (s : State) (code cause : Nat) (hc : code < 32) :
    (s.assertFault code cause).kst = s.kst.asserted s ∧ (s.assertFault code cause).protects code s.deckAddr ∧
    (s.assertFault code cause).bar = s.bar ∧ (s.assertFault code cause).adc = s.adc ∧ (s.assertFault code cause).par.still = s.par.still ∧
    (s.partsOk = true → ∀ k, ((s.assertFault code cause).leg k).still = (s.leg k).still) := by
  unfold State.assertFault KstS.asserted
  by_cases f : s.kst.faultLine = true
  · rw [if_pos f, if_pos f]
    refine ⟨by simp, State.raise_protects _ _ _ _ _ _ hc, by simp, by simp, by simp, fun _ k => by rw [State.leg_raise]⟩
  · rw [if_neg f, if_neg f]
    extract_lets -merge +onlyGivenNames _ _ _ _ s1 s2 s3
    have e2 : s2.kst = s1.kst ∧ s2.protects code s.deckAddr ∧ s2.bar = s.bar ∧ s2.adc = s.adc ∧ s2.par.still = s.par.still ∧
        (∀ k, s2.leg k = s.leg k) :=
      ⟨State.kst_raise .., State.raise_protects s1 code s1.deckAddr _ _ _ hc, State.bar_raise .., State.adc_raise .., congrArg ParS.still (State.par_raise ..), fun k => State.leg_raise ..⟩
    have o2 : s.partsOk = true → s2.partsOk = true := fun h => s1.raise_sound _ _ _ _ _ h
    have e1 : s1.kst = { s.kst with faultLine := true, lockstepOk := false, faultTick := s.tk.count, firstOpen := s.cwy.firstUnwritten } := rfl
    clear_value s2
    have og : s2.partsOk = true → (s2.giveUpAll 1).partsOk = true := by
      intro h; unfold State.giveUpAll; dsimp only; split <;> exact h
    have h3 : Halted s2 s3 := ((s2.giveUpAll_halted 1).trans og (.driven (State.driveAll_driven ..))).trans
      (fun h => (State.driveAll_driven (s2.giveUpAll 1) allLegs).sound (og h)) (State.sendRelinquish_halted ..)
    have o3 : s2.partsOk = true → s3.partsOk = true := fun h =>
      (State.sendRelinquish_okay ..).go ((State.driveAll_driven (s2.giveUpAll 1) allLegs).sound (og h))
    clear_value s3
    have h4 : Halted s2 (if s3.start.running then s3.startFail 21 else s3) := .ite (h3.trans o3 (s3.startFail_halted _)) h3
    exact ⟨(h4.kst.trans e2.1).trans e1, h4.events _ _ e2.2.1, h4.bar.trans e2.2.2.1, h4.adc.trans e2.2.2.2.1, h4.par.trans e2.2.2.2.2.1,
      fun h k => (h4.still (o2 h) k).trans (by rw [e2.2.2.2.2.2])⟩

/-- A failed start is no longer running, ticking or ready, and holds its cause and its count (R400). -/
theorem State.startFail_start (s : State) (cause : Nat) :
    (s.startFail cause).start.running = false ∧ (s.startFail cause).start.ticking = false ∧
    (s.startFail cause).start.ready = false ∧ (s.startFail cause).start.lastCause = cause ∧
    (s.startFail cause).start.failCount = min 3 (s.start.failCount + 1) := by
  have hf : ∀ (l : List Nat) (u : State), (l.foldl (fun (t : State) p => t.updPort p (fun x => { x with st := .off, tx := none })) u).start = u.start := by
    intro l
    induction l with
    | nil => exact fun u => rfl
    | cons p l ih => exact fun u => (ih _).trans rfl
  have ha : ∀ u : State, (u.abutment cause).start = { u.start with
      abut := true, abutCause := cause, step := 0, ready := false, running := false, ticking := false, go := false,
      abutDue := false, service := 0 } := by
    intro u
    unfold State.abutment
    extract_lets -merge +onlyGivenNames _ _ _ s1 s2
    rw [(State.driveAll_driven ..).other State.start fun _ => rfl, State.start_raise]
    exact hf _ s1
  have hr : ∀ u : State, u.rejectPending.start.running = u.start.running ∧ u.rejectPending.start.ticking = u.start.ticking ∧
      u.rejectPending.start.ready = u.start.ready ∧ u.rejectPending.start.lastCause = u.start.lastCause ∧
      u.rejectPending.start.failCount = u.start.failCount := by
    intro u
    unfold State.rejectPending
    by_cases q : u.start.fwPend = true <;> by_cases r : u.start.imgPend = true <;> simp [q, r]
  unfold State.startFail
  extract_lets count step _ s1 s2
  have h2 : s2.start.running = false ∧ s2.start.ticking = false ∧ s2.start.ready = false ∧ s2.start.lastCause = cause ∧
      s2.start.failCount = min 3 (s.start.failCount + 1) := by
    obtain ⟨a, b, c, d, e⟩ := hr (s1.raise 97 s.deckAddr cause step 0)
    rw [State.start_raise] at a b c d e
    exact ⟨a, b, c, d, e⟩
  clear_value s2
  split
  · rw [ha]; exact ⟨rfl, rfl, rfl, h2.2.2.2⟩
  · exact h2

end Sys2Proof.Machine
end

