-- ==== Sys2Proof/WellFormed.lean ====
section
/-! DEFINITION. Which commands are well-formed: what the spec's own formats allow of a command's operands, whatever the state. -/
namespace Sys2Proof

/-- A descriptor of an opcode (Table 15-2): bytes 0 and 1 hold it (Table 14-4). -/
def Staged.hasOp (d : Staged) (op : Nat) : Bool := decide ((d.desc.extractLsb' 0 16).toNat = op)

/-- A word-aligned offset of BAR0, which is 1 MiB (chapter 00). -/
def inBar0 (off : Nat) : Bool := decide (off < 0x100000) && decide (off % 4 = 0)

/-- The _LO registers whose read latches the matching high word or calendar fields (Table 19-2). -/
def latchesHigh (off : Nat) : Bool := [0x1010, 0x1020, 0x1030, 0x1118, 0x3000C, 0x31128, 0x33000].contains off

/-- FPnn_OBJ_DATA of a port (Table 16-7). -/
def objData (off : Nat) : Bool := decide (0x20000 ≤ off) && decide (off < 0x2C000) && decide ((off - 0x20000) % 0x400 = 0x9C)

/-- The data windows (Table 19-2). -/
def dataWindow (off : Nat) : Bool := [0x11B4, 0x2C044, 0x3320C].contains off || objData off

/-- A frame of the tie is at most a number of bytes long (R272, R273). -/
def frameFits (n : Nat) : Option (List Byte) → Bool
  | none => true
  | some f => decide (f.length ≤ n)

/-- The data lengths of the frame formats (R372), and the identifier range. -/
def RxFrame.wellFormed (f : RxFrame) : Bool :=
  let n := f.data.length
  (f.ide || decide (f.id.toNat < 2048)) &&
  (if f.fmt = 0 then decide (n ≤ 8)
   else if f.fmt = 3 then !f.remote && decide (1 ≤ n) && decide (n ≤ 2048)
   else !f.remote && (decide (n ≤ 8) || [12, 16, 20, 24, 32, 48, 64].contains n))

/-- A command is well-formed. -/
def Instr.wellFormed : Instr → Bool
  | .tickBoundary inp => decide inp.unfinished.Nodup && decide inp.syncOut.Nodup
  | .doorbellFetch _ descs => decide (descs.length ≤ 256)
  | .regularSequenceStart _ => true
  | .regularSlotEnd _ _ => true
  | .injectedTrigger _ _ _ => true
  | .injectedSequenceStart _ => true
  | .injectedSequenceEnd _ codes => decide (codes.length ≤ 4)
  | .phi0Snapshot ov inj => decide ov.Nodup && decide (inj.map (fun q => q.1)).Nodup && inj.all (fun q => decide (q.2.length ≤ 4))
  | .phi2Compute _ tie => decide tie.Nodup
  | .phi3Mirror => true
  | .periodStart _ => true
  | .directWrite _ _ _ _ => true
  | .directCommit _ _ => true
  | .ocLineAssert _ _ => true
  | .blankWindowEnd _ _ => true
  | .scLineAssert _ _ => true
  | .desatDetect _ _ _ => true
  | .desatBlankEnd _ _ _ _ => true
  | .softOffPlateauEnd _ _ _ => true
  | .uvloTrip _ _ _ => true
  | .uvloRecover r => decide (r.mv.length = 4)
  | .bootstrapUvloTimeout _ _ => true
  | .linkOvTrip _ _ => true
  | .cOvTrip _ _ => true
  | .zcdDetect _ _ => true
  | .overshootTruncate _ => true
  | .comparatorTest _ _ _ => true
  | .testRoundEnd => true
  | .testAgeOverdue _ => true
  | .hallStateChange _ _ _ => true
  | .clockFail _ _ => true
  | .debugHalt _ => true
  | .clocksValid _ => true
  | .torquePeakExhaust _ => true
  | .dipEnd _ => true
  | .ascExitNoAngle _ => true
  | .senseFaultClear => true
  | .pilotCycle p => decide (p.duty ≤ 1000)
  | .kacFbTimeout _ => true
  | .brakePeakExhaust => true
  | .shiftTimeout _ => true
  | .homeTimeout _ => true
  | .actuatorPeakExhaust _ => true
  | .lockstepMismatch _ _ => true
  | .watchdogService _ => true
  | .watchdogExpiry => true
  | .ramEccError _ _ _ => true
  | .debugAttach _ => true
  | .lsBrokenClear => true
  | .handshakeFrame l0 l1 _ => frameFits 68 l0 && frameFits 68 l1
  | .pairingTimeout => true
  | .mirrorFrame l0 l1 _ => frameFits 2048 l0 && frameFits 2048 l1
  | .relinquishFrame l0 l1 _ => frameFits 68 l0 && frameFits 68 l1
  | .syncMessage _ _ => true
  | .syncLoss _ => true
  | .announceMessage _ _ => true
  | .pdelayExchange _ _ _ _ => true
  | .grandmasterSyncSend _ => true
  | .launchMarkerDrive => true
  | .launchMarker _ => true
  | .launchMarkerMissing _ => true
  | .censusReady _ => true
  | .leapSecondInsert _ => true
  | .rtcTrimUpdate _ _ => true
  | .vbakLow _ => true
  | .protectionEventWrite => true
  | .pcieLinkChange _ _ _ _ => true
  | .pciePerst _ => true
  | .fallbackFrame => true
  | .canFrameReceived _ f _ => f.wellFormed
  | .frameAttemptEnd _ _ _ => true
  | .portIntegration _ _ => true
  | .busOffRecoveryStart _ _ => true
  | .busOffRecovered _ _ => true
  | .rerouteTest _ => true
  | .partnerAgeTick _ => true
  | .txreq _ _ => true
  | .objAbort _ _ => true
  | .resume _ _ => true
  | .boRecover _ _ => true
  | .ldgSel _ _ => true
  | .trestleRoundPost r => decide (r.map (·.1)).Nodup
  | .bearingLinkPresent _ => true
  | .bearingOutputInBand _ => true
  | .bearingStartTimeout => true
  | .bearingLinkLoss _ => true
  | .bearingFaultHoldEnd => true
  | .vsupWarn _ _ => true
  | .vsupDipEnd _ _ => true
  | .vsupLongDip => true
  | .deckReset _ _ => true
  | .start inp => decide (inp.image.lt.map (·.1)).Nodup && decide (inp.dur ≤ 350000000 * 3072)
  | .go _ => true
  | .startTimeout => true
  | .autoRestart => true
  | .abut _ => true
  | .abutmentServiceTick _ descs => decide (descs.length ≤ 256)
  | .recordClose => true
  | .recSlotRelease _ => true
  | .mramWriteDone _ => true
  | .charterChangeLands => true
  | .calSetSwitch => true
  | .updateVerified _ => true
  | .adcCalEnd _ _ _ => true
  | .refEnable _ => true
  | .refDisable => true
  | .refSettled => true
  | .seqEn _ => true
  | .causewayEnable _ => true
  | .statReset => true
  | .censusRelease _ => true
  | .tlRegisterWrite off _ _ _ => inBar0 off
  | .highWordLatchRead off _ => latchesHigh off
  | .dataWindowAccess off wr _ => dataWindow off && (wr.isNone || objData off)
  | .registerWrite off _ _ _ => inBar0 off
  | .nop d => d.hasOp 0x0000
  | .abortCmd d => d.hasOp 0x0001
  | .deckRestart d => d.hasOp 0x0002
  | .ltWrite d => d.hasOp 0x0010
  | .ltClear d => d.hasOp 0x0011
  | .calMap d => d.hasOp 0x0012
  | .handover d => d.hasOp 0x0020
  | .tlSet d => d.hasOp 0x0030
  | .engCoef d => d.hasOp 0x0031
  | .engLimit d => d.hasOp 0x0032
  | .adcCal d => d.hasOp 0x0040
  | .pairRearm d => d.hasOp 0x0041
  | .adcTrig d => d.hasOp 0x0042
  | .selfTest fails units => decide fails.Nodup && decide units.Nodup
  | .tripClear d => d.hasOp 0x0051
  | .pierClear d => d.hasOp 0x0052
  | .charter _ _ => true
  | .calWrite _ => true
  | .update block proper => decide (proper ≤ block.length)
  | .recTrig d => d.hasOp 0x0063
  | .mode d => d.hasOp 0x0100
  | .tqTarget d => d.hasOp 0x0110
  | .spdTarget d => d.hasOp 0x0111
  | .tPosRearm d => d.hasOp 0x0112
  | .cVtgt d => d.hasOp 0x0120
  | .cItgt d => d.hasOp 0x0121
  | .cPhases d => d.hasOp 0x0122
  | .cCrowbarClr d => d.hasOp 0x0123
  | .qPower d => d.hasOp 0x0130
  | .aHold d => d.hasOp 0x0150
  | .aShift d => d.hasOp 0x0151
  | .aPark d => d.hasOp 0x0152
  | .aRelease d => d.hasOp 0x0153
  | .aCurrent d => d.hasOp 0x0154
  | .aHome d => d.hasOp 0x0155
  | .aPosRearm d => d.hasOp 0x0156
  | .switchingEdge _ _ => true
  | .gateOnEdge _ _ => true
  | .carrierCentre _ _ => true
  | .kAcOutFault => true
  | .errorFrame _ _ _ => true

end Sys2Proof
end

