-- ==== Sys2Proof/Tests/Slice0.lean ====
section
/-! SUPPORT. Tests: an ill-formed command for each check of WellFormed, states that meet the hypotheses of every statement, and single steps whose results the spec gives. -/
namespace Sys2Proof.Tests
set_option Elab.async false
open Sys2Proof Sys2Proof.Machine

/-! ### Helpers -/

/-- A block of 64 bytes from fields: byte offset and value. -/
def block64 (fs : List (Nat × Nat)) : Block64 := BitVec.ofNat 512 (fs.foldl (fun a f => a + f.2 * 2 ^ (8 * f.1)) 0)
/-- A staged descriptor with an opcode, an address word and parameter bytes, bound to boundary 5. -/
def cmd (op addr : Nat) (ps : List (Nat × Nat)) : Staged :=
  { desc := block64 ([(0, op), (2, addr), (4, 7), (16, 1)] ++ ps.map (fun p => (24 + p.1, p.2))),
    seq := 1, bound := 5, late := false, lateCause := 0, fail := none }
/-- The deck's own address word. -/
def deckA : Nat := 0xF3F
/-- The address word of a span as a whole. -/
def spanA (x : Span) : Nat := 256 * x.code + 63
/-- The deck after reset with another start unit. -/
def started (f : StartS → StartS) : State := { State.reset with start := f State.reset.start }
/-- A deck that is ready and ticks. -/
def live : State := started (fun x => { x with released := false, ready := true, ticking := true, step := 11 })
/-- A state with registers set. -/
def withRegs (s : State) (ws : List (Nat × Nat)) : State := ws.foldl (fun t w => t.setReg w.1 (wd w.2)) s
/-- A ready deck with C, Q, B and A0 fitted, and a tick of 100 µs. -/
def full : State := withRegs live [(0x40, 0x3F40), (0x1000, 4000)]
/-- The same with another stage. -/
def staged (f : Ctl → Ctl) : State := { full with stage := f full.stage }

/-! ### Ill-formed commands -/

/-- Sensors at rest. -/
def posAtRest : PosIn := { angle := 0, amp := 4096, trkErr := 0, excBad := false }
/-- A boundary at which nothing happens. -/
def quietBoundary : BoundaryIn :=
  { unfinished := [], syncOut := [], markerLost := none, dtUpset := [], pos0 := posAtRest, pos1 := posAtRest, ppRes := 0, kAcFb := false }
/-- An image that holds nothing. -/
def emptyImage : ImageIn :=
  { bytes := [], regs := [], objs := [], ptns := [], lt := [], tlm := [], recs := [], tlmDigest := 0, v300 := [], v12 := 0, v24 := 0,
    pC := 0, p3000 := 0, i62 := 0, i160 := 0, cOvLess50 := 0, acAmp := 0, mapCrc0 := 0, mapCrc1 := 0 }
/-- A start whose fuses cannot be read. -/
def noFuses : StartIn :=
  { factory := [], factoryCal := [], fusesOk := false, fuses := [], fwA := true, fwB := true, fwFits := true, fwIdA := 0, fwIdB := 0,
    ramOk := true, missed := [], dtOk := true, imgA := true, imgB := true, image := emptyImage, imgFw := true, imgCharter := true,
    mramBad := none, dur := 0, calLost := false, vbakOk := true }
/-- A classical frame with n data bytes. -/
def canFrame (fmt : Fin 4) (id n : Nat) (ide remote : Bool) : RxFrame :=
  { id := BitVec.ofNat 29 id, ide := ide, fmt := fmt, remote := remote, esi := false, data := List.replicate n 0, sdt := 0, vcid := 0,
    sec := false, af := 0 }

theorem test_wf_boundary : (Instr.tickBoundary quietBoundary).wellFormed = true ∧
    (Instr.tickBoundary { quietBoundary with unfinished := [.t0, .t0] }).wellFormed = false ∧
    (Instr.tickBoundary { quietBoundary with syncOut := [3, 3] }).wellFormed = false := by decide
theorem test_wf_fetch : (Instr.doorbellFetch none (List.replicate 257 0)).wellFormed = false ∧
    (Instr.abutmentServiceTick none (List.replicate 257 0)).wellFormed = false := by decide +kernel
theorem test_wf_lists : (Instr.injectedSequenceEnd 0 [0, 0, 0, 0, 0]).wellFormed = false ∧
    (Instr.phi0Snapshot [1, 1] []).wellFormed = false ∧ (Instr.phi0Snapshot [] [(2, []), (2, [])]).wellFormed = false ∧
    (Instr.phi0Snapshot [] [(2, [0, 0, 0, 0, 0])]).wellFormed = false ∧ (Instr.uvloRecover ⟨0, [0, 0, 0]⟩).wellFormed = false ∧
    (Instr.phi2Compute 0 [1, 1]).wellFormed = false ∧ (Instr.selfTest [(0, 1), (0, 1)] []).wellFormed = false ∧
    (Instr.selfTest [] [1, 1]).wellFormed = false ∧
    (Instr.trestleRoundPost [(0, .opened), (0, .shorted)]).wellFormed = false := by decide
theorem test_wf_frames : (Instr.handshakeFrame (some (List.replicate 69 0)) none 0).wellFormed = false ∧
    (Instr.relinquishFrame none (some (List.replicate 69 0)) 0).wellFormed = false ∧
    (Instr.mirrorFrame none (some (List.replicate 2049 0)) 0).wellFormed = false := by decide +kernel
theorem test_wf_can : (Instr.canFrameReceived 0 (canFrame 0 2048 0 false false) 0).wellFormed = false ∧
    (Instr.canFrameReceived 0 (canFrame 0 0 9 false false) 0).wellFormed = false ∧
    (Instr.canFrameReceived 0 (canFrame 1 0 9 false false) 0).wellFormed = false ∧
    (Instr.canFrameReceived 0 (canFrame 1 0 8 false true) 0).wellFormed = false ∧
    (Instr.canFrameReceived 0 (canFrame 3 0 0 false false) 0).wellFormed = false ∧
    (Instr.canFrameReceived 0 (canFrame 2 0 64 true false) 0).wellFormed = true := by decide
theorem test_wf_inputs : (Instr.pilotCycle { freq := 1000, duty := 1001, high := none, low := none }).wellFormed = false ∧
    (Instr.update [0] 2).wellFormed = false ∧
    (Instr.start { noFuses with dur := 350000000 * 3072 + 1 }).wellFormed = false ∧
    (Instr.start { noFuses with image := { emptyImage with lt := [(0, 0), (0, 1)] } }).wellFormed = false := by decide
theorem test_wf_registers : (Instr.tlRegisterWrite 0x100000 0 0xF 0).wellFormed = false ∧
    (Instr.registerWrite 2 0 0xF 0).wellFormed = false ∧ (Instr.highWordLatchRead 0x1014 0).wellFormed = false ∧
    (Instr.dataWindowAccess 0x1040 none 0).wellFormed = false ∧
    (Instr.dataWindowAccess 0x11B4 (some 0) 0).wellFormed = false := by decide
theorem test_wf_opcodes : ∀ c ∈ [Instr.nop, .abortCmd, .deckRestart, .ltWrite, .ltClear, .calMap, .handover, .tlSet, .engCoef,
      .engLimit, .adcCal, .pairRearm, .adcTrig, .tripClear, .pierClear, .recTrig, .mode, .tqTarget, .spdTarget, .tPosRearm, .cVtgt,
      .cItgt, .cPhases, .cCrowbarClr, .qPower, .aHold, .aShift, .aPark, .aRelease, .aCurrent, .aHome, .aPosRearm],
    (c (cmd 0x7777 deckA [])).wellFormed = false := by decide +kernel

/-! ### States that meet the hypotheses of the statements -/

theorem witness_StepRunsFront : ({ State.reset with pending := [.statReset] } : State).pending = .statReset :: [] ∧
    State.reset.pending = [] := by decide
theorem witness_QueueAndMramFrame : (∃ t, Machine.exec .refDisable State.reset = .next t) ∧
    ∃ t, (∀ ok, Instr.refDisable ≠ .mramWriteDone ok) ∧ Machine.exec .refDisable State.reset = .next t :=
  ⟨⟨_, rfl⟩, ⟨_, fun _ => by simp, rfl⟩⟩
theorem witness_CanonicalKept : State.reset.canonical = true ∧ Machine.step State.reset = .next State.reset :=
  ⟨by decide +kernel, rfl⟩
theorem witness_FaultLineHolds : ∃ s t : State, s.kst.faultLine = true ∧ (∀ inp, Instr.refDisable ≠ .start inp) ∧
    Machine.exec .refDisable s = .next t :=
  ⟨{ State.reset with kst := { State.reset.kst with faultLine := true } }, _, rfl, fun _ => by simp, rfl⟩
theorem witness_CompletionForm : State.reset.inViaduct = false := by decide +kernel
/-- A ready deck under the fault line. -/
def faulted : State := { live with kst := { live.kst with faultLine := true } }
theorem witness_CommandsHeldOff :
    descriptorOf (.ltClear (cmd 0x11 deckA [])) = some (cmd 0x11 deckA []) ∧
    (faulted.start.abut = false ∧ faulted.kst.faultLine = true ∧ faulted.inViaduct = false ∧ dOp (cmd 0x11 deckA []) ≠ 2) ∧
    ((started (fun x => { x with abut := true })).start.abut = true ∧ (cmd 0x11 deckA []).fail = none ∧
      dOp (cmd 0x11 deckA []) ≠ 0 ∧ dOp (cmd 0x11 deckA []) ≠ 2 ∧ dOp (cmd 0x11 deckA []) ≠ 0x62) ∧
    (State.reset.start.abut = false ∧ State.reset.kst.faultLine = false ∧ State.reset.start.ready = false) := by decide +kernel
theorem witness_FailedCheckChangesNothing : live.runs = true ∧ live.actsHere (cmd 0x11 deckA [(1, 1)]) = true ∧
    live.deckStatus (cmd 0x11 deckA [(1, 1)]) = some .invalidParameter := by decide +kernel
/-- A deck with a command staged that an ABORT may name. -/
def aborting : State := { live with cwy := { live.cwy with staged := [{ cmd 0 deckA [] with seq := 2, bound := 6 }] } }
theorem witness_NopAndAbort : (live.deckOpen (cmd 0 deckA []) ∧ dOp (cmd 0 deckA []) = 0) ∧
    (aborting.deckOpen (cmd 1 deckA [(0, 7)]) ∧ dOp (cmd 1 deckA [(0, 7)]) = 1 ∧ aborting.inViaduct = false ∧
      aborting.cwy.staged.filter (fun x => decide ((completionOf aborting x .aborted 0 0).doneTag = dP (cmd 1 deckA [(0, 7)]) 0 4) &&
        decide ((cmd 1 deckA [(0, 7)]).bound < x.bound)) ≠ []) := by unfold State.deckOpen; decide +kernel
theorem witness_DeckRestart : dOp (cmd 2 deckA []) = 2 ∧ live.deckOpen (cmd 2 deckA []) ∧
    (faulted.start.abut = false ∧ faulted.kst.faultLine = true ∧ (cmd 2 deckA []).fail = none ∧
      faulted.roleHere (dAddr (cmd 2 deckA [])) = true) := by unfold State.deckOpen; decide +kernel
/-- A launch entry that marks the launch line at an instant: its bytes from byte offsets and values. -/
def entry (fs : List (Nat × Nat)) : List (Nat × Nat) := fs.map (fun p => (4 + p.1, p.2))
/-- An LT_WRITE of an entry for tick 6 with action 1 on the whole deck. -/
def ltCmd : Staged := cmd 0x10 deckA (entry [(0, 600000), (8, deckA), (10, 1)])
theorem witness_LaunchAndRecorderCommands :
    (full.deckOpen ltCmd ∧ dOp ltCmd = 0x10 ∧
      full.ltCheck (dP ltCmd 0 1) (BitVec.ofNat 256 (dP ltCmd 4 32)) ltCmd.bound = none) ∧
    (full.deckOpen (cmd 0x10 deckA []) ∧ dOp (cmd 0x10 deckA []) = 0x10 ∧
      full.ltCheck 0 (BitVec.ofNat 256 (dP (cmd 0x10 deckA []) 4 32)) 5 = some .invalidParameter) ∧
    (full.deckOpen (cmd 0x11 deckA []) ∧ dOp (cmd 0x11 deckA []) = 0x11) ∧
    (full.deckOpen (cmd 0x63 deckA []) ∧ dOp (cmd 0x63 deckA []) = 0x63) := by unfold State.deckOpen; decide +kernel
/-- A deck of a running pair that leads the Causeway and span T0. -/
def paired : State :=
  let s := withRegs live [(0x40, 0x7F40), (0x1000, 4000)]
  { s with vdt := { s.vdt with pair := 2, paired := true, cwyLead := true, leads := [.t0] } }
theorem witness_CalMapAndHandover :
    (full.deckOpen (cmd 0x12 deckA []) ∧ dOp (cmd 0x12 deckA []) = 0x12 ∧ dP (cmd 0x12 deckA []) 16 1 = 0 ∧
      dP (cmd 0x12 deckA []) 0 8 * uNs ≤ full.tk.now) ∧
    (full.deckOpen (cmd 0x12 deckA [(16, 1)]) ∧ dOp (cmd 0x12 deckA [(16, 1)]) = 0x12 ∧ dP (cmd 0x12 deckA [(16, 1)]) 16 1 = 1) ∧
    (paired.deckOpen (cmd 0x20 deckA [(0, 15)]) ∧ dOp (cmd 0x20 deckA [(0, 15)]) = 0x20 ∧
      Span.ofCode? (dP (cmd 0x20 deckA [(0, 15)]) 0 1) = none) ∧
    (paired.deckOpen (cmd 0x20 deckA [(0, 0)]) ∧ dOp (cmd 0x20 deckA [(0, 0)]) = 0x20 ∧
      Span.ofCode? (dP (cmd 0x20 deckA [(0, 0)]) 0 1) = some .t0 ∧ Span.t0.code ≤ 4) := by unfold State.deckOpen; decide +kernel
/-- A TL_SET of TRS_T0's lead-in target. -/
def tlCmd : Staged := cmd 0x30 (spanA .t0) [(0, 1), (4, 0x18060), (8, 1)]
/-- The full deck with engine 0 enabled for T0. -/
def engineOn : State := withRegs full [(0x8000, 1)]
theorem witness_RegisterCommandsSet : full.partsOk = true ∧ engineOn.partsOk = true ∧
    (dOp tlCmd = 0x30 ∧ full.deckOpen tlCmd ∧ ((dWrites tlCmd).map Prod.fst).Nodup) ∧
    (dOp (cmd 0x31 (spanA .t0) []) = 0x31 ∧ engineOn.deckOpen (cmd 0x31 (spanA .t0) []) ∧
      ((dWrites (cmd 0x31 (spanA .t0) [])).map Prod.fst).Nodup) ∧
    (dOp (cmd 0x32 (spanA .t0) []) = 0x32 ∧ engineOn.deckOpen (cmd 0x32 (spanA .t0) []) ∧
      ((dWrites (cmd 0x32 (spanA .t0) [])).map Prod.fst).Nodup) := by unfold State.deckOpen; decide +kernel
/-- The full deck with its reference settled and its sequences on. -/
def sensing : State := { full with adc := { full.adc with refEn := true, settled := true, seqEn := true, seqRun := true } }
theorem witness_ConverterCommands : sensing.partsOk = true ∧
    (sensing.deckOpen (cmd 0x40 deckA [(0, 1)]) ∧ dOp (cmd 0x40 deckA [(0, 1)]) = 0x40) ∧
    (sensing.deckOpen (cmd 0x41 deckA [(0, 0x81)]) ∧ dOp (cmd 0x41 deckA [(0, 0x81)]) = 0x41) ∧
    (sensing.deckOpen (cmd 0x42 deckA [(0, 0x8001)]) ∧ dOp (cmd 0x42 deckA [(0, 0x8001)]) = 0x42) := by
  unfold State.deckOpen; decide +kernel
theorem witness_LegClearCommands : full.partsOk = true ∧
    (full.deckOpen (cmd 0x51 (spanA .t0) []) ∧ dOp (cmd 0x51 (spanA .t0) []) = 0x51) ∧
    (full.deckOpen (cmd 0x52 (28 + 1280) []) ∧ dOp (cmd 0x52 (28 + 1280) []) = 0x52) := by unfold State.deckOpen; decide +kernel
theorem witness_SelfTestDeck : ∃ s : State, s.cwy.tests = [cmd 0x50 deckA []] ∧ dIsDeck (cmd 0x50 deckA []) = true ∧
    s.inViaduct = false ∧ State.reset.cwy.tests = [] :=
  ⟨{ full with cwy := { full.cwy with tests := [cmd 0x50 deckA []] } }, rfl, by decide +kernel, by decide +kernel, rfl⟩

/-! ### Span commands -/

/-- A stage in which an actuator's A0 record is changed. -/
def act0 (f : ActS → ActS) : State := staged (fun c => c.putAct 0 (f (c.actS 0)))
/-- Registers of A0: travel −100 to 100 with the first gear position at 5. -/
def travel (s : State) : State := withRegs s [(0x1D054, 0xFFFFFF9C), (0x1D058, 100), (0x1D060, 5), (0x1D064, 6)]
/-- Span T0 in a state, Q in a state, C in a state, A0 in a state (homed), and A0 in a state with its travel. -/
def trac0 (m : TracMode) : State := staged (fun c => { c with tr0 := { c.tr0 with st := m } })
def chg (m : QMode) : State := staged (fun c => { c with qs := { c.qs with st := m } })
def conv (m : CMode) : State := staged (fun c => { c with cs := { c.cs with st := m } })
def actIn (m : AMode) : State := act0 (fun x => { x with st := m })
def actHomed (m : AMode) : State := travel (act0 (fun x => { x with st := m, homed := true }))
def brakes : State := staged (fun c => { c with bs := { c.bs with st := .armed } })
def crowbarred : State := { full with cHw := { full.cHw with crowbar := true } }
def captured : State := { full with hall := [(0, { HallS.init with capState := 1 })] }
def parkable : State := withRegs (actHomed .standby) [(0x1D000, 2)]

theorem witness_SpanRefusalChangesNothing :
    (full.runs = true ∧ full.prepare.spanOpen (cmd 0x110 (spanA .t0) []) ∧
      (full.prepare.spanRun (cmd 0x110 (spanA .t0) [])).v = .no .wrongState) ∧
    (full.prepare.spanOpen (cmd 0x100 (spanA .t0) []) ∧ (full.prepare.spanRun (cmd 0x100 (spanA .t0) [])).v = .same) := by
  unfold State.spanOpen; and_intros <;> decide +kernel
theorem witness_ModeCommand :
    ((trac0 .standby).runs = true ∧ (trac0 .standby).prepare.spanOpen (cmd 0x100 (spanA .t0) [(0, 2), (4, 9)]) ∧
      (trac0 .standby).prepare.jobAhead ≠ 0x60 ∧ (trac0 .standby).prepare.jobAhead ≠ 0x61 ∧
      dSpan (cmd 0x100 (spanA .t0) [(0, 2), (4, 9)]) = Span.ofTrac 0 ∧ (trac0 .standby).prepare.tracVerdict 0 2 = .go ∧
      (trac0 .standby).prepare.spanOpen (cmd 0x100 (spanA .t0) [(0, 3), (4, 9)]) ∧ (trac0 .standby).prepare.tracVerdict 0 3 = .go) ∧
    ((conv .standby).prepare.spanOpen (cmd 0x100 (spanA .c) [(0, 2)]) ∧ dSpan (cmd 0x100 (spanA .c) [(0, 2)]) = .c ∧
      (conv .standby).prepare.cVerdict 2 = .go ∧ (conv .standby).prepare.spanOpen (cmd 0x100 (spanA .c) [(0, 4)]) ∧
      (conv .standby).prepare.cVerdict 4 = .go) ∧
    ((chg .charge).prepare.spanOpen (cmd 0x100 (spanA .q) [(0, 1)]) ∧ dSpan (cmd 0x100 (spanA .q) [(0, 1)]) = .q ∧
      (chg .charge).prepare.qVerdict 1 = .go) ∧
    (brakes.prepare.spanOpen (cmd 0x100 (spanA .b) [(0, 0)]) ∧ dSpan (cmd 0x100 (spanA .b) [(0, 0)]) = .b ∧ brakes.prepare.bVerdict 0 = .go) ∧
    ((actIn .hold).prepare.spanOpen (cmd 0x100 (spanA .a0) [(0, 1)]) ∧ 5 ≤ (dSpan (cmd 0x100 (spanA .a0) [(0, 1)])).code ∧
      (actIn .hold).prepare.aVerdict (dAct (cmd 0x100 (spanA .a0) [(0, 1)])) 1 = .go ∧ ((actIn .hold).prepare.stage.actS 0).st ≠ .shifting ∧
      ((actIn .hold).prepare.stage.actS 0).st ≠ .homing ∧ (actIn .hold).prepare.aCfg 0 4 = false) := by
  unfold State.spanOpen; and_intros <;> decide +kernel
theorem witness_TractionCommands :
    (trac0 .torque).runs = true ∧ (trac0 .torque).prepare.spanOpen (cmd 0x110 (spanA .t0) [(0, 5)]) ∧
    ((trac0 .torque).prepare.stage.trac 0).takesTarget = true ∧ (trac0 .torque).prepare.spanOpen (cmd 0x111 (spanA .t0) [(0, 5)]) ∧
    (trac0 .torque).prepare.spanOpen (cmd 0x112 (spanA .t0) []) ∧ (trac0 .torque).prepare.sensorCauseNow 0 = false := by
  unfold State.spanOpen; and_intros <;> decide +kernel
theorem witness_ConverterAndChargerCommands :
    ((conv .link).runs = true ∧ (conv .link).prepare.spanOpen (cmd 0x120 (spanA .c) []) ∧ (conv .link).prepare.stage.cs.st = .link) ∧
    ((conv .current).prepare.spanOpen (cmd 0x121 (spanA .c) []) ∧ (conv .current).prepare.stage.cs.st = .current) ∧
    ((conv .standby).prepare.spanOpen (cmd 0x122 (spanA .c) []) ∧ dP (cmd 0x122 (spanA .c) []) 0 1 = 0 ∧
      (conv .standby).prepare.stage.cs.st = .standby) ∧
    ((conv .batt).prepare.spanOpen (cmd 0x122 (spanA .c) [(0, 4)]) ∧ dP (cmd 0x122 (spanA .c) [(0, 4)]) 0 1 ≠ 0 ∧
      (conv .batt).prepare.stage.cs.st.driven = true) ∧
    (crowbarred.prepare.spanOpen (cmd 0x123 (spanA .c) []) ∧ crowbarred.prepare.cHw.crowbar = true ∧ crowbarred.prepare.cCrowbarOk = true) ∧
    ((chg .charge).runs = true ∧ (chg .charge).prepare.spanOpen (cmd 0x130 (spanA .q) []) ∧ (chg .charge).prepare.stage.qs.st = .charge ∧
      0 ≤ dS (cmd 0x130 (spanA .q) []) 0 ∧
      (chg .charge).prepare.spanOpen (cmd 0x130 (spanA .q) [(0, 0xFFFFFFFF)]) ∧ dS (cmd 0x130 (spanA .q) [(0, 0xFFFFFFFF)]) 0 < 0) ∧
    ((chg .exportGf).prepare.spanOpen (cmd 0x130 (spanA .q) []) ∧ (chg .exportGf).prepare.stage.qs.st = .exportGf ∧
      dS (cmd 0x130 (spanA .q) []) 0 ≤ 0 ∧
      (chg .exportGf).prepare.spanOpen (cmd 0x130 (spanA .q) [(0, 1)]) ∧ 0 < dS (cmd 0x130 (spanA .q) [(0, 1)]) 0) := by
  unfold State.spanOpen; and_intros <;> decide +kernel
theorem witness_ActuatorSetCommands :
    ((actHomed .standby).runs = true ∧ (actHomed .standby).prepare.spanOpen (cmd 0x150 (spanA .a0) [(0, 1), (4, 100)]) ∧
      ((actHomed .standby).prepare.stage.actS 0).st = .standby ∧
      (actHomed .standby).prepare.aInRange 0 (dS (cmd 0x150 (spanA .a0) [(0, 1), (4, 100)]) 4) = true ∧
      ((actHomed .standby).prepare.stage.actS 0).homed = true ∧ aSp 0 ∉ (actHomed .standby).prepare.stage.changed) ∧
    ((actIn .hold).prepare.spanOpen (cmd 0x154 (spanA .a0) [(0, 3)]) ∧ ((actIn .hold).prepare.stage.actS 0).st = .hold ∧
      aSp 0 ∉ (actIn .hold).prepare.stage.changed) ∧
    (captured.prepare.spanOpen (cmd 0x156 (spanA .a0) []) ∧ captured.prepare.aCauseNow 0 = false) := by
  unfold State.spanOpen; and_intros <;> decide +kernel
theorem witness_ActuatorMoveCommands :
    ((actHomed .hold).runs = true ∧ (actHomed .hold).prepare.spanOpen (cmd 0x151 (spanA .a0) [(0, 0)]) ∧
      ((actHomed .hold).prepare.stage.actS 0).st = .hold ∧ ((actHomed .hold).prepare.stage.actS 0).homed = true ∧
      aSp 0 ∉ (actHomed .hold).prepare.stage.changed ∧ (actHomed .hold).prepare.aParkLock 0 = false ∧
      (actHomed .hold).prepare.aInRange 0 ((actHomed .hold).prepare.aGear 0 0) = true) ∧
    (parkable.prepare.spanOpen (cmd 0x152 (spanA .a0) []) ∧ parkable.prepare.aParkLock 0 = true ∧
      parkable.prepare.aInRange 0 (parkable.prepare.aGear 0 1) = true ∧
      parkable.prepare.spanOpen (cmd 0x153 (spanA .a0) []) ∧ parkable.prepare.aInRange 0 (parkable.prepare.aGear 0 0) = true) ∧
    ((actIn .standby).prepare.spanOpen (cmd 0x155 (spanA .a0) []) ∧ ((actIn .standby).prepare.stage.actS 0).st = .standby ∧
      (actIn .standby).prepare.aCfg 0 4 = false ∧ aSp 0 ∉ (actIn .standby).prepare.stage.changed) := by
  unfold State.spanOpen; and_intros <;> decide +kernel

/-! ### Sensing and the tick -/

/-- A live deck whose converters run. -/
def sampled : State :=
  let s := withRegs live [(0x1000, 4000), (0x4460, 1), (0x4464, 3), (0x4560, 2)]
  { s with adc := { s.adc with refEn := true, settled := true, seqEn := true, seqRun := true }, tk := { s.tk with phi0Done := true } }
/-- The same with converter 0 doing something, or with waiting triggers. -/
def busyWith (b : ConvBusy) (q : List Trigger) : State := sampled.updConv 0 (fun x => { x with busy := b, queue := q })
/-- A trigger of source 1, priority 2. -/
def trig : Trigger := { src := 1, prio := 2, arrived := 0, period := 0, uPeriod := 0 }
/-- The same with a period of leg 0 whose first point lies at its start, and with an ADC_TRIG of source 2 placed. -/
def carried : State := sampled.updLeg 0 (fun g => { g with plen := 2, act := { g.act with phase := 1 } })
def hostTriggered : State :=
  let s := withRegs sampled [(0x4468, 4)]
  { s with adc := { s.adc with hostTrig := [(0, 2, 0)] } }
/-- A calibration of converters 0 and 1 at start. -/
def calRun : CalRun := { running := [0, 1], passed := [], failed := [], cmd := none }
/-- The same deck with T0END 20 µs into the tick, the end of Φ0 of its first tick, and converter 0 with something to do. -/
def timed : State := withRegs sampled [(0x1004, 800)]
def timedWith (b : ConvBusy) : State := timed.updConv 0 (fun x => { x with busy := b })
def s0End : Instant := timed.boundary timed.tk.count + timed.t0end
/-- A live deck in that calibration. -/
def calibrating : State :=
  let s := (live.updConv 0 (fun k => { k with calRun := true })).updConv 1 (fun k => { k with calRun := true })
  { s with adc := { s.adc with cal := [calRun] } }
/-- A start whose last calibration runs. -/
def lastCal : State :=
  let s := live.updConv 0 (fun k => { k with calRun := true })
  { s with adc := { s.adc with cal := [{ calRun with running := [0] }] } }
/-- A ticking deck with its phases done or not. -/
def phases (p0 p1 p2 p3 : Bool) : State :=
  { sampled with tk := { sampled.tk with phi0Done := p0, phi1Done := p1, phi2Done := p2, phi3Done := p3 } }
/-- A completion that waits to be written. -/
def aCompletion : Completion := completionOf full (cmd 0 deckA []) .success 0 5
/-- The deck in abutment mode. -/
def abutted : State := started (fun x => { x with abut := true })

theorem witness_ReferenceControl :
    (State.reset.start.ready = false ∧ State.reset.start.abut = false ∧ State.reset.adc.refEn = false ∧ State.reset.partsOk = true) ∧
    (let s := { State.reset with adc := { State.reset.adc with refEn := true } };
      s.adc.refEn = true ∧ s.adc.settled = false ∧ s.reaches s.adc.settleAt = true) ∧
    (let s := { sampled with adc := { sampled.adc with refEn := true, settled := false, settleAt := 2 ^ 60 } };
      s.reaches s.adc.settleAt = false) ∧
    live.start.ready = true ∧ abutted.start.abut = true := by and_intros <;> decide +kernel
theorem witness_TriggerQueue :
    (sampled.partsOk = true ∧ (sampled.at 7).srcType 0 1 = 3 ∧ sampled.adc.seqEn = true ∧ sampled.sampling 0 = true ∧
      (sampled.conv 0).queue.length < 4) ∧
    ((carried.at 0).srcType 0 0 = 1 ∧ (carried.at 0).atPoint 0 0 (carried.at 0).tk.now = true ∧ carried.partsOk = true) ∧
    ((sampled.at 0).srcType 0 0 = 1 ∧ (sampled.at 0).atPoint 0 0 (sampled.at 0).tk.now = false) ∧
    (hostTriggered.partsOk = true ∧ (hostTriggered.at 0).srcType 0 2 = 4 ∧ (0, 2, 0) ∈ hostTriggered.adc.hostTrig) ∧
    ((busyWith .idle (List.replicate 4 trig)).partsOk = true ∧ ((busyWith .idle (List.replicate 4 trig)).conv 0).queue.length = 4 ∧
      (busyWith .idle (List.replicate 4 trig)).sampling 0 = true) ∧
    (let s := { sampled with adc := { sampled.adc with seqEn := false } }; s.partsOk = true ∧ s.adc.seqEn = false) := by
  and_intros <;> decide +kernel
theorem witness_SequenceStarts :
    (let s := { timed with tk := { timed.tk with phi0Done := false } };
      s.partsOk = true ∧ s.adc.settled = true ∧ s.tk.phi0Done = false ∧ (s.conv 6).busy = .idle ∧ (s.conv 7).busy = .idle ∧
      s.slot0Edge 3 < s.boundary s.tk.count + s.t0end ∧ s.sampling 6 = true ∧ (s.conv 6).ran = false) ∧
    (let s := timed.updConv 6 (fun k => { k with freeAt := s0End });
      s.boundary s.tk.count + s.t0end ≤ s.slot0Edge 3) ∧
    ((busyWith .idle [trig]).partsOk = true ∧ ((busyWith .idle [trig]).conv 0).busy = .idle ∧
      (busyWith .idle [trig]).adc.settled = true ∧
      ((busyWith .idle [trig]).conv 0).queue = trig :: [] ∧ ((busyWith .idle [trig]).conv 0).calRun = false ∧
      (busyWith .idle [trig]).slot0Pending 0 (max (ceilTo trig.arrived uEdge) ((busyWith .idle [trig]).conv 0).freeAt) = false) ∧
    (let s := (busyWith .idle [trig]).updConv 0 (fun k => { k with calRun := true }); (s.conv 0).calRun = true) := by
  and_intros <;> decide +kernel
theorem witness_SequenceEnds :
    ((timedWith (.regular 1 0)).partsOk = true ∧ (timedWith (.regular 1 0)).adc.settled = true ∧
      ((timedWith (.regular 1 0)).conv 0).busy = .regular 1 0 ∧ ((timedWith (.regular 1 0)).conv 0).queue = [] ∧
      0 + 16 * uEdge < (timedWith (.regular 1 0)).boundary (timedWith (.regular 1 0)).tk.count + (timedWith (.regular 1 0)).t0end) ∧
    ((timedWith (.regular 0 s0End)).conv 0).busy = .regular 0 s0End ∧
    ((busyWith (.late 1 0) []).conv 0).busy = .late 1 0 ∧
    ((busyWith (.injected trig 0 0) []).partsOk = true ∧ ((busyWith (.injected trig 0 0) []).conv 0).busy = .injected trig 0 0 ∧
      ((busyWith (.injected trig 0 0) []).conv 0).calRun = false ∧ ((busyWith (.injected trig 0 0) []).conv 0).nextSlot = none) ∧
    (let s := withRegs (busyWith (.injected trig 0 0) []) [(0x4464, 0x803), (0x4450, 5)];
      s.srcSlots 0 1 = [0] ∧ s.srcType 0 1 ≠ 1 ∧ (0 : Nat) % 2 = 0) := by and_intros <;> decide +kernel
theorem witness_CalibrationVerdict :
    (sampled.conv 0).calRun = false ∧
    (lastCal.partsOk = true ∧ (lastCal.conv 0).calRun = true ∧ lastCal.adc.cal = [{ calRun with running := [0] }] ∧
      calRun.cmd = none ∧ calRun.failed = []) ∧
    (calibrating.partsOk = true ∧ (calibrating.conv 0).calRun = true ∧
      ∀ r ∈ calibrating.adc.cal, r.cmd = none → ∃ d ∈ r.running, d ≠ (0 : Conv)) := by and_intros <;> decide +kernel
theorem witness_BoundaryCountsTick :
    (sampled.start.ticking = true ∧ sampled.start.abut = false ∧ sampled.clocked = true ∧ sampled.pu ≠ 0) ∧
    State.reset.start.ticking = false := by and_intros <;> decide +kernel
theorem witness_PhasesRunOnce :
    ((phases false false false false).start.ticking = true ∧ (phases false false false false).start.abut = false ∧
      (phases false false false false).clocked = true ∧ (phases false false false false).tk.phi0Done = false ∧
      (phases false false false false).tk.phi1Done = false ∧ (phases false false false false).cwy.run = false) ∧
    (phases true true true true).tk.phi0Done = true ∧
    ((phases true true false false).coresRun = true ∧ (phases true true false false).tk.phi2Done = false ∧
      (phases true true false false).tk.phi0Done = true ∧ (phases true true false false).tk.phi1Done = true ∧
      (phases true true false false).pu - 1 < (phases true true false false).pu) ∧
    State.reset.coresRun = false := by and_intros <;> decide +kernel
theorem witness_MirrorPhase :
    ((phases true true true false).start.ticking = true ∧ (phases true true true false).start.abut = false ∧
      (phases true true true false).clocked = true ∧ (phases true true true false).tk.phi3Done = false ∧
      (phases true true true false).tk.phi2Done = true) ∧
    (let s := { phases true true true false with cwy := { sampled.cwy with run := true, linkUp := true, cmplDue := [aCompletion] } };
      s.kst.faultLine = false ∧ s.inViaduct = false ∧ s.ringsOpen = true ∧ s.restartDue = none ∧ aCompletion ∈ s.cwy.cmplDue ∧
      s.mrm.trigs = [] ∧ s.vdt.twinDue = [] ∧ Store.wf (fun _ => none) s.cwy.cmplRing = true ∧ 1 ≤ s.tlmFree) ∧
    (phases true true true true).tk.phi3Done = true ∧
    ((phases true true false false).coresRun = true ∧ (phases true true false false).tk.phi2Done = false) := by
  and_intros <;> decide +kernel
theorem witness_ServiceTicks :
    (abutted.start.abut = true ∧ abutted.cwy.staged = [] ∧ bitOf (abutted.reg 0x2000) 0 = false) ∧
    (let s := { withRegs abutted [(0x2000, 1)] with cwy := { abutted.cwy with linkUp := true } };
      s.start.abut = true ∧ s.cwy.staged = [] ∧ bitOf (s.reg 0x2000) 0 = true ∧ s.cwy.linkUp = true) ∧
    abutted.cwy.linkUp = false ∧ State.reset.start.abut = false := by and_intros <;> decide +kernel

/-! ### The Truss and the Parapet -/

/-- A live deck with a leg's part changed. -/
def legged (l : Nat) (f : LegS → LegS) : State := sampled.updLeg l f
/-- A leg in direct mode. -/
def direct : State := withRegs sampled [(0xC000, 0x20)]
/-- The deck with its controlled span C changed. -/
def curC (f : CSpanS → CSpanS) : State := { sampled with cur := { sampled.cur with cs := f sampled.cur.cs } }
/-- Discontinuous mode with an active phase whose switch is commanded. -/
def discont : State :=
  (curC (fun x => { x with de := true, deHs := true, ph := [(0, { CPhase.init with active := true })] })).updLeg 12
    (fun g => { g with hs := { g.hs with cmd := true } })
/-- A live deck whose tick counter stands elsewhere. -/
def atTick (n : Nat) (s : State) : State := { s with tk := { s.tk with count := n } }
/-- A deck whose clocks are lost. -/
def clockless : State := { sampled with par := { sampled.par with clockLost := 1 } }

theorem witness_PeriodStartReloads :
    (sampled.partsOk = true ∧ sampled.periodDue 28 = some (0, 4096000, 0)) ∧ State.reset.periodDue 0 = none := by and_intros <;> decide +kernel
theorem witness_EdgesMoveGates :
    (let s := legged 0 (fun g => { g with plen := 1 });
      s.partsOk = true ∧ 0 < (s.leg 0).plen ∧ (s.leg 0).scLine = false ∧ (s.leg 0).ocLine = false ∧ (s.leg 0).plen ≤ 1 ∧
      (s.leg (tLeg 0 0)).plen ≠ 0 ∧ (s.leg (tLeg 0 0)).centred = false ∧ s.reaches (s.carrierCentre (tLeg 0 0)) = true) ∧
    (sampled.leg (tLeg 1 0)).plen = 0 ∧
    (let s := (legged 28 (fun g => { g with hs := { g.hs with onAt := some 9 }, uvHsPos := false, uvLsPos := false }));
      s.partsOk = true ∧ ((s.leg 28).pier .hs).onAt = some 9 ∧ s.pierHeld 28 .hs = false) := by and_intros <;> decide +kernel
theorem witness_DirectMode :
    (direct.partsOk = true ∧ direct.start.abut = false ∧ direct.legDirect 0 = true ∧ direct.pastCutover 0 = false ∧
      direct.pastCutover (direct.pu - 64 * uNs - 1) = false ∧ direct.pastCutover (direct.pu - 64 * uNs) = true) ∧
    abutted.start.abut = true ∧ sampled.legDirect 0 = false := by and_intros <;> decide +kernel
theorem witness_OvercurrentTrips :
    (let s := legged 0 (fun g => { g with blanking := true, blankEnd := 1 });
      s.partsOk = true ∧ (s.leg 0).blanking = true ∧ (s.at 0).tk.now < 1 ∧ 1 ≤ (s.at 1).tk.now ∧ (s.leg 0).ocLine = false ∧
      (s.at 0).passed 1 = false ∧ (s.at 1).passed 1 = true) ∧
    (let s := legged 0 (fun g => { g with blanking := true, ocA := true });
      s.partsOk = true ∧ (s.leg 0).blanking = true ∧ (s.leg 0).ocLine = true ∧ (s.leg 0).fwHs = false ∧ (s.leg 0).fwLs = false ∧
      (s.at 0).passed (s.leg 0).blankEnd = true) ∧
    ((sampled.leg 0).blanking = false ∧ (sampled.leg 0).fwHs = false ∧ (sampled.leg 0).fwLs = false) ∧
    ((legged 0 (fun g => { g with fwHs := true })).leg 0).fwHs = true := by and_intros <;> decide +kernel
theorem witness_ShortCircuits :
    sampled.partsOk = true ∧
    (let s := legged 0 (fun g => { g with hs := { g.hs with gate := true, soft := true } });
      isHvLeg 0 = true ∧ ((s.leg 0).pier .hs).gate = true ∧ ((s.leg 0).pier .hs).desatBlank = false ∧ (s.leg 0).desatHs = false ∧
      ((s.leg 0).pier .hs).soft = true ∧ (s.at 0).passed ((s.leg 0).pier .hs).softEnd = true ∧ s.partsOk = true) ∧
    (isHvLeg 28 = false ∧ ((sampled.leg 0).pier .ls).gate = false ∧ ((sampled.leg 0).pier .ls).soft = false ∧
      ((sampled.leg 0).pier .ls).desatBlank = false) ∧
    (let s := legged 3 (fun g => { g with ls := { g.ls with gate := true, desatBlank := true, desatEnd := 1 } });
      ((s.leg 3).pier .ls).desatBlank = true ∧ ((s.leg 3).pier .ls).gate = true ∧ isHvLeg 3 = true ∧ (s.leg 3).desatLs = false ∧
      s.partsOk = true ∧ (s.at 0).tk.now < 1 ∧ 1 ≤ (s.at 1).tk.now ∧
      (s.at 0).passed 1 = false ∧ (s.at 1).passed 1 = true) := by and_intros <;> decide +kernel
theorem witness_UndervoltageLockout :
    (let s := legged 0 (fun g => { g with uvLsNeg := false });
      s.partsOk = true ∧ isHvLeg 0 = true ∧ (s.leg 0).uv 3 = false ∧ s.trl.brgRun = false ∧ 3 ∈ legRails 0 ∧
      s.uvLow 0 3 100000 = true ∧ s.uvLow 0 3 (-100000) = false) ∧
    (let s := legged 28 (fun g => { g with uvLsPos := false });
      s.partsOk = true ∧ isHvLeg 28 = false ∧ 2 ∈ legRails 28 ∧ 1 ∉ legRails 28 ∧ (s.leg 28).uv 2 = false ∧ s.uvLow 28 2 (-1) = true ∧
      (s.leg 28).uvHsPos = true ∧ (s.leg 28).bootLong = false ∧
      (s.at (1000000 * uNs - 1)).passed ((s.leg 28).bootAt + 1000000 * uNs) = false ∧
      (s.at (1000000 * uNs)).passed ((s.leg 28).bootAt + 1000000 * uNs) = true ∧
      (∀ r ∈ legRails 28, s.uvBack 28 r ([30000, 0, 30000, 0].getD r 0) = true) ∧
      ∃ r ∈ legRails 28, s.uvBack 28 r ([0, 0, 0, 0].getD r 0) = false) := by and_intros <;> decide +kernel
theorem witness_OvervoltageTrips : sampled.partsOk = true ∧ sampled.cHw.crowbar = false ∧ crowbarred.cHw.crowbar = true := by
  and_intros <;> decide +kernel
theorem witness_ConverterHardwareActs :
    (discont.partsOk = true ∧ discont.cur.cs.de = true ∧ (discont.cur.cs.phase 0).active = true ∧ ((discont.leg 12).pier .hs).cmd = true) ∧
    (sampled.partsOk = true ∧ sampled.cur.cs.de = false) ∧
    (let s := withRegs (curC (fun x => { x with st := .link })) [(spanBase .c, 4)];
      s.partsOk = true ∧ s.cCfg 2 1 = 1 ∧ s.cur.cs.st = .link) ∧ sampled.cCfg 2 1 ≠ 1 := by and_intros <;> decide +kernel
theorem witness_ComparatorTests :
    (sampled.partsOk = true ∧ sampled.testOpen (.leg 0 0) = true ∧ (legComparators 0).contains 0 = true ∧
      (sampled.at 0).offWindow 0 .hs = true ∧ comparatorSwitch 0 = some .hs) ∧
    (sampled.testOpen (.leg 31 9) = true ∧ (legComparators 31).contains 9 = true ∧ comparatorSwitch 9 = none) ∧
    sampled.testOpen (.deck 3) = true ∧
    (let s := { sampled with tk := { sampled.tk with count := 4096 } };
      s.partsOk = true ∧ s.start.ready = true ∧ s.par.roundStart + 4096 ≤ s.tk.count) ∧ sampled.tk.count < sampled.par.roundStart + 4096 ∧
    (let s := withRegs (atTick 12288 (legged 0 (fun g => { g with plen := 1000, act := { g.act with mode := 1, cmpa := 500 } }))) [(0xC008, 0x10000)];
      s.partsOk = true ∧ s.start.ready = true ∧ 12288 ≤ s.testAge 0 ∧ (s.leg 0).ageBad = false ∧
      (0 : Nat) ∈ (legComparators 0).filter (fun k => decide (12288 ≤ s.tk.count - max s.par.testBase (Store.get (fun _ => 0) (s.leg 0).testTicks k))) ∧
      comparatorSwitch 0 = some .hs ∧ s.switches 0 .hs = true) ∧ sampled.testAge 0 < 12288 := by and_intros <;> decide +kernel
theorem witness_HallStates : sampled.partsOk = true ∧ (0 : Act) ∉ sampled.par.hallInvalid := by and_intros <;> decide +kernel
theorem witness_ClockLoss : sampled.partsOk = true ∧ Instr.debugHalt 0 = .debugHalt 0 ∧ sampled.par.clockLost = 0 ∧
    clockless.partsOk = true ∧ clockless.par.clockLost ≠ 0 := by and_intros <;> decide +kernel

/-! ### The Keystone, the spans' timers, the viaduct -/

/-- A live deck with its controlled T0, B or A0 changed, and a live deck whose charger uses its pilot. -/
def trac0With (f : TracS → TracS) : State := staged (fun c => { c with tr0 := f c.tr0 })
def brakeWith (f : BSpanS → BSpanS) : State := staged (fun c => { c with bs := f c.bs })
def piloted : State := withRegs full [(spanBase .q, 1)]
/-- The bytes of a number, least significant first. -/
def bytesOf (n v : Nat) : List Byte := (List.range n).map (fun i => BitVec.ofNat 8 (v / 256 ^ i))
/-- A sound viaduct frame of a kind for a deck: its kind, its tick and its acknowledged tick. -/
def vframe (s : State) (kind tick ack : Nat) : List Byte :=
  let n := if kind = 1 then s.frameLen else 68
  let body := bytesOf (n - 4) (0xB7E1 + 2 ^ 16 + kind * 2 ^ 24 + tick * 2 ^ 32 + ack * 2 ^ 192)
  body ++ bytesOf 4 (crc32c (body.map BitVec.toNat)).toNat

/-- The last four bytes of a sound frame hold the CRC of the rest. -/
theorem sealed_crc (body : List Byte) (v : BitVec 32) :
    fw (body ++ bytesOf 4 v.toNat) ((body ++ bytesOf 4 v.toNat).length - 4) 4 = v.toNat ∧
    (body ++ bytesOf 4 v.toNat).take ((body ++ bytesOf 4 v.toNat).length - 4) = body := by
  have h4 : (bytesOf 4 v.toNat).length = 4 := by simp [bytesOf]
  have hv := v.isLt
  rw [List.length_append, h4, Nat.add_sub_cancel]
  refine ⟨?_, List.take_left⟩
  have ht : (bytesOf 4 v.toNat).take 4 = bytesOf 4 v.toNat := List.take_of_length_le (by omega)
  simp only [fw, List.drop_left]
  rw [ht]
  simp only [bytesOf, List.range, List.range.loop, List.map, ofLe, BitVec.toNat_ofNat]
  omega
theorem vframe_crc (s : State) (k t a : Nat) :
    fw (vframe s k t a) ((vframe s k t a).length - 4) 4 =
      (crc32c (((vframe s k t a).take ((vframe s k t a).length - 4)).map BitVec.toNat)).toNat := by
  simp only [vframe]
  rw [(sealed_crc _ _).1, (sealed_crc _ _).2]
/-- A deck in a viaduct with its pairing in a state. -/
def paired' (pair : Nat) : State := { sampled with vdt := { sampled.vdt with pair := pair } }

theorem witness_RamErrors : sampled.kst.faultLine = false ∧ (faulted.kst.faultLine = true) := by decide +kernel
theorem witness_WindowWatchdog : sampled.coresRun = true ∧ sampled.t0end ≤ sampled.t0end ∧
    sampled.t0end + 1000 * uNs ≤ sampled.pu ∧ sampled.pu < sampled.pu + 1000 * uNs ∧ sampled.kst.served = none ∧
    (let s := withRegs sampled [(0x1004, 4)]; s.coresRun = true ∧ 4 * u25 - 1 < s.t0end ∧ s.t0end ≤ 4 * u25) ∧
    (let s := { sampled with kst := { sampled.kst with served := some 9 } }; s.coresRun = true ∧ s.kst.served ≠ none) := by
  and_intros <;> decide +kernel
theorem witness_LockstepAndDebug : sampled.partsOk = true ∧ sampled.kst.lsBroken = false ∧ sampled.kst.faultLine = false ∧
    faulted.partsOk = true ∧ faulted.kst.faultLine = true := by and_intros <;> decide +kernel
theorem witness_SpanTimers_peaks :
    (let s := trac0With (fun x => { x with peak := 300000 });
      s.reached (s.stage.trac 0).peak 30000 = true ∧ 0 < (s.stage.trac 0).peak ∧ (s.stage.trac 0).peakExh = false) ∧
    (full.reached (full.stage.trac 1).peak 30000 = false ∧ full.reached 299999 30000 = false) ∧
    (let s := brakeWith (fun x => { x with peak := 100000 });
      s.reached s.stage.bs.peak 10000 = true ∧ 0 < s.stage.bs.peak ∧ s.stage.bs.peakExh = false) ∧ full.stage.bs.peak = 0 ∧
    (let s := act0 (fun x => { x with peak := 20000 });
      s.reached (s.stage.actS 0).peak 2000 = true ∧ 0 < (s.stage.actS 0).peak ∧ (s.stage.actS 0).peakExh = false) ∧
    (full.stage.actS 3).peak = 0 := by and_intros <;> decide +kernel
theorem witness_SpanTimers :
    (let s := trac0With (fun x => { x with dipEnd := some 1 }); (s.stage.trac 0).dipEnd = some 1 ∧ 1 ≤ s.tk.count + 1) ∧
    (let s := trac0With (fun x => { x with st := .safe, angSrc := 0, ascZone := true, ascRun := 256 });
      (s.stage.trac 0).st = .safe ∧ (s.stage.trac 0).angSrc = 0 ∧ (s.stage.trac 0).ascZone = true ∧ (s.stage.trac 0).ascRun = 256) ∧
    (let s := staged (fun c => { c with cs := { c.cs with senseFault := true, clearRun := 1024 } });
      s.stage.cs.senseFault = true ∧ 1024 ≤ s.stage.cs.clearRun) ∧
    ((actIn .shifting).aTmo 0 ≤ ((actIn .shifting).stage.actS 0).elapsed ∧ ((actIn .shifting).stage.actS 0).st = .shifting) ∧
    ((actIn .homing).aTmo 0 ≤ ((actIn .homing).stage.actS 0).elapsed ∧ ((actIn .homing).stage.actS 0).st = .homing) := by
  and_intros <;> decide +kernel
/-- A pilot without a signal. -/
def silent : PilotIn := { freq := 0, duty := 0, high := none, low := none }
theorem witness_PilotAndContactor :
    (piloted.qCfg 0 = true ∧ (piloted.pilot.cycle silent).st = piloted.pilot.st) ∧
    (let s := { piloted with pilot := { piloted.pilot with cand := .b, candRun := 2 } };
      s.qCfg 0 = true ∧ (s.pilot.cycle { freq := 1000, duty := 500, high := some 9000, low := some (-12000) }).st ≠ s.pilot.st) ∧
    (let s := { piloted with pilot := { piloted.pilot with diffSince := some 0 } };
      s.pilot.diffSince = some 0 ∧ 0 + 100000000 * uNs < (s.at (100000000 * uNs + 1)).tk.now) ∧
    (let s := { full with cur := { full.cur with qs := { full.cur.qs with kAc := true } } }; s.cur.qs.kAc = true) ∧
    full.cur.qs.kAc = false := by and_intros <;> decide +kernel
/-- A paired deck in tick 9. -/
def twin9 : State := atTick 9 (paired' 2)
/-- A mirror frame of tick 9 is in time and delivered. -/
theorem mirror_lane (a : Nat) (ha : 5 ≤ a ∧ a ≤ 6) :
    ((twin9.at 0).laneFrame 1 ((twin9.at 0).inTime 0) (some (vframe twin9 1 9 a)) none).1 = some (vframe twin9 1 9 a) := by
  have h : (twin9.at 0).frameOk 1 (vframe twin9 1 9 a) = true := by
    simp only [State.frameOk, vframe_crc, decide_true, Bool.and_true, Bool.and_eq_true, decide_eq_true_eq]
    obtain ⟨h1, h2⟩ := ha
    interval_cases a <;> and_intros <;> decide +kernel
  have h2 : (twin9.at 0).inTime 0 (vframe twin9 1 9 a) = true := by
    obtain ⟨h1, h2⟩ := ha
    interval_cases a <;> decide +kernel
  simp [State.laneFrame, h, h2]
theorem witness_HandshakeAndPairing :
    (sampled.shaking = false) ∧
    ((paired' 1).shaking = true ∧ (((paired' 1).at 0).laneFrame 3 (fun _ => true) none none).1 = none) ∧
    ((((paired' 1).at 0).laneFrame 3 (fun _ => true) (some (vframe (paired' 1) 3 0 0)) none).1 = some (vframe (paired' 1) 3 0 0) ∧
      ((paired' 1).at 0).shakeCheck (vframe (paired' 1) 3 0 0) 0 ≠ 0) ∧
    (let s := { paired' 1 with vdt := { (paired' 1).vdt with shakeAt := some 0 }, start := { (paired' 1).start with running := true } };
      s.vdt.shakeAt = some 0 ∧ s.vdt.pair = 1 ∧ s.start.running = true ∧ bitOf (s.reg 0x31000) 6 = false ∧ s.vdt.shakeSeen = false ∧
      bitOf ((withRegs s [(0x31000, 0x40)]).reg 0x31000) 6 = true ∧ s.reaches (0 + 1500000000 * uNs) = false ∧
      (atTick 15000 s).reaches (0 + 1500000000 * uNs) = true ∧ (atTick 15000 s).vdt.shakeAt = some 0) ∧
    sampled.vdt.shakeAt = none := by
  and_intros <;> decide +kernel
theorem witness_MirrorAndRelinquish :
    ((sampled.at 0).laneFrame 1 ((sampled.at 0).inTime 0) none none).1 = none ∧
    (((twin9.at 0).laneFrame 1 ((twin9.at 0).inTime 0) (some (vframe twin9 1 9 6)) none).1 = some (vframe twin9 1 9 6) ∧
      fTick (vframe twin9 1 9 6) < fw (vframe twin9 1 9 6) 24 8 + 4) ∧
    (((twin9.at 0).laneFrame 1 ((twin9.at 0).inTime 0) (some (vframe twin9 1 9 5)) none).1 = some (vframe twin9 1 9 5) ∧
      twin9.vdt.pair = 2 ∧ fw (vframe twin9 1 9 5) 24 8 + 4 ≤ fTick (vframe twin9 1 9 5) ∧ twin9.vdt.staleAck = false ∧
      twin9.partsOk = true) ∧
    (let s := twin9;
      ((s.at 0).laneFrame 2 (fun _ => true) (some (vframe s 2 9 5)) none).1 = some (vframe s 2 9 5) ∧ s.vdt.pair = 2 ∧
      s.vdt.cwyLead = false) ∧
    (((sampled.at 0).laneFrame 2 (fun _ => true) none none).1 = none) := by
  have h5 := mirror_lane 5 (by decide)
  have h6 := mirror_lane 6 (by decide)
  and_intros <;> first | with_reducible assumption | decide +kernel

/-! ### The Pylon, the Causeway, the ports -/

/-- A live deck with its Pylon in a state. -/
def pylIn (f : PylS → PylS) : State := { full with pyl := f full.pyl }
/-- A Sync and an Announce of domain 0. -/
def sync0 : SyncIn := { domain := 0, gm := 5, offset := 100, adj := 0 }
def announce0 : AnnounceIn := { domain := 0, prio1 := 255, cls := 0, acc := 0, var := 0, prio2 := 0, id := 0 }
/-- A deck that may be a grandmaster; one that drives the line and one that receives it, with a line period of 1 ms. -/
def gmAble (st : PylSt) : State := withRegs (pylIn (fun p => { p with st := st })) [(0x1100, 0x180)]
def drives : State := withRegs full [(0x1100, 0x60), (0x1108, 400)]
def receives : State := withRegs full [(0x1100, 0x20), (0x1108, 40000)]
/-- Whatever this deck's own clock identity is, an Announce of priority1 255 is no better than its priority1 0. -/
theorem announce0_worse (st : PylSt) : (gmAble st).announceBetter announce0 = false := by
  have h1 := Config.clockAccuracy.isLt
  have h2 := Config.clockVariance.isLt
  have h3 := Config.clockIdentity.isLt
  have hr : (gmAble st).reg 0x1104 = 0#32 := by cases st <;> decide +kernel
  have hf : fld 0#32 8 8 = 0 ∧ fld 0#32 16 8 = 0 := by decide
  simp only [State.announceBetter, hr, hf, announce0, decide_eq_false_iff_not]
  have e1 : (255 : BitVec 8).toNat = 255 := rfl
  have e2 : (0 : BitVec 8).toNat = 0 := rfl
  have e3 : (0 : BitVec 16).toNat = 0 := rfl
  have e4 : (0 : BitVec 64).toNat = 0 := rfl
  rw [e1, e2, e3, e4]
  omega

theorem witness_SyncAndGrandmaster :
    (sync0.domain.toNat = fld (full.reg 0x1104) 0 7 ∧ full.pyl.st = .free ∧ full.start.abut = false ∧ full.start.ready = true) ∧
    (abutted.start.abut = true) ∧
    (let s := pylIn (fun p => { p with st := .acquire, goodSyncs := 15 });
      s.pyl.st = .acquire ∧ absI (sync0.offset - s.pyl.pathDelay) ≤ 100 ∧ 15 ≤ s.pyl.goodSyncs ∧ s.pyl.st ≠ .grandmaster) ∧
    (let s := pylIn (fun p => { p with st := .locked, farSyncs := 3 });
      s.start.ready = true ∧ s.pyl.st = .locked ∧ farOffset (10001 - s.pyl.pathDelay) = true ∧ farOffset 10000 = false ∧
      s.pyl.farSyncs = 3 ∧ s.pyl.lastSync + 3 * s.syncInterval ≤ (s.at (3000000000 * uNs)).tk.now ∧
      ¬ s.pyl.lastSync + 3 * s.syncInterval ≤ (s.at (3000000000 * uNs - 1)).tk.now) ∧
    (let s := pylIn (fun p => { p with st := .locked, lineValid := true }); s.pyl.lineValid = true ∧ s.pyl.st = .locked) ∧
    (bitOf ((gmAble .grandmaster).reg 0x1100) 7 = true ∧ bitOf ((gmAble .free).reg 0x1100) 8 = true ∧
      (gmAble .grandmaster).pyl.st = .grandmaster ∧ (gmAble .free).pyl.st = .free ∧ announce0.domain.toNat = fld ((gmAble .free).reg 0x1104) 0 7 ∧
      (gmAble .free).start.abut = false ∧ bitOf ((withRegs full [(0x1100, 0x80)]).reg 0x1100) 8 = false ∧
      (gmAble .grandmaster).pyl.syncSent = 0 ∧ (gmAble .grandmaster).pyl.annSent = 0) ∧
    (let s := pylIn (fun p => { p with st := .grandmaster, syncSent := 1, annSent := 1, syncAt := 1, annAt := 1 });
      ¬ (s.pyl.syncSent = 0 ∨ s.pyl.syncAt + s.syncInterval ≤ (s.at 0).tk.now) ∧
      ¬ (s.pyl.annSent = 0 ∨ s.pyl.annAt + 1000000000 * uNs ≤ (s.at 0).tk.now)) := by
  and_intros <;> decide +kernel
theorem witness_LaunchLine :
    (drives.lineDriving = true ∧ drives.linePer ≠ 0 ∧ 0 < drives.boundary (drives.tk.count + 1) ∧
      max (ceilTo drives.tk.now drives.linePer) (if drives.pyl.markAt = 0 then 0 else drives.pyl.markAt + drives.linePer) = 0) ∧
    full.lineDriving = false ∧ receives.lineReceives = true ∧ receives.linePer ≠ 0 ∧ full.lineReceives = false ∧ full.linePer = 0 ∧
    (let s := { receives with pyl := { receives.pyl with badMarks := 2, lineValid := true } };
      2 ≤ s.pyl.badMarks ∧ s.pyl.lineValid = true ∧ s.lineReceives = true) ∧
    receives.pyl.lineValid = false ∧ ({ receives with pyl := { receives.pyl with goodMarks := 15 } } : State).pyl.goodMarks = 15 := by
  and_intros <;> decide +kernel
/-- A marker 1000 ns off its place is good, and one a step further is bad. -/
theorem witness_LaunchLine_markers :
    let off := fun (steps : Nat) =>
      let at0 : Int := (receives.boundary receives.tk.count : Int) + (steps * uStep : Nat) - (fld (receives.reg 0x110C) 0 16 * uStep : Nat)
      at0 - (2 * at0 + receives.linePer) / (2 * receives.linePer) * receives.linePer
    absI (off (1000 * uNs / uStep)) ≤ 1000 * (uNs : Int) ∧ 1000 * (uNs : Int) < absI (off (1000 * uNs / uStep + 1)) := by decide +kernel
theorem witness_SyncAndGrandmaster_announce : (gmAble .free).announceBetter announce0 = false ∧
    ¬ (bitOf ((gmAble .free).reg 0x1100) 8 = false ∨ (gmAble .free).announceBetter announce0 = true) := by
  rw [announce0_worse]; decide +kernel
theorem witness_CensusAndCalendar :
    (let s := pylIn (fun p => { p with bank0 := { p.bank0 with st := 1 } }); (s.pyl.bank s.pyl.bankNext).st = 1) ∧
    (full.pyl.bank full.pyl.bankNext).st ≠ 1 ∧ full.start.abut = false ∧ abutted.start.abut = true ∧
    (let s := { full with cal := { full.cal with leapSec := some 0, leapDone := false } };
      s.cal.leapSec = some 0 ∧ (s.at 0).calRaw (s.at 0).tk.now < 99 * 2 ^ 24 ∧ 0 * 2 ^ 24 ≤ (s.at 0).calRaw (s.at 0).tk.now ∧ s.cal.leapDone = false) ∧
    (full.cal.leapSec = none) ∧
    (let s := { gmAble .locked with cal := { full.cal with st := 2 } }; s.cal.st = 2 ∧ s.clockReady = true ∧
      s.cal.trimAt + 64000000000 * uNs ≤ (s.at (64000000000 * uNs)).tk.now ∧
      (s.at (64000000000 * uNs - 1)).tk.now < s.cal.trimAt + 64000000000 * uNs) ∧ full.cal.st ≠ 2 ∧
    full.cal.vbakLow = false := by and_intros <;> decide +kernel
/-- An event, a sound fall-back frame with counter 1, and a deck on whose fall-back port it waits. -/
def oneEvent : Event :=
  { code := 5, addr := 0, cause := 0, val := 0, val2 := 0, pylon := 0, cal := 0, count := 1,
    coalesced := false, queued := false }
def fbBytes : List Byte := let b := bytesOf 12 (3 + 2 ^ 16); b ++ bytesOf 4 (crc32c (b.map BitVec.toNat)).toNat
def oneFrame : FbFrame := { data := fbBytes, fd := true, due := 0 }
def fallback : State := { withRegs full [(0x2048, 0x80000000)] with fp := { full.fp with fbIn := [oneFrame] } }
/-- A deck with its rings open, a ring of one event and an event that waits. -/
def eventful : State := { full with cwy := { full.cwy with run := true, linkUp := true, pq := [oneEvent] } }
theorem witness_CausewayEvents :
    full.cwy.pq = [] ∧ (eventful.cwy.pq = oneEvent :: [] ∧ 1 ≤ eventful.evtFree) ∧
    (let s := { eventful with cwy := { eventful.cwy with linkUp := false } }; s.cwy.pq = oneEvent :: [] ∧ s.evtFree = 0) ∧
    full.cwy.linkUp = false ∧ eventful.cwy.linkUp = true ∧ full.partsOk = true ∧ full.fp.fbIn = [] ∧
    (fallback.fp.fbIn = oneFrame :: [] ∧ oneFrame.due ≤ fallback.tk.count ∧ oneFrame.fd = true ∧ fallback.fbOn = true ∧ fallback.kst.faultLine = false ∧ fallback.start.ready = true ∧
      fbFormOk fbBytes = true ∧ fbFresh fallback.cwy.fbCounter (fbNat fbBytes 2 2) = true) ∧
    (let s := { fallback with fp := { fallback.fp with fbIn := [{ oneFrame with due := 1 }] } };
      s.fp.fbIn = { oneFrame with due := 1 } :: [] ∧ ¬ (1 ≤ s.tk.count)) ∧
    State.reset.start.ready = false ∧ State.reset.partsOk = true ∧ abutted.partsOk = true ∧ abutted.start.abut = true ∧
    full.start.abut = false ∧ full.start.ready = true := by and_intros <;> decide +kernel
/-- A deck with port 0 changed; an attempt of object 5; an object that sends on request. -/
def ported (f : PortS → PortS) : State := (withRegs full [(0x20000, 1), (0x20080, 5)]).updPort 0 f
def attempt : TxNow := { port := 0, obj := 5, data := [], queued := false, again := false, aborted := false }
def sender : State := ported (fun x => { x with obj := [(5, { ObjS.init with cfg := 3#32 })], st := .active })
theorem witness_FieldPorts :
    ((ported id).partsOk = true ∧ (ported id).start.ready = true ∧ bitOf ((ported id).fpCfg 0) 0 = true ∧ ((ported id).port 0).st = .off) ∧
    (State.reset.start.ready = false ∧ State.reset.partsOk = true) ∧
    (let s := withRegs (ported (fun x => { x with st := .busOff })) [(0x20000, 9)];
      s.partsOk = true ∧ (s.port 0).st = .busOff ∧ bitOf (s.fpCfg 0) 3 = true ∧
      (s.port 0).offAt + fld (s.fpCfg 0) 4 8 * 1000000 * uNs ≤ (s.at 0).tk.now) ∧
    (let s := ported (fun x => { x with st := .busOff });
      s.partsOk = true ∧ s.start.abut = false ∧ (s.port 0).st = .busOff ∧ bitOf (s.fpCfg 0) 3 = false) ∧
    (let s := ported (fun x => { x with st := .recovering }); s.partsOk = true ∧ (s.port 0).st = .recovering) ∧
    (let s := ported (fun x => { x with st := .active, tx := some attempt });
      s.partsOk = true ∧ (s.port 0).onBus = true ∧ (s.port 0).tx = some attempt ∧ attempt.queued = false ∧
      s.measures 0 attempt = false ∧ s.rxFormat 0 (canFrame 0 5 8 false false) = true ∧ s.rxFormat 0 (canFrame 3 5 8 false false) = false) ∧
    (let s := withRegs (ported (fun x => { x with st := .active, tx := some attempt, obj := [(5, { ObjS.init with cfg := 4#32 })] })) [(0x20014, 1)];
      s.partsOk = true ∧ (s.port 0).tx = some attempt ∧ s.measures 0 attempt = true) ∧
    ((ported id).port 0).onBus = false ∧ ((ported id).port 0).tx = none ∧
    (sender.partsOk = true ∧ sender.start.abut = false ∧ (sender.obj 0 (sender.objSel 0)).send = true ∧
      (sender.obj 0 (sender.objSel 0)).src = 0 ∧ Store.wf (fun _ => ObjS.init) (sender.port 0).obj = true ∧ (sender.port 0).tx = none ∧
      (sender.obj 0 (sender.objSel 0)).rerouted = false ∧ (sender.port 0).st ≠ .busOff) ∧
    (abutted.start.abut = true ∧ ((ported id).obj 0 ((ported id).objSel 0)).send = false) := by and_intros <;> decide +kernel
/-- A deck 1 ms into its time, with a partner on which it waits and a frame of two slots in the ledger. -/
def aged : State :=
  { full with
    tk := { full.tk with now := 1000000 * uNs }
    fp := { full.fp with ptn := [(3, { PtnS.init with st := 2, tmo := 2, age := 1 })], slot := [(4, { LdgSlot.empty with fmt := 1, k := 2 })] } }
theorem witness_LedgerAndPartners :
    (abutted.partsOk = true ∧ abutted.start.abut = true) ∧
    (aged.partsOk = true ∧ aged.start.abut = false ∧ aged.fp.rangeOf 4 = none ∧
      aged.fp.rangeOf 5 = some ({ LdgSlot.empty with fmt := 1, k := 2 }, 1) ∧ aged.fp.rangeOf 6 = none) ∧
    (aged.fp.rrMs < (aged.at 0).tk.now / (1000000 * uNs) ∧ (full.at 0).tk.now / (1000000 * uNs) ≤ full.fp.rrMs) ∧
    (aged.start.ready = true ∧ aged.fp.ageMs < (aged.at 0).tk.now / (1000000 * uNs) ∧
      aged.fp.ptn = [(3, { PtnS.init with st := 2, tmo := 2, age := 1 })] ∧ ({ PtnS.init with st := 2, tmo := 2, age := 1 } : PtnS).st ≠ 0 ∧
      ({ PtnS.init with st := 2, tmo := 2, age := 1 } : PtnS).tmo ≤ satInc 1 0xFFFF ∧
      ¬ ((2 : Nat) = 2 ∧ (1 : Nat) = 0)) ∧ State.reset.start.ready = false := by
  and_intros <;> decide +kernel

/-! ### The Trestle, starting, the memory, the registers -/

/-- A full deck with its Trestle changed; the deck before deck ready with its start changed. -/
def trlIn (f : TrlS → TrlS) : State := { full with trl := f full.trl }
def brgIn (st : BrgSt) : State := trlIn (fun x => { x with brg := st })
/-- A deck whose tick began 2 ms into its time and lasts 10 ms, with channel 0 in use; it posts its first round. -/
def posting : State :=
  let s := withRegs full [(0x1000, 4000), (0x3200C, 1), (0x32400, 1)]
  { s with tk := { s.tk with count := 20, now := 2000000 * uNs } }
theorem witness_TrestleAndSupplies :
    (full.reaches ((0 + 1) * (1000000 * uNs) + 20000 * uNs) = false) ∧
    (posting.reaches ((max (if posting.trl.posted then posting.trl.round + 1 else 0)
        ((posting.tk.now - 20000 * uNs) / (1000000 * uNs) - 1) + 1) * (1000000 * uNs) + 20000 * uNs) = true ∧
      Store.wf (fun _ => ChanS.init) posting.trl.chan = true ∧ posting.chanUnused 0 = false ∧ posting.chanOn 0 = true) ∧
    ((brgIn .off).partsOk = true ∧ (brgIn .off).trl.brg = .off ∧
      ((brgIn .off).at (1000000 * uNs)).passed ((brgIn .off).trl.brgAt + 1000000 * uNs) = true ∧
      ((brgIn .off).at 0).passed ((brgIn .off).trl.brgAt + 1000000 * uNs) = false) ∧ (brgIn .starting).trl.brg = .starting ∧ (brgIn .on).trl.brg = .on ∧
    (let s := atTick 200 (brgIn .starting); s.trl.brg = .starting ∧ s.reaches (s.trl.brgAt + 20000000 * uNs) = true) ∧
    ((brgIn .starting).reaches ((brgIn .starting).trl.brgAt + 20000000 * uNs) = false) ∧
    (let s := atTick 1000 (brgIn .fault); s.trl.brg = .fault ∧ s.reaches (s.trl.brgAt + 100000000 * uNs) = true) ∧
    full.trl.vsup = .normal ∧ (full.at (12000 * uNs)).filtered 2000 = true ∧ (full.at (11999 * uNs)).filtered 2000 = false ∧
    (let s := atTick 500 (trlIn (fun x => { x with vsup := .warn })); s.trl.vsup = .warn ∧ s.reaches ((s.trl.tw + 50000000) * uNs) = true) := by
  and_intros <;> decide +kernel
theorem witness_StartAndReset :
    (State.reset.start.released = true ∧ State.reset.start.running = false ∧ State.reset.start.ready = false ∧
      State.reset.start.abut = false ∧ State.reset.start.resetDuring = false ∧ noFuses.fusesOk = false) ∧
    full.start.ready = true ∧
    (let s := started (fun x => { x with running := true, ticking := true, step := 7 });
      s.start.running = true ∧ s.start.ticking = true ∧ s.start.step ≤ 7) ∧
    (full.cur.inOff .t0 = true ∧ ({ full with cur := { full.cur with tr0 := { full.cur.tr0 with st := .torque } } } : State).cur.inOff .t0 = false) ∧
    full.partsOk = true ∧
    (let s := started (fun x => { x with running := true }); s.start.running = true ∧ s.reaches (s.start.ts + 2000000000 * uNs) = true ∧
      s.partsOk = true ∧ s.start.clockOk = false) ∧
    (let s := started (fun x => { x with running := true, clockOk := true, go := true });
      s.start.running = true ∧ s.start.clockOk = true ∧ s.start.go = true) ∧
    (let s := started (fun x => { x with failedAt := some 0, failCount := 2 }); s.start.failedAt = some 0 ∧ s.start.failCount < 3) ∧
    State.reset.start.failedAt = none := by and_intros <;> decide +kernel

/-- A block staged under a command that names its length and its CRC. -/
def named (op n v : Nat) : Staged :=
  { desc := BitVec.ofNat 512 (op + n * 2 ^ 256 + v * 2 ^ 288), seq := 1, bound := 5, late := false, lateCause := 0, fail := none }
def blockCmd (op : Nat) (block : List Byte) : Staged := named op block.length (crc32c (block.map BitVec.toNat)).toNat
/-- A deck that carries a command out. -/
def jobbed (d : Staged) : State := { full with cwy := { full.cwy with job := some { cmd := d } } }
/-- A calibration set of n words of zeros and their CRC, as its block. -/
def zeroCrc (n : Nat) : BitVec 32 := crc32c (List.replicate (4 * n) 0)
def zeroSet (n : Nat) : List Byte := List.replicate (4 * n) 0 ++ bytesOf 4 (zeroCrc n).toNat
/-- A charter block: the header, and the 93 registers with their values. -/
def charterBlock (v : Nat → Nat) : List Byte :=
  bytesOf 16 (0x54524843 + 2 ^ 32 + 93 * 2 ^ 48) ++ (chOffsets.map (fun o => bytesOf 4 o ++ bytesOf 4 (v o))).flatten
/-- A charter with nothing fitted, the least dead times, and the inputs of the pairs. -/
def plainCharter (o : Nat) : Nat :=
  if o = 0x40 then 0xF else if o < 0x4040 then 0 else if o < 0x11000 then 12 * ((o - 0x4040) / 4)
  else if 0x32000 ≤ o then 0 else if o % 0x100 ≠ 0 then 0 else if isHvLeg ((o - 0x11000) / 0x100) then 10 else 20
theorem word_named (op n v : Nat) (hop : op < 2 ^ 16) (hn : n < 2 ^ 32) (hv : v < 2 ^ 32) :
    (op + n * 2 ^ 256 + v * 2 ^ 288) % 2 ^ 512 / 2 ^ 256 % 2 ^ 32 = n ∧
    (op + n * 2 ^ 256 + v * 2 ^ 288) % 2 ^ 512 / 2 ^ 288 % 2 ^ 32 = v ∧
    (op + n * 2 ^ 256 + v * 2 ^ 288) % 2 ^ 512 % 2 ^ 16 = op := by
  refine ⟨?_, ?_, ?_⟩ <;> omega
theorem named_desc (op n v : Nat) : (named op n v).desc.toNat = (op + n * 2 ^ 256 + v * 2 ^ 288) % 2 ^ 512 := by
  rw [named, BitVec.toNat_ofNat]
/-- A command of a block names it: the length and the CRC are read back from its descriptor. -/
theorem block_named (op n v : Nat) (hop : op < 2 ^ 16) (hn : n < 2 ^ 32) (hv : v < 2 ^ 32) :
    dP (named op n v) 8 4 = n ∧ dP (named op n v) 12 4 = v ∧ dOp (named op n v) = op := by
  obtain ⟨h1, h2, h3⟩ := word_named op n v hop hn hv
  simp only [dP, dOp, blk, Nat.shiftRight_eq_div_pow, named_desc, Nat.mul_zero, Nat.pow_zero, Nat.div_one]
  rw [show 8 * (24 + 8) = 256 from rfl, show 8 * (24 + 12) = 288 from rfl, show 8 * 4 = 32 from rfl, show 8 * 2 = 16 from rfl]
  exact ⟨h1, h2, h3⟩
theorem block_ok (op : Nat) (block : List Byte) (hop : op < 2 ^ 16) (hn : block.length < 2 ^ 32) :
    blockOk (blockCmd op block) block = true ∧ dOp (blockCmd op block) = op := by
  obtain ⟨h1, h2, h3⟩ :=
    block_named op block.length (crc32c (block.map BitVec.toNat)).toNat hop hn (BitVec.isLt _)
  exact ⟨by simp [blockOk, blockCmd, h1, h2], h3⟩
theorem bytesOf_length (n v : Nat) : (bytesOf n v).length = n := by rw [bytesOf, List.length_map, List.length_range]
/-- The words of the zero set. -/
theorem zeroSet_words (n : Nat) : (List.range (n + 1)).map (fun i => (BitVec.ofNat 32 (blkNat (zeroSet n) (4 * i) 4) : Word)) =
    List.replicate n 0#32 ++ [zeroCrc n] := by
  rw [List.range_succ, List.map_append]
  congr 1
  · rw [List.map_congr_left (g := fun _ => 0#32), List.map_const', List.length_range]
    intro i hi
    have hi' := List.mem_range.mp hi
    have hd : ((zeroSet n).drop (4 * i)).take 4 = List.replicate 4 0 := by
      rw [zeroSet, List.drop_append_of_le_length (by rw [List.length_replicate]; omega), List.drop_replicate,
        List.take_append_of_le_length (by rw [List.length_replicate]; omega), List.take_replicate]
      congr 1
      omega
    simp only [blkNat, hd]
    rfl
  · have hd : (zeroSet n).drop (4 * n) = bytesOf 4 (zeroCrc n).toNat := List.drop_left' List.length_replicate
    have ht : (bytesOf 4 (zeroCrc n).toNat).take 4 = bytesOf 4 (zeroCrc n).toNat :=
      List.take_of_length_le (by rw [bytesOf_length])
    have hv := (zeroCrc n).isLt
    simp only [List.map, blkNat, hd, ht]
    congr 1
    apply BitVec.eq_of_toNat_eq
    simp only [bytesOf, List.range, List.range.loop, List.map, ofLe, BitVec.toNat_ofNat]
    omega
theorem zeroSet_ok (n : Nat) (h : n = 1023) : calSetOk (List.replicate n 0#32 ++ [zeroCrc n]) = true := by
  have h1 : (List.replicate n 0#32 ++ [zeroCrc n]).take 1023 = List.replicate n 0#32 :=
    List.take_left' (by rw [List.length_replicate]; exact h)
  have h2 : (List.replicate n 0#32 ++ [zeroCrc n]).getD 1023 0#32 = zeroCrc n := by
    rw [List.getD_append_right _ _ _ _ (by rw [List.length_replicate]; omega), List.length_replicate, show 1023 - n = 0 by omega]
    rfl
  have h3 : leBytes (0#32).toNat 4 = List.replicate 4 0 := by decide
  have h4 : (List.replicate n 0#32 ++ [zeroCrc n]).length = 1024 := by
    rw [List.length_append, List.length_replicate, List.length_singleton]; omega
  rw [calSetOk, h1, h2, h4, List.map_replicate, h3, List.flatten_replicate_replicate, Nat.mul_comm n 4]
  rw [decide_eq_true rfl, Bool.true_and]
  exact decide_eq_true rfl
theorem zeroSet_length (n : Nat) : (zeroSet n).length = 4 * n + 4 := by
  rw [zeroSet, List.length_append, List.length_replicate, bytesOf_length]
theorem witness_MemoryWork_calibration :
    blockOk (blockCmd 0x61 (zeroSet 1023)) (zeroSet 1023) = true ∧ dOp (blockCmd 0x61 (zeroSet 1023)) = 0x61 ∧
    (zeroSet 1023).length = 4096 ∧
    calSetOk ((List.range 1024).map (fun i => (BitVec.ofNat 32 (blkNat (zeroSet 1023) (4 * i) 4) : Word))) = true := by
  have hl := zeroSet_length 1023
  have hb := block_ok 0x61 (zeroSet 1023) (by decide) (by omega)
  refine ⟨hb.1, hb.2, hl, ?_⟩
  rw [zeroSet_words 1023]
  exact zeroSet_ok 1023 rfl
theorem witness_MemoryWork_charter :
    (∃ es, charterEntries (charterBlock plainCharter) = some es ∧ charterValid (copyGet (copyOf es)) = true) ∧
    blockOk (blockCmd 0x60 (charterBlock plainCharter)) (charterBlock plainCharter) = true ∧
    dOp (blockCmd 0x60 (charterBlock plainCharter)) = 0x60 ∧
    full.charterFrozen = false := by
  have hl : (charterBlock plainCharter).length = 760 := by decide +kernel
  have hb := block_ok 0x60 (charterBlock plainCharter) (by decide) (by omega)
  have hc : ((charterEntries (charterBlock plainCharter)).any (fun es => charterValid (copyGet (copyOf es)))) = true := by decide +kernel
  refine ⟨?_, hb.1, hb.2, by decide +kernel⟩
  cases h : charterEntries (charterBlock plainCharter) with
  | none => simp [h] at hc
  | some es => exact ⟨es, rfl, by simpa [h] using hc⟩

/-- A deck that carries out an UPDATE of an empty block, of target 0 and of target 1; a change staged before it; a slot that fills. -/
def updating (target : Nat) : State := jobbed (cmd 0x62 deckA [(24, target)])
def memIn (f : MrmS → MrmS) : State := { full with mrm := f full.mrm }
def filling : State := memIn (fun x => { x with open_ := some 0, slots := [(0, { RecSlot.free with st := 2, left := 0 })] })
/-- A deck whose memory is frozen, carrying out a CHARTER whose block is missing. -/
def frozenJob : State := { jobbed (cmd 0x60 deckA []) with trl := { full.trl with frozen := true } }
theorem witness_MemoryWork :
    (full.mrm.writes = [] ∧ full.cwy.job = none) ∧
    (let s := memIn (fun x => { x with writes := [.calSwitch, .event oneEvent] }); s.trl.frozen = false ∧ s.mrm.writes ≠ []) ∧
    (Store.wf barReset full.bar = true ∧ full.mrm.lands = none ∧ full.mrm.calLands = none) ∧
    (let s := memIn (fun x => { x with lands := some 1, calLands := some 1 });
      s.mrm.lands = some 1 ∧ s.mrm.calLands = some 1 ∧ s.tk.count < 1 ∧ 1 ≤ (atTick 1 s).tk.count ∧ (atTick 1 s).mrm.lands = some 1 ∧
      Store.wf barReset (atTick 1 s).bar = true) ∧
    (frozenJob.cwy.job ≠ none ∧ frozenJob.jobOp = 0x60 ∧ frozenJob.jobBegun = false ∧ frozenJob.trl.frozen = true) ∧
    ((jobbed (cmd 0x60 deckA [])).cwy.job = some { cmd := cmd 0x60 deckA [] } ∧ dOp (cmd 0x60 deckA []) = 0x60 ∧
      (jobbed (cmd 0x60 deckA [])).jobBegun = false ∧ (jobbed (cmd 0x60 deckA [])).trl.frozen = false ∧
      blockOk (cmd 0x60 deckA []) [1] = false) ∧
    ((updating 0).cwy.job = some { cmd := cmd 0x62 deckA [(24, 0)] } ∧ dOp (cmd 0x62 deckA [(24, 0)]) = 0x62 ∧
      (updating 0).jobBegun = false ∧ (updating 0).trl.frozen = false ∧ blockOk (cmd 0x62 deckA [(24, 0)]) [] = true ∧
      blockOk (cmd 0x62 deckA [(24, 1)]) [] = true ∧ dP (cmd 0x62 deckA [(24, 0)]) 24 1 = 0 ∧ dP (cmd 0x62 deckA [(24, 1)]) 24 1 ≠ 0 ∧
      ([] : List Byte).length ≤ 8388608) ∧
    (full.mrm.blockDone = false ∧ (memIn (fun x => { x with blockDone := true })).mrm.blockDone = true) ∧
    (filling.mrm.open_ = some 0 ∧ (filling.recSlot 0).st = 2 ∧ (filling.recSlot 0).left = 0 ∧
      Store.wf (fun _ => RecSlot.free) filling.mrm.slots = true ∧
      (filling.updSlot 0 (fun r => { r with st := 3 })).slotToArm ≠ some 0) := by and_intros <;> decide +kernel
/-- An invalid word for every register that R152 names, and the deck before deck ready. -/
theorem witness_InvalidPierWrites : State.reset.start.ready = false ∧
    invalidPierWord 0x1100C 0#32 ∧ invalidPierWord 0x13710 0#32 ∧ invalidPierWord 0x14000 0#32 ∧ invalidPierWord 0x1400C 0#32 ∧
    invalidPierWord 0x1402C 0#32 := by
  refine ⟨by decide +kernel, .inl ⟨0, by decide⟩, .inr (.inl ⟨39, by decide⟩), .inr (.inr (.inl (by decide))),
    .inr (.inr (.inr (.inl (by decide)))), .inr (.inr (.inr (.inr ⟨7, by decide, 0, by decide⟩)))⟩
theorem witness_RegisterAccess :
    regRow 0x2C = none ∧
    (regPlace 0x1000 = some (.tick, 0, 0) ∧ regRow 0x1000 = some ⟨0x00, 1, .ro, 0x1FFF⟩) ∧
    (regPlace 0x540C = some (.inp, 0, 0x0C) ∧ regRow 0x540C = some ⟨0x0C, 2, .tl, m32⟩ ∧ full.start.abut = false) ∧
    (regPlace 0x1140 = some (.tick, 0, 0x140) ∧ regRow 0x1140 = some ⟨0x140, 1, .rw, 0xFF⟩ ∧ Store.wf barReset full.bar = true) ∧
    (regPlace 0x1100C = some (.pier, 0, 0x0C) ∧ regRow 0x1100C = some ⟨0x0C, 1, .lk, 0x1F7FFF⟩ ∧ full.start.ready = true ∧
      State.reset.start.ready = false ∧ State.reset.start.abut = false ∧ Store.wf barReset State.reset.bar = true ∧
      State.reset.encodingOk (.pier, 0, 0x0C) (0x20140#32 &&& wd 0x1F7FFF) = true ∧
      State.reset.encodingOk (.pier, 0, 0x0C) (0#32 &&& wd 0x1F7FFF) = false) ∧
    abutted.start.abut = true ∧ Block.inAbutment .pier = false ∧
    (Store.wf (fun _ => 0#32) full.hiLatch = true ∧ full.latchWords 0x1010 ≠ [] ∧ full.latchWords 0x1000 = []) := by
  and_intros <;> decide +kernel

/-! ### Single steps and the spec's worked numbers -/

/-- The state a command leads to. -/
def after (c : Instr) (s : State) : State := match Machine.exec c s with | .next t => t | _ => s
/-- The factors of AD00 in the worked example of chapter 03. -/
def ad00 : ConvS := { ConvS.init with gain := 0x80A0, offset := 12 }
/-- The worked example of chapter 03: four codes and their corrected code, and the signal of AI00. -/
theorem test_corrected_code : correctedCode ad00 [8000, 8008, 7996, 8005] = 8029 := by decide +kernel
theorem test_signal_of_code :
    (withRegs full [(0x5400, 16), (0x5404, 0x03333333), (0x5408, 0x7FC0FFFD)]).toSignal 0 8029 = 6566707 := by decide +kernel
/-- The worked example of chapter 05: the duty limits of a period of 409,600 steps. -/
theorem test_duty_limits : dutySteps 0x666 409600 = 10237 ∧ dutySteps 0xF333 409600 = 389118 := by decide +kernel
/-- The worked example of chapter 02: P 25 µs and the ratio 1/3 give a first period of 341,334 steps. -/
theorem test_first_period : (withRegs full [(0x1000, 1000), (0xD800, 4)]).periodDue 12 = some (0, 341334, 0) := by decide +kernel
/-- A reference enabled settles 500 µs later (R83). -/
theorem test_reference : (after (.refEnable 0) State.reset).adc.refEn = true ∧
    (after .refSettled (after (.refEnable 0) State.reset)).adc.settled = true := by decide +kernel
/-- A fifth trigger of the least priority is the one dropped (R74). -/
theorem test_trigger_dropped :
    ((after (.injectedTrigger 0 0 0) (busyWith .idle (List.replicate 4 trig))).conv 0).queue = List.replicate 4 trig := by decide +kernel
/-- A service in the window is noted, one before it asserts the fault line (R247). -/
theorem test_watchdog : (after (.watchdogService 1000) sampled).kst.served = some (1000 / u25) ∧
    (after (.watchdogService 0) (withRegs sampled [(0x1004, 4)])).kst.faultLine = true := by decide +kernel
/-- A double-bit error asserts the fault line and raises E022 (R248). -/
theorem test_ram_error : (after (.ramEccError false true 0) full).kst.faultLine = true ∧
    (after (.ramEccError false true 0) full).cwy.pq.map Event.code = [22] := by decide +kernel
/-- A write of an RO register is an access violation, and a plain write of TICK's LED register takes its defined bits. -/
theorem test_register_write : (after (.registerWrite 0x1000 5 0xF 0) full).cwy.avAddr = 0x1000 ∧
    (after (.registerWrite 0x1140 0xFFFFFFFF 0xF 0) full).reg 0x1140 = 0xFF#32 := by decide +kernel
/-- An overvoltage of the link latches and raises E012 (R144). -/
theorem test_link_overvoltage : (after (.linkOvTrip 0 0) sampled).par.linkOvLatch = true ∧
    (after (.linkOvTrip 0 0) sampled).cwy.pq.map Event.code = [12] := by decide +kernel
/-- A dip of VSUP that ends is measured in microseconds: 7.2 V at 2,000 ns, back at 9,000 ns (R402, R403). -/
theorem test_dip : (after (.vsupDipEnd 9000 (19000 * uNs)) (after (.vsupWarn 2000 (12000 * uNs)) full)).trl.dipLast = 7 := by decide +kernel
/-- A bus-off port that recovers is error-active with both counters at 0 (R387). -/
theorem test_recovered : ((after (.busOffRecovered 0 0) (ported (fun x => { x with st := .recovering, txErr := 256 }))).port 0).txErr = 0 := by
  decide +kernel
/-- A queue of two commands is run from the front. -/
theorem test_queue : ∃ t, Machine.step { State.reset with pending := [.refEnable 0, .refSettled] } = .next t ∧ t.pending = [.refSettled] :=
  ⟨_, rfl, by decide +kernel⟩

end Sys2Proof.Tests
end

section
/-! PROOFS. A host write that an LK register refuses, and the invalid encodings of Table 06-6 as such writes (R20, R152). -/
namespace Sys2Proof.Machine

/-! ### The fields of a masked word -/

theorem fld_and (v w : Word) (lo len : Nat) : fld (v &&& w) lo len = fld v lo len &&& fld w lo len := by
  simp only [fld, BitVec.toNat_and, Nat.shiftRight_and_distrib, Nat.and_mod_two_pow]

/-- A mask that has every bit of a field keeps the field. -/
theorem fld_and_wd (v : Word) {m lo len : Nat} (h : fld (wd m) lo len = 2 ^ len - 1) :
    fld (v &&& wd m) lo len = fld v lo len := by
  rw [fld_and, h, Nat.and_two_pow_sub_one_eq_mod, fld, Nat.mod_mod]

/-! ### Where the registers of the piers and the Parapet stand -/

theorem regPlace_pier {off r : Nat} (l : Leg) (h : off = 0x11000 + r + 0x100 * l.val) (hr : r < 0x100) :
    regPlace off = some (.pier, l.val, r) := by
  unfold regPlace
  repeat rw [if_neg (by omega)]
  rw [if_pos (by omega), show (off - 0x11000) / 0x100 = l.val by omega, show (off - 0x11000) % 0x100 = r by omega]

theorem regPlace_par {off r : Nat} (h : off = 0x14000 + r) (hr : r < 0x1000) : regPlace off = some (.par, 0, r) := by
  unfold regPlace
  repeat rw [if_neg (by omega)]
  rw [if_pos (by omega), show off - 0x14000 = r by omega]

theorem regRow_pier {off k r : Nat} (h : regPlace off = some (.pier, k, r)) : regRow off = findRow Block.pier.rows r := by
  simp only [regRow, h]

theorem regRow_par {off k r : Nat} (h : regPlace off = some (.par, k, r)) : regRow off = findRow Block.par.rows r := by
  simp only [regRow, h]

/-- The commutation tables of the Parapet are LK registers of 24 bits. -/
theorem findRow_commutation (k : Fin 8) : findRow Block.par.rows (0x10 + 4 * k.val) = some ⟨0x10, 8, .lk, 0xFFFFFF⟩ := by
  revert k
  decide

/-- A commutation table reports no state: it holds its word. -/
theorem State.view_commutation (s : State) (k : Fin 8) : s.view (.par, 0, 0x10 + 4 * k.val) = none := by
  have hstat : 0x04 ≠ 0x10 + 4 * k.val ∧ 0x08 ≠ 0x10 + 4 * k.val ∧ 0x30 ≠ 0x10 + 4 * k.val := by omega
  simp only [State.view, State.viewPar, viewAt, hstat, if_false]

/-! ### The invalid encodings under the masks of their registers -/

theorem desatOk_masked_eq_false {v : Word}
    (h : 20 < fld v 0 5 ∨ fld v 5 7 < 10 ∨ 120 < fld v 5 7 ∨ 5 < fld v 12 3 ∨ fld v 16 5 < 2 ∨ 20 < fld v 16 5) :
    desatOk (v &&& wd 0x1F7FFF) = false := by
  simp (disch := decide) only [desatOk, inR, fld_and_wd, Bool.and_eq_false_iff, decide_eq_false_iff_not]
  omega

theorem curlim_masked_eq_false (s : State) (k : Nat) {v : Word} (h : fld v 0 12 = 0 ∨ fld v 16 12 ≤ fld v 0 12) :
    s.encodingOk (.pier, k, 0x10) (v &&& wd 0x0FFFFFFF) = false := by
  change (decide (1 ≤ fld _ 0 12) && decide (fld _ 0 12 < fld _ 16 12)) = false
  simp (disch := decide) only [fld_and_wd, Bool.and_eq_false_iff, decide_eq_false_iff_not]
  omega

theorem ovCfg_masked_eq_false (s : State) {v : Word}
    (h : fld v 0 11 < 1000 ∨ 1340 < fld v 0 11 ∨ fld v 16 11 < 360 ∨ 1100 < fld v 16 11) :
    s.encodingOk (.par, 0, 0x00) (v &&& wd 0x7FF07FF) = false := by
  change (inR (fld _ 0 11) 1000 1340 && inR (fld _ 16 11) 360 1100) = false
  simp (disch := decide) only [inR, fld_and_wd, Bool.and_eq_false_iff, decide_eq_false_iff_not]
  omega

theorem hallCfg_masked_eq_false (s : State) {v : Word} (h : fld v 4 8 = 0) :
    s.encodingOk (.par, 0, 0x0C) (v &&& wd 0xFFF) = false := by
  change decide (1 ≤ fld _ 4 8) = false
  simp (disch := decide) only [fld_and_wd, decide_eq_false_iff_not]
  omega

theorem commutOk_masked_eq_false {v : Word} {i : Fin 6} (hsame : fld v (4 * i.val) 2 = fld v (4 * i.val + 2) 2)
    (hleg : fld v (4 * i.val) 2 ≠ 3) : commutOk (v &&& wd 0xFFFFFF) = false := by
  have hmask : ∀ i : Fin 6, fld (wd 0xFFFFFF) (4 * i.val) 2 = 2 ^ 2 - 1 ∧ fld (wd 0xFFFFFF) (4 * i.val + 2) 2 = 2 ^ 2 - 1 := by
    decide
  obtain ⟨hhs, hls⟩ := hmask i
  refine List.all_eq_false.mpr ⟨i.val, List.mem_range.mpr i.isLt, ?_⟩
  simp only [fld_and_wd v hhs, fld_and_wd v hls]
  simp [hsame.symm, hleg]

theorem State.encodingOk_commutation (s : State) (k : Fin 8) (v : Word) :
    s.encodingOk (.par, 0, 0x10 + 4 * k.val) v = commutOk v := by
  have hov : 0x10 + 4 * k.val ≠ 0 := by omega
  have hcfg : 0x10 + 4 * k.val ≠ 0x0C := by omega
  have htab : 0x10 ≤ 0x10 + 4 * k.val ∧ 0x10 + 4 * k.val < 0x30 := by omega
  simp only [State.encodingOk, if_neg hov, if_neg hcfg, if_pos htab]

/-! ### Words that an LK register refuses -/

/-- The register at an offset is LK, holds its word whatever the deck's state, and has no encoding for the bits of `v`. -/
structure LkRefuses (off : Nat) (v : Word) (p : Block × Nat × Nat) (row : RegRow) : Prop where
  place : regPlace off = some p
  listed : regRow off = some row
  lk : row.acc = .lk
  held : ∀ s : State, s.view p = none
  invalid : ∀ s : State, s.encodingOk p (v &&& wd row.mask) = false

/-- An invalid encoding of Table 06-6 is a word that its LK register refuses. -/
theorem lkRefuses_of_invalidPierWord {off : Nat} {v : Word} (h : invalidPierWord off v) : ∃ p row, LkRefuses off v p row := by
  obtain ⟨l, hoff, hv⟩ | ⟨l, hoff, hv⟩ | ⟨hoff, hv⟩ | ⟨hoff, hv⟩ | ⟨k, hoff, i, hsame, hleg⟩ := h
  · have hp := regPlace_pier (r := 0x0C) l hoff (by decide)
    exact ⟨_, _, hp, regRow_pier hp, rfl, fun _ => rfl, fun _ => desatOk_masked_eq_false hv⟩
  · have hp := regPlace_pier (r := 0x10) l hoff (by decide)
    exact ⟨_, _, hp, regRow_pier hp, rfl, fun _ => rfl, fun s => curlim_masked_eq_false s l hv⟩
  · have hp := regPlace_par (r := 0x00) hoff (by decide)
    exact ⟨_, _, hp, regRow_par hp, rfl, fun _ => rfl, fun s => ovCfg_masked_eq_false s hv⟩
  · have hp := regPlace_par (r := 0x0C) hoff (by decide)
    exact ⟨_, _, hp, regRow_par hp, rfl, fun _ => rfl, fun s => hallCfg_masked_eq_false s hv⟩
  · have hp : regPlace off = some (.par, 0, 0x10 + 4 * k.val) := regPlace_par (by omega) (by omega)
    exact ⟨_, _, hp, (regRow_par hp).trans (findRow_commutation k), rfl, fun s => s.view_commutation k,
      fun s => (s.encodingOk_commutation k _).trans (commutOk_masked_eq_false hsame hleg)⟩

/-- A write that an LK register refuses is an access violation, whether the register is locked or not (R20). -/
theorem LkRefuses.hostWrite {off : Nat} {v : Word} {p : Block × Nat × Nat} {row : RegRow} (h : LkRefuses off v p row)
    (s : State) (be : BitVec 4) (ofs : Nat) : s.hostWrite off v be ofs = (s.at ofs).accessViolation off := by
  simp only [State.hostWrite, h.place, h.listed, h.lk, h.invalid, Bool.and_false, Bool.false_eq_true, if_false, ite_self]

/-- A register that holds its word reads the same in two states of one register map and one start-up state. -/
theorem LkRefuses.readReg_congr {off : Nat} {v : Word} {p : Block × Nat × Nat} {row : RegRow} (h : LkRefuses off v p row)
    {s t : State} (hbar : t.bar = s.bar) (hstart : t.start = s.start) : t.readReg off = s.readReg off := by
  simp only [State.readReg, State.reg, h.place, h.listed, h.held, hbar, hstart]

/-! ### The obligation -/

/-- Settles O59 (R152): each invalid encoding of Table 06-6 is refused by its register, which is an access violation and moves
neither the register map nor the legs, the Parapet, the sensing or the controlled state. -/
theorem invalidPierWrites : Obligations.InvalidPierWrites := by
  intro off v be ofs s _ hv
  obtain ⟨p, row, h⟩ := lkRefuses_of_invalidPierWord hv
  have hexec : Machine.exec (.registerWrite off v be ofs) s = .next ((s.at ofs).accessViolation off) :=
    congrArg Host.Outcome.next (h.hostWrite s be ofs)
  exact ⟨_, hexec, by simp, h.readReg_congr (by simp) (by simp), by simp, by simp, by simp, by simp, by simp, by simp⟩

end Sys2Proof.Machine
end

section
/-! PROOFS. The Keystone's causes of the fault line that carry a bit of KST_FAULT: the window watchdog and the RAM errors (R247, R248). -/
namespace Sys2Proof.Machine

/-! ### What the assertion leaves in KST_FAULT -/

/-- After an assertion the line is asserted, whether it was before or not. -/
@[simp] theorem KstS.faultLine_asserted (k : KstS) (s : State) : (k.asserted s).faultLine = true := by
  unfold KstS.asserted
  split
  case isTrue hline => exact hline
  case isFalse => rfl

@[simp] theorem KstS.wdt_asserted (k : KstS) (s : State) : (k.asserted s).wdt = k.wdt := by
  unfold KstS.asserted
  split <;> rfl

@[simp] theorem KstS.ecc_asserted (k : KstS) (s : State) : (k.asserted s).ecc = k.ecc := by
  unfold KstS.asserted
  split <;> rfl

/-! ### The window watchdog (R247) -/

/-- A missed service: the line, KST_FAULT.WDT and E021, and nothing of the registers, the inputs or of a leg but its gates. -/
theorem State.watchdogFault_spec (s : State) :
    s.watchdogFault.kst.faultLine = true ∧ s.watchdogFault.kst.wdt = true ∧ s.watchdogFault.protects 21 s.deckAddr ∧
    s.watchdogFault.bar = s.bar ∧ s.watchdogFault.adc = s.adc ∧
    ∀ k : Nat, s.partsOk = true → (s.watchdogFault.leg k).still = (s.leg k).still := by
  obtain ⟨hkst, hevent, hbar, hadc, -, hstill⟩ :=
    State.assertFault_spec { s with kst := { s.kst with wdt := true } } 21 0 (by decide)
  unfold State.watchdogFault
  exact ⟨by rw [hkst, KstS.faultLine_asserted], by rw [hkst, KstS.wdt_asserted], hevent, hbar, hadc, fun k hok => hstill hok k⟩

@[simp] theorem State.coresRun_at (s : State) (ofs : Nat) : (s.at ofs).coresRun = s.coresRun := rfl

/-- While the cores run, a service in the window is noted and one outside it is a miss. -/
theorem exec_watchdogService {s : State} (hrun : s.coresRun = true) (ofs : Nat) :
    Machine.exec (.watchdogService ofs) s =
      if s.t0end ≤ ofs ∧ ofs + 1000 * uNs ≤ s.pu then .next { s.at ofs with kst := { s.kst with served := some (ofs / u25) } }
      else .next (s.at ofs).watchdogFault := by
  change (if (!(s.at ofs).coresRun) = true then _ else _) = _
  rw [State.coresRun_at, hrun]
  rfl

/-- While the cores run, P − 1 µs is a miss exactly where no service was noted. -/
theorem exec_watchdogExpiry {s : State} (hrun : s.coresRun = true) :
    Machine.exec .watchdogExpiry s =
      if s.kst.served = none then .next (s.at (s.pu - 1000 * uNs)).watchdogFault else .next (s.at (s.pu - 1000 * uNs)) := by
  change (if ((s.at _).coresRun && decide (s.kst.served = none)) = true then _ else _) = _
  rw [State.coresRun_at, hrun, Bool.true_and]
  by_cases hnone : s.kst.served = none <;> simp [hnone]

/-- Settles O44 (R247): a service in the window is noted; one outside it, and a tick without one, is a missed service. -/
theorem windowWatchdog : Obligations.WindowWatchdog := by
  intro ofs s hrun
  refine ⟨fun hin => ?_, fun hout => ?_, fun hnone => ?_, fun hserved => ?_⟩
  · rw [exec_watchdogService hrun, if_pos hin]
  · have hmissed : ¬(s.t0end ≤ ofs ∧ ofs + 1000 * uNs ≤ s.pu) := by omega
    exact ⟨_, by rw [exec_watchdogService hrun, if_neg hmissed], (s.at ofs).watchdogFault_spec⟩
  · exact ⟨_, by rw [exec_watchdogExpiry hrun, if_pos hnone], (s.at (s.pu - 1000 * uNs)).watchdogFault_spec⟩
  · rw [exec_watchdogExpiry hrun, if_neg hserved]

/-! ### RAM errors (R248) -/

/-- A double-bit error of either core asserts the line with E022, KST_FAULT.ECC set. -/
theorem exec_ramEccError_double (trailing : Bool) (ofs : Nat) (s : State) :
    Machine.exec (.ramEccError trailing true ofs) s =
      .next ({ s.at ofs with kst := { s.kst with ecc := true } }.assertFault 22 0) := rfl

/-- Settles O43 (R248): a double-bit error asserts the line, and E022 comes with it even where the line stood already; a
single-bit error moves the counter of its core alone. -/
theorem ramErrors : Obligations.RamErrors := by
  intro trailing ofs s
  obtain ⟨hkst, hevent, -⟩ := State.assertFault_spec { s.at ofs with kst := { s.kst with ecc := true } } 22 0 (by decide)
  refine ⟨⟨_, exec_ramEccError_double trailing ofs s, ?_, ?_, fun _ => hevent⟩, rfl, rfl⟩
  · rw [hkst, KstS.faultLine_asserted]
  · rw [hkst, KstS.ecc_asserted]

end Sys2Proof.Machine
end

section
/-! PROOFS. What every command leaves, and what every step keeps: the queue and the bytes of MRAM, the fault line, the canonical form (chapter 95, R251). -/
namespace Sys2Proof.Machine

/-! ### The frame of every command -/

/-- Every command but the end of an MRAM write leaves the queue and the bytes of MRAM alone. -/
theorem exec_keeps (c : Instr) (s : State) (hc : ∀ ok, c ≠ .mramWriteDone ok) : outKeeps (exec c s) s := by
  cases c with
  | tickBoundary inp => exact execTickBoundary_keeps ..
  | doorbellFetch page descs => exact execDoorbellFetch_keeps ..
  | regularSequenceStart p => exact execRegularSequenceStart_keeps ..
  | regularSlotEnd c code => exact execRegularSlotEnd_keeps ..
  | injectedTrigger c j ofs => exact execInjectedTrigger_keeps ..
  | injectedSequenceStart c => exact execInjectedSequenceStart_keeps ..
  | injectedSequenceEnd c codes => exact execInjectedSequenceEnd_keeps ..
  | phi0Snapshot ov inj => exact execPhi0Snapshot_keeps ..
  | phi2Compute endAt tie => exact execPhi2Compute_keeps ..
  | phi3Mirror => exact execPhi3Mirror_keeps ..
  | periodStart l => exact execPeriodStart_keeps ..
  | directWrite l r v ofs => exact execDirectWrite_keeps ..
  | directCommit l ofs => exact execDirectCommit_keeps ..
  | ocLineAssert l e => exact execOcLineAssert_keeps ..
  | blankWindowEnd l ofs => exact execBlankWindowEnd_keeps ..
  | scLineAssert l e => exact execScLineAssert_keeps ..
  | desatDetect l x ofs => exact execDesatDetect_keeps ..
  | desatBlankEnd l x asserted ofs => exact execDesatBlankEnd_keeps ..
  | softOffPlateauEnd l x ofs => exact execSoftOffPlateauEnd_keeps ..
  | uvloTrip l r ofs => exact execUvloTrip_keeps ..
  | uvloRecover r => exact execUvloRecover_keeps ..
  | bootstrapUvloTimeout l ofs => exact execBootstrapUvloTimeout_keeps ..
  | linkOvTrip u ofs => exact execLinkOvTrip_keeps ..
  | cOvTrip u ofs => exact execCOvTrip_keeps ..
  | zcdDetect k ofs => exact execZcdDetect_keeps ..
  | overshootTruncate ofs => exact execOvershootTruncate_keeps ..
  | comparatorTest k pass ofs => exact execComparatorTest_keeps ..
  | testRoundEnd => exact execTestRoundEnd_keeps ..
  | testAgeOverdue l => exact execTestAgeOverdue_keeps ..
  | hallStateChange m v ofs => exact execHallStateChange_keeps ..
  | clockFail k ofs => exact execClockFail_keeps ..
  | debugHalt ofs => exact execDebugHalt_keeps ..
  | clocksValid ofs => exact execClocksValid_keeps ..
  | torquePeakExhaust t => exact execTorquePeakExhaust_keeps ..
  | dipEnd t => exact execDipEnd_keeps ..
  | ascExitNoAngle t => exact execAscExitNoAngle_keeps ..
  | senseFaultClear => exact execSenseFaultClear_keeps ..
  | pilotCycle p => exact execPilotCycle_keeps ..
  | kacFbTimeout ofs => exact execKacFbTimeout_keeps ..
  | brakePeakExhaust => exact execBrakePeakExhaust_keeps ..
  | shiftTimeout m => exact execShiftTimeout_keeps ..
  | homeTimeout m => exact execHomeTimeout_keeps ..
  | actuatorPeakExhaust m => exact execActuatorPeakExhaust_keeps ..
  | lockstepMismatch addr ofs => exact execLockstepMismatch_keeps ..
  | watchdogService ofs => exact execWatchdogService_keeps ..
  | watchdogExpiry => exact execWatchdogExpiry_keeps ..
  | ramEccError trailing double ofs => exact execRamEccError_keeps ..
  | debugAttach ofs => exact execDebugAttach_keeps ..
  | lsBrokenClear => exact execLsBrokenClear_keeps ..
  | handshakeFrame l0 l1 ofs => exact execHandshakeFrame_keeps ..
  | pairingTimeout => exact execPairingTimeout_keeps ..
  | mirrorFrame l0 l1 ofs => exact execMirrorFrame_keeps ..
  | relinquishFrame l0 l1 ofs => exact execRelinquishFrame_keeps ..
  | syncMessage m ofs => exact execSyncMessage_keeps ..
  | syncLoss ofs => exact execSyncLoss_keeps ..
  | announceMessage m ofs => exact execAnnounceMessage_keeps ..
  | pdelayExchange t1 t2 t3 t4 => exact execPdelayExchange_keeps ..
  | grandmasterSyncSend ofs => exact execGrandmasterSyncSend_keeps ..
  | launchMarkerDrive => exact execLaunchMarkerDrive_keeps ..
  | launchMarker steps => exact execLaunchMarker_keeps ..
  | launchMarkerMissing ofs => exact execLaunchMarkerMissing_keeps ..
  | censusReady ofs => exact execCensusReady_keeps ..
  | leapSecondInsert ofs => exact execLeapSecondInsert_keeps ..
  | rtcTrimUpdate trim ofs => exact execRtcTrimUpdate_keeps ..
  | vbakLow ofs => exact execVbakLow_keeps ..
  | protectionEventWrite => exact execProtectionEventWrite_keeps ..
  | pcieLinkChange up speed width ofs => exact execPcieLinkChange_keeps ..
  | pciePerst ofs => exact execPciePerst_keeps ..
  | fallbackFrame => exact execFallbackFrame_keeps ..
  | canFrameReceived p f ofs => exact execCanFrameReceived_keeps ..
  | frameAttemptEnd p e ofs => exact execFrameAttemptEnd_keeps ..
  | portIntegration p ofs => exact execPortIntegration_keeps ..
  | busOffRecoveryStart p ofs => exact execBusOffRecoveryStart_keeps ..
  | busOffRecovered p ofs => exact execBusOffRecovered_keeps ..
  | rerouteTest ofs => exact execRerouteTest_keeps ..
  | partnerAgeTick ofs => exact execPartnerAgeTick_keeps ..
  | txreq p ofs => exact execTxreq_keeps ..
  | objAbort p ofs => exact execObjAbort_keeps ..
  | resume p ofs => exact execResume_keeps ..
  | boRecover p ofs => exact execBoRecover_keeps ..
  | ldgSel slot ofs => exact execLdgSel_keeps ..
  | trestleRoundPost r => exact execTrestleRoundPost_keeps ..
  | bearingLinkPresent ofs => exact execBearingLinkPresent_keeps ..
  | bearingOutputInBand ofs => exact execBearingOutputInBand_keeps ..
  | bearingStartTimeout => exact execBearingStartTimeout_keeps ..
  | bearingLinkLoss ofs => exact execBearingLinkLoss_keeps ..
  | bearingFaultHoldEnd => exact execBearingFaultHoldEnd_keeps ..
  | vsupWarn cross ofs => exact execVsupWarn_keeps ..
  | vsupDipEnd cross ofs => exact execVsupDipEnd_keeps ..
  | vsupLongDip => exact execVsupLongDip_keeps ..
  | deckReset rail ofs => exact execDeckReset_keeps ..
  | start inp => exact execStart_keeps ..
  | go ofs => exact execGo_keeps ..
  | startTimeout => exact execStartTimeout_keeps ..
  | autoRestart => exact execAutoRestart_keeps ..
  | abut ofs => exact execAbut_keeps ..
  | abutmentServiceTick page descs => exact execAbutmentServiceTick_keeps ..
  | recordClose => exact execRecordClose_keeps ..
  | recSlotRelease mask => exact execRecSlotRelease_keeps ..
  | mramWriteDone ok => exact absurd rfl (hc ok)
  | charterChangeLands => exact execCharterChangeLands_keeps ..
  | calSetSwitch => exact execCalSetSwitch_keeps ..
  | updateVerified ok => exact execUpdateVerified_keeps ..
  | adcCalEnd c gain offset => exact execAdcCalEnd_keeps ..
  | refEnable ofs => exact execRefEnable_keeps ..
  | refDisable => exact execRefDisable_keeps ..
  | refSettled => exact execRefSettled_keeps ..
  | seqEn v => exact execSeqEn_keeps ..
  | causewayEnable v => exact execCausewayEnable_keeps ..
  | statReset => exact execStatReset_keeps ..
  | censusRelease k => exact execCensusRelease_keeps ..
  | tlRegisterWrite off v be ofs => exact execTlRegisterWrite_keeps ..
  | highWordLatchRead off ofs => exact execHighWordLatchRead_keeps ..
  | dataWindowAccess off wr ecc => exact execDataWindowAccess_keeps ..
  | registerWrite off v be ofs => exact execRegisterWrite_keeps ..
  | nop d => exact execNop_keeps ..
  | abortCmd d => exact execAbortCmd_keeps ..
  | deckRestart d => exact execDeckRestart_keeps ..
  | ltWrite d => exact execLtWrite_keeps ..
  | ltClear d => exact execLtClear_keeps ..
  | calMap d => exact execCalMap_keeps ..
  | handover d => exact execHandover_keeps ..
  | tlSet d => exact execTlSet_keeps ..
  | engCoef d => exact execEngCoef_keeps ..
  | engLimit d => exact execEngLimit_keeps ..
  | adcCal d => exact execAdcCal_keeps ..
  | pairRearm d => exact execPairRearm_keeps ..
  | adcTrig d => exact execAdcTrig_keeps ..
  | selfTest fails units => exact execSelfTest_keeps ..
  | tripClear d => exact execTripClear_keeps ..
  | pierClear d => exact execPierClear_keeps ..
  | charter block imageFits => exact execCharter_keeps ..
  | calWrite block => exact execCalWrite_keeps ..
  | update block proper => exact execUpdate_keeps ..
  | recTrig d => exact execRecTrig_keeps ..
  | mode d => exact execMode_keeps ..
  | tqTarget d => exact execTqTarget_keeps ..
  | spdTarget d => exact execSpdTarget_keeps ..
  | tPosRearm d => exact execTPosRearm_keeps ..
  | cVtgt d => exact execCVtgt_keeps ..
  | cItgt d => exact execCItgt_keeps ..
  | cPhases d => exact execCPhases_keeps ..
  | cCrowbarClr d => exact execCCrowbarClr_keeps ..
  | qPower d => exact execQPower_keeps ..
  | aHold d => exact execAHold_keeps ..
  | aShift d => exact execAShift_keeps ..
  | aPark d => exact execAPark_keeps ..
  | aRelease d => exact execARelease_keeps ..
  | aCurrent d => exact execACurrent_keeps ..
  | aHome d => exact execAHome_keeps ..
  | aPosRearm d => exact execAPosRearm_keeps ..
  | switchingEdge l tau => exact execSwitchingEdge_keeps ..
  | gateOnEdge l x => exact execGateOnEdge_keeps ..
  | carrierCentre t angle => exact execCarrierCentre_keeps ..
  | kAcOutFault => exact execKAcOutFault_keeps ..
  | errorFrame p eight ofs => exact execErrorFrame_keeps ..

/-- Every command leaves the queue alone. -/
theorem exec_keepsQueue (c : Instr) (s : State) : outKeepsQueue (exec c s) s := by
  by_cases hc : ∃ ok, c = .mramWriteDone ok
  · obtain ⟨ok, rfl⟩ := hc
    exact execMramWriteDone_keeps ok s
  · exact (exec_keeps c s fun ok e => hc ⟨ok, e⟩).queue

/-- Settles O2: the frame lemma of each command. -/
theorem queueAndMramFrame : Obligations.QueueAndMramFrame := by
  refine ⟨fun c s t h => ?_, fun c s t hc h a => ?_⟩
  · have hq := exec_keepsQueue c s
    rwa [h, outKeepsQueue_next] at hq
  · have hk := exec_keeps c s hc
    rw [h, outKeeps_next] at hk
    rw [hk.2]

/-! ### The fault line -/

/-- Every command but START holds the fault line (R251). -/
theorem exec_held (c : Instr) (s : State) (hc : ∀ inp, c ≠ .start inp) : outHeld (exec c s) s := by
  cases c with
  | tickBoundary inp => exact execTickBoundary_line ..
  | doorbellFetch page descs => exact execDoorbellFetch_line ..
  | regularSequenceStart p => exact execRegularSequenceStart_line ..
  | regularSlotEnd c code => exact execRegularSlotEnd_line ..
  | injectedTrigger c j ofs => exact execInjectedTrigger_line ..
  | injectedSequenceStart c => exact execInjectedSequenceStart_line ..
  | injectedSequenceEnd c codes => exact execInjectedSequenceEnd_line ..
  | phi0Snapshot ov inj => exact execPhi0Snapshot_line ..
  | phi2Compute endAt tie => exact execPhi2Compute_line ..
  | phi3Mirror => exact execPhi3Mirror_line ..
  | periodStart l => exact execPeriodStart_line ..
  | directWrite l r v ofs => exact execDirectWrite_line ..
  | directCommit l ofs => exact execDirectCommit_line ..
  | ocLineAssert l e => exact execOcLineAssert_line ..
  | blankWindowEnd l ofs => exact execBlankWindowEnd_line ..
  | scLineAssert l e => exact execScLineAssert_line ..
  | desatDetect l x ofs => exact execDesatDetect_line ..
  | desatBlankEnd l x asserted ofs => exact execDesatBlankEnd_line ..
  | softOffPlateauEnd l x ofs => exact execSoftOffPlateauEnd_line ..
  | uvloTrip l r ofs => exact execUvloTrip_line ..
  | uvloRecover r => exact execUvloRecover_line ..
  | bootstrapUvloTimeout l ofs => exact execBootstrapUvloTimeout_line ..
  | linkOvTrip u ofs => exact execLinkOvTrip_line ..
  | cOvTrip u ofs => exact execCOvTrip_line ..
  | zcdDetect k ofs => exact execZcdDetect_line ..
  | overshootTruncate ofs => exact execOvershootTruncate_line ..
  | comparatorTest k pass ofs => exact execComparatorTest_line ..
  | testRoundEnd => exact execTestRoundEnd_line ..
  | testAgeOverdue l => exact execTestAgeOverdue_line ..
  | hallStateChange m v ofs => exact execHallStateChange_line ..
  | clockFail k ofs => exact execClockFail_line ..
  | debugHalt ofs => exact execDebugHalt_line ..
  | clocksValid ofs => exact execClocksValid_line ..
  | torquePeakExhaust t => exact execTorquePeakExhaust_line ..
  | dipEnd t => exact execDipEnd_line ..
  | ascExitNoAngle t => exact execAscExitNoAngle_line ..
  | senseFaultClear => exact execSenseFaultClear_line ..
  | pilotCycle p => exact execPilotCycle_line ..
  | kacFbTimeout ofs => exact execKacFbTimeout_line ..
  | brakePeakExhaust => exact execBrakePeakExhaust_line ..
  | shiftTimeout m => exact execShiftTimeout_line ..
  | homeTimeout m => exact execHomeTimeout_line ..
  | actuatorPeakExhaust m => exact execActuatorPeakExhaust_line ..
  | lockstepMismatch addr ofs => exact execLockstepMismatch_line ..
  | watchdogService ofs => exact execWatchdogService_line ..
  | watchdogExpiry => exact execWatchdogExpiry_line ..
  | ramEccError trailing double ofs => exact execRamEccError_line ..
  | debugAttach ofs => exact execDebugAttach_line ..
  | lsBrokenClear => exact execLsBrokenClear_line ..
  | handshakeFrame l0 l1 ofs => exact execHandshakeFrame_line ..
  | pairingTimeout => exact execPairingTimeout_line ..
  | mirrorFrame l0 l1 ofs => exact execMirrorFrame_line ..
  | relinquishFrame l0 l1 ofs => exact execRelinquishFrame_line ..
  | syncMessage m ofs => exact execSyncMessage_line ..
  | syncLoss ofs => exact execSyncLoss_line ..
  | announceMessage m ofs => exact execAnnounceMessage_line ..
  | pdelayExchange t1 t2 t3 t4 => exact execPdelayExchange_line ..
  | grandmasterSyncSend ofs => exact execGrandmasterSyncSend_line ..
  | launchMarkerDrive => exact execLaunchMarkerDrive_line ..
  | launchMarker steps => exact execLaunchMarker_line ..
  | launchMarkerMissing ofs => exact execLaunchMarkerMissing_line ..
  | censusReady ofs => exact execCensusReady_line ..
  | leapSecondInsert ofs => exact execLeapSecondInsert_line ..
  | rtcTrimUpdate trim ofs => exact execRtcTrimUpdate_line ..
  | vbakLow ofs => exact execVbakLow_line ..
  | protectionEventWrite => exact execProtectionEventWrite_line ..
  | pcieLinkChange up speed width ofs => exact execPcieLinkChange_line ..
  | pciePerst ofs => exact execPciePerst_line ..
  | fallbackFrame => exact execFallbackFrame_line ..
  | canFrameReceived p f ofs => exact execCanFrameReceived_line ..
  | frameAttemptEnd p e ofs => exact execFrameAttemptEnd_line ..
  | portIntegration p ofs => exact execPortIntegration_line ..
  | busOffRecoveryStart p ofs => exact execBusOffRecoveryStart_line ..
  | busOffRecovered p ofs => exact execBusOffRecovered_line ..
  | rerouteTest ofs => exact execRerouteTest_line ..
  | partnerAgeTick ofs => exact execPartnerAgeTick_line ..
  | txreq p ofs => exact execTxreq_line ..
  | objAbort p ofs => exact execObjAbort_line ..
  | resume p ofs => exact execResume_line ..
  | boRecover p ofs => exact execBoRecover_line ..
  | ldgSel slot ofs => exact execLdgSel_line ..
  | trestleRoundPost r => exact execTrestleRoundPost_line ..
  | bearingLinkPresent ofs => exact execBearingLinkPresent_line ..
  | bearingOutputInBand ofs => exact execBearingOutputInBand_line ..
  | bearingStartTimeout => exact execBearingStartTimeout_line ..
  | bearingLinkLoss ofs => exact execBearingLinkLoss_line ..
  | bearingFaultHoldEnd => exact execBearingFaultHoldEnd_line ..
  | vsupWarn cross ofs => exact execVsupWarn_line ..
  | vsupDipEnd cross ofs => exact execVsupDipEnd_line ..
  | vsupLongDip => exact execVsupLongDip_line ..
  | deckReset rail ofs => exact execDeckReset_line ..
  | start inp => exact absurd rfl (hc inp)
  | go ofs => exact execGo_line ..
  | startTimeout => exact execStartTimeout_line ..
  | autoRestart => exact execAutoRestart_line ..
  | abut ofs => exact execAbut_line ..
  | abutmentServiceTick page descs => exact execAbutmentServiceTick_line ..
  | recordClose => exact execRecordClose_line ..
  | recSlotRelease mask => exact execRecSlotRelease_line ..
  | mramWriteDone ok => exact execMramWriteDone_line ..
  | charterChangeLands => exact execCharterChangeLands_line ..
  | calSetSwitch => exact execCalSetSwitch_line ..
  | updateVerified ok => exact execUpdateVerified_line ..
  | adcCalEnd c gain offset => exact execAdcCalEnd_line ..
  | refEnable ofs => exact execRefEnable_line ..
  | refDisable => exact execRefDisable_line ..
  | refSettled => exact execRefSettled_line ..
  | seqEn v => exact execSeqEn_line ..
  | causewayEnable v => exact execCausewayEnable_line ..
  | statReset => exact execStatReset_line ..
  | censusRelease k => exact execCensusRelease_line ..
  | tlRegisterWrite off v be ofs => exact execTlRegisterWrite_line ..
  | highWordLatchRead off ofs => exact execHighWordLatchRead_line ..
  | dataWindowAccess off wr ecc => exact execDataWindowAccess_line ..
  | registerWrite off v be ofs => exact execRegisterWrite_line ..
  | nop d => exact execNop_line ..
  | abortCmd d => exact execAbortCmd_line ..
  | deckRestart d => exact execDeckRestart_line ..
  | ltWrite d => exact execLtWrite_line ..
  | ltClear d => exact execLtClear_line ..
  | calMap d => exact execCalMap_line ..
  | handover d => exact execHandover_line ..
  | tlSet d => exact execTlSet_line ..
  | engCoef d => exact execEngCoef_line ..
  | engLimit d => exact execEngLimit_line ..
  | adcCal d => exact execAdcCal_line ..
  | pairRearm d => exact execPairRearm_line ..
  | adcTrig d => exact execAdcTrig_line ..
  | selfTest fails units => exact execSelfTest_line ..
  | tripClear d => exact execTripClear_line ..
  | pierClear d => exact execPierClear_line ..
  | charter block imageFits => exact execCharter_line ..
  | calWrite block => exact execCalWrite_line ..
  | update block proper => exact execUpdate_line ..
  | recTrig d => exact execRecTrig_line ..
  | mode d => exact execMode_line ..
  | tqTarget d => exact execTqTarget_line ..
  | spdTarget d => exact execSpdTarget_line ..
  | tPosRearm d => exact execTPosRearm_line ..
  | cVtgt d => exact execCVtgt_line ..
  | cItgt d => exact execCItgt_line ..
  | cPhases d => exact execCPhases_line ..
  | cCrowbarClr d => exact execCCrowbarClr_line ..
  | qPower d => exact execQPower_line ..
  | aHold d => exact execAHold_line ..
  | aShift d => exact execAShift_line ..
  | aPark d => exact execAPark_line ..
  | aRelease d => exact execARelease_line ..
  | aCurrent d => exact execACurrent_line ..
  | aHome d => exact execAHome_line ..
  | aPosRearm d => exact execAPosRearm_line ..
  | switchingEdge l tau => exact execSwitchingEdge_line ..
  | gateOnEdge l x => exact execGateOnEdge_line ..
  | carrierCentre t angle => exact execCarrierCentre_line ..
  | kAcOutFault => exact execKAcOutFault_line ..
  | errorFrame p eight ofs => exact execErrorFrame_line ..

/-- Settles O4 (R251): no command but START releases the fault line. -/
theorem faultLineHolds : Obligations.FaultLineHolds := by
  intro c s t hline hc h
  have hheld := exec_held c s hc
  rw [h, outHeld_next] at hheld
  exact hheld hline

/-! ### The canonical form -/

/-- Every command keeps the stores of the held registers and the parts canonical. -/
theorem exec_okay (c : Instr) (s : State) : outOkay (exec c s) s := by
  cases c with
  | tickBoundary inp => exact execTickBoundary_parts ..
  | doorbellFetch page descs => exact execDoorbellFetch_parts ..
  | regularSequenceStart p => exact execRegularSequenceStart_parts ..
  | regularSlotEnd c code => exact execRegularSlotEnd_parts ..
  | injectedTrigger c j ofs => exact execInjectedTrigger_parts ..
  | injectedSequenceStart c => exact execInjectedSequenceStart_parts ..
  | injectedSequenceEnd c codes => exact execInjectedSequenceEnd_parts ..
  | phi0Snapshot ov inj => exact execPhi0Snapshot_parts ..
  | phi2Compute endAt tie => exact execPhi2Compute_parts ..
  | phi3Mirror => exact execPhi3Mirror_parts ..
  | periodStart l => exact execPeriodStart_parts ..
  | directWrite l r v ofs => exact execDirectWrite_parts ..
  | directCommit l ofs => exact execDirectCommit_parts ..
  | ocLineAssert l e => exact execOcLineAssert_parts ..
  | blankWindowEnd l ofs => exact execBlankWindowEnd_parts ..
  | scLineAssert l e => exact execScLineAssert_parts ..
  | desatDetect l x ofs => exact execDesatDetect_parts ..
  | desatBlankEnd l x asserted ofs => exact execDesatBlankEnd_parts ..
  | softOffPlateauEnd l x ofs => exact execSoftOffPlateauEnd_parts ..
  | uvloTrip l r ofs => exact execUvloTrip_parts ..
  | uvloRecover r => exact execUvloRecover_parts ..
  | bootstrapUvloTimeout l ofs => exact execBootstrapUvloTimeout_parts ..
  | linkOvTrip u ofs => exact execLinkOvTrip_parts ..
  | cOvTrip u ofs => exact execCOvTrip_parts ..
  | zcdDetect k ofs => exact execZcdDetect_parts ..
  | overshootTruncate ofs => exact execOvershootTruncate_parts ..
  | comparatorTest k pass ofs => exact execComparatorTest_parts ..
  | testRoundEnd => exact execTestRoundEnd_parts ..
  | testAgeOverdue l => exact execTestAgeOverdue_parts ..
  | hallStateChange m v ofs => exact execHallStateChange_parts ..
  | clockFail k ofs => exact execClockFail_parts ..
  | debugHalt ofs => exact execDebugHalt_parts ..
  | clocksValid ofs => exact execClocksValid_parts ..
  | torquePeakExhaust t => exact execTorquePeakExhaust_parts ..
  | dipEnd t => exact execDipEnd_parts ..
  | ascExitNoAngle t => exact execAscExitNoAngle_parts ..
  | senseFaultClear => exact execSenseFaultClear_parts ..
  | pilotCycle p => exact execPilotCycle_parts ..
  | kacFbTimeout ofs => exact execKacFbTimeout_parts ..
  | brakePeakExhaust => exact execBrakePeakExhaust_parts ..
  | shiftTimeout m => exact execShiftTimeout_parts ..
  | homeTimeout m => exact execHomeTimeout_parts ..
  | actuatorPeakExhaust m => exact execActuatorPeakExhaust_parts ..
  | lockstepMismatch addr ofs => exact execLockstepMismatch_parts ..
  | watchdogService ofs => exact execWatchdogService_parts ..
  | watchdogExpiry => exact execWatchdogExpiry_parts ..
  | ramEccError trailing double ofs => exact execRamEccError_parts ..
  | debugAttach ofs => exact execDebugAttach_parts ..
  | lsBrokenClear => exact execLsBrokenClear_parts ..
  | handshakeFrame l0 l1 ofs => exact execHandshakeFrame_parts ..
  | pairingTimeout => exact execPairingTimeout_parts ..
  | mirrorFrame l0 l1 ofs => exact execMirrorFrame_parts ..
  | relinquishFrame l0 l1 ofs => exact execRelinquishFrame_parts ..
  | syncMessage m ofs => exact execSyncMessage_parts ..
  | syncLoss ofs => exact execSyncLoss_parts ..
  | announceMessage m ofs => exact execAnnounceMessage_parts ..
  | pdelayExchange t1 t2 t3 t4 => exact execPdelayExchange_parts ..
  | grandmasterSyncSend ofs => exact execGrandmasterSyncSend_parts ..
  | launchMarkerDrive => exact execLaunchMarkerDrive_parts ..
  | launchMarker steps => exact execLaunchMarker_parts ..
  | launchMarkerMissing ofs => exact execLaunchMarkerMissing_parts ..
  | censusReady ofs => exact execCensusReady_parts ..
  | leapSecondInsert ofs => exact execLeapSecondInsert_parts ..
  | rtcTrimUpdate trim ofs => exact execRtcTrimUpdate_parts ..
  | vbakLow ofs => exact execVbakLow_parts ..
  | protectionEventWrite => exact execProtectionEventWrite_parts ..
  | pcieLinkChange up speed width ofs => exact execPcieLinkChange_parts ..
  | pciePerst ofs => exact execPciePerst_parts ..
  | fallbackFrame => exact execFallbackFrame_parts ..
  | canFrameReceived p f ofs => exact execCanFrameReceived_parts ..
  | frameAttemptEnd p e ofs => exact execFrameAttemptEnd_parts ..
  | portIntegration p ofs => exact execPortIntegration_parts ..
  | busOffRecoveryStart p ofs => exact execBusOffRecoveryStart_parts ..
  | busOffRecovered p ofs => exact execBusOffRecovered_parts ..
  | rerouteTest ofs => exact execRerouteTest_parts ..
  | partnerAgeTick ofs => exact execPartnerAgeTick_parts ..
  | txreq p ofs => exact execTxreq_parts ..
  | objAbort p ofs => exact execObjAbort_parts ..
  | resume p ofs => exact execResume_parts ..
  | boRecover p ofs => exact execBoRecover_parts ..
  | ldgSel slot ofs => exact execLdgSel_parts ..
  | trestleRoundPost r => exact execTrestleRoundPost_parts ..
  | bearingLinkPresent ofs => exact execBearingLinkPresent_parts ..
  | bearingOutputInBand ofs => exact execBearingOutputInBand_parts ..
  | bearingStartTimeout => exact execBearingStartTimeout_parts ..
  | bearingLinkLoss ofs => exact execBearingLinkLoss_parts ..
  | bearingFaultHoldEnd => exact execBearingFaultHoldEnd_parts ..
  | vsupWarn cross ofs => exact execVsupWarn_parts ..
  | vsupDipEnd cross ofs => exact execVsupDipEnd_parts ..
  | vsupLongDip => exact execVsupLongDip_parts ..
  | deckReset rail ofs => exact execDeckReset_parts ..
  | start inp => exact execStart_parts ..
  | go ofs => exact execGo_parts ..
  | startTimeout => exact execStartTimeout_parts ..
  | autoRestart => exact execAutoRestart_parts ..
  | abut ofs => exact execAbut_parts ..
  | abutmentServiceTick page descs => exact execAbutmentServiceTick_parts ..
  | recordClose => exact execRecordClose_parts ..
  | recSlotRelease mask => exact execRecSlotRelease_parts ..
  | mramWriteDone ok => exact execMramWriteDone_parts ..
  | charterChangeLands => exact execCharterChangeLands_parts ..
  | calSetSwitch => exact execCalSetSwitch_parts ..
  | updateVerified ok => exact execUpdateVerified_parts ..
  | adcCalEnd c gain offset => exact execAdcCalEnd_parts ..
  | refEnable ofs => exact execRefEnable_parts ..
  | refDisable => exact execRefDisable_parts ..
  | refSettled => exact execRefSettled_parts ..
  | seqEn v => exact execSeqEn_parts ..
  | causewayEnable v => exact execCausewayEnable_parts ..
  | statReset => exact execStatReset_parts ..
  | censusRelease k => exact execCensusRelease_parts ..
  | tlRegisterWrite off v be ofs => exact execTlRegisterWrite_parts ..
  | highWordLatchRead off ofs => exact execHighWordLatchRead_parts ..
  | dataWindowAccess off wr ecc => exact execDataWindowAccess_parts ..
  | registerWrite off v be ofs => exact execRegisterWrite_parts ..
  | nop d => exact execNop_parts ..
  | abortCmd d => exact execAbortCmd_parts ..
  | deckRestart d => exact execDeckRestart_parts ..
  | ltWrite d => exact execLtWrite_parts ..
  | ltClear d => exact execLtClear_parts ..
  | calMap d => exact execCalMap_parts ..
  | handover d => exact execHandover_parts ..
  | tlSet d => exact execTlSet_parts ..
  | engCoef d => exact execEngCoef_parts ..
  | engLimit d => exact execEngLimit_parts ..
  | adcCal d => exact execAdcCal_parts ..
  | pairRearm d => exact execPairRearm_parts ..
  | adcTrig d => exact execAdcTrig_parts ..
  | selfTest fails units => exact execSelfTest_parts ..
  | tripClear d => exact execTripClear_parts ..
  | pierClear d => exact execPierClear_parts ..
  | charter block imageFits => exact execCharter_parts ..
  | calWrite block => exact execCalWrite_parts ..
  | update block proper => exact execUpdate_parts ..
  | recTrig d => exact execRecTrig_parts ..
  | mode d => exact execMode_parts ..
  | tqTarget d => exact execTqTarget_parts ..
  | spdTarget d => exact execSpdTarget_parts ..
  | tPosRearm d => exact execTPosRearm_parts ..
  | cVtgt d => exact execCVtgt_parts ..
  | cItgt d => exact execCItgt_parts ..
  | cPhases d => exact execCPhases_parts ..
  | cCrowbarClr d => exact execCCrowbarClr_parts ..
  | qPower d => exact execQPower_parts ..
  | aHold d => exact execAHold_parts ..
  | aShift d => exact execAShift_parts ..
  | aPark d => exact execAPark_parts ..
  | aRelease d => exact execARelease_parts ..
  | aCurrent d => exact execACurrent_parts ..
  | aHome d => exact execAHome_parts ..
  | aPosRearm d => exact execAPosRearm_parts ..
  | switchingEdge l tau => exact execSwitchingEdge_parts ..
  | gateOnEdge l x => exact execGateOnEdge_parts ..
  | carrierCentre t angle => exact execCarrierCentre_parts ..
  | kAcOutFault => exact execKAcOutFault_parts ..
  | errorFrame p eight ofs => exact execErrorFrame_parts ..

/-- Every command keeps the bytes of MRAM canonical. -/
theorem exec_memWf (c : Instr) (s t : State) (hmem : Memory.wf s.mrm.mem = true) (h : exec c s = .next t) :
    Memory.wf t.mrm.mem = true := by
  by_cases hc : ∃ ok, c = .mramWriteDone ok
  · obtain ⟨ok, rfl⟩ := hc
    exact execMramWriteDone_wf ok s t hmem h
  · have hk := exec_keeps c s fun ok e => hc ⟨ok, e⟩
    rw [h, outKeeps_next] at hk
    rwa [hk.2]

/-- Every command keeps the deck's sparse data canonical. -/
theorem exec_canonical (c : Instr) (s t : State) (hs : s.canonical = true) (h : exec c s = .next t) : t.canonical = true := by
  simp only [State.canonical, Bool.and_eq_true] at hs ⊢
  obtain ⟨hparts, hmem⟩ := hs
  have hokay := exec_okay c s
  rw [h, outOkay_next] at hokay
  exact ⟨hokay hparts, exec_memWf c s t hmem h⟩

/-- Settles O3: the queue is no part of the sparse data, and the command at its front keeps the canonical form. -/
theorem canonicalKept : Obligations.CanonicalKept := by
  intro s t hs h
  unfold step at h
  split at h
  case h_1 =>
    cases h
    exact hs
  case h_2 c rest _ => exact exec_canonical c { s with pending := rest } t hs h

end Sys2Proof.Machine
end

section
/-! PROOFS. The queue and the reset state; how a command of the ring meets the deck, and what completing one leaves (R329, R334, R352, R412). -/
namespace Sys2Proof.Machine

/-! ### The queue and the reset state -/

/-- Settles O1: a step is the front's effect on the queue's rest. -/
theorem stepRunsFront : Obligations.StepRunsFront := by
  refine ⟨fun _ _ _ => rfl, fun s hempty => ?_⟩
  unfold step
  rw [hempty]

/-- Settles O5: the reset state is closed, and each reset word is read off it. -/
theorem resetState : Obligations.ResetState := by
  refine ⟨by decide +kernel, by decide +kernel, by decide +kernel, by decide +kernel⟩

/-! ### Completions on a single deck -/

/-- A single deck writes every completion itself. -/
theorem State.writerOf_single {s : State} (h : s.inViaduct = false) (op a : Nat) : s.writerOf op a = true := by
  simp [State.writerOf, h]

/-- On a single deck a completion that was formed is due here. -/
theorem State.route_single {s : State} (h : s.inViaduct = false) (c : Completion) :
    s.route c = { s with cwy := { s.cwy with cmplDue := s.cwy.cmplDue ++ [c] } } := by
  rw [State.route, s.writerOf_single h, if_pos rfl]

/-- Settles O6: completing a command of a single deck. -/
theorem completionForm : Obligations.CompletionForm := by
  intro s d st r h
  rw [State.deckFinish, s.route_single h, completionOf, h]
  rfl

/-! ### How a command of the ring meets the deck -/

/-- A command of the ring meets the deck's circumstances before anything of its own. -/
theorem exec_onDeck {c : Instr} {d : Staged} (h : descriptorOf c = some d) (s : State) :
    ∃ run, exec c s = .next (s.onDeck d run) := by
  unfold descriptorOf at h
  split at h <;> cases h <;> exact ⟨_, rfl⟩

/-- Under the fault line a single deck completes a command with the fault-line status, but for DECK_RESTART (R250). -/
theorem State.onDeck_faultLine {s : State} {d : Staged} (run : State → State) (habut : s.start.abut = false)
    (hline : s.kst.faultLine = true) (hsingle : s.inViaduct = false) (hop : dOp d ≠ 2) :
    s.onDeck d run = (s.route (completionOf s d .faultLine 0 (max (s.kst.faultTick + 1) d.bound))).unstage d.seq := by
  simp [State.onDeck, State.faultCommand, habut, hline, hsingle, hop]

/-- In abutment mode every opcode but NOP, DECK_RESTART and UPDATE completes with wrong-state (R412). -/
theorem State.onDeck_abutment {s : State} {d : Staged} (run : State → State) (habut : s.start.abut = true)
    (hfetched : d.fail = none) (hnop : dOp d ≠ 0) (hrestart : dOp d ≠ 2) (hupdate : dOp d ≠ 0x62) :
    s.onDeck d run = s.deckFinish d .wrongState 0 := by
  simp [State.onDeck, State.abutCommand, habut, hfetched, hnop, hrestart, hupdate]

/-- Before deck ready a command stays staged. -/
theorem State.onDeck_notReady {s : State} {d : Staged} (run : State → State) (habut : s.start.abut = false)
    (hline : s.kst.faultLine = false) (hready : s.start.ready = false) : s.onDeck d run = s := by
  simp [State.onDeck, habut, hline, hready]

/-- Settles O7: the three circumstances in which no command has its own effect. -/
theorem commandsHeldOff : Obligations.CommandsHeldOff := by
  intro c d s hd
  obtain ⟨run, hexec⟩ := exec_onDeck hd s
  refine ⟨fun habut hline hsingle hop => ?_, fun habut hfetched hnop hrestart hupdate => ?_, fun habut hline hready => ?_⟩
  · rw [hexec, s.onDeck_faultLine run habut hline hsingle hop, s.route_single hsingle]
    rfl
  · rw [hexec, s.onDeck_abutment run habut hfetched hnop hrestart hupdate]
  · rw [hexec, s.onDeck_notReady run habut hline hready]

/-! ### A command that fails a check -/

/-- A status found at fetch or staging is the first of a command's statuses. -/
theorem State.deckStatus_of_early {s : State} {d : Staged} {st : Status} (h : s.earlyStatus d = some st) :
    s.deckStatus d = some st := by
  unfold State.earlyStatus at h
  unfold State.deckStatus
  cases hfail : d.fail with
  | some a => simpa [hfail] using h
  | none =>
    have hstage : s.stageCheck d = some st := by simpa [hfail] using h
    simp [hstage]

/-- A command of the deck that fails a check completes with its status and is not applied (R352). -/
theorem State.runDeck_fails {s : State} {d : Staged} {st : Status} (hacts : s.actsHere d = true)
    (hst : s.deckStatus d = some st) : s.runDeck d = s.deckFinish d st 0 := by
  unfold State.runDeck
  cases hearly : s.earlyStatus d with
  | some a =>
    have ha : some a = some st := (State.deckStatus_of_early hearly).symm.trans hst
    cases ha
    rfl
  | none => simp [hacts, hst]

/-- Settles O8 (R352): all but DECK_RESTART run alike, and DECK_RESTART makes the same checks. -/
theorem failedCheckChangesNothing : Obligations.FailedCheckChangesNothing := by
  intro d s st hruns hacts hst c hc
  have hrow : s.deckRow d = s.deckFinish d st 0 :=
    (s.onDeck_runs d _ hruns).trans (State.runDeck_fails hacts hst)
  have hrestart : exec (.deckRestart d) s = .next (s.deckFinish d st 0) := by
    change Host.Outcome.next (s.onDeck d _) = _
    rw [s.onDeck_runs d _ hruns]
    simp [hacts, hst]
  by_cases h : c = .deckRestart d
  · rw [h, hrestart]
  · have hexec : exec c s = .next (s.deckRow d) := by
      simp only [List.mem_cons, List.not_mem_nil, or_false] at hc
      rcases hc with rfl | rfl | rfl | rfl | rfl | rfl | rfl | rfl | rfl | rfl | rfl | rfl | rfl | rfl | rfl | rfl
      case inr.inr.inl => exact absurd rfl h
      all_goals rfl
    rw [hexec, hrow]

end Sys2Proof.Machine
end

section
/-! PROOFS. The effects of the deck-level opcodes: NOP, ABORT, the launch table, the recorder, the registers, the converters and the latches of the legs (R335, R357, R360, R361). -/
namespace Sys2Proof.Machine

/-! ### What completing a command moves -/

/-- Routing a completion moves the Causeway, and on a viaduct the copies of what the twin writes. -/
theorem State.route_eq (s : State) (c : Completion) : ∃ w v, s.route c = { s with cwy := w, vdt := v } := by
  unfold State.route
  split
  · exact ⟨_, _, rfl⟩
  · exact ⟨_, _, rfl⟩

/-- So does completing a command. -/
theorem State.deckFinish_eq (s : State) (d : Staged) (st : Status) (r : Nat) :
    ∃ w v, s.deckFinish d st r = { s with cwy := w, vdt := v } := by
  obtain ⟨w, v, h⟩ := s.route_eq (completionOf s d st r d.bound)
  exact ⟨_, v, by rw [State.deckFinish, h]; rfl⟩

/-- What a completion says of its deck depends on the held registers alone. -/
theorem completionOf_congr {s t : State} (h : t.bar = s.bar) : completionOf t = completionOf s := by
  have hreg : t.reg = s.reg := by unfold State.reg; rw [h]
  unfold completionOf State.inViaduct State.deckAddr State.roleBit
  rw [hreg]

/-! ### NOP and ABORT -/

/-- Aborting staged commands of a single deck completes each of them and takes it off the staged ones. -/
theorem State.foldl_abort {s : State} (hsingle : s.inViaduct = false) (b : Tick) (hits : List Staged) :
    hits.foldl (fun (t : State) x => (t.route (completionOf t x .aborted 0 b)).unstage x.seq) s =
      { s with cwy := { s.cwy with
          cmplDue := s.cwy.cmplDue ++ hits.map (fun x => completionOf s x .aborted 0 b)
          staged := s.cwy.staged.filter (fun x => decide (x.seq ∉ hits.map (fun h => h.seq))) } } := by
  induction hits generalizing s with
  | nil => simp
  | cons x hits ih =>
    have hsingle' : ((s.route (completionOf s x .aborted 0 b)).unstage x.seq).inViaduct = false := by
      rw [s.route_single hsingle]
      exact hsingle
    rw [List.foldl_cons, ih hsingle', s.route_single hsingle]
    have hkeep : ∀ y : Staged, (decide (y.seq ∉ hits.map (fun h => h.seq)) && decide (y.seq ≠ x.seq)) =
        decide (y.seq ∉ (x :: hits).map (fun h => h.seq)) := fun y => by
      simp only [List.map_cons, List.mem_cons, not_or, Bool.decide_and, Bool.and_comm, ne_eq]
    simp only [State.unstage, List.filter_filter, hkeep, List.map_cons, List.append_assoc, List.singleton_append]
    rfl

/-- ABORT that finds staged commands of its TAG completes them and itself (R335). -/
theorem State.abortCommand_hits {s : State} {d : Staged} (old : Ctl) (hsingle : s.inViaduct = false) {hits : List Staged}
    (hdef : s.cwy.staged.filter (fun x =>
      decide ((completionOf s x .aborted 0 0).doneTag = dP d 0 4) && decide (d.bound < x.bound)) = hits) (hne : hits ≠ []) :
    s.abortCommand old d = { s with cwy := { s.cwy with
      cmplDue := s.cwy.cmplDue ++ hits.map (fun x => completionOf s x .aborted 0 d.bound) ++
        [completionOf s d .success hits.length d.bound]
      staged := s.cwy.staged.filter (fun x => decide (x.seq ≠ d.seq) && decide (x.seq ∉ hits.map (fun h => h.seq))) } } := by
  unfold State.abortCommand
  simp only [hdef]
  rw [if_pos hne, State.foldl_abort hsingle, State.deckFinish, State.route_single (by exact hsingle)]
  simp only [State.unstage, List.filter_filter]
  rfl

/-- Settles O9 (R335, R357). -/
theorem nopAndAbort : Obligations.NopAndAbort := by
  refine ⟨fun d s hopen hop => ?_, fun d s hopen hop hsingle => ?_⟩
  · change Host.Outcome.next (s.deckRow d) = _
    rw [s.deckRow_own d hopen (by omega), State.deckEffect, hop]
    rfl
  · intro hits hne
    change Host.Outcome.next (s.deckRow d) = _
    rw [s.deckRow_own d hopen (by omega), State.deckEffect, hop]
    exact congrArg Host.Outcome.next (s.abortCommand_hits s.cur hsingle rfl hne)

/-! ### The launch table and the recorder -/

/-- A command of the deck in its row, once its checks have passed; HANDOVER alone acts on more than it names. -/
theorem State.deckRow_of_op {s : State} {d : Staged} {op : Nat} (hopen : s.deckOpen d) (hop : dOp d = op) (hne : op ≠ 0x20) :
    s.deckRow d = s.deckEffect s.cur [] false d := s.deckRow_own d hopen (by omega)

theorem exec_ltWrite (d : Staged) (s : State) : exec (.ltWrite d) s = .next (s.deckRow d) := rfl
theorem exec_ltClear (d : Staged) (s : State) : exec (.ltClear d) s = .next (s.deckRow d) := rfl
theorem exec_recTrig (d : Staged) (s : State) : exec (.recTrig d) s = .next (s.deckRow d) := rfl

/-- LT_CLEAR empties its slot and answers with what it replaced. -/
theorem State.ltClear_runs {s : State} {d : Staged} (hopen : s.deckOpen d) (hop : dOp d = 0x11) :
    exec (.ltClear d) s = .next ((s.putSlot (dP d 0 1) LtSlot.empty).deckFinish d .success
      ((s.pyl.slotAt (dP d 0 1)).st + 2 ^ 32 * eTag (s.pyl.slotAt (dP d 0 1)).bytes)) := by
  rw [exec_ltClear, State.deckRow_of_op hopen hop (by decide)]
  simp only [State.deckEffect, hop]
  rfl

/-- LT_WRITE whose entry passes the table's check arms its slot and answers with what it replaced. -/
theorem State.ltWrite_runs {s : State} {d : Staged} (hopen : s.deckOpen d) (hop : dOp d = 0x10)
    (hcheck : s.ltCheck (dP d 0 1) (BitVec.ofNat 256 (dP d 4 32)) d.bound = none) :
    exec (.ltWrite d) s = .next ((s.putSlot (dP d 0 1)
      (armedSlot (BitVec.ofNat 256 (dP d 4 32)) false (s.entryFirst (BitVec.ofNat 256 (dP d 4 32))))).deckFinish d .success
      ((s.pyl.slotAt (dP d 0 1)).st + 2 ^ 32 * eTag (s.pyl.slotAt (dP d 0 1)).bytes)) := by
  rw [exec_ltWrite, State.deckRow_of_op hopen hop (by decide)]
  simp only [State.deckEffect, hop]
  unfold State.ltWriteCommand
  simp only [hcheck]

/-- Settles O11 (R306, R357, R427). -/
theorem launchAndRecorderCommands : Obligations.LaunchAndRecorderCommands := by
  intro d s hopen k b was
  refine ⟨fun hop hcheck => ?_, fun st hop hcheck => ?_, fun hop => ?_, fun hop => ?_⟩
  · rw [State.ltWrite_runs hopen hop hcheck]
    simp only [armedSlot, State.entryFirst, Bool.false_eq_true, if_false, BitVec.or_zero]
    rfl
  · rw [exec_ltWrite, State.deckRow_of_op hopen hop (by decide)]
    simp only [State.deckEffect, hop]
    unfold State.ltWriteCommand
    simp only [show s.ltCheck (dP d 0 1) (BitVec.ofNat 256 (dP d 4 32)) d.bound = some st from hcheck]
  · exact State.ltClear_runs hopen hop
  · rw [exec_recTrig, State.deckRow_of_op hopen hop (by decide)]
    simp only [State.deckEffect, hop]
    rfl

/-! ### TL_SET, ENG_COEF and ENG_LIMIT -/

/-- Writing held registers keeps the register store canonical. -/
theorem State.setRegs_wf {s : State} (h : Store.wf barReset s.bar = true) (ws : List (Nat × Word)) :
    Store.wf barReset (s.setRegs ws).bar = true := by
  induction ws generalizing s with
  | nil => exact h
  | cons w ws ih => exact ih (s := s.setReg w.1 w.2) (Store.put_wf h)

/-- A register that no write names is as before. -/
theorem State.reg_setRegs_ne {s : State} (h : Store.wf barReset s.bar = true) {ws : List (Nat × Word)} {off : Nat}
    (hoff : off ∉ ws.map Prod.fst) : (s.setRegs ws).reg off = s.reg off := by
  induction ws generalizing s with
  | nil => rfl
  | cons w ws ih =>
    simp only [List.map_cons, List.mem_cons, not_or] at hoff
    exact (ih (s := s.setReg w.1 w.2) (Store.put_wf h) hoff.2).trans (s.reg_setReg_ne w.1 off w.2 h hoff.1)

/-- A register that one write names holds its word. -/
theorem State.reg_setRegs_mem {s : State} (h : Store.wf barReset s.bar = true) {ws : List (Nat × Word)}
    (hnodup : (ws.map Prod.fst).Nodup) {p : Nat × Word} (hp : p ∈ ws) : (s.setRegs ws).reg p.1 = p.2 := by
  induction ws generalizing s with
  | nil => cases hp
  | cons w ws ih =>
    simp only [List.map_cons, List.nodup_cons] at hnodup
    rcases List.mem_cons.mp hp with rfl | hp
    · exact (State.reg_setRegs_ne (s := s.setReg p.1 p.2) (Store.put_wf h) hnodup.1).trans (s.reg_setReg_same p.1 p.2 h)
    · exact ih (s := s.setReg w.1 w.2) (Store.put_wf h) hnodup.2 hp

/-- A state but for the bookkeeping of landed sets: the inputs' rejects, the engines' and the overrides counted. -/
def State.unlanded (s : State) : State := { s with adc := State.reset.adc, rej := [], tk := TickS.reset }

/-- Writing held registers moves nothing but them. -/
theorem State.setRegs_eq (s : State) (ws : List (Nat × Word)) : s.setRegs ws = { s with bar := (s.setRegs ws).bar } := by
  induction ws generalizing s with
  | nil => rfl
  | cons w ws ih => exact ih (s.setReg w.1 w.2)

/-- Noting that sets landed moves the bookkeeping alone. -/
theorem State.unlanded_setLanded (s : State) (sets : List TlSet) : (sets.foldl State.setLanded s).unlanded = s.unlanded := by
  induction sets generalizing s with
  | nil => rfl
  | cons x sets ih =>
    refine (ih (s.setLanded x)).trans ?_
    cases x <;> rfl

/-- What a register command leaves: its registers hold their words, every other one and the deck's parts are as before. -/
theorem State.registerCommand_spec {s : State} (h : Store.wf barReset s.bar = true) {d : Staged}
    (hnodup : ((dWrites d).map Prod.fst).Nodup) (landed : List (Nat × Word)) (later : Bool) :
    let t := s.registerCommand landed d later
    (∀ p ∈ dWrites d, t.reg p.1 = match regRow p.1 with | some r => p.2 &&& wd r.mask | none => p.2) ∧
    (∀ off, off ∉ (dWrites d).map Prod.fst → t.reg off = s.reg off) ∧
    t.legs = s.legs ∧ t.cur = s.cur ∧ t.stage = s.stage ∧ t.kst = s.kst ∧ t.pyl = s.pyl := by
  intro t
  let ws := (dWrites d).map (fun p => (p.1, match regRow p.1 with | some r => p.2 &&& wd r.mask | none => p.2))
  have hkeys : ws.map Prod.fst = (dWrites d).map Prod.fst := by simp [ws, Function.comp_def]
  let u := (tlSetsOf ws).foldl State.setLanded (s.setRegs ws)
  have hu : u.unlanded = (s.setRegs ws).unlanded := State.unlanded_setLanded _ _
  have ht : ∃ w v tk, t = { u with cwy := w, vdt := v, tk := tk } := by
    obtain ⟨w, v, hroute⟩ := (u.overrideTl landed (ws.map (fun p => p.1))).route_eq _
    exact ⟨_, v, _, (congrArg (fun x => State.unstage x d.seq) hroute).trans rfl⟩
  obtain ⟨w, v, tk, ht⟩ := ht
  have hbar : t.bar = (s.setRegs ws).bar := by
    rw [ht]
    exact (congrArg State.bar hu : u.unlanded.bar = (s.setRegs ws).unlanded.bar)
  have hreg : ∀ off, t.reg off = (s.setRegs ws).reg off := fun off => by rw [State.reg, hbar, ← State.reg]
  have hrest : ∀ {α : Type} (f : State → α), (∀ x : State, f x.unlanded = f x) →
      (∀ x w v tk, f { x with cwy := w, vdt := v, tk := tk } = f x) → (∀ x b, f { x with bar := b } = f x) → f t = f s := by
    intro α f hf hw hb
    rw [ht, hw, ← hf u, hu, hf, State.setRegs_eq, hb]
  refine ⟨fun p hp => ?_, fun off hoff => ?_, ?_, ?_, ?_, ?_, ?_⟩
  · rw [hreg]
    exact State.reg_setRegs_mem h (hkeys ▸ hnodup) (List.mem_map_of_mem hp)
  · rw [hreg]
    exact State.reg_setRegs_ne h (hkeys ▸ hoff)
  · exact hrest State.legs (fun _ => rfl) (fun _ _ _ _ => rfl) (fun _ _ => rfl)
  · exact hrest State.cur (fun _ => rfl) (fun _ _ _ _ => rfl) (fun _ _ => rfl)
  · exact hrest State.stage (fun _ => rfl) (fun _ _ _ _ => rfl) (fun _ _ => rfl)
  · exact hrest State.kst (fun _ => rfl) (fun _ _ _ _ => rfl) (fun _ _ => rfl)
  · exact hrest State.pyl (fun _ => rfl) (fun _ _ _ _ => rfl) (fun _ _ => rfl)

/-- Settles O13 (R360, R361). -/
theorem registerCommandsSet : Obligations.RegisterCommandsSet := by
  intro c d s hc hopen hparts hnodup
  refine ⟨s.registerCommand [] d false, ?_, State.registerCommand_spec (wf_bar hparts) hnodup [] false⟩
  rcases hc with ⟨rfl, hop⟩ | ⟨rfl, hop⟩ | ⟨rfl, hop⟩
  all_goals
    change Host.Outcome.next (s.deckRow d) = _
    simp only [s.deckRow_own d hopen (by omega), State.deckEffect, hop]

end Sys2Proof.Machine
end

section
/-! PROOFS. The restart that the Causeway carries out, the converters' commands, the latches of the legs and the self-test of the deck (R85, R120, R140, R149, R359). -/
namespace Sys2Proof.Machine

/-! ### What writing to the host leaves alone -/

/-- Two states that a view does not tell apart agree in whatever the view keeps. -/
theorem eq_of_view {α : Type} (view : State → State) {s t : State} (h : view t = view s) (f : State → α)
    (hf : ∀ u, f (view u) = f u) : f t = f s := by rw [← hf t, h, hf]

/-- A state but for its Causeway and its MRAM. -/
def State.ringless (s : State) : State := { s with cwy := State.reset.cwy, mrm := State.reset.mrm }

/-- A fold of steps that each leave a state alone but for its Causeway and its MRAM does so. -/
theorem State.ringless_foldl {α : Type} (g : State → α → State) (h : ∀ t a, (g t a).ringless = t.ringless) (l : List α)
    (s : State) : (l.foldl g s).ringless = s.ringless := by
  induction l generalizing s with
  | nil => rfl
  | cons a l ih => exact (ih _).trans (h s a)

@[simp] theorem State.ringless_signal (s : State) (v : Nat) : (s.signal v).ringless = s.ringless := by
  unfold State.signal
  split <;> rfl

@[simp] theorem State.ringless_logEvent (s : State) (e : Event) : (s.logEvent e).ringless = s.ringless := by
  unfold State.logEvent
  dsimp only
  split_ifs <;> rfl

@[simp] theorem State.ringless_noteTrigger (s : State) (e : Event) : (s.noteTrigger e).ringless = s.ringless := by
  unfold State.noteTrigger
  split <;> rfl

/-- Raising an event moves the Causeway and the MRAM alone. -/
@[simp] theorem State.ringless_raise (s : State) (code : Nat) (addr : AddrWord) (cause : Nat) (val val2 : Int) :
    (s.raise code addr cause val val2).ringless = s.ringless := by
  have h : ∀ e : Event, ((s.logEvent e).noteTrigger e).ringless = s.ringless := by simp
  unfold State.raise
  dsimp only
  split
  · exact h _
  · exact h _

theorem State.ringless_writeCompletions (s : State) : s.writeCompletions.ringless = s.ringless := by
  unfold State.writeCompletions
  split
  · exact State.ringless_foldl State.putCmpl (fun _ _ => rfl) _ _
  · rfl

theorem State.ringless_putEvent (s : State) (e : Event) : (s.putEvent e).ringless = s.ringless := by
  unfold State.putEvent
  exact State.ringless_signal _ _

theorem State.ringless_judgeRsv (s : State) : s.judgeRsv.ringless = s.ringless := by
  unfold State.judgeRsv
  dsimp only
  split
  · exact State.ringless_signal _ _
  · rfl

theorem State.ringless_endStorm (s : State) : s.endStorm.ringless = s.ringless := by
  have h : ∀ (t : State) (e : Event), t.ringless = s.ringless → ((t.logEvent e).noteTrigger e).ringless = s.ringless := by
    intro t e ht
    rw [State.ringless_noteTrigger, State.ringless_logEvent, ht]
  unfold State.endStorm
  dsimp only
  split
  · exact (State.ringless_putEvent _ _).trans (h _ _ rfl)
  · exact h _ _ rfl

theorem State.ringless_writeEvents (s : State) : s.writeEvents.ringless = s.ringless := by
  have hput : ∀ (l : List Event) (t : State), (l.foldl State.putEvent t).ringless = t.ringless :=
    State.ringless_foldl _ State.ringless_putEvent
  unfold State.writeEvents
  extract_lets evs s1
  split
  · rfl
  · split
    · exact (State.ringless_judgeRsv _).trans (hput _ _)
    · refine (State.ringless_judgeRsv _).trans ?_
      split
      · exact (State.ringless_endStorm _).trans (hput _ _)
      · exact hput _ _

/-! ### DECK_RESTART -/

/-- The restart of the deck: what it writes to the host first moves neither the state that goes on nor the one that begins anew. -/
theorem State.deckRestart_spec (s : State) (d : Staged) (applied : Tick) :
    let t := s.deckRestart d applied
    t.tk = { TickS.reset with now := s.tk.now } ∧ t.legs = [] ∧ t.cur = State.reset.cur ∧ t.stage = State.reset.stage ∧
    t.adc = State.reset.adc ∧ t.pyl = State.reset.pyl ∧ t.fp = State.reset.fp ∧ t.vdt = State.reset.vdt ∧
    t.kst.faultLine = s.kst.faultLine ∧ t.kst.lsBroken = s.kst.lsBroken ∧ t.start.ready = false ∧
    t.start.failCount = s.start.failCount ∧ t.cal = s.cal ∧ t.trl.rstCause = 3 ∧ t.trl.vsup = s.trl.vsup ∧
    t.trl.frozen = s.trl.frozen ∧ t.trl.brg = (if s.trl.brg = .latched then .off else s.trl.brg) ∧ t.pending = s.pending ∧
    t.cwy.staged = [] ∧ t.cwy.cmdFetched = idxNext d.seq := by
  intro t
  let u := { s with cwy := { s.cwy with
    cmplDue := s.cwy.cmplDue ++ [completionOf s d .success 0 applied] } }.writeCompletions.writeEvents
  have hu : u.ringless = s.ringless := (State.ringless_writeEvents _).trans (State.ringless_writeCompletions _)
  have ht : t = { u with
    cwy := { u.cwy with cmdFetched := idxNext d.seq }
    trl := { u.trl with rstCause := 3, rstRail := 0 } }.restart := rfl
  have htk : u.tk = s.tk := eq_of_view _ hu State.tk fun _ => rfl
  have hkst : u.kst = s.kst := eq_of_view _ hu State.kst fun _ => rfl
  have hstart : u.start = s.start := eq_of_view _ hu State.start fun _ => rfl
  have hcal : u.cal = s.cal := eq_of_view _ hu State.cal fun _ => rfl
  have htrl : u.trl = s.trl := eq_of_view _ hu State.trl fun _ => rfl
  have hpending : u.pending = s.pending := eq_of_view _ hu State.pending fun _ => rfl
  clear_value t u
  subst ht
  rw [← htk, ← hkst, ← hstart, ← hcal, ← htrl, ← hpending]
  exact ⟨rfl, rfl, rfl, rfl, rfl, rfl, rfl, rfl, rfl, rfl, rfl, rfl, rfl, rfl, rfl, rfl, rfl, rfl, rfl, rfl⟩

/-- Where its checks pass, or under the fault line, DECK_RESTART restarts the deck (R250, R359). -/
theorem exec_deckRestart {d : Staged} {s : State} (hop : dOp d = 2)
    (h : s.deckOpen d ∨ (s.start.abut = false ∧ s.kst.faultLine = true ∧ d.fail = none ∧ s.roleHere (dAddr d) = true)) :
    ∃ applied, exec (.deckRestart d) s = .next (s.deckRestart d applied) := by
  change ∃ applied, Host.Outcome.next (s.onDeck d _) = _
  rcases h with ⟨hruns, hacts, hst⟩ | ⟨habut, hline, hfetched, hrole⟩
  · refine ⟨d.bound, ?_⟩
    rw [s.onDeck_runs d _ hruns]
    simp [hacts, hst]
  · refine ⟨max (s.kst.faultTick + 1) d.bound, ?_⟩
    simp only [State.onDeck, State.faultCommand, habut, hline, hop, hfetched, hrole]
    rfl

/-- Settles O10 (R250, R359). -/
theorem deckRestart : Obligations.DeckRestart := by
  intro d s hop h
  obtain ⟨applied, hexec⟩ := exec_deckRestart hop h
  exact ⟨_, hexec, s.deckRestart_spec d applied⟩

/-! ### Folds of one change over a list of parts -/

/-- Changing the parts of a list alike, once or more, changes exactly those, where changing one twice is changing it once. -/
theorem Store.get_foldl_upd {α : Type} [DecidableEq α] {d : Nat → α} (f : α → α) (hf : ∀ x, f (f x) = f x) (ks : List Nat)
    {m : Store α} (h : Store.wf d m = true) (k : Nat) :
    Store.get d (ks.foldl (fun n j => Store.upd d n j f) m) k = if k ∈ ks then f (Store.get d m k) else Store.get d m k := by
  induction ks generalizing m with
  | nil => simp
  | cons j ks ih =>
    rw [List.foldl_cons, ih (Store.upd_wf h)]
    by_cases hkj : k = j
    · subst hkj
      have hget : Store.get d (Store.upd d m k f) k = f (Store.get d m k) := Store.get_put_same h
      simp [hget, hf]
    · have hget : Store.get d (Store.upd d m j f) k = Store.get d m k := Store.get_put_ne h hkj
      simp [hget, hkj]

theorem State.foldl_updConv_eq {β : Type} (f : ConvS → ConvS) (key : β → Nat) (cs : List β) (s : State) :
    cs.foldl (fun t c => t.updConv (key c) f) s = { s with adc := { s.adc with
      conv := (cs.map key).foldl (fun n j => Store.upd (fun _ => ConvS.init) n j f) s.adc.conv } } := by
  induction cs generalizing s with
  | nil => rfl
  | cons c cs ih => exact ih (s.updConv (key c) f)

theorem State.foldl_updPair_eq (f : PairS → PairS) (ks : List Nat) (s : State) :
    ks.foldl (fun t k => t.updPair k f) s = { s with adc := { s.adc with
      pair := ks.foldl (fun n j => Store.upd (fun _ => PairS.init) n j f) s.adc.pair } } := by
  induction ks generalizing s with
  | nil => rfl
  | cons k ks ih => exact ih (s.updPair k f)

theorem State.updLegs_eq (f : LegS → LegS) (ls : List Nat) (s : State) :
    s.updLegs ls (fun _ => f) = { s with legs := ls.foldl (fun n j => Store.upd LegS.init n j f) s.legs } := by
  induction ls generalizing s with
  | nil => rfl
  | cons l ls ih => exact ih (s.updLeg l f)

/-- Changing the legs of a list keeps the sparse stores canonical. -/
theorem State.updLegs_sound (s : State) (ls : List Nat) (f : Nat → LegS → LegS) (h : s.partsOk = true) :
    (s.updLegs ls f).partsOk = true := by
  induction ls generalizing s with
  | nil => exact h
  | cons l ls ih => exact ih _ (s.updLeg_sound l (f l) h)

/-- Changing the legs of a list alike changes exactly those. -/
theorem State.leg_updLegs {s : State} (h : s.partsOk = true) (f : LegS → LegS) (hf : ∀ x, f (f x) = f x) (ls : List Nat)
    (l : Nat) : (s.updLegs ls (fun _ => f)).leg l = if l ∈ ls then f (s.leg l) else s.leg l := by
  rw [State.updLegs_eq]
  exact Store.get_foldl_upd f hf ls (wf_legs h) l

/-! ### ADC_CAL, PAIR_REARM and ADC_TRIG -/

/-- What the start of a calibration does to a converter (R64, R85). -/
def ConvS.calibrating (k : ConvS) : ConvS :=
  { k with calRun := true, busy := (match k.busy with | .regular n t => .late n t | b => b), nextSlot := none }

theorem ConvS.calibrating_calibrating (k : ConvS) : k.calibrating.calibrating = k.calibrating := by
  unfold ConvS.calibrating
  cases k.busy <;> rfl

theorem mem_maskConvs (m : Nat) (c : Conv) : c ∈ maskConvs m ↔ m.testBit c.val = true := by
  simp [maskConvs]

/-- The start of a calibration changes the converters it names and notes its run. -/
theorem State.startCal_eq (s : State) (cs : List Conv) (cmd : Option Staged) :
    s.startCal cs cmd = { s with adc := { s.adc with
      conv := (cs.map Fin.val).foldl (fun n j => Store.upd (fun _ => ConvS.init) n j ConvS.calibrating) s.adc.conv
      cal := s.adc.cal ++ [{ running := cs, passed := [], failed := [], cmd := cmd }] } } := by
  have h := State.foldl_updConv_eq ConvS.calibrating Fin.val cs s
  unfold State.startCal
  change (fun t : State => ({ t with adc := { t.adc with
    cal := t.adc.cal ++ [{ running := cs, passed := [], failed := [], cmd := cmd }] } } : State))
      (cs.foldl (fun t c => t.updConv c.val ConvS.calibrating) s) = _
  rw [h]

/-- The named converters begin to calibrate, and no other changes. -/
theorem State.conv_startCal {s : State} (h : s.partsOk = true) (m : Nat) (cmd : Option Staged) (c : Conv) :
    (s.startCal (maskConvs m) cmd).conv c.val = if m.testBit c.val then (s.conv c.val).calibrating else s.conv c.val := by
  have hmem : c.val ∈ (maskConvs m).map Fin.val ↔ m.testBit c.val = true := by
    rw [← mem_maskConvs]
    exact List.mem_map_of_injective Fin.val_injective
  have hget := Store.get_foldl_upd ConvS.calibrating ConvS.calibrating_calibrating ((maskConvs m).map Fin.val) (wf_conv h) c.val
  simp only [hmem] at hget
  rw [State.startCal_eq]
  exact hget

/-- Settles O14 (R64, R72, R82, R85). -/
theorem converterCommands : Obligations.ConverterCommands := by
  intro d s hopen hparts
  refine ⟨fun hop => ⟨(s.startCal (maskConvs (dP d 0 2)) (some d)).unstage d.seq, ?_, ?_, fun c => ?_, ?_⟩, fun hop => ?_, fun hop => ?_⟩
  · change Host.Outcome.next (s.deckRow d) = _
    rw [State.deckRow_of_op hopen hop (by decide)]
    simp only [State.deckEffect, hop]
  · rw [State.startCal_eq]
    rfl
  · exact (State.conv_startCal hparts (dP d 0 2) (some d) c).trans rfl
  · rw [State.startCal_eq]
    exact ⟨rfl, rfl, rfl, rfl⟩
  · let ks := (List.range 8).filter (fun k => (dP d 0 1).testBit k)
    let was := bitmap 8 (fun k => ks.contains k && (s.pairS k).implausible)
    let f : PairS → PairS := fun x => { x with implausible := false, run := 0 }
    obtain ⟨w, v, hfin⟩ := (ks.foldl (fun (t : State) k => t.updPair k f) s).deckFinish_eq d .success was
    have hexec : exec (.pairRearm d) s = .next ((ks.foldl (fun (t : State) k => t.updPair k f) s).deckFinish d .success was) := by
      change Host.Outcome.next (s.deckRow d) = _
      rw [State.deckRow_of_op hopen hop (by decide)]
      simp only [State.deckEffect, hop]
      rfl
    rw [hfin, State.foldl_updPair_eq] at hexec
    refine ⟨_, hexec, fun k hk => ?_, rfl, rfl, rfl, rfl⟩
    have hget := Store.get_foldl_upd f (fun _ => rfl) ks (wf_pair hparts) k
    have hmem : k ∈ ks ↔ (dP d 0 1).testBit k = true := by simp [ks, hk]
    simp only [hmem] at hget
    exact hget
  · have hexec : exec (.adcTrig d) s = .next (s.adcTrigCommand d) := by
      change Host.Outcome.next (s.deckRow d) = _
      rw [State.deckRow_of_op hopen hop (by decide)]
      simp only [State.deckEffect, hop]
    obtain ⟨w, v, hfin⟩ := State.deckFinish_eq ({ s with adc := { s.adc with hostTrig := s.adc.hostTrig ++ (maskConvs (dP d 0 2)).flatMap (fun c =>
        ((List.finRange 4).filter (fun (j : Fin 4) => decide (s.srcType c.val j.val = 4))).map (fun j =>
          (c, j, s.boundary d.bound + dP d 4 4 * u25))) } }) d .success
      (convMask ((maskConvs (dP d 0 2)).filter (fun c => !((List.finRange 4).filter (fun (j : Fin 4) => decide (s.srcType c.val j.val = 4))).isEmpty)))
    exact ⟨_, hexec.trans (congrArg Host.Outcome.next hfin), rfl, rfl, rfl, rfl, rfl⟩

/-! ### TRIP_CLEAR and PIER_CLEAR -/

/-- A command that clears latches of legs and drives those that had one moves the named legs by the change, and every leg by
its gates; what `v` sees of a leg must not depend on the gates. -/
theorem State.clear_spec {s : State} (h : s.partsOk = true) (f : LegS → LegS) (hf : ∀ x, f (f x) = f x) (named driven : List Nat)
    (d : Staged) (st : Status) (r : Nat) :
    let t := ((s.updLegs named (fun _ => f)).driveAll driven).deckFinish d st r
    (∀ {α : Type} (v : LegS → α), (∀ g, v g.still = v g) →
      ∀ l, v (t.leg l) = if l ∈ named then v (f (s.leg l)) else v (s.leg l)) ∧
    t.bar = s.bar ∧ t.cur = s.cur ∧ t.stage = s.stage ∧ t.adc = s.adc ∧ t.kst = s.kst := by
  intro t
  let u := s.updLegs named (fun _ => f)
  have hdriven := u.driveAll_driven driven
  have hu : u = { s with legs := u.legs } := by
    simp only [u]
    rw [State.updLegs_eq]
  obtain ⟨w, v, hfin⟩ := (u.driveAll driven).deckFinish_eq d st r
  have ht : t = { u.driveAll driven with cwy := w, vdt := v } := hfin
  have hlegless : (u.driveAll driven).legless = s.legless := by
    rw [hdriven.rest, hu]
    rfl
  rw [ht]
  refine ⟨fun v hv l => ?_, eq_of_view _ hlegless State.bar fun _ => rfl, eq_of_view _ hlegless State.cur fun _ => rfl,
    eq_of_view _ hlegless State.stage fun _ => rfl, eq_of_view _ hlegless State.adc fun _ => rfl,
    eq_of_view _ hlegless State.kst fun _ => rfl⟩
  have hleg : v ((u.driveAll driven).leg l) = v (u.leg l) := hdriven.field (s.updLegs_sound named _ h) v hv l
  have hcleared : u.leg l = if l ∈ named then f (s.leg l) else s.leg l := State.leg_updLegs h f hf named l
  rw [← apply_ite v, ← hcleared]
  exact hleg

/-- Settles O15 (R120, R140). -/
theorem legClearCommands : Obligations.LegClearCommands := by
  intro d s hopen hparts
  refine ⟨fun hop => ?_, fun hop => ?_⟩
  · have hexec : exec (.tripClear d) s = .next (s.tripClearCommand d) := by
      change Host.Outcome.next (s.deckRow d) = _
      rw [State.deckRow_of_op hopen hop (by decide)]
      simp only [State.deckEffect, hop]
    obtain ⟨hleg, hrest⟩ := State.clear_spec hparts (fun g => { g with tripLatch := false, tripTicks := [] }) (fun _ => rfl)
      (dLegs d) ((dLegs d).filter (fun l => (s.leg l).tripLatch)) d .success
      (legBits ((dLegs d).filter (fun l => (s.leg l).tripLatch)))
    refine ⟨_, hexec, fun l => (hleg LegS.tripLatch (fun _ => rfl) l).trans ?_, fun l hl => ?_, fun l => ⟨?_, ?_⟩, hrest⟩
    · by_cases hl : l ∈ dLegs d <;> simp [hl]
    · exact (hleg LegS.tripTicks (fun _ => rfl) l).trans (if_pos hl)
    · exact (hleg LegS.desatHs (fun _ => rfl) l).trans (ite_self _)
    · exact (hleg LegS.desatLs (fun _ => rfl) l).trans (ite_self _)
  · have hexec : exec (.pierClear d) s = .next (s.pierClearCommand d) := by
      change Host.Outcome.next (s.deckRow d) = _
      rw [State.deckRow_of_op hopen hop (by decide)]
      simp only [State.deckEffect, hop]
    obtain ⟨hleg, hrest⟩ := State.clear_spec hparts (fun g => { g with desatHs := false, desatLs := false }) (fun _ => rfl)
      (dLegs d) ((dLegs d).filter (fun l => (s.leg l).desatHs || (s.leg l).desatLs)) d .success
      (legBits ((dLegs d).filter (fun l => (s.leg l).desatHs || (s.leg l).desatLs)))
    refine ⟨_, hexec, fun l => ⟨(hleg LegS.desatHs (fun _ => rfl) l).trans ?_, (hleg LegS.desatLs (fun _ => rfl) l).trans ?_⟩,
      fun l => (hleg LegS.tripLatch (fun _ => rfl) l).trans (ite_self _), hrest⟩
    · by_cases hl : l ∈ dLegs d <;> simp [hl]
    · by_cases hl : l ∈ dLegs d <;> simp [hl]

/-! ### SELF_TEST of the deck -/

/-- Raising an event for each member of a list moves the Causeway's waiting events and the MRAM alone. -/
theorem State.foldl_raise_deckTest (s : State) (units : List (Fin 4)) (addr : AddrWord) :
    let t := units.foldl (fun (t : State) u => t.raise 8 addr (32 + u.val) 0 0) s
    t.ringless = s.ringless ∧ t.cwy.tests = s.cwy.tests ∧ t.cwy.cmplDue = s.cwy.cmplDue := by
  induction units generalizing s with
  | nil => exact ⟨rfl, rfl, rfl⟩
  | cons u units ih =>
    obtain ⟨hring, htests, hdue⟩ := ih (s.raise 8 addr (32 + u.val) 0 0)
    exact ⟨hring.trans (State.ringless_raise ..), htests.trans (State.cwy_tests_raise ..), hdue.trans (State.cwy_cmplDue_raise ..)⟩

/-- Completing a command leaves the tests that wait alone. -/
theorem State.tests_deckFinish (s : State) (d : Staged) (st : Status) (r : Nat) : (s.deckFinish d st r).cwy.tests = s.cwy.tests := by
  unfold State.deckFinish State.route
  split <;> rfl

/-- A commanded test of the deck's comparators marks the units that failed, and has tested all four (R149). -/
theorem State.commandedDeckTest_spec (s : State) (units : List (Fin 4)) :
    let t := s.commandedDeckTest units
    (∀ u : Fin 4, u ∈ t.par.testFail ↔ u ∈ units) ∧ t.par.ovTested = [0, 1, 2, 3] ∧ t.cwy.tests = s.cwy.tests ∧
    t.bar = s.bar ∧ t.legs = s.legs ∧ t.cur = s.cur ∧ t.stage = s.stage := by
  intro t
  let fails := ([0, 1, 2, 3] : List (Fin 4)).filter (fun u => units.contains u)
  let s1 : State := { s with par := { s.par with testFail := fails, ovTested := [0, 1, 2, 3] } }
  obtain ⟨hring, htests, -⟩ := s1.foldl_raise_deckTest fails s.deckAddr
  have hpar : t.par = s1.par := eq_of_view _ hring State.par fun _ => rfl
  refine ⟨fun u => ?_, ?_, htests, eq_of_view _ hring State.bar fun _ => rfl, eq_of_view _ hring State.legs fun _ => rfl,
    eq_of_view _ hring State.cur fun _ => rfl, eq_of_view _ hring State.stage fun _ => rfl⟩
  · have hall : u ∈ ([0, 1, 2, 3] : List (Fin 4)) := by
      revert u
      decide
    rw [hpar]
    change u ∈ fails ↔ u ∈ units
    simp only [fails, List.mem_filter, hall, true_and, List.contains_iff_mem]
  · rw [hpar]

/-- Settles O16 (R149). -/
theorem selfTestDeck : Obligations.SelfTestDeck := by
  refine ⟨fun fails units s hnone => ?_, fun fails units d s hone hdeck => ?_⟩
  · change Host.Outcome.next (s.cwy.tests.foldl _ _) = _
    rw [hnone]
    change Host.Outcome.next { s with cwy := { s.cwy with tests := [] } } = _
    rw [← hnone]
  · let s0 : State := { s with cwy := { s.cwy with tests := [] } }
    let t := s0.commandedDeckTest units
    obtain ⟨hfail, hov, htests, hbar, hlegs, hcur, hstage⟩ := s0.commandedDeckTest_spec units
    let st := if t.par.testFail = [] then Status.success else .selfTestFailed
    let r := bitmap 4 (fun k => t.par.testFail.any (fun u => decide (u.val = k)))
    have hexec : exec (.selfTest fails units) s = .next (t.deckFinish d st r) := by
      change Host.Outcome.next (s.cwy.tests.foldl _ _) = _
      rw [hone, List.foldl_cons, List.foldl_nil, State.testDone, if_pos hdeck]
    have hany : ∀ k, t.par.testFail.any (fun u => decide (u.val = k)) = units.any (fun u => decide (u.val = k)) := by
      intro k
      rw [Bool.eq_iff_iff, List.any_eq_true, List.any_eq_true]
      exact exists_congr fun u => and_congr_left' (hfail u)
    have hnil : t.par.testFail = [] ↔ units = [] := by
      simp only [List.eq_nil_iff_forall_not_mem]
      exact forall_congr' fun u => not_congr (hfail u)
    obtain ⟨w, v, hfin⟩ := t.deckFinish_eq d st r
    have hkeep : ∀ {α : Type} (f : State → α), (∀ x w v, f { x with cwy := w, vdt := v } = f x) → f (t.deckFinish d st r) = f t :=
      fun f hf => by rw [hfin, hf]
    have hpar := hkeep State.par fun _ _ _ => rfl
    refine ⟨_, hexec, ?_, fun u => ?_, ?_, fun hsingle => ?_, ?_, ?_, ?_, ?_⟩
    · rw [State.tests_deckFinish]
      exact htests
    · rw [hpar]
      exact hfail u
    · rw [hpar]
      exact hov
    · have hsingle' : t.inViaduct = false := by
        unfold State.inViaduct State.reg at hsingle ⊢
        rw [hbar]
        exact hsingle
      refine ⟨completionOf t d st r d.bound, ?_, rfl, ?_, ?_⟩
      · rw [State.deckFinish, State.route_single hsingle']
        simp only [State.unstage, List.getLast?_concat]
      · exact if_congr hnil rfl rfl
      · exact congrArg (bitmap 4) (funext hany)
    · exact (hkeep State.bar fun _ _ _ => rfl).trans hbar
    · exact (hkeep State.legs fun _ _ _ => rfl).trans hlegs
    · exact (hkeep State.cur fun _ _ _ => rfl).trans hcur
    · exact (hkeep State.stage fun _ _ _ => rfl).trans hstage

end Sys2Proof.Machine
end

section
/-! PROOFS. HANDOVER on a controlled state whose store of actuators is not canonical (R286). -/
namespace Sys2Proof.Machine

/-- An actuator as at reset, but owned. -/
def ownedActuator : ActS := { ActS.init with owner := true }

/-- A deck of a pair that leads A0 alone; its controlled state lists A0 twice, each time as owned. No such list is canonical: giving
A0 up turns its first entry into the default, which is removed, and the second one, still owned, is what A0 reads as. -/
def twiceListed : State :=
  let s : State := { State.reset with start := { State.reset.start with released := false, ready := true, ticking := true, step := 11 } }
  let s := (s.setReg 0x40 (wd 0x7F40)).setReg 0x1000 (wd 4000)
  { s with
    vdt := { s.vdt with pair := 2, paired := true, cwyLead := true, leads := [.a0] }
    cur := { s.cur with act := [(0, ownedActuator), (0, ownedActuator)] }
    stage := { s.stage with act := [(0, { ActS.init with st := .standby })] } }

/-- HANDOVER of A0, at the deck's own address. -/
def handoverA0 : Staged :=
  { desc := BitVec.ofNat 512 (0x20 + 0xF3F * 2 ^ 16 + 7 * 2 ^ 32 + 2 ^ 128 + 5 * 2 ^ 192),
    seq := 1, bound := 5, late := false, lateCause := 0, fail := none }

/-- The command's checks pass. -/
theorem twiceListed_open : twiceListed.deckOpen handoverA0 ∧ dOp handoverA0 = 0x20 ∧ Span.ofCode? (dP handoverA0 0 1) = some .a0 := by
  unfold State.deckOpen
  decide +kernel

/-- After it A0 still reads as owned, though the deck led it before. -/
theorem twiceListed_keepsOwner : ((twiceListed.deckRow handoverA0).cur.actS 0).owner = true := by
  decide +kernel

/-- Refutes O12: the statement does not ask that the store of actuators be canonical, and HANDOVER of a span that a store lists
twice gives up its first entry alone. -/
theorem not_calMapAndHandover : ¬ Obligations.CalMapAndHandover := by
  intro h
  obtain ⟨hopen, hop, hspan⟩ := twiceListed_open
  obtain ⟨t, hexec, -, -, -, -, howner, -⟩ := (h.2 handoverA0 twiceListed hopen hop).2 .a0 hspan
  have ht : twiceListed.deckRow handoverA0 = t := Host.Outcome.next.inj hexec
  have hgiven : (t.cur.actS 0).owner = false := howner (by decide)
  rw [← ht, twiceListed_keepsOwner] at hgiven
  cases hgiven

end Sys2Proof.Machine
end

section
/-! PROOFS. The opcodes of the spans: what a command that its span accepts, refuses or already fulfils leaves (R333, R352 to R354). -/
namespace Sys2Proof.Machine

/-! ### What accepting a command leaves beside its span -/

/-- A completion but for its mark of being superseded. -/
def Completion.unmarked (k : Completion) : Completion := { k with superseded := false }

/-- Marking a quantity as set moves the quantities and the marks of superseded completions alone. -/
theorem Ctl.unmarked_quantity (c : Ctl) (seq : Option Nat) (q : Nat) :
    (c.quantity seq q).cmpl.map Completion.unmarked = c.cmpl.map Completion.unmarked := by
  unfold Ctl.quantity
  rw [List.map_map]
  refine List.map_congr_left fun k _ => ?_
  change Completion.unmarked (if _ then _ else _) = _
  split <;> rfl

/-- What setting quantities leaves: the stage but for completions and quantities, and everything outside the stage. -/
theorem State.foldl_quantity (seq : Option Nat) (qs : List Nat) (s : State) :
    let t := qs.foldl (fun (t : State) q => { t with stage := t.stage.quantity seq q }) s
    t.stageless = s.stageless ∧ t.stage.quiet = s.stage.quiet ∧ t.stage.notes = s.stage.notes ∧
    t.stage.handled = s.stage.handled ∧ t.stage.cmpl.map Completion.unmarked = s.stage.cmpl.map Completion.unmarked := by
  induction qs generalizing s with
  | nil => exact ⟨rfl, rfl, rfl, rfl, rfl⟩
  | cons q qs ih =>
    obtain ⟨hrest, hquiet, hnotes, hhandled, hcmpl⟩ := ih { s with stage := s.stage.quantity seq q }
    exact ⟨hrest, hquiet, hnotes, hhandled, hcmpl.trans (Ctl.unmarked_quantity ..)⟩

/-- Two states that agree but for their stages differ in the stage alone. -/
theorem State.eq_of_stageless {s t : State} (h : t.stageless = s.stageless) : t = { s with stage := t.stage } :=
  congrArg (fun x : State => { x with stage := t.stage }) h

/-- Giving a span up moves the viaduct alone. -/
theorem State.giveUpSpan_eq (s : State) (x : Span) (cause : Nat) : ∃ v, s.giveUpSpan x cause = { s with vdt := v } := by
  unfold State.giveUpSpan
  split
  · exact ⟨_, rfl⟩
  · exact ⟨_, rfl⟩

theorem State.modeRelinquish_eq (s : State) (d : Staged) : ∃ v, s.modeRelinquish d = { s with vdt := v } := by
  unfold State.modeRelinquish
  extract_lets x run
  split
  · exact State.giveUpSpan_eq ..
  · exact ⟨_, rfl⟩

/-- A command that its span accepts and that completes at its boundary: its own effect on the stage, and its answer; a MODE may
give the span up. -/
theorem State.spanRow_accepted {s : State} {d : Staged} (hruns : s.runs = true) (hopen : s.prepare.spanOpen d)
    {c : Ctl} {r : SpanAct} (hr : s.prepare.spanRun d = r) (hv : r.v = .go) (hshort : r.long = false)
    (hstage : r.s = s.prepare.withStage c) :
    ∃ st v, s.spanRow d = { s.prepare with stage := st, vdt := v } ∧ (dOp d ≠ 0x100 → v = s.prepare.vdt) ∧
      st.quiet = c.quiet ∧ st.notes = c.notes ∧ st.answered d .success r.result := by
  subst hr
  let u := (s.prepare.spanRun d).quants.foldl (fun (t : State) q => { t with stage := t.stage.quantity (some d.seq) q })
    (s.prepare.spanRun d).s
  obtain ⟨hrest, hquiet, hnotes, -, -⟩ := State.foldl_quantity (some d.seq) (s.prepare.spanRun d).quants (s.prepare.spanRun d).s
  have hu : u = { s.prepare with stage := u.stage } := State.eq_of_stageless (hrest.trans (by rw [hstage]; rfl))
  have hquiet' : u.stage.quiet = c.quiet := hquiet.trans (by rw [hstage]; rfl)
  have hnotes' : u.stage.notes = c.notes := hnotes.trans (by rw [hstage]; rfl)
  have hrow : s.spanRow d = (u.modeRelinquish d).spanDone d .success (s.prepare.spanRun d).result (s.prepare.spanRun d).clip := by
    rw [s.spanRow_go d hruns hopen hv]
    simp only [hshort, Bool.false_eq_true, if_false]
    rfl
  obtain ⟨v, hgive⟩ := u.modeRelinquish_eq d
  have hkeep : dOp d ≠ 0x100 → v = s.prepare.vdt := by
    intro hop
    have h := congrArg State.vdt (hgive.symm.trans (u.modeRelinquish_other d hop))
    rw [hu] at h
    exact h
  clear_value u
  rw [hgive] at hrow
  refine ⟨((({ u with vdt := v } : State).spanDone d .success (s.prepare.spanRun d).result (s.prepare.spanRun d).clip).stage), v,
    ?_, hkeep, ?_, ?_, ?_⟩
  · rw [hrow, hu]
    rfl
  · exact hquiet'
  · exact hnotes'
  · exact ⟨List.mem_cons_self, _, List.getLast?_concat, rfl, rfl, rfl, rfl, rfl, rfl⟩

/-- The same of an opcode that gives no span up: nothing outside the stage moves. -/
theorem State.spanRow_answered {s : State} {d : Staged} (hruns : s.runs = true) (hopen : s.prepare.spanOpen d)
    {c : Ctl} {r : SpanAct} (hop : dOp d ≠ 0x100) (hr : s.prepare.spanRun d = r) (hv : r.v = .go) (hshort : r.long = false)
    (hstage : r.s = s.prepare.withStage c) :
    let t := s.spanRow d
    t.stage.answered d .success r.result ∧ t.stageless = s.prepare.stageless ∧ t.stage.quiet = c.quiet ∧ t.stage.notes = c.notes := by
  obtain ⟨st, v, hrow, hkeep, hquiet, hnotes, hans⟩ := State.spanRow_accepted hruns hopen hr hv hshort hstage
  rw [hkeep hop] at hrow
  intro t
  have ht : t = { s.prepare with stage := st } := hrow
  rw [ht]
  exact ⟨hans, rfl, hquiet, hnotes⟩

/-- A command that its span accepts and that completes later: its own effect on the stage, and the command is dealt with. -/
theorem State.spanRow_begun {s : State} {d : Staged} (hruns : s.runs = true) (hopen : s.prepare.spanOpen d)
    {c : Ctl} {r : SpanAct} (hop : dOp d ≠ 0x100) (hr : s.prepare.spanRun d = r) (hv : r.v = .go) (hlong : r.long = true)
    (hstage : r.s = s.prepare.withStage c) :
    let t := s.spanRow d
    t.stageless = s.prepare.stageless ∧ t.stage.handled = d.seq :: c.handled ∧
    t.stage.cmpl.map Completion.unmarked = c.cmpl.map Completion.unmarked ∧ t.stage.quiet = c.quiet := by
  subst hr
  intro t
  let u := (s.prepare.spanRun d).quants.foldl (fun (t : State) q => { t with stage := t.stage.quantity (some d.seq) q })
    (s.prepare.spanRun d).s
  obtain ⟨hrest, hquiet, -, hhandled, hcmpl⟩ :=
    State.foldl_quantity (some d.seq) (s.prepare.spanRun d).quants (s.prepare.spanRun d).s
  have hu : u = { s.prepare with stage := u.stage } := State.eq_of_stageless (hrest.trans (by rw [hstage]; rfl))
  have hquiet' : u.stage.quiet = c.quiet := hquiet.trans (by rw [hstage]; rfl)
  have hhandled' : u.stage.handled = c.handled := hhandled.trans (by rw [hstage]; rfl)
  have hcmpl' : u.stage.cmpl.map Completion.unmarked = c.cmpl.map Completion.unmarked := hcmpl.trans (by rw [hstage]; rfl)
  have ht : t = { u with stage := { u.stage with handled := d.seq :: u.stage.handled } } := by
    simp only [t]
    rw [s.spanRow_go d hruns hopen hv]
    simp only [hlong, if_true]
    rw [State.modeRelinquish_other _ d hop]
  clear_value u t
  subst ht
  refine ⟨?_, congrArg (d.seq :: ·) hhandled', hcmpl', hquiet'⟩
  rw [hu]
  rfl

/-! ### Refusals -/

/-- A command whose gates pass and that its span does not carry out only completes (R352, R353). -/
theorem State.spanRow_declined {s : State} {d : Staged} (hruns : s.runs = true) (hopen : s.prepare.spanOpen d) :
    (∀ st, (s.prepare.spanRun d).v = .no st → s.spanRow d = s.prepare.spanDone d st 0 false) ∧
    ((s.prepare.spanRun d).v = .same →
      s.spanRow d = s.prepare.spanDone d .success (s.prepare.spanRun d).result false) := by
  obtain ⟨hnew, hearly, hacts, hvspan, hsafed⟩ := hopen
  have hrow : s.spanRow d = s.prepare.spanCommand d := by
    simp only [State.spanRow, s.onDeck_runs d _ hruns, State.runSpan, hnew, if_false, hearly, hacts, if_true]
  rw [hrow]
  refine ⟨fun st hv => ?_, fun hv => ?_⟩
  · simp only [State.spanCommand, hvspan, hsafed, Option.orElse, hv]
  · simp only [State.spanCommand, hvspan, hsafed, Option.orElse, hv]

/-- Settles O17 (R352, R353). -/
theorem spanRefusalChangesNothing : Obligations.SpanRefusalChangesNothing := by
  intro d s hruns hopen c hc p
  have hexec : exec c s = .next (s.spanRow d) := by
    simp only [List.mem_cons, List.not_mem_nil, or_false] at hc
    rcases hc with rfl | rfl | rfl | rfl | rfl | rfl | rfl | rfl | rfl | rfl | rfl | rfl | rfl | rfl | rfl | rfl
    all_goals rfl
  obtain ⟨hno, hsame⟩ := State.spanRow_declined hruns hopen
  rw [hexec]
  exact ⟨fun st hv => congrArg _ (hno st hv), fun hv => congrArg _ (hsame hv), fun _ => ⟨rfl, rfl⟩⟩

/-! ### MODE -/

/-- The actuator of a span of the actuators is the span's own. -/
theorem aSp_of_code {x : Span} (h : 5 ≤ x.code) : aSp (x.code - 5) = x := by
  revert h
  cases x <;> decide

/-- MODE that its span accepts. -/
theorem State.mode_runs {s : State} {d : Staged} (hruns : s.runs = true) (hopen : s.prepare.spanOpen d) (hop : dOp d = 0x100)
    {c : Ctl} (hmode : s.prepare.modeSpan (dSpan d) (dP d 0 1) (dS d 4) (dS d 8) = (.go, s.prepare.withStage (c.changes (dSpan d)))) :
    ∃ t, exec (.mode d) s = .next t ∧ t.stage.answered d .success 0 ∧ t.stage.quiet = (c.changes (dSpan d)).quiet ∧
      t.cur = s.prepare.cur ∧ t.legs = s.prepare.legs ∧ t.bar = s.prepare.bar := by
  have hrun : s.prepare.spanRun d =
      SpanAct.of (.go, s.prepare.withStage (c.changes (dSpan d))) (modeQuants (dSpan d) (dP d 0 1)) := by
    simp only [State.spanRun, hop, hmode]
  obtain ⟨st, v, hrow, -, hquiet, -, hans⟩ := State.spanRow_accepted hruns hopen hrun rfl rfl rfl
  refine ⟨_, congrArg Host.Outcome.next hrow, hans, hquiet, rfl, rfl, rfl⟩

/-- What MODE makes of a traction span (R170, R363). -/
theorem TracS.toMode_spec (x : TracS) (code : Nat) (v : Int) :
    (x.toMode code v).st = (match code with | 0 => .disabled | 1 => .standby | 2 => .torque | _ => .speed) ∧
    (code = 2 → (x.toMode code v).target = v) ∧ (3 ≤ code → (x.toMode code v).spdTarget = v) := by
  match code with
  | 0 => exact ⟨rfl, by omega, by omega⟩
  | 1 =>
    refine ⟨?_, by omega, by omega⟩
    simp only [TracS.toMode]
    split <;> rfl
  | 2 => exact ⟨rfl, fun _ => rfl, by omega⟩
  | n + 3 => exact ⟨rfl, by omega, fun _ => rfl⟩

/-- Settles O18 (R353, R362). -/
theorem modeCommand : Obligations.ModeCommand := by
  intro d s hruns hopen hop p code hjob runs
  have hgate : (decide (code ≠ 0) && p.cur.disabled (dSpan d) && (decide (p.jobAhead = 0x60) || decide (p.jobAhead = 0x61))) = false := by
    rcases hjob with h | h | ⟨h, h'⟩
    · simp [h]
    · simp [h]
    · simp [h, h']
  refine ⟨fun tr hspan hgo => ?_, fun hspan hgo => ?_, fun hspan hgo => ?_, fun hspan hgo => ?_, fun hspan hgo hnot hnot' hcfg => ?_⟩
  · refine ⟨(p.stage.trac tr).toMode code (dS d 4), State.mode_runs hruns hopen hop ?_, TracS.toMode_spec ..⟩
    have htrac : p.tracMode tr code (dS d 4) =
        (.go, p.withStage ((p.stage.putTrac tr ((p.stage.trac tr).toMode code (dS d 4))).changes (Span.ofTrac tr))) := by
      simp only [State.tracMode, hgo]
    unfold State.modeSpan
    rw [hgate, hspan]
    match tr, htrac with
    | 0, htrac => exact htrac
    | 1, htrac => exact htrac
  · let x := { p.stage.cs with st := CMode.ofCode code }
    let y := match CMode.ofCode code with
      | .link => { x with vtgt := dS d 4 } | .batt => { x with vtgt := dS d 4 } | .current => { x with itgt := dS d 4 } | _ => x
    refine ⟨y, State.mode_runs hruns hopen hop ?_, ?_, ?_, ?_⟩
    · have hmode : p.cMode code (dS d 4) = (.go, p.withStage ({ p.stage with cs := y }.changes .c)) := by
        simp only [State.cMode, hgo]
        rfl
      unfold State.modeSpan
      rw [hgate, hspan]
      exact hmode
    · simp only [y]
      split <;> rfl
    · rintro (h | h) <;> simp only [y, h, CMode.ofCode]
    · intro h
      simp only [y, h, CMode.ofCode]
  · let x := { p.stage.qs with st := QMode.ofCode code }
    let y := match QMode.ofCode code with
      | .charge => { x with pTgt := dS d 4, qTgt := dS d 8 } | .exportGf => { x with pTgt := dS d 4, qTgt := dS d 8 } | _ => x
    refine ⟨y, State.mode_runs hruns hopen hop ?_, ?_, ?_⟩
    · have hmode : p.qMode code (dS d 4) (dS d 8) = (.go, p.withStage ({ p.stage with qs := y }.changes .q)) := by
        simp only [State.qMode, hgo]
        rfl
      unfold State.modeSpan
      rw [hgate, hspan]
      exact hmode
    · simp only [y]
      split <;> rfl
    · rintro (h | h) <;> simp only [y, h, QMode.ofCode, and_self]
  · refine State.mode_runs hruns hopen hop ?_
    have hmode : p.bMode code = (.go, p.withStage ({ p.stage with bs :=
        { p.stage.bs with st := if code = 0 then .disabled else .armed, mismatchRun := 0 } }.changes .b)) := by
      simp only [State.bMode, hgo]
    unfold State.modeSpan
    rw [hgate, hspan]
    exact hmode
  · refine State.mode_runs hruns hopen hop ?_
    have hact : p.aMode (dAct d) code = (.go, p.withStage ((p.stage.putAct (dAct d)
        (if code = 0 then { p.stage.actS (dAct d) with st := .disabled }
          else { p.stage.actS (dAct d) with st := .standby, initAng := true })).changes (aSp (dAct d)))) := by
      simp only [State.aMode, hgo, hnot, hnot', or_self, if_false, hcfg, Bool.false_eq_true]
    have hsp : aSp (dAct d) = dSpan d := aSp_of_code hspan
    rw [hsp] at hact
    have hmode : p.modeSpan (dSpan d) code (dS d 4) (dS d 8) = p.aMode (dAct d) code := by
      unfold State.modeSpan
      rw [hgate]
      unfold dAct
      revert hspan
      cases dSpan d
      case a0 | a1 | a2 | a3 =>
        intro _
        rfl
      all_goals exact fun h => absurd h (by decide)
    exact hmode.trans hact

end Sys2Proof.Machine
end

section
/-! PROOFS. The opcodes of the traction, converter, charger and actuator spans (R354, R363 to R370). -/
namespace Sys2Proof.Machine

/-! ### Traction -/

/-- Settles O19 (R354, R363). -/
theorem tractionCommands : Obligations.TractionCommands := by
  intro d s hruns hopen p tr
  refine ⟨fun hop htakes => ?_, fun hop htakes => ?_, fun hop hnone => ?_⟩
  · have hr : p.spanRun d = SpanAct.of
        (.go, p.withStage (p.stage.putTrac tr { p.stage.trac tr with target := dS d 0 })) [quantOf (dSpan d) 0] := by
      simp only [State.spanRun, hop, State.tqTarget, tr] at htakes ⊢
      rw [if_pos htakes]
    obtain ⟨hans, hrest, hquiet, -⟩ := State.spanRow_answered hruns hopen (by omega) hr rfl rfl rfl
    exact ⟨_, rfl, hans, hrest, hquiet⟩
  · have hr : p.spanRun d = SpanAct.of
        (.go, p.withStage (p.stage.putTrac tr { p.stage.trac tr with spdTarget := dS d 0 })) [quantOf (dSpan d) 1] := by
      simp only [State.spanRun, hop, State.spdTargetCmd, tr] at htakes ⊢
      rw [if_pos htakes]
    obtain ⟨hans, hrest, hquiet, -⟩ := State.spanRow_answered hruns hopen (by omega) hr rfl rfl rfl
    exact ⟨_, rfl, hans, hrest, hquiet⟩
  · have hr : p.spanRun d = SpanAct.of (.go, p.withStage (p.stage.note [.posRearm tr])) [] := by
      simp only [State.spanRun, hop, State.posRearmCmd, tr] at hnone ⊢
      rw [hnone]
      rfl
    obtain ⟨hans, hrest, hquiet, hnotes⟩ := State.spanRow_answered hruns hopen (by omega) hr rfl rfl rfl
    exact ⟨_, rfl, hans, hrest, hnotes, hquiet⟩

/-! ### Converter and charger -/

/-- Settles O20 (R354, R364 to R366). -/
theorem converterAndChargerCommands : Obligations.ConverterAndChargerCommands := by
  refine ⟨fun d s hruns hopen => ?_, fun d s hruns hopen hop => ?_⟩
  · intro p x
    refine ⟨fun hop hst => ?_, fun hop hst => ?_, fun hop hn hst => ?_, fun hop hn hst => ?_, fun hop hbar hok => ?_⟩
    · have hr : p.spanRun d = SpanAct.of (.go, p.withStage { p.stage with cs := { x with vtgt := dS d 0 } }) [quantOf (dSpan d) 0] := by
        simp only [State.spanRun, hop, State.cVtgtCmd]
        rw [if_pos hst]
      obtain ⟨hans, hrest, hquiet, -⟩ := State.spanRow_answered hruns hopen (by omega) hr rfl rfl rfl
      exact ⟨_, rfl, hans, hrest, hquiet⟩
    · have hr : p.spanRun d = SpanAct.of (.go, p.withStage { p.stage with cs := { x with itgt := dS d 0 } }) [quantOf (dSpan d) 1] := by
        simp only [State.spanRun, hop, State.cItgtCmd]
        rw [if_pos hst]
      obtain ⟨hans, hrest, hquiet, -⟩ := State.spanRow_answered hruns hopen (by omega) hr rfl rfl rfl
      exact ⟨_, rfl, hans, hrest, hquiet⟩
    · have hr : p.spanRun d = SpanAct.of
          (.go, p.withStage { p.stage with cs := { x with nFix := 0, auto := true } }) [quantOf (dSpan d) 2] := by
        simp only [State.spanRun, hop, State.cPhasesCmd]
        rw [if_pos hst, State.cSetPhases, if_pos hn]
      obtain ⟨hans, hrest, hquiet, -⟩ := State.spanRow_answered hruns hopen (by omega) hr rfl rfl rfl
      exact ⟨_, rfl, hans, hrest, hquiet⟩
    · let c := p.cCancel { x := { x with nFix := dP d 0 1, auto := false }, notes := [] }
      have hr : p.spanRun d = SpanAct.of (.go, p.withStage ({ p.stage with cs := c.x }.note c.notes)) [quantOf (dSpan d) 2] := by
        simp only [State.spanRun, hop, State.cPhasesCmd]
        rw [if_pos hst, State.cSetPhases, if_neg hn]
      obtain ⟨hans, hrest, hquiet, -⟩ := State.spanRow_answered hruns hopen (by omega) hr rfl rfl rfl
      exact ⟨_, rfl, hans, hrest, hquiet⟩
    · have hr : p.spanRun d = SpanAct.res (.go, p.withStage (p.stage.note [.crowbarClear])) 1 [] := by
        have hcmd : p.cCrowbarCmd = (.go, p.withStage (p.stage.note [.crowbarClear])) := (if_pos hbar).trans (if_pos hok)
        simp only [State.spanRun, hop, hcmd]
        rfl
      obtain ⟨hans, hrest, hquiet, hnotes⟩ := State.spanRow_answered hruns hopen (by omega) hr rfl rfl rfl
      exact ⟨_, rfl, hans, hrest, hnotes, hquiet⟩
  · intro p x
    refine ⟨fun hsign => ?_, fun hsign => ?_⟩
    · have hr : p.spanRun d = SpanAct.of
          (.go, p.withStage { p.stage with qs := { x with pTgt := dS d 0, qTgt := dS d 4 } }) [quantOf (dSpan d) 0] := by
        simp only [State.spanRun, hop, State.qPowerCmd]
        rcases hsign with ⟨hst, hp⟩ | ⟨hst, hp⟩
        · simp only [p, x] at hst ⊢
          simp only [hst, if_pos hp]
        · simp only [p, x] at hst ⊢
          simp only [hst, if_pos hp]
      obtain ⟨hans, hrest, hquiet, -⟩ := State.spanRow_answered hruns hopen (by omega) hr rfl rfl rfl
      exact ⟨_, rfl, hans, hrest, hquiet⟩
    · have hv : (p.spanRun d).v = .no .invalidParameter := by
        simp only [State.spanRun, hop, State.qPowerCmd]
        rcases hsign with ⟨hst, hp⟩ | ⟨hst, hp⟩
        · simp only [p, x] at hst ⊢
          simp only [hst, if_neg (Int.not_le.mpr hp)]
          rfl
        · simp only [p, x] at hst ⊢
          simp only [hst, if_neg (Int.not_le.mpr hp)]
          rfl
      exact congrArg Host.Outcome.next ((State.spanRow_declined hruns hopen).1 _ hv)

/-! ### Actuators -/

/-- What moving an actuator to a state answers: the stage with the actuator put, the span changed where its state is new. -/
theorem State.aTo_goes (s : State) (m : Nat) (y : ActS) (h : (s.stage.actS m).st = y.st ∨ aSp m ∉ s.stage.changed) :
    s.aTo m y =
      (.go, s.withStage (if (s.stage.actS m).st = y.st then s.stage.putAct m y else (s.stage.putAct m y).changes (aSp m))) := by
  unfold State.aTo
  by_cases hst : (s.stage.actS m).st = y.st
  · rw [if_pos hst, if_pos hst]
  · rw [if_neg hst, if_neg hst, State.mayChange, if_neg (h.resolve_left hst)]

/-- The same into a state that is new. -/
theorem State.aTo_moves (s : State) (m : Nat) (y : ActS) (hst : (s.stage.actS m).st ≠ y.st) (h : aSp m ∉ s.stage.changed) :
    s.aTo m y = (.go, s.withStage ((s.stage.putAct m y).changes (aSp m))) := by
  rw [s.aTo_goes m y (Or.inr h), if_neg hst]

/-- Settles O21 (R354, R368, R370). -/
theorem actuatorSetCommands : Obligations.ActuatorSetCommands := by
  intro d s hruns hopen p m x put
  refine ⟨fun hop hst hrange hhomed hfree => ?_, fun hop hst hfree => ?_, fun hop hnone => ?_⟩
  · let y : ActS := { x with st := .hold, target := if dP d 0 1 = 1 then dS d 4 else p.aPosNow m x }
    have hcmd : p.aHoldCmd m (decide (dP d 0 1 = 1)) (dS d 4) = (.go, p.withStage (put y)) := by
      have hin : (decide (dP d 0 1 = 1) && !p.aInRange m (dS d 4)) = false := by
        by_cases h : dP d 0 1 = 1
        · simp [hrange h]
        · simp [h]
      have hhome : (!x.homed) = false := by rw [hhomed]; rfl
      simp only [State.aHoldCmd]
      rw [if_pos hst, hin, hhome]
      simp only [Bool.false_eq_true, if_false, decide_eq_true_eq]
      exact p.aTo_goes m y hfree
    have hr : p.spanRun d =
        SpanAct.res (.go, p.withStage (put y)) (res2 ((p.withStage (put y)).stage.actS m).target 0) [quantOf (dSpan d) 3] := by
      simp only [State.spanRun, hop]
      rw [hcmd]
    obtain ⟨⟨hdone, -⟩, hrest, hquiet, -⟩ := State.spanRow_answered hruns hopen (by omega) hr rfl rfl rfl
    exact ⟨_, rfl, hdone, hrest, hquiet⟩
  · let y : ActS := { x with st := .current, itgt := clampI (dS d 0) (-(p.aIlim m x.peakExh)) (p.aIlim m x.peakExh) }
    have hcmd : p.aCurrentCmd m (dS d 0) = (.go, p.withStage (put y)) := by
      simp only [State.aCurrentCmd]
      rw [if_pos hst]
      exact p.aTo_goes m y hfree
    let z := ((p.withStage (put y)).stage.actS m).itgt
    have hr : p.spanRun d = { SpanAct.res (.go, p.withStage (put y)) (res2 z 0) [quantOf (dSpan d) 0] with
        clip := decide (z ≠ dS d 0) } := by
      simp only [State.spanRun, hop]
      rw [hcmd]
    obtain ⟨⟨hdone, -⟩, hrest, hquiet, -⟩ := State.spanRow_answered hruns hopen (by omega) hr rfl rfl rfl
    exact ⟨_, rfl, hdone, hrest, hquiet⟩
  · let y : ActS := { x with posFault := false, causeSkip := false, causeInv := false, causeAna := false }
    have hr : p.spanRun d = SpanAct.res (.go, p.withStage (p.stage.putAct m y)) x.posCause [] := by
      simp only [State.spanRun, hop, State.aRearmCmd]
      rw [hnone]
      rfl
    obtain ⟨hans, hrest, hquiet, -⟩ := State.spanRow_answered hruns hopen (by omega) hr rfl rfl rfl
    refine ⟨_, rfl, hans, hrest, hquiet.trans ?_⟩
    exact congrArg Ctl.quiet (if_pos rfl).symm

/-- A shift, park or release that its gates let pass starts its movement. -/
theorem State.aStart_moves {s : State} {m slot tag : Nat} {kind : ShiftKind} {cmd : Option Staged}
    (hhomed : (s.stage.actS m).homed = true) (hrange : s.aInRange m (s.aGear m slot) = true)
    (hst : (s.stage.actS m).st ≠ .shifting) (hfree : aSp m ∉ s.stage.changed) :
    s.aStart m slot tag kind cmd = (.go, s.withStage ((s.stage.putAct m { s.stage.actS m with
      st := .shifting, target := s.aGear m slot, tag := tag, elapsed := 0, slot := slot, out := .running, settle := 0,
      kind := kind, startPos := s.aPosNow m (s.stage.actS m), cmd := cmd, abortNow := false }).changes (aSp m))) := by
  simp only [State.aStart]
  rw [if_neg (by simp [hhomed]), if_neg (by simp [hrange])]
  exact s.aTo_moves m _ hst hfree

/-- Settles O22 (R354, R367, R369). -/
theorem actuatorMoveCommands : Obligations.ActuatorMoveCommands := by
  intro d s hruns hopen p m x moves start
  have hmoves : ∀ (c : Instr) (y : ActS) (qs : List Nat), dOp d ≠ 0x100 → exec c s = .next (s.spanRow d) →
      p.spanRun d = { SpanAct.of (.go, p.withStage ((p.stage.putAct m y).changes (aSp m))) qs with long := true } → moves c y := by
    intro c y qs hop hexec hr
    obtain ⟨hrest, hhandled, hcmpl, hquiet⟩ := State.spanRow_begun hruns hopen hop hr rfl rfl rfl
    exact ⟨_, hexec, hrest, hhandled, hcmpl, hquiet⟩
  refine ⟨fun hst hhomed hfree => ?_, fun hst hcfg hfree hop => ?_⟩
  · have hnot : x.st ≠ .shifting := by
      rcases hst with h | h <;> simp [h]
    refine ⟨fun hop hlock hrange => ?_, fun hop hlock hrange => ?_, fun hop hlock hrange => ?_⟩
    · refine hmoves _ _ [quantOf (dSpan d) 3] (by omega) rfl ?_
      have hcmd : p.aShiftCmd m (dP d 0 1) (dTag d) (some d) = p.aStart m (dP d 0 1) (dTag d) .shift (some d) := by
        unfold State.aShiftCmd
        rcases hst with h | h <;> simp only [x] at h <;> simp only [h, hlock, Bool.false_eq_true, if_false]
      simp only [State.spanRun, hop]
      rw [hcmd, State.aStart_moves hhomed hrange hnot hfree]
    · refine hmoves _ _ [quantOf (dSpan d) 3] (by omega) rfl ?_
      have hcmd : p.aParkCmd m (dTag d) (some d) = p.aStart m 1 (dTag d) .park (some d) := by
        unfold State.aParkCmd
        rcases hst with h | h <;> simp only [x] at h <;> simp only [h, hlock, Bool.not_true, Bool.false_eq_true, if_false]
      simp only [State.spanRun, hop]
      rw [hcmd, State.aStart_moves hhomed hrange hnot hfree]
    · refine hmoves _ _ [quantOf (dSpan d) 3] (by omega) rfl ?_
      have hcmd : p.aReleaseCmd m (dTag d) (some d) = p.aStart m 0 (dTag d) .release (some d) := by
        unfold State.aReleaseCmd
        rcases hst with h | h <;> simp only [x] at h <;> simp only [h, hlock, Bool.not_true, Bool.false_eq_true, if_false]
      simp only [State.spanRun, hop]
      rw [hcmd, State.aStart_moves hhomed hrange hnot hfree]
  · refine hmoves _ _ [] (by omega) rfl ?_
    have hnew : x.st ≠ .homing := by simp [hst]
    have hcmd : p.aHomeCmd m (dTag d) (some d) = p.aTo m { x with
        st := .homing, tag := dTag d, elapsed := 0, out := .running, settle := 0, kind := .home,
        startPos := p.aPosNow m x, cmd := some d, abortNow := false, stallRun := 0 } := by
      simp only [x] at hst
      simp only [State.aHomeCmd, hst, hcfg, Bool.false_eq_true, if_false, x]
    simp only [State.spanRun, hop]
    rw [hcmd, p.aTo_moves m _ hnew hfree]

end Sys2Proof.Machine
end

section
/-! PROOFS. Sensing: the reference, triggers and their queue, regular and injected sequences, and calibration (R67 to R86). -/
namespace Sys2Proof.Machine

/-! ### Converters, inputs and pairs: reading a change back -/

theorem State.conv_updConv_same {s : State} (h : s.partsOk = true) (c : Nat) (f : ConvS → ConvS) :
    (s.updConv c f).conv c = f (s.conv c) := Store.get_put_same (wf_conv h)
theorem State.conv_updConv_ne {s : State} (h : s.partsOk = true) {c d : Nat} (f : ConvS → ConvS) (hne : d ≠ c) :
    (s.updConv c f).conv d = s.conv d := Store.get_put_ne (wf_conv h) hne
theorem State.updConv_sound {s : State} (h : s.partsOk = true) (c : Nat) (f : ConvS → ConvS) : (s.updConv c f).partsOk = true := by
  rw [State.partsOk_iff] at h ⊢
  obtain ⟨hbar, hlegs, hconv, hrest⟩ := h
  exact ⟨hbar, hlegs, Store.upd_wf hconv, hrest⟩
theorem State.inp_updInp_same {s : State} (h : s.partsOk = true) (i : Nat) (f : InputS → InputS) :
    (s.updInp i f).inp i = f (s.inp i) := Store.get_put_same (wf_inp h)
theorem State.inp_updInp_ne {s : State} (h : s.partsOk = true) {i k : Nat} (f : InputS → InputS) (hne : k ≠ i) :
    (s.updInp i f).inp k = s.inp k := Store.get_put_ne (wf_inp h) hne
theorem State.updInp_sound {s : State} (h : s.partsOk = true) (i : Nat) (f : InputS → InputS) : (s.updInp i f).partsOk = true := by
  rw [State.partsOk_iff] at h ⊢
  obtain ⟨hbar, hlegs, hconv, hinp, hrest⟩ := h
  exact ⟨hbar, hlegs, hconv, Store.upd_wf hinp, hrest⟩
theorem State.conv_raise (s : State) (code : Nat) (addr : AddrWord) (cause : Nat) (val val2 : Int) (c : Nat) :
    (s.raise code addr cause val val2).conv c = s.conv c := by
  simp only [State.conv, State.adc_raise]

/-! ### The reference -/

/-- What EVAL's forming does: EVAL is its condition, and while it is 0 the mismatch runs are 0 (R79). -/
theorem State.formEval_eq (s : State) : ∃ pair, s.formEval = { s with adc := { s.adc with eval := s.pairingOn, pair := pair } } ∧
    (s.partsOk = true → s.pairingOn = false → ∀ k, k < 8 →
      Store.get (fun _ => PairS.init) pair k = { s.pairS k with run := 0 }) := by
  unfold State.formEval
  by_cases hon : s.pairingOn = true
  · refine ⟨s.adc.pair, by simp only [hon, if_true], fun _ hoff => ?_⟩
    rw [hon] at hoff
    exact absurd hoff (by decide)
  · simp only [Bool.not_eq_true] at hon
    simp only [hon, Bool.false_eq_true, if_false]
    rw [State.foldl_updPair_eq (fun p => { p with run := 0 }) (List.range 8)]
    refine ⟨_, rfl, fun hok _ k hk => ?_⟩
    have hget := Store.get_foldl_upd (fun p : PairS => { p with run := 0 }) (fun _ => rfl) (List.range 8) (wf_pair hok) k
    rw [if_pos (List.mem_range.mpr hk)] at hget
    exact hget

theorem State.pairingOn_unsettled {s : State} (h : s.adc.settled = false) : s.pairingOn = false := by
  simp [State.pairingOn, h]

/-- Settles O23 (R68, R79, R83). -/
theorem referenceControl : Obligations.ReferenceControl := by
  refine ⟨fun ofs s hready habut hoff => ?_, fun s hok hready habut => ?_, fun v s hready habut => ?_, fun s hen hset => ⟨fun hre => ?_, fun hre => ?_⟩,
    fun ofs v s hlate => ?_⟩
  · have hpre : ((s.at ofs).start.ready || (s.at ofs).start.abut) = false := by simp [hready, habut]
    change execRefEnable ofs s = _
    simp only [execRefEnable, hpre, Bool.false_eq_true, if_false, State.adc_at, hoff]
    rfl
  · have hpre : (s.start.ready || s.start.abut) = false := by simp [hready, habut]
    let u : State := { s with adc := { s.adc with
      refEn := false, settled := false, fellAt := if s.adc.settled then s.tk.now else s.adc.fellAt } }
    have hexec : exec .refDisable s = .next u.formEval := by
      change execRefDisable s = _
      simp only [execRefDisable, hpre, Bool.false_eq_true, if_false]
      rfl
    have heval : u.pairingOn = false := State.pairingOn_unsettled rfl
    obtain ⟨pair, hform, hpair⟩ := u.formEval_eq
    refine ⟨_, hexec, ?_⟩
    rw [hform, heval]
    have hu : u.partsOk = true := hok
    refine ⟨rfl, rfl, rfl, fun k hk => ?_, rfl, rfl, rfl, rfl, rfl, rfl⟩
    have hk := hpair hu heval k hk
    refine ⟨?_, ?_⟩
    · change (Store.get (fun _ => PairS.init) pair k).run = 0
      rw [hk]
    · change (Store.get (fun _ => PairS.init) pair k).implausible = _
      rw [hk]
      rfl
  · have hpre : (s.start.ready || s.start.abut) = false := by simp [hready, habut]
    change execSeqEn v s = _
    simp only [execSeqEn, hpre, Bool.false_eq_true, if_false]
  · let g := s.goto s.adc.settleAt
    let u : State := { g with adc := { g.adc with settled := true } }
    have hexec : exec .refSettled s = .next u.formEval := by
      change execRefSettled s = _
      simp only [execRefSettled, hen, hset, hre, Bool.false_eq_true, not_false_eq_true, and_self, if_true]
      rfl
    have heval : u.pairingOn = (List.range 16).all (fun c => (s.conv c).calDone && !(s.conv c).calFail) := rfl
    obtain ⟨pair, hform, -⟩ := u.formEval_eq
    refine ⟨_, hexec, ?_⟩
    rw [hform, heval]
    exact ⟨rfl, rfl, rfl, rfl, rfl, rfl, rfl, rfl, rfl⟩
  · change execRefSettled s = _
    simp only [execRefSettled, hre, Bool.false_eq_true, and_false, if_false]
  · have hpre : (s.start.ready || s.start.abut) = true := by
      rcases hlate with h | h <;> simp [h]
    refine ⟨?_, ?_, ?_⟩
    · change execRefEnable ofs s = _
      simp only [execRefEnable, State.start_at, hpre, if_true]
    · change execRefDisable s = _
      simp only [execRefDisable, hpre, if_true]
    · change execSeqEn v s = _
      simp only [execSeqEn, hpre, if_true]

/-! ### Triggers and their queue -/

/-- A trigger enters behind every one of its own or a higher priority and before the first of a lower one (R72). -/
theorem queueInsert_eq (x : Trigger) (q : List Trigger) : ∃ a b, q = a ++ b ∧ queueInsert x q = a ++ x :: b ∧
    (∀ y ∈ a, x.prio ≤ y.prio) ∧ ∀ y, b.head? = some y → y.prio < x.prio := by
  induction q with
  | nil => exact ⟨[], [], rfl, rfl, by simp, by simp⟩
  | cons y q ih =>
    by_cases hlt : y.prio < x.prio
    · refine ⟨[], y :: q, rfl, if_pos hlt, by simp, fun z hz => ?_⟩
      obtain rfl : y = z := Option.some.inj hz
      exact hlt
    · obtain ⟨a, b, hq, hins, habove, hbelow⟩ := ih
      refine ⟨y :: a, b, by rw [hq, List.cons_append], ?_, fun z hz => ?_, hbelow⟩
      · rw [queueInsert, if_neg hlt, hins, List.cons_append]
      · rcases List.mem_cons.mp hz with rfl | hz
        · exact Nat.le_of_not_lt hlt
        · exact habove z hz

/-- A trigger enters its converter's queue; a fifth drops the last of the five, with E046 (R72, R74). -/
theorem State.enqueue_spec {s : State} (hok : s.partsOk = true) (c : Nat) (x : Trigger) :
    ∃ a b, (s.conv c).queue = a ++ b ∧ (∀ y ∈ a, x.prio ≤ y.prio) ∧ (∀ y, b.head? = some y → y.prio < x.prio) ∧
      ((s.conv c).queue.length < 4 → ((s.enqueue c x).conv c).queue = a ++ x :: b ∧ (s.enqueue c x).cwy = s.cwy) ∧
      ((s.conv c).queue.length = 4 → ((s.enqueue c x).conv c).queue = (a ++ x :: b).dropLast ∧
        ((s.enqueue c x).conv c).dropCount = satInc (s.conv c).dropCount max32 ∧
        ∃ k : Fin 4, s.reports (s.enqueue c x) 46 s.deckAddr c k.val 0) ∧
      (∀ d : Nat, d ≠ c → (s.enqueue c x).conv d = s.conv d) ∧ (s.enqueue c x).bar = s.bar ∧ (s.enqueue c x).legs = s.legs := by
  obtain ⟨a, b, hq, hins, habove, hbelow⟩ := queueInsert_eq x (s.conv c).queue
  have hlen : (queueInsert x (s.conv c).queue).length = (s.conv c).queue.length + 1 := by
    rw [hins, hq]
    simp
    omega
  refine ⟨a, b, hq, habove, hbelow, ?_⟩
  by_cases hroom : (s.conv c).queue.length < 4
  · have henq : s.enqueue c x = s.updConv c (fun k => { k with queue := a ++ x :: b }) := by
      unfold State.enqueue
      rw [if_pos (by omega), hins]
    rw [henq]
    refine ⟨fun _ => ⟨?_, rfl⟩, fun h => by omega, fun d hd => State.conv_updConv_ne hok _ hd, rfl, rfl⟩
    rw [State.conv_updConv_same hok]
  · obtain ⟨y, hlast⟩ : ∃ y, (queueInsert x (s.conv c).queue).getLast? = some y := by
      rw [hins]
      exact ⟨_, List.getLast?_eq_getLast_of_ne_nil (by simp)⟩
    let u := s.updConv c (fun k => { k with queue := (a ++ x :: b).dropLast, dropCount := satInc k.dropCount max32 })
    have henq : s.enqueue c x = u.raise 46 u.deckAddr c y.src.val 0 := by
      unfold State.enqueue
      rw [if_neg (by omega), hlast, hins]
    rw [henq]
    refine ⟨fun h => absurd h hroom, fun _ => ⟨?_, ?_, y.src, ?_⟩, fun d hd => ?_, State.bar_raise .., State.legs_raise ..⟩
    · rw [State.conv_raise, State.conv_updConv_same hok]
    · rw [State.conv_raise, State.conv_updConv_same hok]
    · exact u.raise_reports _ _ _ _ _ (by decide)
    · rw [State.conv_raise, State.conv_updConv_ne hok _ hd]

/-- The host trigger of ADC_TRIG that has come for a source of a converter. -/
def State.hostTriggerAt (s : State) (c : Conv) (j : Fin 4) : Option (Conv × Fin 4 × Instant) :=
  s.adc.hostTrig.find? (fun h => decide (h.1 = c ∧ h.2.1 = j ∧ h.2.2 ≤ s.tk.now))

/-- The state with the host trigger of a type 4 source taken from its list. -/
def State.takeHostTrigger (s : State) (c : Conv) (j : Fin 4) : State :=
  match s.hostTriggerAt c j with
  | some h => if s.srcType c j = 4 then { s with adc := { s.adc with hostTrig := s.adc.hostTrig.erase h } } else s
  | none => s

theorem State.hostTriggerAt_none (s : State) (c : Conv) (j : Fin 4) :
    s.hostTriggerAt c j = none ↔ ¬ ∃ h ∈ s.adc.hostTrig, h.1 = c ∧ h.2.1 = j ∧ h.2.2 ≤ s.tk.now := by
  simp only [State.hostTriggerAt, List.find?_eq_none, decide_eq_true_eq, not_exists, not_and]

/-- Taking a host trigger moves the list of host triggers alone. -/
theorem State.takeHostTrigger_eq (s : State) (c : Conv) (j : Fin 4) :
    ∃ l, s.takeHostTrigger c j = { s with adc := { s.adc with hostTrig := l } } := by
  unfold State.takeHostTrigger
  split
  · split
    · exact ⟨_, rfl⟩
    · exact ⟨_, rfl⟩
  · exact ⟨_, rfl⟩

theorem State.takeHostTrigger_none {s : State} {c : Conv} {j : Fin 4} (h : s.srcType c j = 4 → s.hostTriggerAt c j = none) :
    s.takeHostTrigger c j = s := by
  unfold State.takeHostTrigger
  split
  · rename_i x hx
    refine if_neg fun h4 => ?_
    rw [h h4] at hx
    exact absurd hx (by simp)
  · rfl

/-- A trigger of a source comes at this instant: at a point of its carrier, from a pin or a comparator, or where ADC_TRIG has
placed one (R76). -/
def State.triggerComes (s : State) (c : Conv) (j : Fin 4) : Prop :=
  (s.srcType c j = 1 ∧ s.atPoint c j s.tk.now = true) ∨ s.srcType c j = 2 ∨ s.srcType c j = 3 ∨
    (s.srcType c j = 4 ∧ s.hostTriggerAt c j ≠ none)

theorem State.not_triggerComes_iff (s : State) (c : Conv) (j : Fin 4) : ¬ s.triggerComes c j ↔
    s.srcType c j = 0 ∨ 5 ≤ s.srcType c j ∨ (s.srcType c j = 4 ∧ s.hostTriggerAt c j = none) ∨
      (s.srcType c j = 1 ∧ ¬ s.atPoint c j s.tk.now) := by
  unfold State.triggerComes
  generalize s.srcType c j = ty
  by_cases hpoint : s.atPoint c j s.tk.now = true <;> by_cases hhost : s.hostTriggerAt c j = none <;>
    simp only [hpoint, hhost, not_true, not_false_iff, and_true, and_false, or_false, false_or, ne_eq] <;> simp <;> omega

/-- Settles O24 (R72, R74, R76, R85). -/
theorem triggerQueue : Obligations.TriggerQueue := by
  intro c j ofs s hok u ty new comes
  have hexec : exec (.injectedTrigger c j ofs) s =
      if ¬ s.adc.seqEn ∨ ¬ s.sampling c ∨ ty = 0 ∨ 5 ≤ ty ∨ (ty = 4 ∧ u.hostTriggerAt c j = none) ∨
        (ty = 1 ∧ ¬ u.atPoint c j u.tk.now)
      then .next (u.takeHostTrigger c j) else .next ((u.takeHostTrigger c j).enqueue c new) := rfl
  have hcomes : comes ↔ u.triggerComes c j := by
    simp only [comes, State.triggerComes, ne_eq, State.hostTriggerAt_none, not_not]
    rfl
  rw [hexec, hcomes]
  obtain ⟨l, hv⟩ := u.takeHostTrigger_eq c j
  refine ⟨fun hno => ?_, fun _ hoff => ?_, fun hyes hen hsam => ?_⟩
  · have hstop := (u.not_triggerComes_iff c j).mp hno
    rw [if_pos (Or.inr (Or.inr hstop)), State.takeHostTrigger_none fun h4 => ?_]
    rcases hstop with h | h | ⟨-, h⟩ | ⟨h, -⟩
    · omega
    · omega
    · exact h
    · omega
  · have hstop : ¬ s.adc.seqEn ∨ ¬ s.sampling c := by
      rcases hoff with h | h <;> simp [h]
    rw [if_pos (hstop.imp_right Or.inl), hv]
    exact ⟨_, rfl, rfl, rfl, rfl, rfl⟩
  · have hgo := mt (u.not_triggerComes_iff c j).mpr (not_not.mpr hyes)
    have hok' : (u.takeHostTrigger c j).partsOk = true := by
      rw [hv]
      exact hok
    rw [if_neg (by simp only [hen, hsam, not_true, false_or]; exact hgo)]
    obtain ⟨a, b, hq, habove, hbelow, hspec⟩ := State.enqueue_spec hok' c new
    refine ⟨_, a, b, rfl, ?_⟩
    generalize (u.takeHostTrigger c j).enqueue c new = t at hspec ⊢
    rw [hv] at hq hspec
    exact ⟨hq, habove, hbelow, hspec⟩

end Sys2Proof.Machine
end

section
/-! PROOFS. Sequences of conversions and the self-calibration (R67 to R73, R85, R86). -/
namespace Sys2Proof.Machine

/-- Rounding up to a multiple never goes below the instant. -/
theorem le_ceilTo {m : Nat} (hm : 0 < m) (x : Nat) : x ≤ ceilTo x m := by
  have h := Nat.div_add_mod' (x + m - 1) m
  have hlt := Nat.mod_lt (x + m - 1) hm
  simp only [ceilTo]
  omega

/-! ### Sequences start -/

/-- The converter's part in the start of slot 0 of its pair (R68, R69). -/
theorem State.startSlot0_settled {s : State} (hset : s.adc.settled = true) (c : Nat) (edge : Instant) :
    s.startSlot0 c edge = s.updConv c (fun k => { k with busy := .regular 0 edge, nextSlot := none, ran := true }) :=
  if_pos hset

/-- Slot 0 of one converter of a pair: it starts where it is due, and nothing else changes. -/
theorem State.slot0_spec {s : State} (hok : s.partsOk = true) (hset : s.adc.settled = true) (due : Bool) (c : Nat) (edge : Instant) :
    let t := if due then s.startSlot0 c edge else s
    t.partsOk = true ∧ t.conv c = (if due then { s.conv c with busy := .regular 0 edge, nextSlot := none, ran := true } else s.conv c) ∧
    (∀ d, d ≠ c → t.conv d = s.conv d) ∧ ∃ conv, t = { s with adc := { s.adc with conv := conv } } := by
  cases due
  · exact ⟨hok, rfl, fun _ _ => rfl, _, rfl⟩
  · simp only [if_true]
    rw [State.startSlot0_settled hset]
    exact ⟨State.updConv_sound hok .., State.conv_updConv_same hok .., fun d hd => State.conv_updConv_ne hok _ hd, _, rfl⟩

/-- Settles O25 (R68, R69, R71, R73). -/
theorem sequenceStarts : Obligations.SequenceStarts := by
  refine ⟨fun p s hok hset hphi ha hb hedge => ?_, fun p s hlate => ?_, fun c s h rest hok hset hidle hqueue => ?_⟩
  · let a := 2 * p.val
    let b := 2 * p.val + 1
    let edge := s.slot0Edge p.val
    let t := if s.slot0Due a then s.startSlot0 a edge else s
    have hexec : exec (.regularSequenceStart p) s = .next (if s.slot0Due b then t.startSlot0 b edge else t) := by
      change execRegularSequenceStart p s = _
      unfold execRegularSequenceStart
      extract_lets
      rw [if_pos ⟨ha, hb, hedge⟩]
    have hdue : ∀ c, (s.slot0Due c = true) ↔ (s.sampling c = true ∧ (s.conv c).ran = false) := by
      intro c
      simp only [State.slot0Due, hphi]
      simp
    obtain ⟨hokt, hsame, hother, conv, ht⟩ := State.slot0_spec hok hset (s.slot0Due a) a edge
    have hsett : t.adc.settled = true := by
      change (if _ then _ else _ : State).adc.settled = true
      rw [ht]
      exact hset
    obtain ⟨-, hsame', hother', conv', ht'⟩ := State.slot0_spec hokt hsett (s.slot0Due b) b edge
    refine ⟨_, hexec, ?_, ?_, ?_⟩
    · rintro c (rfl | rfl)
      · rw [hother' a (by simp only [a, b]; omega)]
        simp only [← hdue]
        exact hsame
      · rw [hsame', hother b (by simp only [a, b]; omega)]
        simp only [← hdue]
        rfl
    · intro c hca hcb
      rw [hother' c hcb, hother c hca]
    · change (if s.slot0Due b then (if s.slot0Due a then s.startSlot0 a edge else s).startSlot0 b edge
        else (if s.slot0Due a then s.startSlot0 a edge else s) : State).adc.inp = _ ∧ _
      rw [ht', ht]
      exact ⟨rfl, rfl, rfl, rfl, rfl⟩
  · change execRegularSequenceStart p s = _
    unfold execRegularSequenceStart
    extract_lets
    exact if_neg fun ⟨_, _, hgo⟩ => absurd hlate (Nat.not_le.mpr hgo)
  · intro edge
    have hexec : exec (.injectedSequenceStart c) s =
        if (s.conv c.val).calRun ∨ s.slot0Pending c edge then .next s
        else if s.adc.settled then
          .next (s.updConv c (fun k => { k with
            queue := rest, busy := .injected h edge 0, ilatMax := max k.ilatMax (min ((edge - h.arrived) / (5 * uNs)) max16) }))
        else .next (((s.updConv c (fun k => { k with queue := rest })).refuse c ((s.srcSlots c h.src).map (s.iSlot c))).startRegular c
          edge) := by
      change execInjectedSequenceStart c s = _
      simp only [execInjectedSequenceStart, hidle, hqueue]
      rfl
    rw [hexec]
    refine ⟨fun hhold => if_pos hhold, fun hcal hpend => ?_⟩
    have hgo : ¬ ((s.conv c.val).calRun = true ∨ s.slot0Pending c edge = true) := by simp [hcal, hpend]
    rw [if_neg hgo, if_pos hset]
    refine ⟨_, rfl, ?_, ?_, ?_, fun d hd => State.conv_updConv_ne hok _ hd, rfl, rfl, rfl, rfl, rfl⟩
    · rw [State.conv_updConv_same hok]
    · rw [State.conv_updConv_same hok]
    · exact (le_ceilTo (by decide) _).trans (le_max_left _ _)

/-! ### Sequences end -/

/-- `t` differs from `s` in its inputs and its events. -/
structure Delivered (s t : State) : Prop where
  sound : s.partsOk = true → t.partsOk = true
  conv : t.adc.conv = s.adc.conv
  settled : t.adc.settled = s.adc.settled
  bar : t.bar = s.bar
  legs : t.legs = s.legs
  tk : t.tk = s.tk

theorem Delivered.refl (s : State) : Delivered s s := ⟨id, rfl, rfl, rfl, rfl, rfl⟩
theorem Delivered.trans {s t u : State} (h : Delivered s t) (k : Delivered t u) : Delivered s u :=
  ⟨k.sound ∘ h.sound, k.conv.trans h.conv, k.settled.trans h.settled, k.bar.trans h.bar, k.legs.trans h.legs, k.tk.trans h.tk⟩
theorem Delivered.input (s : State) (i : Nat) (f : InputS → InputS) : Delivered s (s.updInp i f) :=
  ⟨fun h => State.updInp_sound h i f, rfl, rfl, rfl, rfl, rfl⟩
theorem Delivered.raise (s : State) (code : Nat) (addr : AddrWord) (cause : Nat) (val val2 : Int) :
    Delivered s (s.raise code addr cause val val2) :=
  ⟨s.raise_sound _ _ _ _ _, by simp, by simp, by simp, by simp, by simp⟩

/-- The window comparison (R87, R88) moves its own input's window data and the events. -/
theorem State.windowCompare_spec (s : State) (i : Nat) (v : Int) : Delivered s (s.windowCompare i v) ∧
    (s.partsOk = true → ((s.windowCompare i v).inp i).latest = (s.inp i).latest ∧ ∀ k, k ≠ i → (s.windowCompare i v).inp k = s.inp k) := by
  have hinp : ∀ (u : State) (code : Nat) (addr : AddrWord) (cause : Nat) (val val2 : Int) (k : Nat),
      (u.raise code addr cause val val2).inp k = u.inp k := by
    intros
    simp only [State.inp, State.adc_raise]
  unfold State.windowCompare
  extract_lets hi lo hy x
  by_cases hon : bitOf (s.reg (inpBase i)) 6 = true
  · rw [if_pos hon]
    by_cases hout : x.winOut = true
    · rw [if_pos hout]
      split
      · refine ⟨.input .., fun h => ⟨?_, fun k hk => State.inp_updInp_ne h _ hk⟩⟩
        rw [State.inp_updInp_same h]
      · exact ⟨.refl s, fun _ => ⟨rfl, fun _ _ => rfl⟩⟩
    · rw [if_neg hout]
      split
      · refine ⟨(Delivered.input ..).trans (.raise ..), fun h => ⟨?_, fun k hk => ?_⟩⟩
        · rw [hinp, State.inp_updInp_same h]
        · rw [hinp, State.inp_updInp_ne h _ hk]
      · exact ⟨.refl s, fun _ => ⟨rfl, fun _ _ => rfl⟩⟩
  · rw [if_neg hon]
    exact ⟨.refl s, fun _ => ⟨rfl, fun _ _ => rfl⟩⟩

/-- A delivery (R67, R70) moves its own input and the events; the odd converter's result of the plausibility input moves
nothing. -/
theorem State.deliver_spec (s : State) (c i : Nat) (codes : List Int) (ended : Instant) (sync regular : Bool) (ang : Option Nat) :
    let t := s.deliver c i codes ended sync regular ang
    let cc := correctedCode (s.conv c) codes
    Delivered s t ∧ (c % 2 = 1 → i = s.pairInput (c / 2) → t = s) ∧
    (s.partsOk = true → (∀ k, k ≠ i → t.inp k = s.inp k) ∧
      (c % 2 = 0 ∨ i ≠ s.pairInput (c / 2) →
        (t.inp i).latest = some { code := cc, s := s.toSignal i cc, ended := ended, sync := sync, regular := regular, ang := ang })) := by
  intro t cc
  by_cases hodd : c % 2 = 1 ∧ i = s.pairInput (c / 2)
  · have ht : t = s := if_pos hodd
    rw [ht]
    refine ⟨.refl s, fun _ _ => rfl, fun _ => ⟨fun _ _ => rfl, fun hnot => ?_⟩⟩
    rcases hnot with h | h
    · omega
    · exact absurd hodd.2 h
  · let u := s.updInp i (fun x => { x with
      latest := some { code := cc, s := s.toSignal i cc, ended := ended, sync := sync, regular := regular, ang := ang },
      notSettled := false })
    have ht : t = u.windowCompare i (s.toSignal i cc) := if_neg hodd
    obtain ⟨hdel, hinp⟩ := u.windowCompare_spec i (s.toSignal i cc)
    rw [ht]
    refine ⟨(Delivered.input ..).trans hdel, fun h h' => absurd ⟨h, h'⟩ hodd, fun hok => ?_⟩
    obtain ⟨hlatest, hother⟩ := hinp (State.updInp_sound hok ..)
    refine ⟨fun k hk => (hother k hk).trans (State.inp_updInp_ne hok _ hk), fun _ => hlatest.trans ?_⟩
    rw [State.inp_updInp_same hok]

/-- What starting the next regular slot does on a free converter while the reference is settled (R68). -/
theorem State.startRegular_settled {s : State} (hok : s.partsOk = true) (hset : s.adc.settled = true) (c : Nat) (edge : Instant) :
    let t := s.startRegular c edge
    let goes := (s.conv c).queue = [] ∧ edge < s.boundary s.tk.count + s.t0end
    (∃ conv, t = { s with adc := { s.adc with conv := conv } }) ∧ (∀ d, d ≠ c → t.conv d = s.conv d) ∧
    (¬ goes ∨ (s.conv c).nextSlot = none → t = s) ∧
    (∀ m, goes → (s.conv c).nextSlot = some m → t.conv c = { s.conv c with busy := .regular m edge, nextSlot := none }) := by
  intro t goes
  have hhold : ((s.conv c).queue ≠ [] ∨ s.boundary s.tk.count + s.t0end ≤ edge) ↔ ¬ goes := by
    simp only [goes, not_and_or, ne_eq, not_lt]
  cases hnext : (s.conv c).nextSlot with
  | none =>
    have ht : t = s := by
      simp only [t, State.startRegular, hnext]
    rw [ht]
    exact ⟨⟨_, rfl⟩, fun _ _ => rfl, fun _ => rfl, fun m _ h => by cases h⟩
  | some n =>
    by_cases hgo : goes
    · have ht : t = s.updConv c (fun k => { k with busy := .regular n edge, nextSlot := none }) := by
        simp only [t, State.startRegular, hnext]
        rw [if_neg (fun h => hhold.mp h hgo), if_pos hset]
      rw [ht]
      refine ⟨⟨_, rfl⟩, fun d hd => State.conv_updConv_ne hok _ hd, fun h => ?_, fun m _ h => ?_⟩
      · rcases h with h | h
        · exact absurd hgo h
        · cases h
      · obtain rfl := Option.some.inj h
        exact State.conv_updConv_same hok ..
    · have ht : t = s := by
        simp only [t, State.startRegular, hnext]
        rw [if_pos (hhold.mpr hgo)]
      rw [ht]
      exact ⟨⟨_, rfl⟩, fun _ _ => rfl, fun _ => rfl, fun m h => absurd h hgo⟩

/-- One slot of an injected sequence moves inputs and events. -/
theorem State.injectedCode_delivered (s : State) (c : Nat) (x : Trigger) (slot : Nat) (raw : Int) (ended : Instant) :
    Delivered s (s.injectedCode c x slot raw ended) := by
  unfold State.injectedCode
  extract_lets i y g
  split
  · split
    · exact .input ..
    · exact (Delivered.input ..).trans (State.deliver_spec ..).1
  · exact (State.deliver_spec ..).1

theorem State.injectedCodes_delivered (c : Nat) (x : Trigger) (start : Instant) (ks : List Nat) (rs : List (BitVec 16)) (n : Nat)
    (s : State) : Delivered s (s.injectedCodes c x start ks rs n) := by
  induction ks generalizing rs n s with
  | nil => exact .refl s
  | cons k ks ih =>
    cases rs with
    | nil => exact .refl s
    | cons r rs => exact (s.injectedCode_delivered ..).trans (ih ..)

/-- A regular slot that ends delivers, and its converter is free or goes on (R68, R70). -/
theorem exec_regularSlotEnd (c : Conv) (code : BitVec 16) (s : State) (n : Nat) (start : Instant) (hok : s.partsOk = true)
    (hset : s.adc.settled = true) (hbusy : (s.conv c.val).busy = .regular n start) :
    let i := s.rSlot c.val n
    let cc := correctedCode (s.conv c.val) [code.toInt]
    let e := start + 16 * uEdge
    let goes := (s.conv c.val).queue = [] ∧ e < s.boundary s.tk.count + s.t0end
    ∃ t, exec (.regularSlotEnd c code) s = .next t ∧
      (c.val % 2 = 0 ∨ i ≠ s.pairInput (c.val / 2) →
        (t.inp i).latest = some { code := cc, s := s.toSignal i cc, ended := e, sync := false, regular := true, ang := none }) ∧
      (c.val % 2 = 1 → i = s.pairInput (c.val / 2) → t.inp i = s.inp i) ∧
      (∀ k : Nat, k ≠ i → t.inp k = s.inp k) ∧
      (t.conv c.val).freeAt = e ∧ (t.conv c.val).slot0 = (if n = 0 then some cc else (s.conv c.val).slot0) ∧
      (goes → (t.conv c.val).busy = (match s.nextSlotFrom c.val (n + 1) with | none => .idle | some m => .regular m e) ∧
        (t.conv c.val).nextSlot = none) ∧
      (¬ goes → (t.conv c.val).busy = .idle ∧ (t.conv c.val).nextSlot = s.nextSlotFrom c.val (n + 1)) ∧
      (∀ d : Nat, d ≠ c.val → t.conv d = s.conv d) ∧ t.bar = s.bar ∧ t.legs = s.legs ∧ t.tk = s.tk := by
  intro i cc e goes
  -- The plausibility code is kept first, then the result is delivered, then the converter is free, then the next slot starts.
  let s1 := if n = 0 then s.updConv c.val (fun k => { k with slot0 := some (correctedCode k [code.toInt]) }) else s
  let s2 := s1.deliver c.val i [code.toInt] e false true none
  let s3 := s2.updConv c.val (fun k => { k with busy := .idle, freeAt := e, nextSlot := s.nextSlotFrom c.val (n + 1) })
  have hexec : exec (.regularSlotEnd c code) s = .next (s3.startRegular c.val e) := by
    change execRegularSlotEnd c code s = _
    simp only [execRegularSlotEnd, hbusy]
    rfl
  have h1 : s1.partsOk = true ∧ (∀ d, d ≠ c.val → s1.conv d = s.conv d) ∧
      s1.conv c.val = { s.conv c.val with slot0 := if n = 0 then some cc else (s.conv c.val).slot0 } ∧
      ∃ conv, s1 = { s with adc := { s.adc with conv := conv } } := by
    simp only [s1]
    split
    · exact ⟨State.updConv_sound hok .., fun d hd => State.conv_updConv_ne hok _ hd, State.conv_updConv_same hok .., _, rfl⟩
    · exact ⟨hok, fun _ _ => rfl, rfl, _, rfl⟩
  obtain ⟨hok1, hother1, hconv1, conv1, heq1⟩ := h1
  obtain ⟨hdel, hodd, hinp⟩ := s1.deliver_spec c.val i [code.toInt] e false true none
  obtain ⟨hinpOther, hlatest⟩ := hinp hok1
  have hcc : correctedCode (s1.conv c.val) [code.toInt] = cc := by
    rw [hconv1]
    rfl
  rw [hcc] at hlatest
  have hok2 : s2.partsOk = true := hdel.sound hok1
  have hconv2 : ∀ d, s2.conv d = s1.conv d := fun d => congrArg (fun m => Store.get (fun _ => ConvS.init) m d) hdel.conv
  have hok3 : s3.partsOk = true := State.updConv_sound hok2 ..
  have hconv3 : s3.conv c.val = { s.conv c.val with
      slot0 := if n = 0 then some cc else (s.conv c.val).slot0, busy := .idle, freeAt := e, nextSlot := s.nextSlotFrom c.val (n + 1) } := by
    simp only [s3]
    rw [State.conv_updConv_same hok2, hconv2, hconv1]
  have hother3 : ∀ d, d ≠ c.val → s3.conv d = s.conv d := fun d hd => by
    simp only [s3]
    rw [State.conv_updConv_ne hok2 _ hd, hconv2, hother1 d hd]
  have hset1 : s1.adc.settled = true := by
    rw [heq1]
    exact hset
  have hset3 : s3.adc.settled = true := hdel.settled.trans hset1
  have hbar : s3.bar = s.bar := hdel.bar.trans (by rw [heq1])
  have hlegs : s3.legs = s.legs := hdel.legs.trans (by rw [heq1])
  have htk : s3.tk = s.tk := hdel.tk.trans (by rw [heq1])
  have hinp3 : ∀ k, s3.inp k = s2.inp k := fun _ => rfl
  have hinp1 : ∀ k, s1.inp k = s.inp k := by
    rw [heq1]
    exact fun _ => rfl
  have hpair : s1.pairInput (c.val / 2) = s.pairInput (c.val / 2) := by
    rw [heq1]
    rfl
  have hsignal : s1.toSignal i cc = s.toSignal i cc := by
    rw [heq1]
    rfl
  have hgoes : ((s3.conv c.val).queue = [] ∧ e < s3.boundary s3.tk.count + s3.t0end) ↔ goes := by
    rw [hconv3]
    simp only [State.boundary, State.pu, State.period, State.t0end, State.reg, hbar, htk]
    rfl
  obtain ⟨⟨conv, hrun⟩, hothers, hstay, hstart⟩ := State.startRegular_settled hok3 hset3 c.val e
  rw [hgoes] at hstay
  simp only [hgoes] at hstart
  have hnext : (s3.conv c.val).nextSlot = s.nextSlotFrom c.val (n + 1) := by rw [hconv3]
  have hkeep : (((s3.startRegular c.val e).conv c.val).freeAt = e) ∧
      ((s3.startRegular c.val e).conv c.val).slot0 = (if n = 0 then some cc else (s.conv c.val).slot0) ∧
      (goes → ((s3.startRegular c.val e).conv c.val).busy =
          (match s.nextSlotFrom c.val (n + 1) with | none => .idle | some m => .regular m e) ∧
        ((s3.startRegular c.val e).conv c.val).nextSlot = none) ∧
      (¬ goes → ((s3.startRegular c.val e).conv c.val).busy = .idle ∧
        ((s3.startRegular c.val e).conv c.val).nextSlot = s.nextSlotFrom c.val (n + 1)) := by
    by_cases hgo : goes
    · cases hslot : s.nextSlotFrom c.val (n + 1) with
      | none =>
        rw [hstay (Or.inr (hnext.trans hslot)), hconv3]
        exact ⟨rfl, rfl, fun _ => ⟨rfl, hslot⟩, fun h => absurd hgo h⟩
      | some m =>
        rw [hstart m hgo (hnext.trans hslot), hconv3]
        exact ⟨rfl, rfl, fun _ => ⟨rfl, rfl⟩, fun h => absurd hgo h⟩
    · rw [hstay (Or.inl hgo), hconv3]
      exact ⟨rfl, rfl, fun h => absurd h hgo, fun _ => ⟨rfl, rfl⟩⟩
  obtain ⟨hfree, hslot0, hgoing, hwaiting⟩ := hkeep
  have hinpEnd : ∀ k, (s3.startRegular c.val e).inp k = s2.inp k := by
    rw [hrun]
    exact fun _ => rfl
  refine ⟨_, hexec, fun hmine => ?_, fun hp hi => ?_, fun k hk => ?_, hfree, hslot0, hgoing, hwaiting, fun d hd => ?_, ?_, ?_, ?_⟩
  · rw [hinpEnd, hlatest (by rw [hpair]; exact hmine), hsignal]
  · have hs2 : s2 = s1 := hodd hp (by rw [hpair]; exact hi)
    rw [hinpEnd, hs2, hinp1]
  · rw [hinpEnd, hinpOther k hk, hinp1]
  · rw [hothers d hd, hother3 d hd]
  · rw [hrun]
    exact hbar
  · rw [hrun]
    exact hlegs
  · rw [hrun]
    exact htk

/-- Settles O26 (R67, R68, R70, R71, R75). -/
theorem sequenceEnds : Obligations.SequenceEnds := by
  refine ⟨fun c code s n start hok hset hbusy => exec_regularSlotEnd c code s n start hok hset hbusy,
    fun c code s n start hbusy => ?_, fun c codes s x start done hok hset hcal hbusy hnext => ?_⟩
  · change execRegularSlotEnd c code s = _
    simp only [execRegularSlotEnd, hbusy]
    rfl
  · intro slots
    let e := start + slots.length * convLen
    let u := s.injectedCodes c.val x start (slots.drop done) codes done
    let v := u.updConv c.val (fun k => { k with busy := .idle, freeAt := e })
    have hrun : s.slotsRun start slots = slots.length := if_pos hset
    have hexec : exec (.injectedSequenceEnd c codes) s = .next (v.startRegular c.val e) := by
      change execInjectedSequenceEnd c codes s = _
      simp only [execInjectedSequenceEnd, hbusy, hcal, Bool.false_eq_true, if_false]
      rw [show s.slotsRun start (s.srcSlots c.val x.src.val) = (s.srcSlots c.val x.src.val).length from hrun,
        if_neg (lt_irrefl _), List.take_length]
    have hdel : Delivered s u := State.injectedCodes_delivered ..
    have hoku := hdel.sound hok
    have hconvu : ∀ d, u.conv d = s.conv d := fun d => congrArg (fun m => Store.get (fun _ => ConvS.init) m d) hdel.conv
    have hconv : v.conv c.val = { s.conv c.val with busy := .idle, freeAt := e } := by
      simp only [v]
      rw [State.conv_updConv_same hoku, hconvu]
    have hstay : v.startRegular c.val e = v :=
      (State.startRegular_settled (State.updConv_sound hoku ..) (hdel.settled.trans hset) c.val e).2.2.1
        (Or.inr (by rw [hconv]; exact hnext))
    rw [hstay] at hexec
    refine ⟨v, hexec, hconv, fun k r hslots hcodes hdone hty hmine => ?_, fun d hd => ?_, hdel.bar, hdel.legs, hdel.tk⟩
    · have hu : u = s.deliver c.val (s.iSlot c.val k) [r.toInt] (start + 16 * uEdge) false false none := by
        simp only [u, hslots, hcodes, hdone, List.drop_zero, State.injectedCodes, State.injectedCode]
        rw [if_neg hty, Nat.zero_add, Nat.one_mul]
        rfl
      change (u.inp _).latest = _
      rw [hu]
      exact ((State.deliver_spec ..).2.2 hok).2 hmine
    · simp only [v]
      rw [State.conv_updConv_ne hoku _ hd, hconvu]

/-! ### Calibration -/

/-- EVAL's forming moves EVAL and the pairs alone. -/
theorem State.formEval_frame (s : State) :
    s.formEval.adc.cal = s.adc.cal ∧ (∀ c, s.formEval.conv c = s.conv c) ∧ s.formEval.bar = s.bar ∧ s.formEval.legs = s.legs ∧
    s.formEval.start = s.start ∧ s.formEval.tk = s.tk ∧ s.formEval.cwy = s.cwy := by
  obtain ⟨pair, hform, -⟩ := s.formEval_eq
  rw [hform]
  exact ⟨rfl, fun _ => rfl, rfl, rfl, rfl, rfl, rfl⟩

/-- What the end of one converter's calibration does beside the runs (R86). -/
theorem State.endCal_spec (s : State) (c : Conv) (gain : Nat) (offset : Int) :
    let t := s.endCal c gain offset
    let ok := 0x7333 ≤ gain ∧ gain ≤ 0x8CCD ∧ -512 ≤ offset ∧ offset ≤ 512
    t.adc.cal = s.adc.cal ∧ t.bar = s.bar ∧ t.legs = s.legs ∧ t.start = s.start ∧ t.tk = s.tk ∧
    (s.partsOk = true → (∀ d : Nat, d ≠ c.val → t.conv d = s.conv d) ∧
      (ok → t.conv c.val = { s.conv c.val with calRun := false, calDone := true, calFail := false, gain := gain, offset := offset }) ∧
      (¬ ok → t.conv c.val = { s.conv c.val with calRun := false, calDone := false, calFail := true })) ∧
    (ok → t.cwy = s.cwy) ∧ (¬ ok → s.reports t 104 s.deckAddr c.val gain offset) := by
  intro t ok
  have hcalPasses : calPasses gain offset = true ↔ ok := decide_eq_true_iff
  by_cases hok : ok
  · let u := s.updConv c (fun k => { k with calRun := false, calDone := true, calFail := false, gain := gain, offset := offset })
    have ht : t = u.formEval := by
      simp only [t, State.endCal]
      rw [if_pos (hcalPasses.mpr hok)]
    obtain ⟨hcal, hconv, hbar, hlegs, hstart, htk, hcwy⟩ := u.formEval_frame
    rw [ht]
    refine ⟨hcal, hbar, hlegs, hstart, htk, fun hparts => ⟨fun d hd => ?_, fun _ => ?_, fun h => absurd hok h⟩, fun _ => hcwy,
      fun h => absurd hok h⟩
    · exact (hconv d).trans (State.conv_updConv_ne hparts _ hd)
    · exact (hconv c.val).trans (State.conv_updConv_same hparts ..)
  · let u := s.updConv c (fun k => { k with calRun := false, calDone := false, calFail := true })
    let v := u.raise 104 s.deckAddr c.val gain offset
    have ht : t = v.formEval := by
      simp only [t, State.endCal]
      rw [if_neg (mt hcalPasses.mp hok)]
    obtain ⟨hcal, hconv, hbar, hlegs, hstart, htk, hcwy⟩ := v.formEval_frame
    have hruns : v.adc.cal = s.adc.cal := (congrArg AdcS.cal (State.adc_raise ..) : v.adc.cal = u.adc.cal)
    rw [ht]
    refine ⟨hcal.trans hruns, hbar.trans (State.bar_raise ..), hlegs.trans (State.legs_raise ..),
      hstart.trans (State.start_raise ..), htk.trans (State.tk_raise ..),
      fun hparts => ⟨fun d hd => ?_, fun h => absurd h hok, fun _ => ?_⟩, fun h => absurd h hok, fun _ => ?_⟩
    · exact (hconv d).trans ((State.conv_raise ..).trans (State.conv_updConv_ne hparts _ hd))
    · exact (hconv c.val).trans ((State.conv_raise ..).trans (State.conv_updConv_same hparts ..))
    · unfold State.reports
      rw [hcwy]
      exact u.raise_reports _ _ _ _ _ (by decide)

/-- A run of a start's calibration that has come to its end. -/
def CalRun.past (r : CalRun) : Bool := decide (r.cmd = none) && decide (r.running = [])

/-- The end of a calibration that runs: the verdict, the runs that go on, and the start's step 8 where its run has ended. -/
theorem exec_adcCalEnd {c : Conv} {gain : Nat} {offset : Int} {s : State} (hcal : (s.conv c.val).calRun = true) :
    exec (.adcCalEnd c gain offset) s =
      let runs := s.adc.cal.map (fun r => r.ended c (calPasses gain offset))
      let t := s.endCal c gain offset
      let u : State := { t with adc := { t.adc with cal := runs.filter (fun r => !r.past) } }
      match runs.find? CalRun.past with
      | none => .next u
      | some r => if r.failed ≠ [] then .next (u.startFail 16) else .next { u with start := { u.start with step := 9, step9 := u.tk.now } } := by
  change execAdcCalEnd c gain offset s = _
  unfold execAdcCalEnd
  rw [hcal]
  rfl

/-- Settles O27 (R86). -/
theorem calibrationVerdict : Obligations.CalibrationVerdict := by
  refine ⟨fun c gain offset s hoff => ?_, fun c gain offset s r hparts hcal hruns hcmd hlast => ?_, fun c gain offset s hparts hcal hmore => ?_⟩
  · change execAdcCalEnd c gain offset s = _
    simp only [execAdcCalEnd, hoff, Bool.not_false, if_true]
  · intro ok
    let t := s.endCal c gain offset
    let r' : CalRun := { r with
      running := [], passed := if calPasses gain offset then r.passed ++ [c] else r.passed,
      failed := if calPasses gain offset then r.failed else r.failed ++ [c] }
    have hended : r.ended c (calPasses gain offset) = r' := by
      simp only [CalRun.ended, hlast, List.contains_cons, BEq.rfl, Bool.true_or, Bool.not_true, Bool.false_eq_true, if_false,
        List.filter_cons, ne_eq, not_true_eq_false, decide_false, List.filter_nil, r']
    have hpast : r'.past = true := by
      simp only [CalRun.past, r', hcmd, decide_true, Bool.and_self]
    let u : State := { t with adc := { t.adc with cal := [] } }
    have hexec : exec (.adcCalEnd c gain offset) s =
        if r'.failed ≠ [] then .next (u.startFail 16) else .next { u with start := { u.start with step := 9, step9 := u.tk.now } } := by
      rw [exec_adcCalEnd hcal, hruns, List.map_singleton, hended]
      simp only [List.find?_cons, hpast, List.filter_cons, Bool.not_true, Bool.false_eq_true, if_false, List.filter_nil]
      rfl
    obtain ⟨-, -, -, hstart, htk, hconv, -⟩ := s.endCal_spec c gain offset
    obtain ⟨-, hpass, hfail⟩ := hconv hparts
    have hrun : (u.conv c.val).calRun = false := by
      change (t.conv c.val).calRun = false
      by_cases h : ok
      · rw [hpass h]
      · rw [hfail h]
    have hcalPasses : calPasses gain offset = true ↔ ok := decide_eq_true_iff
    rw [hexec]
    by_cases hbad : r'.failed ≠ []
    · rw [if_pos hbad]
      obtain ⟨hstop, -, -, hcause, -⟩ := u.startFail_start 16
      have hadc := (u.startFail_halted 16).adc
      refine ⟨_, rfl, congrArg AdcS.cal hadc, ?_, fun hgood hnone => ?_, fun _ => ⟨hstop, hcause⟩⟩
      · change (Store.get _ (u.startFail 16).adc.conv c.val).calRun = false
        rw [hadc]
        exact hrun
      · refine absurd ?_ hbad
        simp only [r', if_pos (hcalPasses.mpr hgood), hnone]
    · rw [if_neg hbad]
      have hnow : u.tk.now = s.tk.now := congrArg TickS.now htk
      have hrunning : u.start.running = s.start.running := congrArg StartS.running hstart
      refine ⟨_, rfl, rfl, hrun, fun _ _ => ⟨rfl, hnow, hrunning⟩, fun h => absurd ?_ hbad⟩
      rcases h with h | h
      · simp only [r', if_neg (mt hcalPasses.mp h)]
        simp
      · simp only [r']
        split
        · exact h
        · simp
  · intro ok
    have hcalPasses : calPasses gain offset = true ↔ ok := decide_eq_true_iff
    have hlive : ∀ r ∈ s.adc.cal.map (fun r => r.ended c (calPasses gain offset)), r.past = false := by
      intro r hr
      obtain ⟨q, hq, rfl⟩ := List.mem_map.mp hr
      have hcmd : (q.ended c (calPasses gain offset)).cmd = q.cmd := by
        unfold CalRun.ended
        split <;> rfl
      by_cases hnone : q.cmd = none
      · obtain ⟨d, hd, hne⟩ := hmore q hq hnone
        have hmem : d ∈ (q.ended c (calPasses gain offset)).running := by
          unfold CalRun.ended
          split
          · exact hd
          · exact List.mem_filter.mpr ⟨hd, decide_eq_true hne⟩
        simp only [CalRun.past, List.ne_nil_of_mem hmem, decide_false, Bool.and_false]
      · simp only [CalRun.past, hcmd, hnone, decide_false, Bool.false_and]
    let t := s.endCal c gain offset
    have hexec : exec (.adcCalEnd c gain offset) s = .next { t with adc := { t.adc with
        cal := s.adc.cal.map (fun r => r.ended c (calPasses gain offset)) } } := by
      rw [exec_adcCalEnd hcal]
      have hfind : (s.adc.cal.map (fun r => r.ended c (calPasses gain offset))).find? CalRun.past = none :=
        List.find?_eq_none.mpr fun r hr => by simp [hlive r hr]
      have hfilter : (s.adc.cal.map (fun r => r.ended c (calPasses gain offset))).filter (fun r => !r.past) =
          s.adc.cal.map (fun r => r.ended c (calPasses gain offset)) :=
        List.filter_eq_self.mpr fun r hr => by simp [hlive r hr]
      simp only [hfind, hfilter]
      rfl
    obtain ⟨-, hbar, hlegs, hstart, -, hconv, hquiet, hreport⟩ := s.endCal_spec c gain offset
    obtain ⟨hother, hpass, hfail⟩ := hconv hparts
    refine ⟨_, hexec, fun h => ⟨hpass h, hquiet h⟩, fun h => ⟨hfail h, hreport h⟩, ?_, hother, hbar, hlegs, hstart⟩
    refine List.map_congr_left fun r _ => ?_
    unfold CalRun.ended
    by_cases hin : c ∈ r.running
    · simp only [List.contains_eq_mem, hin, decide_true, Bool.not_true, Bool.false_eq_true, if_false, if_true, hcalPasses]
    · simp only [List.contains_eq_mem, hin, decide_false, Bool.not_false, if_true, if_false]

end Sys2Proof.Machine
end

section
/-! PROOFS. The tick: its boundary, its phases and the service ticks of abutment mode (R43 to R60, R328, R334, R412). -/
namespace Sys2Proof.Machine

/-! ### The boundary and the phases before Φ3 -/

/-- Settles O28 (R43). -/
theorem boundaryCountsTick : Obligations.BoundaryCountsTick := by
  intro inp s
  refine ⟨fun htick habut hclock hpu => ?_, fun hnone => ?_⟩
  · have hpre : (!s.start.ticking || s.start.abut || !s.clocked || decide (s.pu = 0)) = false := by simp [htick, habut, hclock, hpu]
    have hrun : ∃ t, exec (.tickBoundary inp) s = .next t := by
      change ∃ t, execTickBoundary inp s = _
      unfold execTickBoundary
      rw [hpre]
      exact ⟨_, rfl⟩
    obtain ⟨t, ht⟩ := hrun
    have hqueue := exec_keepsQueue (.tickBoundary inp) s
    rw [ht] at hqueue
    exact ⟨t, ht, execTickBoundary_count inp s t htick habut hclock hpu ht, hqueue⟩
  · have hpre : (!s.start.ticking || s.start.abut || !s.clocked || decide (s.pu = 0)) = true := by
      rcases hnone with h | h | h | h <;> simp [h]
    change execTickBoundary inp s = _
    unfold execTickBoundary
    rw [hpre]
    rfl

/-- Fixing the snapshot leaves the queue and the number of the tick alone. -/
theorem Ticked.snap (s : State) (x : SnapS) : Ticked s { s with snap := x } := ⟨rfl, rfl⟩

/-- What Φ0 fixes, up to its mark (R71). -/
def State.phi0Fixed (s : State) (ov : List (Fin 4)) (inj : List (Conv × List (BitVec 16))) : State :=
  let r := inj.foldl (fun (t : State) q => t.injectedEnded q.1 q.2) { s with par := { s.par with ovNow := ov } }
  let t := r.snapshot
  { t with snap := t.sampledAt }.judgeFrame

/-- Φ0 has run. -/
def State.phi0Marked (s : State) : State := { s with tk := { s.tk with phi0Done := true } }

theorem State.phi0Fixed_ticked (s : State) (ov : List (Fin 4)) (inj : List (Conv × List (BitVec 16))) : Ticked s (s.phi0Fixed ov inj) := by
  have hpar : Ticked s { s with par := { s.par with ovNow := ov } } := ⟨rfl, rfl⟩
  unfold State.phi0Fixed
  extract_lets _ r t
  have hr : Ticked s r := hpar.trans (Ticked.foldl _ (fun t q => .of (State.injectedEnded_ticks t q.1 q.2)) inj _)
  have ht : Ticked r r.snapshot := .of r.snapshot_ticks
  clear_value r
  have hsnap : Ticked t { t with snap := t.sampledAt } := .snap t _
  have hjudge := Ticked.of (State.judgeFrame_ticks { t with snap := t.sampledAt })
  exact ((hr.trans ht).trans hsnap).trans hjudge

/-- Settles O29 (R46, R56). -/
theorem phasesRunOnce : Obligations.PhasesRunOnce := by
  refine ⟨fun ov inj s htick habut hclock => ⟨fun hfirst => ?_, fun hdone => ?_⟩,
    fun page descs s htick habut hclock => ⟨fun hfirst => ?_, fun hfirst hoff => ?_, fun hdone => ?_⟩,
    fun endAt tie s habut => ⟨fun hrun hfirst h0 h1 hend => ?_, fun hnone => ?_⟩⟩
  · have hpre : (!s.start.ticking || s.start.abut || !s.clocked || s.tk.phi0Done) = false := by simp [htick, habut, hclock, hfirst]
    have hexec : exec (.phi0Snapshot ov inj) s = .next ((s.at s.t0end).phi0Fixed ov inj).phi0Marked := by
      change execPhi0Snapshot ov inj s = _
      unfold execPhi0Snapshot
      rw [if_neg (by rw [hpre]; decide)]
      unfold State.phi0Fixed State.phi0Marked
      with_reducible rfl
    have hc : Ticked s ((s.at s.t0end).phi0Fixed ov inj) := (Ticked.of (State.at_ticks s s.t0end)).trans (State.phi0Fixed_ticked ..)
    generalize (s.at s.t0end).phi0Fixed ov inj = t at hexec hc
    exact ⟨_, hexec, rfl, hc.2, hc.1⟩
  · have hpre : (!s.start.ticking || s.start.abut || !s.clocked || s.tk.phi0Done) = true := by simp [hdone]
    change execPhi0Snapshot ov inj s = _
    unfold execPhi0Snapshot
    rw [hpre]
    rfl
  · have hpre : (s.tk.phi1Done || s.start.abut || !s.start.ticking || !s.clocked) = false := by simp [htick, habut, hclock, hfirst]
    let t := if s.cwy.run then s.advanceProd.fetchPage page descs else s
    have hexec : exec (.doorbellFetch page descs) s = .next { t with tk := { t.tk with phi1Done := true } } := by
      change execDoorbellFetch page descs s = _
      unfold execDoorbellFetch
      rw [hpre]
      rfl
    have ht : Ticked s t := .ite (Ticked.trans (.of s.advanceProd_ticks) (.of (State.fetchPage_ticks ..))) (.refl s)
    exact ⟨_, hexec, rfl, ht.2, ht.1⟩
  · have hpre : (s.tk.phi1Done || s.start.abut || !s.start.ticking || !s.clocked) = false := by simp [htick, habut, hclock, hfirst]
    change execDoorbellFetch page descs s = _
    unfold execDoorbellFetch
    rw [hpre]
    simp only [Bool.false_eq_true, if_false, hoff]
  · have hpre : (s.tk.phi1Done || s.start.abut || !s.start.ticking || !s.clocked) = true := by simp [hdone]
    change execDoorbellFetch page descs s = _
    unfold execDoorbellFetch
    rw [hpre]
    rfl
  · have hpre : (!s.coresRun || s.start.abut || s.tk.phi2Done || !s.tk.phi0Done || !s.tk.phi1Done || decide (s.pu ≤ endAt)) = false := by
      simp [hrun, habut, hfirst, h0, h1, hend]
    let a := if s.start.ready then s.adoptStandby.rebindOpen.prepare.runCommands.computeSpans else s
    let b := ((a.at endAt).raiseFound.tieSelfCheck tie).judgeSlack endAt
    have hexec : exec (.phi2Compute endAt tie) s = .next { b with tk := { b.tk with phi2Done := true } } := by
      change execPhi2Compute endAt tie s = _
      unfold execPhi2Compute
      rw [hpre]
      rfl
    have hspans : Ticked s s.adoptStandby.rebindOpen.prepare.runCommands.computeSpans :=
      ((((Ticked.of s.adoptStandby_ticks).trans (.of (State.rebindOpen_ticks _))).trans (.of (State.prepare_ticks _))).trans
        (.of (State.runCommands_ticks _))).trans (.of (State.computeSpans_ticks _))
    have ha : Ticked s a := .ite hspans (.refl s)
    have hb : Ticked a b := (((Ticked.of (State.at_ticks a endAt)).trans (.of (State.raiseFound_ticks _))).trans
      (.of (State.tieSelfCheck_ticks _ tie))).trans (.of (State.judgeSlack_ticks _ endAt))
    exact ⟨_, hexec, rfl, (ha.trans hb).2, (ha.trans hb).1⟩
  · have hpre : (!s.coresRun || s.start.abut || s.tk.phi2Done || !s.tk.phi0Done || !s.tk.phi1Done || decide (s.pu ≤ endAt)) = true := by
      rcases hnone with h | h | h | h | h <;> simp [h]
    change execPhi2Compute endAt tie s = _
    unfold execPhi2Compute
    rw [hpre]
    rfl

end Sys2Proof.Machine
end

section
/-! PROOFS. What Φ3 writes to the host, and the service ticks of abutment mode (R268, R334, R340, R412). -/
namespace Sys2Proof.Machine

/-! ### Events and vectors: what they move -/

/-- Raising an event moves the MRAM and the lists of waiting events alone. -/
theorem State.raise_eq (s : State) (code : Nat) (addr : AddrWord) (cause : Nat) (val val2 : Int) :
    ∃ m pq pqMax evs, s.raise code addr cause val val2 =
      { s with mrm := m, cwy := { s.cwy with pq := pq, pqMax := pqMax, evs := evs } } := by
  have hlog : ∀ (t : State) (e : Event), ∃ m, t.logEvent e = { t with mrm := m } := by
    intro t e
    unfold State.logEvent
    dsimp only
    split_ifs <;> exact ⟨_, rfl⟩
  have htrig : ∀ (t : State) (e : Event), ∃ m, t.noteTrigger e = { t with mrm := m } := by
    intro t e
    unfold State.noteTrigger
    split
    · exact ⟨_, rfl⟩
    · exact ⟨_, rfl⟩
  unfold State.raise
  extract_lets e t pq
  obtain ⟨m, hm⟩ := hlog s e
  obtain ⟨m', hm'⟩ := htrig (s.logEvent e) e
  have ht : t = { s with mrm := m' } := by
    simp only [t]
    rw [hm', hm]
  clear_value t
  subst ht
  split
  · exact ⟨_, _, _, _, rfl⟩
  · exact ⟨_, _, _, _, rfl⟩

theorem State.signal_eq (s : State) (v : Nat) :
    ∃ w b, s.signal v = { s with cwy := { s.cwy with vectors := w, pba := b } } := by
  unfold State.signal
  split
  · exact ⟨_, _, rfl⟩
  · exact ⟨_, _, rfl⟩

/-- A state but for its MRAM, its ports and what events and vectors move of the Causeway. -/
def State.hushed (s : State) : State :=
  { s with
    mrm := State.reset.mrm, fp := State.reset.fp, freeCtr := 0
    cwy := { s.cwy with pq := [], pqMax := 0, evs := [], vectors := [], pba := [] } }

theorem State.hushed_foldl {α : Type} (g : State → α → State) (h : ∀ t a, (g t a).hushed = t.hushed) (l : List α) (s : State) :
    (l.foldl g s).hushed = s.hushed := by
  induction l generalizing s with
  | nil => rfl
  | cons a l ih => exact (ih _).trans (h s a)

theorem State.hushed_raise (s : State) (code : Nat) (addr : AddrWord) (cause : Nat) (val val2 : Int) :
    (s.raise code addr cause val val2).hushed = s.hushed := by
  obtain ⟨m, pq, pqMax, evs, h⟩ := s.raise_eq code addr cause val val2
  rw [h]
  rfl

theorem State.hushed_signal (s : State) (v : Nat) : (s.signal v).hushed = s.hushed := by
  obtain ⟨w, b, h⟩ := s.signal_eq v
  rw [h]
  rfl

/-! ### The service tick of abutment mode -/

/-- A state but for its MRAM, its ports, the fetch counters of the tick, and the Causeway but for its gates and the completions
that are due. -/
def State.unfetched (s : State) : State :=
  { s.hushed with
    tk := { TickS.reset with count := s.tk.count }
    cwy := { State.reset.cwy with run := s.cwy.run, linkUp := s.cwy.linkUp, cmplDue := s.cwy.cmplDue } }

theorem State.unfetched_of_hushed {s t : State} (h : t.hushed = s.hushed) : t.unfetched = s.unfetched := by
  have hu : ∀ u : State, u.hushed.unfetched = u.unfetched := fun _ => rfl
  rw [← hu t, h, hu]

theorem State.unfetched_raise (s : State) (code : Nat) (addr : AddrWord) (cause : Nat) (val val2 : Int) :
    (s.raise code addr cause val val2).unfetched = s.unfetched := State.unfetched_of_hushed (s.hushed_raise ..)
theorem State.unfetched_signal (s : State) (v : Nat) : (s.signal v).unfetched = s.unfetched :=
  State.unfetched_of_hushed (s.hushed_signal v)
theorem State.staged_raise (s : State) (code : Nat) (addr : AddrWord) (cause : Nat) (val val2 : Int) :
    (s.raise code addr cause val val2).cwy.staged = s.cwy.staged := by
  obtain ⟨m, pq, pqMax, evs, h⟩ := s.raise_eq code addr cause val val2
  rw [h]
theorem State.staged_signal (s : State) (v : Nat) : (s.signal v).cwy.staged = s.cwy.staged := by
  obtain ⟨w, b, h⟩ := s.signal_eq v
  rw [h]

theorem State.advanceProd_spec (s : State) : s.advanceProd.unfetched = s.unfetched ∧ s.advanceProd.cwy.staged = s.cwy.staged := by
  unfold State.advanceProd
  extract_lets w p gone t
  split
  · exact ⟨rfl, rfl⟩
  · split
    · exact ⟨t.unfetched_signal 4, t.staged_signal 4⟩
    · exact ⟨rfl, rfl⟩

theorem State.fetchSlip_spec (s : State) : s.fetchSlip.unfetched = s.unfetched ∧ s.fetchSlip.cwy.staged = s.cwy.staged := by
  unfold State.fetchSlip
  extract_lets u t
  have hu : u.unfetched = s.unfetched ∧ u.cwy.staged = s.cwy.staged := by
    simp only [u]
    split
    · exact ⟨rfl, rfl⟩
    · exact ⟨rfl, rfl⟩
  clear_value u
  exact ⟨(State.unfetched_signal ..).trans ((State.unfetched_raise ..).trans hu.1),
    (State.staged_signal ..).trans ((State.staged_raise ..).trans hu.2)⟩

theorem State.pageFailed_spec (s : State) : s.pageFailed.unfetched = s.unfetched ∧ s.pageFailed.cwy.staged = s.cwy.staged := by
  unfold State.pageFailed
  exact ⟨(State.unfetched_signal ..).trans (State.unfetched_raise ..), (State.staged_signal ..).trans (State.staged_raise ..)⟩

/-- Judging the host moves the Causeway alone, and marks staged descriptors without staging one. -/
theorem State.judgeHost_spec (s : State) (before : Option Nat) (ok : Bool) :
    (s.judgeHost before ok).unfetched = s.unfetched ∧ (s.cwy.staged = [] → (s.judgeHost before ok).cwy.staged = []) := by
  have hloss : ∀ cause, (s.hostLoss cause).unfetched = s.unfetched ∧ (s.cwy.staged = [] → (s.hostLoss cause).cwy.staged = []) := by
    intro cause
    unfold State.hostLoss State.judgeFb
    extract_lets h lose _ t
    refine ⟨t.unfetched_raise .., fun hnone => ?_⟩
    change (t.raise 64 _ cause _ 0).cwy.staged = []
    rw [State.staged_raise]
    simp only [t, hnone, List.map_nil]
  have hback : s.hostBack.unfetched = s.unfetched ∧ s.hostBack.cwy.staged = s.cwy.staged := by
    unfold State.hostBack State.judgeFb
    extract_lets _ t
    exact ⟨t.unfetched_raise .., t.staged_raise ..⟩
  unfold State.judgeHost
  split
  · split
    · exact ⟨hback.1, fun h => hback.2.trans h⟩
    · exact ⟨rfl, id⟩
  · split
    · exact ⟨rfl, id⟩
    · split
      · exact hloss 1
      · split
        · exact hloss 2
        · exact ⟨rfl, id⟩

/-- What the view drops of the Causeway may change. -/
theorem State.unfetched_cwy (s : State) (w : CwyS) (hrun : w.run = s.cwy.run) (hlink : w.linkUp = s.cwy.linkUp)
    (hdue : w.cmplDue = s.cwy.cmplDue) : ({ s with cwy := w } : State).unfetched = s.unfetched := by
  unfold State.unfetched State.hushed
  simp only [hrun, hlink, hdue]

theorem State.judgeFull_unfetched (s : State) : s.judgeFull.unfetched = s.unfetched := by
  have ht : ∀ full : Bool, ({ s with cwy := { s.cwy with cmdFull := full, fullRaised := full } } : State).unfetched = s.unfetched :=
    fun _ => s.unfetched_cwy _ rfl rfl rfl
  unfold State.judgeFull
  extract_lets full _ t
  split
  · exact ((State.unfetched_signal ..).trans (State.unfetched_raise ..)).trans (ht full)
  · exact ht full

theorem State.fetchError_unfetched (s : State) (d : Staged) (st : Status) (cause : Nat) :
    (s.fetchError d st cause).unfetched = s.unfetched := by
  unfold State.fetchError
  extract_lets w t
  exact (t.unfetched_raise ..).trans (s.unfetched_cwy _ rfl rfl rfl)

theorem State.fetchOne_unfetched (s : State) (b : Block64) : (s.fetchOne b).unfetched = s.unfetched := by
  unfold State.fetchOne
  dsimp only
  split
  · exact (State.fetchError_unfetched ..).trans (s.unfetched_cwy _ rfl rfl rfl)
  · exact s.unfetched_cwy _ rfl rfl rfl

/-- The fetch of a tick moves the Causeway and the tick's fetch counters, and stages nothing where no page comes. -/
theorem State.fetchPage_spec (s : State) (page : Option Block64) (descs : List Block64) :
    (s.fetchPage page descs).unfetched = s.unfetched ∧
    (page = none ∨ s.cwy.linkUp = false → s.cwy.staged = [] → (s.fetchPage page descs).cwy.staged = []) := by
  unfold State.fetchPage
  extract_lets live judge
  have hjudge : ∀ (t : State) (ok : Bool), (judge t ok).unfetched = t.unfetched ∧ (t.cwy.staged = [] → (judge t ok).cwy.staged = []) := by
    intro t ok
    simp only [judge]
    split
    · exact t.judgeHost_spec ..
    · exact ⟨rfl, id⟩
  have hslip := s.fetchSlip_spec
  have hslipped : (judge s.fetchSlip false).unfetched = s.unfetched := (hjudge ..).1.trans hslip.1
  split
  · exact ⟨hslipped, fun _ h => (hjudge ..).2 (hslip.2.trans h)⟩
  · rename_i p hp
    refine ⟨?_, fun hnone => ?_⟩
    · split
      · exact (hjudge ..).1.trans s.pageFailed_spec.1
      · extract_lets n
        split
        · exact hslipped
        · refine Eq.trans ?_ ((State.judgeFull_unfetched _).trans (hjudge (s.takePage p) true).1)
          unfold State.takeDescs
          generalize (judge (s.takePage p) true).judgeFull = u
          induction descs.take n generalizing u with
          | nil => rfl
          | cons b l ih => exact (ih _).trans (u.fetchOne_unfetched b)
    · rcases hnone with h | h
      · simp [h] at hp
      · simp [h] at hp

/-- The completions that are due are written where the rings are open, and the Causeway's gates stay. -/
theorem State.writeCompletions_gates (s : State) :
    s.writeCompletions.cwy.run = s.cwy.run ∧ s.writeCompletions.cwy.linkUp = s.cwy.linkUp ∧
    s.writeCompletions.cwy.staged = s.cwy.staged ∧ (s.ringsOpen = true → s.writeCompletions.cwy.cmplDue = []) := by
  have hfold : ∀ (l : List Completion) (u : State), (l.foldl State.putCmpl u).cwy.run = u.cwy.run ∧
      (l.foldl State.putCmpl u).cwy.linkUp = u.cwy.linkUp ∧ (l.foldl State.putCmpl u).cwy.staged = u.cwy.staged ∧
      (l.foldl State.putCmpl u).cwy.cmplDue = u.cwy.cmplDue := by
    intro l
    induction l with
    | nil => exact fun _ => ⟨rfl, rfl, rfl, rfl⟩
    | cons c l ih => exact fun u => ih (u.putCmpl c)
  unfold State.writeCompletions
  split
  · obtain ⟨hrun, hlink, hstaged, hdue⟩ := hfold s.cwy.cmplDue { s with cwy := { s.cwy with cmplDue := [] } }
    exact ⟨hrun, hlink, hstaged, fun _ => hdue⟩
  · rename_i hshut
    exact ⟨rfl, rfl, rfl, fun h => absurd h hshut⟩

/-- A state but for its MRAM and what writing events moves of the Causeway. -/
def State.eventless (s : State) : State :=
  { s with
    mrm := State.reset.mrm
    cwy := { s.cwy with
      evtRing := [], evtProd := 0, vectors := [], pba := [], evtRsv := false, storm := false, stormCount := 0, stormEvents := 0,
      stormWritten := 0, stormTicks := 0, stormQuiet := 0, evtDrop := 0 } }

theorem State.eventless_signal (s : State) (v : Nat) : (s.signal v).eventless = s.eventless := by
  obtain ⟨w, b, h⟩ := s.signal_eq v
  rw [h]
  rfl

theorem State.eventless_putEvent (s : State) (e : Event) : (s.putEvent e).eventless = s.eventless := by
  unfold State.putEvent
  exact State.eventless_signal ..

theorem State.eventless_judgeRsv (s : State) : s.judgeRsv.eventless = s.eventless := by
  unfold State.judgeRsv
  dsimp only
  split
  · exact State.eventless_signal ..
  · rfl

theorem State.eventless_endStorm (s : State) : s.endStorm.eventless = s.eventless := by
  have hnote : ∀ (t : State) (e : Event), ((t.logEvent e).noteTrigger e).eventless = t.eventless := by
    intro t e
    have hring : ((t.logEvent e).noteTrigger e).ringless = t.ringless := by simp
    have hcwy : ((t.logEvent e).noteTrigger e).cwy = t.cwy := by rw [State.noteTrigger_cwy, State.logEvent_cwy]
    generalize (t.logEvent e).noteTrigger e = u at hring hcwy
    have hu : ∀ x : State, x.eventless = { x.ringless with cwy := x.eventless.cwy } := fun _ => rfl
    rw [hu u, hring]
    have hc : u.eventless.cwy = t.eventless.cwy := by
      unfold State.eventless
      rw [hcwy]
    rw [hc]
    rfl
  unfold State.endStorm
  dsimp only
  split
  · exact (State.eventless_putEvent ..).trans (hnote ..)
  · exact hnote ..

/-- Writing the events of the tick empties their list and moves nothing else but the event ring's own data. -/
theorem State.eventless_writeEvents (s : State) : s.writeEvents.eventless = { s with cwy := { s.cwy with evs := [] } }.eventless := by
  have hput : ∀ (l : List Event) (t : State), (l.foldl State.putEvent t).eventless = t.eventless := by
    intro l
    induction l with
    | nil => exact fun _ => rfl
    | cons e l ih => exact fun t => (ih _).trans (t.eventless_putEvent e)
  unfold State.writeEvents
  extract_lets evs _ s1 lim cond all out lost s2 w s3
  split
  · rfl
  · split
    · exact (State.eventless_judgeRsv ..).trans (hput ..)
    · have h3 : s3.eventless = s1.eventless := hput out s1
      refine (State.eventless_judgeRsv _).trans ?_
      split
      · exact (State.eventless_endStorm _).trans h3
      · exact h3

/-- Settles O31 (R412). -/
theorem serviceTicks : Obligations.ServiceTicks := by
  intro page descs s
  -- What the tick has before it writes and fetches, where no command is staged.
  let u : State := { s with
    start := { s.start with service := s.start.service + 1 }
    cwy := { s.cwy with run := bitOf (s.reg 0x2000) 0, evs := if s.cwy.run then s.cwy.evs else [] } }
  let v := u.writeCompletions.writeEvents
  let w := if v.cwy.run then v.advanceProd.fetchPage page descs else v
  have hexec : s.start.abut = true → s.cwy.staged = [] → exec (.abutmentServiceTick page descs) s =
      .next { w with cwy := { w.cwy with staged := w.cwy.staged.map (fun d =>
        if (v.cwy.staged.map (fun d => d.seq)).contains d.seq then d
        else { d with bound := s.start.service + 1 + 2, late := false, lateCause := 0, fail := (w.fetchCheck d).map (fun x => x.1) }) } } := by
    intro habut hnone
    change execAbutmentServiceTick page descs s = _
    unfold execAbutmentServiceTick
    rw [if_neg (by simp [habut])]
    extract_lets m _ _ x due y
    have hdue : due = [] := by
      have hx : x.cwy.staged = [] := hnone
      simp only [due, hx, List.filter_nil]
    have hy : y = u := by
      simp only [y, hdue, List.foldl_nil]
      rfl
    clear_value y
    subst hy
    rw [if_neg (by simp [u, habut])]
  obtain ⟨hgateRun, hgateLink, hgateStaged, hgateDue⟩ := u.writeCompletions_gates
  have hevents := u.writeCompletions.eventless_writeEvents
  have hvrun : v.cwy.run = u.cwy.run := (eq_of_view _ hevents (fun x => x.cwy.run) fun _ => rfl).trans hgateRun
  have hvlink : v.cwy.linkUp = u.cwy.linkUp := (eq_of_view _ hevents (fun x => x.cwy.linkUp) fun _ => rfl).trans hgateLink
  have hvstaged : v.cwy.staged = u.cwy.staged := (eq_of_view _ hevents (fun x => x.cwy.staged) fun _ => rfl).trans hgateStaged
  have hvdue : v.cwy.cmplDue = u.writeCompletions.cwy.cmplDue := eq_of_view _ hevents (fun x => x.cwy.cmplDue) fun _ => rfl
  have hring : v.ringless = u.ringless := (State.ringless_writeEvents _).trans (State.ringless_writeCompletions _)
  refine ⟨fun habut hnone hoff => ?_, fun habut hnone hon => ?_, fun hout => ?_⟩
  · have hshut : u.writeCompletions = u := by
      unfold State.writeCompletions State.ringsOpen
      simp only [u, hoff, Bool.false_and, Bool.false_eq_true, if_false]
    have hv : v = { u with cwy := { u.cwy with evs := [] } } := by
      simp only [v]
      rw [hshut]
      unfold State.writeEvents
      extract_lets
      rw [if_pos (by simp only [u, hoff, Bool.not_false])]
    have hw : w = v := by
      simp only [w]
      rw [if_neg (by rw [hvrun]; simp [u, hoff])]
    rw [hexec habut hnone, hw, hv]
    simp only [u, hnone, hoff, List.map_nil]
  · have hrun : v.cwy.run = true := hvrun.trans hon
    have hw : w = v.advanceProd.fetchPage page descs := if_pos hrun
    obtain ⟨hadv, hadvStaged⟩ := v.advanceProd_spec
    obtain ⟨hfetch, hfetchStaged⟩ := v.advanceProd.fetchPage_spec page descs
    have hview : w.unfetched = v.unfetched := by
      rw [hw]
      exact hfetch.trans hadv
    have hstaged : v.cwy.staged = [] := hvstaged.trans hnone
    have hlink : v.advanceProd.cwy.linkUp = s.cwy.linkUp :=
      (eq_of_view _ hadv (fun x => x.cwy.linkUp) fun _ => rfl).trans hvlink
    refine ⟨_, hexec habut hnone, ?_, ?_, ?_, fun d hd => ?_, fun hno => ?_, fun hup => ?_, ?_, ?_, ?_, ?_⟩
    · exact congrArg StartS.service ((eq_of_view _ hview State.start fun _ => rfl).trans (eq_of_view _ hring State.start fun _ => rfl))
    · exact (congrArg StartS.abut ((eq_of_view _ hview State.start fun _ => rfl).trans
        (eq_of_view _ hring State.start fun _ => rfl))).trans habut
    · exact (eq_of_view _ hview (fun x => x.cwy.run) fun _ => rfl).trans hrun
    · obtain ⟨x, -, hx⟩ := List.mem_map.mp hd
      rw [hstaged] at hx
      simp only [List.map_nil, List.contains_nil, Bool.false_eq_true, if_false] at hx
      subst hx
      exact ⟨rfl, rfl⟩
    · have hempty : w.cwy.staged = [] := by
        rw [hw]
        exact hfetchStaged (hno.imp_right fun h => hlink.trans h) (hadvStaged.trans hstaged)
      change w.cwy.staged.map _ = []
      rw [hempty]
      rfl
    · have hopen : u.ringsOpen = true := by
        simp only [State.ringsOpen, u, hon, hup, Bool.and_self]
      exact (eq_of_view _ hview (fun x => x.cwy.cmplDue) fun _ => rfl).trans (hvdue.trans (hgateDue hopen))
    · exact (eq_of_view _ hview State.bar fun _ => rfl).trans (eq_of_view _ hring State.bar fun _ => rfl)
    · exact (eq_of_view _ hview State.legs fun _ => rfl).trans (eq_of_view _ hring State.legs fun _ => rfl)
    · exact (eq_of_view _ hview State.cur fun _ => rfl).trans (eq_of_view _ hring State.cur fun _ => rfl)
    · exact (eq_of_view _ hview (fun x => x.tk.count) fun _ => rfl).trans (eq_of_view _ hring (fun x => x.tk.count) fun _ => rfl)
  · change execAbutmentServiceTick page descs s = _
    unfold execAbutmentServiceTick
    simp only [hout, Bool.not_false, if_true]

end Sys2Proof.Machine
end

section
/-! PROOFS. Φ3: the recorder, telemetry, publications, completions, events and the frame (R268, R334, R337, R340, R427). -/
namespace Sys2Proof.Machine

/-! ### Publications and the recorder -/

theorem State.hushed_fp (s : State) (x : FpS) : ({ s with fp := x } : State).hushed = s.hushed := rfl
theorem State.hushed_mrm (s : State) (m : MrmS) : ({ s with mrm := m } : State).hushed = s.hushed := rfl
theorem State.hushed_updPort (s : State) (p : Nat) (f : PortS → PortS) : (s.updPort p f).hushed = s.hushed := rfl
theorem State.hushed_updObj (s : State) (p o : Nat) (f : ObjS → ObjS) : (s.updObj p o f).hushed = s.hushed := rfl
theorem State.hushed_objEvent (s : State) (code cause p o : Nat) : (s.objEvent code cause p o).hushed = s.hushed := s.hushed_raise ..
theorem State.hushed_offer (s : State) (p : Nat) : (s.offer p).hushed = s.hushed := by
  unfold State.offer
  extract_lets x
  split
  · split
    · rfl
    · rfl
  · rfl
theorem State.hushed_reroute (s : State) (p o : Nat) : (s.reroute p o).hushed = s.hushed := by
  unfold State.reroute
  split
  · exact (State.hushed_offer ..).trans (State.hushed_objEvent ..)
  · rfl
theorem State.hushed_strandObj (s : State) (p o : Nat) : (s.strandObj p o).hushed = s.hushed :=
  (State.hushed_reroute ..).trans (State.hushed_objEvent ..)
theorem State.hushed_request (s : State) (p o : Nat) : (s.request p o).hushed = s.hushed := by
  unfold State.request
  extract_lets t
  split
  · exact State.hushed_strandObj ..
  · exact State.hushed_offer ..
theorem State.hushed_fillObj (s : State) (p o : Nat) (bytes : List Byte) : (s.fillObj p o bytes).hushed = s.hushed := by
  unfold State.fillObj
  extract_lets b s1 hit s2
  have h2 : s2.hushed = s.hushed := by
    simp only [s2]
    split
    · exact State.hushed_foldl _ (fun t a => by split <;> rfl) _ s1
    · rfl
  split
  · exact h2
  · exact (State.hushed_request ..).trans h2

/-- Publishing fills objects of the ports. -/
theorem State.hushed_publish (s : State) : s.publish.hushed = s.hushed := by
  have hobj : ∀ (t : State) (p o : Nat), (t.publishObj p o).hushed = t.hushed := by
    intro t p o
    unfold State.publishObj
    extract_lets b per due k n
    split
    · rfl
    · split
      · exact State.hushed_fillObj ..
      · exact (State.hushed_fillObj ..).trans (t.hushed_fp _)
  unfold State.publish
  split
  · apply State.hushed_foldl
    intro t q
    apply State.hushed_foldl
    intro u x
    exact hobj u q.1 x.1
  · rfl

/-- A hushed state but for its completions that are due and its staged descriptors. -/
def State.unanswered (s : State) : State := { s.hushed with cwy := { s.hushed.cwy with cmplDue := [], staged := [] } }

/-- `t` has answered commands of `s`: completions have joined, and descriptors may have gone. -/
structure Answers (s t : State) : Prop where
  view : t.unanswered = s.unanswered
  due : ∃ l, t.cwy.cmplDue = s.cwy.cmplDue ++ l
  staged : ∀ d ∈ t.cwy.staged, d ∈ s.cwy.staged

theorem Answers.of_hushed {s t : State} (h : t.hushed = s.hushed) : Answers s t := by
  have hu : ∀ u : State, u.hushed.unanswered = u.unanswered := fun _ => rfl
  refine ⟨by rw [← hu t, h, hu], ⟨[], ?_⟩, ?_⟩
  · rw [List.append_nil]
    exact eq_of_view _ h (fun x => x.cwy.cmplDue) fun _ => rfl
  · rw [eq_of_view _ h (fun x => x.cwy.staged) fun _ => rfl]
    exact fun _ => id
theorem Answers.refl (s : State) : Answers s s := .of_hushed rfl
theorem Answers.trans {s t u : State} (h : Answers s t) (k : Answers t u) : Answers s u := by
  obtain ⟨l, hl⟩ := h.due
  obtain ⟨m, hm⟩ := k.due
  exact ⟨k.view.trans h.view, ⟨l ++ m, by rw [hm, hl, List.append_assoc]⟩, fun d hd => h.staged d (k.staged d hd)⟩
theorem Answers.foldl {α : Type} (g : State → α → State) (h : ∀ t a, Answers t (g t a)) (l : List α) (s : State) :
    Answers s (l.foldl g s) := by
  induction l generalizing s with
  | nil => exact .refl s
  | cons a l ih => exact (h s a).trans (ih _)

theorem State.recTrigDone_answers (s : State) (cmd : Option Staged) (n : Nat) : Answers s (s.recTrigDone cmd n) := by
  unfold State.recTrigDone
  split
  · exact ⟨rfl, ⟨_, rfl⟩, fun d hd => (List.mem_filter.mp hd).1⟩
  · exact .refl s

theorem State.recTrigger_answers (s : State) (t : RecTrig) : Answers s (s.recTrigger t) := by
  unfold State.recTrigger
  split
  · exact (Answers.of_hushed ((State.hushed_raise ..).trans (s.hushed_mrm _))).trans (State.recTrigDone_answers ..)
  · extract_lets r n pre s1 _ s2
    split
    · exact (Answers.of_hushed (s.hushed_mrm _)).trans (State.recTrigDone_answers ..)
    · have h2 : Answers s s2 := .of_hushed ((s1.hushed_mrm _).trans (s.hushed_mrm _))
      exact (h2.trans (.of_hushed (State.hushed_raise ..))).trans (State.recTrigDone_answers ..)

/-- What the recorder does after the triggers of the tick touches its own data alone. -/
theorem State.closeRecord_hushed (s : State) : s.closeRecord.hushed = s.hushed := by
  unfold State.closeRecord
  split
  · split
    · extract_lets t
      unfold State.armSlot
      split
      · rfl
      · rfl
    · rfl
  · rfl

theorem State.closeRecord_trigs (s : State) : s.closeRecord.mrm.trigs = s.mrm.trigs := by
  unfold State.closeRecord
  split
  · split
    · extract_lets t
      unfold State.armSlot
      split
      · rfl
      · rfl
    · rfl
  · rfl

/-- The recorder answers REC_TRIG commands and touches its own data beside; without a trigger it answers none. -/
theorem State.recorder_spec (s : State) (words : List Word) :
    Answers s (s.recorder words) ∧ (s.mrm.trigs = [] → (s.recorder words).hushed = s.hushed) := by
  unfold State.recorder
  split
  · extract_lets t _ u n
    have hu : Answers s u ∧ (s.mrm.trigs = [] → u.hushed = s.hushed) := by
      have ht : ({ t with mrm := { t.mrm with trigs := [] } } : State).hushed = s.hushed := s.closeRecord_hushed
      refine ⟨(Answers.of_hushed ht).trans (.foldl _ State.recTrigger_answers _ _), fun hnone => ?_⟩
      have htrigs : t.mrm.trigs = [] := s.closeRecord_trigs.trans hnone
      simp only [u, htrigs, List.foldl_nil]
      exact ht
    have hlast : ∀ v : State, v.hushed = u.hushed → Answers s v ∧ (s.mrm.trigs = [] → v.hushed = s.hushed) :=
      fun v hv => ⟨hu.1.trans (.of_hushed hv), fun h => hv.trans (hu.2 h)⟩
    clear_value u
    split
    · exact hu
    · rename_i k _
      extract_lets r s1
      have h1 : s1.hushed = u.hushed := by
        simp only [s1]
        split
        · rfl
        · rfl
      split
      · exact hu
      · split
        · exact hlast _ h1
        · exact hlast _ h1
  · exact ⟨.refl s, fun _ => rfl⟩

/-! ### Telemetry, takeovers and completions -/

/-- A state but for what the telemetry moves. -/
def State.untold (s : State) : State :=
  { s.hushed with
    cwy := { s.hushed.cwy with tlmRing := [], tlmProd := 0, gapRun := 0, deckTick := 0, tlmGaps := 0, tlmGap := false } }

/-- Telemetry moves its own ring and counters; where an entry is free it writes one. -/
theorem State.writeTelemetry_spec (s : State) : s.writeTelemetry.untold = s.untold ∧
    (1 ≤ s.tlmFree → s.writeTelemetry.cwy.tlmProd = idxNext s.cwy.tlmProd ∧ s.writeTelemetry.cwy.deckTick = s.tk.count) := by
  have hu : ∀ u : State, u.hushed.untold = u.untold := fun _ => rfl
  have hsignal : ∀ (u : State) (v : Nat), (u.signal v).untold = u.untold := fun u v => by rw [← hu (u.signal v), u.hushed_signal, hu]
  have hraise : ∀ (u : State) (code : Nat) (addr : AddrWord) (cause : Nat) (val val2 : Int),
      (u.raise code addr cause val val2).untold = u.untold := fun u _ _ _ _ _ => by rw [← hu (u.raise ..), u.hushed_raise, hu]
  have htold : ∀ (ring : Store (Option TlmEntry)) (p gap : Nat) (n : Tick) (gaps : Nat) (g : Bool),
      ({ s with cwy := { s.cwy with tlmRing := ring, tlmProd := p, gapRun := gap, deckTick := n, tlmGaps := gaps, tlmGap := g } } :
        State).untold = s.untold := fun _ _ _ _ _ _ => by
    unfold State.untold State.hushed
    rfl
  unfold State.writeTelemetry
  extract_lets w e p t t'
  by_cases hrun : w.run = true
  · rw [if_neg (by simp [hrun])]
    by_cases hfree : 1 ≤ s.tlmFree
    · rw [if_pos hfree]
      have hring := htold (Store.put (fun _ => none) w.tlmRing (w.tlmProd % s.tlmEntries) (some e)) p 0 s.tk.count w.tlmGaps w.tlmGap
      split
      · refine ⟨(hsignal t 5).trans hring, fun _ => ?_⟩
        obtain ⟨v, b, h⟩ := t.signal_eq 5
        rw [h]
        exact ⟨rfl, rfl⟩
      · exact ⟨hring, fun _ => ⟨rfl, rfl⟩⟩
    · rw [if_neg hfree]
      have hgap := htold w.tlmRing w.tlmProd (w.gapRun + 1) (if w.linkUp then s.tk.count else w.deckTick) (satInc w.tlmGaps max32) true
      split
      · exact ⟨(hraise ..).trans hgap, fun h => absurd h hfree⟩
      · exact ⟨hgap, fun h => absurd h hfree⟩
  · rw [if_pos (by simp [hrun])]
    refine ⟨rfl, fun h => ?_⟩
    have hnone : s.tlmFree = 0 := by
      unfold State.tlmFree State.ringsOpen
      rw [if_neg (by simp only [w] at hrun; simp [hrun])]
    omega

/-- Taking over the twin's completions moves them to this deck's. -/
theorem State.claimNext_eq (s : State) : ∃ v l, s.claimNext = { s with vdt := v, cwy := { s.cwy with cmplDue := s.cwy.cmplDue ++ l } } ∧
    (s.vdt.twinDue = [] → l = []) := by
  refine ⟨_, _, rfl, fun h => ?_⟩
  rw [h]
  rfl

/-- Writing completions to their ring: every one is done, and the last of a slot stands there. -/
theorem State.foldl_putCmpl (l : List Completion) (s : State) : ∃ ring done tags,
    l.foldl State.putCmpl s = { s with cwy := { s.cwy with cmplRing := ring, cmplDone := done, doneTags := tags } } ∧
    (∀ q ∈ s.cwy.cmplDone, q ∈ done) ∧ (∀ c ∈ l, c.seq ∈ done) ∧
    (Store.wf (fun _ => none) s.cwy.cmplRing = true →
      (∀ k, (∀ c ∈ l, c.seq % s.cmdEntries ≠ k) → Store.get (fun _ => none) ring k = Store.get (fun _ => none) s.cwy.cmplRing k) ∧
      ∀ pre c post, l = pre ++ c :: post → (∀ x ∈ post, x.seq % s.cmdEntries ≠ c.seq % s.cmdEntries) →
        Store.get (fun _ => none) ring (c.seq % s.cmdEntries) = some c) := by
  induction l generalizing s with
  | nil =>
    refine ⟨_, _, _, rfl, fun _ => id, by simp, fun _ => ⟨fun _ _ => rfl, fun pre c post h => ?_⟩⟩
    exact absurd h.symm (by simp)
  | cons a l ih =>
    obtain ⟨ring, done, tags, heq, hkeep, hdone, hring⟩ := ih (s.putCmpl a)
    have hadd : ∀ q, q = a.seq ∨ q ∈ s.cwy.cmplDone → q ∈ (s.putCmpl a).cwy.cmplDone := by
      intro q hq
      change q ∈ addSet a.seq s.cwy.cmplDone
      unfold addSet
      split
      · rename_i hin
        rcases hq with rfl | hq
        · exact hin
        · exact hq
      · exact List.mem_cons.mpr hq
    refine ⟨ring, done, tags, heq, fun q hq => hkeep q (hadd q (Or.inr hq)), fun c hc => ?_, fun hwf => ?_⟩
    · rcases List.mem_cons.mp hc with rfl | hc
      · exact hkeep _ (hadd _ (Or.inl rfl))
      · exact hdone c hc
    · have hput : ∀ k, Store.get (fun _ => none) (s.putCmpl a).cwy.cmplRing k =
          if k = a.seq % s.cmdEntries then some a else Store.get (fun _ => none) s.cwy.cmplRing k := by
        intro k
        by_cases hk : k = a.seq % s.cmdEntries
        · rw [if_pos hk, hk]
          exact Store.get_put_same hwf
        · rw [if_neg hk]
          exact Store.get_put_ne hwf hk
      obtain ⟨hother, hlast⟩ := hring (Store.put_wf hwf)
      refine ⟨fun k hk => ?_, fun pre c post hl hpost => ?_⟩
      · rw [hother k fun c hc => hk c (List.mem_cons_of_mem _ hc), hput, if_neg fun h => hk a List.mem_cons_self h.symm]
      · cases pre with
        | nil =>
          obtain ⟨rfl, rfl⟩ := List.cons.inj hl
          rw [hother _ hpost, hput, if_pos rfl]
        | cons b pre =>
          obtain ⟨rfl, rfl⟩ := List.cons.inj hl
          exact hlast pre c post rfl hpost

/-! ### Φ3 -/

/-- No restart is due where none was and no descriptor has joined. -/
theorem State.restartDue_none {s t : State} (h : s.restartDue = none) (hstaged : ∀ d ∈ t.cwy.staged, d ∈ s.cwy.staged)
    (hbar : t.bar = s.bar) (hcount : t.tk.count = s.tk.count) : t.restartDue = none := by
  unfold State.restartDue at h ⊢
  rw [List.find?_eq_none] at h ⊢
  intro d hd
  have hrole : t.roleHere (dAddr d) = s.roleHere (dAddr d) := by
    unfold State.roleHere State.roleBit State.reg
    rw [hbar]
  rw [hcount, hrole]
  exact h d (hstaged d hd)

/-- Sending the frame of a single deck notes the last slot formed. -/
theorem State.sendFrame_single {s : State} (h : s.inViaduct = false) (formed : List Completion) :
    ∃ v, s.sendFrame formed = { s with vdt := v } := by
  unfold State.sendFrame
  extract_lets _ t v
  have ht : t.inViaduct = false := h
  rw [if_pos (by rw [ht]; decide)]
  exact ⟨_, rfl⟩

/-- What Φ3 writes on a deck whose rings are open and whose fault line is not asserted. -/
theorem State.writeRings_spec {s : State} (hline : s.kst.faultLine = false) (hopen : s.ringsOpen = true) :
    let t := s.writeRings
    t.cwy.cmplDue = [] ∧ t.cwy.evs = [] ∧ (∀ c ∈ s.cwy.cmplDue, c.seq ∈ t.cwy.cmplDone) ∧
    (∀ pre c post, s.cwy.cmplDue = pre ++ c :: post → (∀ x ∈ post, x.seq % s.cmdEntries ≠ c.seq % s.cmdEntries) →
      s.mrm.trigs = [] → s.vdt.twinDue = [] → Store.wf (fun _ => none) s.cwy.cmplRing = true →
      Store.get (fun _ => none) t.cwy.cmplRing (c.seq % s.cmdEntries) = some c) ∧
    (1 ≤ s.tlmFree → t.cwy.tlmProd = idxNext s.cwy.tlmProd ∧ t.cwy.deckTick = s.tk.count) ∧
    (∀ d ∈ t.cwy.staged, d ∈ s.cwy.staged) ∧ t.tk = s.tk ∧ t.bar = s.bar ∧ t.legs = s.legs ∧ t.adc = s.adc ∧ t.cur = s.cur ∧
    t.stage = s.stage ∧ t.kst = s.kst := by
  let a := s.recorder s.recWords
  let b := a.writeTelemetry
  let p := b.publish
  obtain ⟨hrec, hrecNone⟩ := s.recorder_spec s.recWords
  obtain ⟨htlm, htlmFree⟩ := a.writeTelemetry_spec
  have hpub : p.hushed = b.hushed := b.hushed_publish
  obtain ⟨vdt, claimed, hclaim, hclaimNone⟩ := p.claimNext_eq
  -- The rings are open at the completions, so every one that is due is written.
  have hgate : ∀ f : State → Bool, (∀ u, f u.unanswered = f u) → (∀ u, f u.untold = f u) → (∀ u, f u.hushed = f u) → f p = f s :=
    fun f h1 h2 h3 => (eq_of_view _ hpub f h3).trans ((eq_of_view _ htlm f h2).trans (eq_of_view _ hrec.view f h1))
  have hring : p.claimNext.ringsOpen = true := by
    rw [hclaim]
    exact (hgate State.ringsOpen (fun _ => rfl) (fun _ => rfl) fun _ => rfl).trans hopen
  obtain ⟨ring, done, tags, hput, -, hdone, hlast⟩ :=
    State.foldl_putCmpl p.claimNext.cwy.cmplDue { p.claimNext with cwy := { p.claimNext.cwy with cmplDue := [] } }
  have hwrite : p.claimNext.writeCompletions = { p.claimNext with cwy := { p.claimNext.cwy with
      cmplDue := [], cmplRing := ring, cmplDone := done, doneTags := tags } } := by
    unfold State.writeCompletions
    rw [if_pos hring]
    exact hput
  have ht : s.writeRings = p.claimNext.writeCompletions.writeEvents := by
    unfold State.writeRings
    rw [hline]
    rfl
  have hev := p.claimNext.writeCompletions.eventless_writeEvents
  have hdue : ∃ l, p.claimNext.cwy.cmplDue = s.cwy.cmplDue ++ l ∧ (s.mrm.trigs = [] → s.vdt.twinDue = [] → l = []) := by
    obtain ⟨l, hl⟩ := hrec.due
    have hp : p.cwy.cmplDue = a.cwy.cmplDue := (eq_of_view _ hpub (fun x => x.cwy.cmplDue) fun _ => rfl).trans
      (eq_of_view _ htlm (fun x => x.cwy.cmplDue) fun _ => rfl)
    refine ⟨l ++ claimed, ?_, fun htrigs htwin => ?_⟩
    · rw [hclaim]
      change p.cwy.cmplDue ++ claimed = _
      rw [hp, hl, List.append_assoc]
    · have hsame : a.cwy.cmplDue = s.cwy.cmplDue := eq_of_view _ (hrecNone htrigs) (fun x => x.cwy.cmplDue) fun _ => rfl
      have hvdt : p.vdt = s.vdt := (eq_of_view _ hpub State.vdt fun _ => rfl).trans
        ((eq_of_view _ htlm State.vdt fun _ => rfl).trans (eq_of_view _ (hrecNone htrigs) State.vdt fun _ => rfl))
      have hl0 : l = [] := by
        rw [hsame] at hl
        exact List.append_right_eq_self.mp hl.symm
      rw [hl0, hclaimNone (by rw [hvdt]; exact htwin)]
      rfl
  have hfield : ∀ {β : Type} (f : State → β), (∀ u, f u.unanswered = f u) → (∀ u, f u.untold = f u) → (∀ u, f u.hushed = f u) →
      f p = f s := fun f h1 h2 h3 => (eq_of_view _ hpub f h3).trans ((eq_of_view _ htlm f h2).trans (eq_of_view _ hrec.view f h1))
  have hlate : ∀ {β : Type} (f : State → β), (∀ u, f u.eventless = f u) →
      f s.writeRings = f { p.claimNext.writeCompletions with cwy := { p.claimNext.writeCompletions.cwy with evs := [] } } :=
    fun f hf => by
      rw [ht]
      exact eq_of_view _ hev f hf
  have hstay : ∀ {β : Type} (f : State → β), (∀ u, f u.unanswered = f u) → (∀ u, f u.untold = f u) → (∀ u, f u.hushed = f u) →
      (∀ u, f u.eventless = f u) → (∀ (u : State) v w, f { u with vdt := v, cwy := w } = f u) → f s.writeRings = f s :=
    fun f h1 h2 h3 h4 h5 => by
      rw [hlate f h4, hwrite, hclaim]
      exact (h5 p _ _).trans (hfield f h1 h2 h3)
  have hentries : p.claimNext.cmdEntries = s.cmdEntries := by
    rw [hclaim]
    exact hfield State.cmdEntries (fun _ => rfl) (fun _ => rfl) fun _ => rfl
  obtain ⟨joined, hjoined, hjoinedNone⟩ := hdue
  intro t
  refine ⟨?_, ?_, fun c hc => ?_, fun pre c post hl hpost htrigs htwin hwf => ?_, fun hfree => ⟨?_, ?_⟩, fun d hd => ?_,
    hstay State.tk (fun _ => rfl) (fun _ => rfl) (fun _ => rfl) (fun _ => rfl) (fun _ _ _ => rfl),
    hstay State.bar (fun _ => rfl) (fun _ => rfl) (fun _ => rfl) (fun _ => rfl) (fun _ _ _ => rfl),
    hstay State.legs (fun _ => rfl) (fun _ => rfl) (fun _ => rfl) (fun _ => rfl) (fun _ _ _ => rfl),
    hstay State.adc (fun _ => rfl) (fun _ => rfl) (fun _ => rfl) (fun _ => rfl) (fun _ _ _ => rfl),
    hstay State.cur (fun _ => rfl) (fun _ => rfl) (fun _ => rfl) (fun _ => rfl) (fun _ _ _ => rfl),
    hstay State.stage (fun _ => rfl) (fun _ => rfl) (fun _ => rfl) (fun _ => rfl) (fun _ _ _ => rfl),
    hstay State.kst (fun _ => rfl) (fun _ => rfl) (fun _ => rfl) (fun _ => rfl) (fun _ _ _ => rfl)⟩
  · exact (hlate (fun x => x.cwy.cmplDue) fun _ => rfl).trans (by rw [hwrite])
  · exact hlate (fun x => x.cwy.evs) fun _ => rfl
  · have hd : t.cwy.cmplDone = done := (hlate (fun x => x.cwy.cmplDone) fun _ => rfl).trans (by rw [hwrite])
    rw [hd]
    exact hdone c (by rw [hjoined]; exact List.mem_append_left _ hc)
  · have hr : t.cwy.cmplRing = ring := (hlate (fun x => x.cwy.cmplRing) fun _ => rfl).trans (by rw [hwrite])
    have hall : p.claimNext.cwy.cmplDue = pre ++ c :: post := by
      rw [hjoined, hjoinedNone htrigs htwin, List.append_nil, hl]
    have hold : p.claimNext.cwy.cmplRing = s.cwy.cmplRing := by
      rw [hclaim]
      exact hfield (fun x => x.cwy.cmplRing) (fun _ => rfl) (fun _ => rfl) fun _ => rfl
    have hlast' := (hlast (by rw [hold]; exact hwf)).2 pre c post hall
    change (∀ x ∈ post, x.seq % p.claimNext.cmdEntries ≠ c.seq % p.claimNext.cmdEntries) →
      Store.get (fun _ => none) ring (c.seq % p.claimNext.cmdEntries) = some c at hlast'
    rw [hentries] at hlast'
    rw [hr]
    exact hlast' hpost
  · have hprod : t.cwy.tlmProd = b.cwy.tlmProd := (hlate (fun x => x.cwy.tlmProd) fun _ => rfl).trans (by
      rw [hwrite, hclaim]
      exact eq_of_view _ hpub (fun x => x.cwy.tlmProd) fun _ => rfl)
    have hfree' : a.tlmFree = s.tlmFree := eq_of_view _ hrec.view State.tlmFree fun _ => rfl
    rw [hprod, (htlmFree (by rw [hfree']; exact hfree)).1, eq_of_view _ hrec.view (fun x => x.cwy.tlmProd) fun _ => rfl]
  · have hdeck : t.cwy.deckTick = b.cwy.deckTick := (hlate (fun x => x.cwy.deckTick) fun _ => rfl).trans (by
      rw [hwrite, hclaim]
      exact eq_of_view _ hpub (fun x => x.cwy.deckTick) fun _ => rfl)
    have hfree' : a.tlmFree = s.tlmFree := eq_of_view _ hrec.view State.tlmFree fun _ => rfl
    rw [hdeck, (htlmFree (by rw [hfree']; exact hfree)).2, eq_of_view _ hrec.view (fun x => x.tk.count) fun _ => rfl]
  · have hst : t.cwy.staged = a.cwy.staged := (hlate (fun x => x.cwy.staged) fun _ => rfl).trans (by
      rw [hwrite, hclaim]
      exact (eq_of_view _ hpub (fun x => x.cwy.staged) fun _ => rfl).trans (eq_of_view _ htlm (fun x => x.cwy.staged) fun _ => rfl))
    rw [hst] at hd
    exact hrec.staged d hd

/-- Settles O30 (R268, R334, R337, R340, R359). -/
theorem mirrorPhase : Obligations.MirrorPhase := by
  refine ⟨fun s htick habut hclock hfirst hcomputed => ?_,
    fun s htick habut hclock hfirst hcomputed hline hsingle hopen hno => ?_, fun s hnone => ?_⟩
  · have hpre : (!s.start.ticking || s.start.abut || !s.clocked || s.tk.phi3Done || (s.coresRun && !s.tk.phi2Done)) = false := by
      by_cases hrun : s.coresRun = true
      · simp [htick, habut, hclock, hfirst, hcomputed hrun]
      · simp [htick, habut, hclock, hfirst, hrun]
    let u := (State.writeRings { s with tk := { s.tk with phi3Done := true } }).sendFrame s.cwy.cmplDue
    have hexec : exec .phi3Mirror s = match u.restartDue with
        | some d => .next (u.deckRestart d (if u.kst.faultLine then max (u.kst.faultTick + 1) d.bound else d.bound))
        | none => .next u := by
      change execPhi3Mirror s = _
      unfold execPhi3Mirror
      exact if_neg (by rw [hpre]; decide)
    have hmark : Ticked s { s with tk := { s.tk with phi3Done := true } } := ⟨rfl, rfl⟩
    have hu : Ticked s u := (hmark.trans (.of (State.writeRings_ticks _))).trans (.of (State.sendFrame_ticks ..))
    rw [hexec]
    clear_value u
    split
    · rename_i d _
      obtain ⟨htk, hrest⟩ := u.deckRestart_spec d (if u.kst.faultLine then max (u.kst.faultTick + 1) d.bound else d.bound)
      refine ⟨_, rfl, Or.inr ?_, ?_⟩
      · rw [htk]
        rfl
      · exact hrest.2.2.2.2.2.2.2.2.2.2.2.2.2.2.2.2.1.trans hu.1
    · exact ⟨_, rfl, Or.inl hu.2, hu.1⟩
  · have hpre : (!s.start.ticking || s.start.abut || !s.clocked || s.tk.phi3Done || (s.coresRun && !s.tk.phi2Done)) = false := by
      simp [htick, habut, hclock, hfirst, hcomputed]
    let r : State := { s with tk := { s.tk with phi3Done := true } }
    obtain ⟨hdue, hevs, hdone, hring, htlm, hstaged, htk, hbar, hlegs, hadc, hcur, hstage, hkst⟩ :=
      State.writeRings_spec (s := r) hline hopen
    have hvia : r.writeRings.inViaduct = false := by
      unfold State.inViaduct State.reg
      rw [hbar]
      exact hsingle
    obtain ⟨v, hframe⟩ := State.sendFrame_single hvia s.cwy.cmplDue
    have hnone : (r.writeRings.sendFrame s.cwy.cmplDue).restartDue = none := by
      rw [hframe]
      exact State.restartDue_none (t := r.writeRings) (s := s) hno hstaged hbar (by
        rw [htk])
    have hexec : exec .phi3Mirror s = .next (r.writeRings.sendFrame s.cwy.cmplDue) := by
      change execPhi3Mirror s = _
      unfold execPhi3Mirror
      rw [if_neg (by rw [hpre]; decide)]
      extract_lets _ x y
      rw [show y.restartDue = none from hnone]
    rw [hexec, hframe]
    exact ⟨_, rfl, htk, hdue, hevs, hdone, hring, htlm, hbar, hlegs, hadc, hcur, hstage, hkst⟩
  · have hpre : (!s.start.ticking || s.start.abut || !s.clocked || s.tk.phi3Done || (s.coresRun && !s.tk.phi2Done)) = true := by
      rcases hnone with h | ⟨h, h'⟩
      · simp [h]
      · simp [h, h']
    change execPhi3Mirror s = _
    unfold execPhi3Mirror
    rw [if_pos hpre]

end Sys2Proof.Machine
end

section
/-! PROOFS. The Truss: period starts, edges, carrier centres and direct mode (R108 to R119, R130, R159). -/
namespace Sys2Proof.Machine

/-! ### Trip lines -/

/-- The line rules of a leg (R119, R141) keep what does not see the marks of trips and shorts, the soft turn-off and the gates. -/
theorem State.lineAct_guarded {α : Type} {v : Nat → LegS → α} (s : State) (l : Nat)
    (hb : ∀ g a b c d, v l { g with blkHs := a, blkLs := b, fwHs := c, fwLs := d } = v l g)
    (hs : ∀ k g a p q, v k { g with softOff := a, hs := p, ls := q } = v k g)
    (ht : ∀ g a b c d, v l { g with tripCounted := a, tripTotal := b, tripTicks := c, tripLatch := d } = v l g)
    (hn : ∀ k g a b, v k { g with shortNow := a, parEnd := b } = v k g)
    (hm : ∀ g a b, v l { g with scTrip := a, scRaised := b } = v l g)
    (hv : ∀ k g, v k g.still = v k g) : Guarded v s (s.lineAct l) := by
  have htrip : ∀ (u : State) (soft : Bool), Guarded v u (u.tripLeg l soft) := fun u soft => u.tripLeg_guarded l soft hb (hs l) ht hv
  have hsc : Guarded v s (s.scAct l) := by
    unfold State.scAct
    extract_lets crow first s1 s2 s3
    have h1 : Guarded v s s1 := .ite (s.countTrip_guarded l ht) (htrip ..)
    have h2 : Guarded v s s2 := h1.trans (.leg _ _ _ fun g => hm g _ _)
    have h3 : Guarded v s s3 := .ite (h2.trans (.raise ..)) h2
    exact h3.trans (s3.reportShort_guarded l hn hs hv)
  have hoc : ∀ u : State, Guarded v u (u.ocAct l) := fun u => by
    unfold State.ocAct
    exact .ite (.refl u) (htrip ..)
  unfold State.lineAct
  extract_lets s1
  have h1 : Guarded v s s1 := .ite hsc (.refl s)
  exact .ite (h1.trans (hoc s1)) h1

/-! ### Period starts -/

/-- What a reload may change of a leg. -/
def LegS.sets (g : LegS) : Nat × Instant × Nat × PSet × Bool × PSet × PSet :=
  (g.plen, g.pstart, g.pidx, g.act, g.pending, g.ws, g.sh)

/-- The leg as its period start makes it, before the interlock and the lines act (R113). -/
def LegS.reloaded (g : LegS) (t : Instant) (len idx : Nat) : LegS :=
  let cur := if g.plen = 0 then g.cur else (g.cur + 1) % 65536
  { g with
    plen := len, pstart := t, pidx := idx, cur := cur, act := if g.pending then g.sh else g.act, pending := false,
    xfer := if g.pending then cur else g.xfer, stCounted := g.stCounted && !g.pending, realign := false, blkHs := false,
    blkLs := false, fwHs := false, fwLs := false, tripCounted := false, scRaised := false, centred := false }

theorem State.updHall_sound (s : State) (h : s.partsOk = true) (m : Nat) (f : HallS → HallS) : (s.updHall m f).partsOk = true := by
  rw [State.partsOk_iff] at h ⊢
  obtain ⟨hbar, hlegs, hconv, hinp, hpair, hrej, hhall, hport⟩ := h
  exact ⟨hbar, hlegs, hconv, hinp, hpair, hrej, Store.put_wf hhall, hport⟩

/-- Settles O32 (R108, R113). -/
theorem periodStartReloads : Obligations.PeriodStartReloads := by
  intro l s hok
  refine ⟨fun at0 len idx hdue => ?_, fun hnone => ?_⟩
  · let r : State := { s with tk := { s.tk with now := max s.tk.now at0 } }
    let a := r.updLeg l.val (fun g => g.reloaded at0 len idx)
    let b := if a.threePin l.val ∧ (l.val - 28) % 3 = 0 ∧ (s.leg l.val).pending then
        a.updHall (legAct l.val) (fun h => { h with dirAct := (a.cur.actS (legAct l.val)).dir })
      else a
    have hexec : exec (.periodStart l) s = .next (((b.interlock l.val).lineAct l.val).drive l.val) := by
      change execPeriodStart l s = _
      unfold execPeriodStart
      rw [hdue]
      rfl
    have hb : b.partsOk = true ∧ (∀ k, b.leg k = a.leg k) ∧ b.bar = s.bar ∧ b.adc = s.adc ∧ b.cur = s.cur ∧ b.stage = s.stage := by
      have ha : a.partsOk = true := State.updLeg_sound r l.val _ hok
      simp only [b]
      split
      · exact ⟨a.updHall_sound ha _ _, fun _ => rfl, rfl, rfl, rfl, rfl⟩
      · exact ⟨ha, fun _ => rfl, rfl, rfl, rfl, rfl⟩
    obtain ⟨hokb, hleg, hbar, hadc, hcur, hstage⟩ := hb
    have hsame : a.leg l.val = (s.leg l.val).reloaded at0 len idx := State.leg_updLeg_same r l.val _ hok
    have hother : ∀ k, k ≠ l.val → a.leg k = s.leg k := fun k hk => State.leg_updLeg_ne r l.val k _ hok hk
    clear_value b
    have hrun : Guarded (fun _ g => g.sets) b (((b.interlock l.val).lineAct l.val).drive l.val) :=
      ((b.interlock_guarded l.val fun _ _ _ _ _ => rfl).trans (State.lineAct_guarded _ l.val (fun _ _ _ _ _ => rfl)
        (fun _ _ _ _ _ => rfl) (fun _ _ _ _ _ => rfl) (fun _ _ _ _ => rfl) (fun _ _ _ => rfl) fun _ _ => rfl)).trans
        (.driven (State.drive_driven ..) fun _ _ => rfl)
    have hsets : ∀ k, ((((b.interlock l.val).lineAct l.val).drive l.val).leg k).sets = (a.leg k).sets := fun k =>
      (hrun.view hokb k).trans (by rw [hleg])
    generalize ((b.interlock l.val).lineAct l.val).drive l.val = t at hexec hrun hsets
    have hmine := hsets l.val
    rw [hsame] at hmine
    simp only [LegS.sets, LegS.reloaded, Prod.mk.injEq] at hmine
    obtain ⟨hlen, hstart, hidx, hact, hpend, hws, hsh⟩ := hmine
    refine ⟨t, hexec, hlen, hstart, hidx, hact, hpend, hws, hsh, fun k hk => ?_, hrun.bar.trans hbar, hrun.adc.trans hadc,
      hrun.cur.trans hcur, hrun.stage.trans hstage⟩
    have hk' := hsets k
    rw [hother k hk] at hk'
    simp only [LegS.sets, Prod.mk.injEq] at hk'
    obtain ⟨-, -, -, hact, hpend, -, hsh⟩ := hk'
    exact ⟨hact, hsh, hpend⟩
  · change execPeriodStart l s = _
    unfold execPeriodStart
    rw [hnone]

/-! ### Edges and carrier centres -/

/-- A change of the instant keeps the rest of what the protection keeps. -/
theorem Guarded.now {α : Type} {v : Nat → LegS → α} {s t : State} (n : Instant)
    (h : Guarded v { s with tk := { s.tk with now := n } } t) :
    t.bar = s.bar ∧ t.adc = s.adc ∧ t.cur = s.cur ∧ t.stage = s.stage := ⟨h.bar, h.adc, h.cur, h.stage⟩

/-- With no trip line standing the lines do nothing. -/
theorem State.lineAct_quiet {s : State} {l : Nat} (hsc : (s.leg l).scLine = false) (hoc : (s.leg l).ocLine = false) : s.lineAct l = s := by
  unfold State.lineAct
  simp only [hsc, hoc, Bool.false_and, Bool.false_eq_true, if_false]

theorem LegS.pier_updPier_same (g : LegS) (x : Switch) (f : PierS → PierS) : (g.updPier x f).pier x = f (g.pier x) := by
  cases x <;> rfl
theorem LegS.pier_updPier_other (g : LegS) (x : Switch) (f : PierS → PierS) :
    (g.updPier x f).pier (Switch.other x) = g.pier (Switch.other x) := by
  cases x <;> rfl

/-- A gate that rises: its pier, and the blanking windows of its leg (R121, R138). -/
theorem State.gateOn_spec {s : State} (hok : s.partsOk = true) (l : Nat) (x : Switch) (at0 : Instant) :
    let t := s.gateOn l x at0
    ((t.leg l).pier x).gate = true ∧ ((t.leg l).pier x).onAt = none ∧
    (t.leg l).pier (Switch.other x) = (s.leg l).pier (Switch.other x) ∧ (∀ k, k ≠ l → t.leg k = s.leg k) ∧
    t.bar = s.bar ∧ t.adc = s.adc ∧ t.cwy = s.cwy := by
  intro t
  let up : PierS → PierS := fun p => { p with
    gate := true, onAt := none, desatBlank := isHvLeg l, desatEnd := at0 + s.desatBlanking l }
  let u := s.updLeg l (fun g => g.updPier x up)
  have hu : u.partsOk = true := s.updLeg_sound l _ hok
  have ht : ∃ win c, t = u.updLeg l (fun g => { g with
      blanking := true, blankEnd := max g.blankEnd (at0 + win), blankClamp := g.blankClamp || c }) := ⟨_, _, rfl⟩
  obtain ⟨win, c, ht⟩ := ht
  have hleg : t.leg l = { (s.leg l).updPier x up with
      blanking := true, blankEnd := max ((s.leg l).updPier x up).blankEnd (at0 + win),
      blankClamp := ((s.leg l).updPier x up).blankClamp || c } := by
    rw [ht, u.leg_updLeg_same l _ hu, s.leg_updLeg_same l _ hok]
  have hpier : ∀ y, (t.leg l).pier y = ((s.leg l).updPier x up).pier y := by
    intro y
    rw [hleg]
    cases y <;> rfl
  refine ⟨?_, ?_, ?_, fun k hk => ?_, ?_, ?_, ?_⟩
  · rw [hpier, LegS.pier_updPier_same]
  · rw [hpier, LegS.pier_updPier_same]
  · rw [hpier, LegS.pier_updPier_other]
  · rw [ht, u.leg_updLeg_ne l k _ hu hk, s.leg_updLeg_ne l k _ hok hk]
  · rw [ht]
    rfl
  · rw [ht]
    rfl
  · rw [ht]
    rfl

/-- Changing the position of one traction span leaves the other alone. -/
theorem State.pos_updPos (s : State) (t v : Trac) (f : PosS → PosS) : (s.updPos t f).pos v = if v = t then f (s.pos t) else s.pos v := by
  unfold State.updPos State.pos
  revert t v
  intro t v
  match t, v with
  | 0, 0 => rfl
  | 0, 1 => rfl
  | 1, 0 => rfl
  | 1, 1 => rfl

/-- Settles O33 (R110, R119, R130, R159). -/
theorem edgesMoveGates : Obligations.EdgesMoveGates := by
  refine ⟨fun l tau s hok => ⟨fun hin => ?_, fun hout => ?_⟩, fun l x s at0 hok hon hfree => ?_, fun tr angle s hok => ?_⟩
  · let r : State := { s with tk := { s.tk with now := max s.tk.now ((s.leg l.val).pstart + tau * uStep) } }
    have hexec : exec (.switchingEdge l tau) s = .next ((r.lineAct l.val).drive l.val) := by
      change execSwitchingEdge l tau s = _
      unfold execSwitchingEdge
      rw [if_pos hin]
    have hrun : Guarded (fun _ _ => ()) r ((r.lineAct l.val).drive l.val) :=
      (State.lineAct_guarded r l.val (fun _ _ _ _ _ => rfl) (fun _ _ _ _ _ => rfl) (fun _ _ _ _ _ => rfl)
        (fun _ _ _ _ => rfl) (fun _ _ _ => rfl) fun _ _ => rfl).trans (.driven (State.drive_driven ..) fun _ _ => rfl)
    obtain ⟨hbar, hadc, hcur, hstage⟩ := hrun.now
    refine ⟨_, hexec, hbar, hadc, hcur, hstage, fun hsc hoc => ?_⟩
    have hquiet : r.lineAct l.val = r := State.lineAct_quiet hsc hoc
    rw [hquiet]
    have hdrive := r.drive_driven l.val
    exact ⟨hdrive.still hok, hdrive.other State.cwy fun _ => rfl, hdrive.other State.kst fun _ => rfl, hdrive.other State.par fun _ => rfl⟩
  · change execSwitchingEdge l tau s = _
    unfold execSwitchingEdge
    rw [if_neg (by omega)]
  · let r : State := { s with tk := { s.tk with now := max s.tk.now at0 } }
    have hexec : exec (.gateOnEdge l x) s = .next (r.gateOn l.val x at0) := by
      change execGateOnEdge l x s = _
      unfold execGateOnEdge
      rw [hon]
      have hheld : r.pierHeld l.val x = false := hfree
      change Host.Outcome.next (if r.pierHeld l.val x then r.holdOff l.val x else r.gateOn l.val x at0) = _
      rw [hheld]
      rfl
    exact ⟨_, hexec, State.gateOn_spec (s := r) hok l.val x at0⟩
  · intro u g
    refine ⟨fun hlen hcentred hre => ?_, fun hnone => ?_⟩
    · let r := (s.goto (s.carrierCentre u)).updLeg u (fun g => { g with centred := true })
      have hexec : exec (.carrierCentre tr angle) s =
          .next (r.updPos tr (fun p => { p with caps := ((g.pstart, r.thetaE tr angle) :: p.caps).take 8 })) := by
        change execCarrierCentre tr angle s = _
        unfold execCarrierCentre
        extract_lets
        rw [if_neg ?_]
        rintro (h | h | h)
        · exact hlen h
        · exact absurd (hcentred.symm.trans h) (by decide)
        · exact h hre
      have hokr : (s.goto (s.carrierCentre u)).partsOk = true := hok
      have htr : ∀ f, (r.updPos tr f).legs = r.legs ∧ (r.updPos tr f).bar = s.bar ∧ (r.updPos tr f).adc = s.adc ∧
          (r.updPos tr f).cwy = s.cwy := by
        intro f
        unfold State.updPos
        split
        · exact ⟨rfl, rfl, rfl, rfl⟩
        · exact ⟨rfl, rfl, rfl, rfl⟩
      obtain ⟨hlegs, hrest⟩ := htr (fun p => { p with caps := ((g.pstart, r.thetaE tr angle) :: p.caps).take 8 })
      have hleg : ∀ k, (r.updPos tr (fun p => { p with caps := ((g.pstart, r.thetaE tr angle) :: p.caps).take 8 })).leg k = r.leg k :=
        fun k => congrArg (fun m => Store.get LegS.init m k) hlegs
      refine ⟨_, hexec, ?_, fun v hv => ?_, ?_, fun k hk => ?_, hrest⟩
      · rw [State.pos_updPos, if_pos rfl]
        rfl
      · rw [State.pos_updPos, if_neg hv]
        rfl
      · rw [hleg]
        exact State.leg_updLeg_same _ u _ hokr
      · rw [hleg]
        exact State.leg_updLeg_ne _ u k _ hokr hk
    · change execCarrierCentre tr angle s = _
      unfold execCarrierCentre
      extract_lets
      rw [if_pos ?_]
      rcases hnone with h | h | h
      · exact Or.inl h
      · exact Or.inr (Or.inl h)
      · exact Or.inr (Or.inr fun h' => absurd (h.symm.trans h') (by decide))

/-! ### Direct mode -/

theorem mem_addSet {α : Type} [DecidableEq α] (x : α) (l : List α) : x ∈ addSet x l := by
  unfold addSet
  split
  · assumption
  · exact List.mem_cons_self

/-- A write or commit outside direct mode, or in abutment mode, is an access violation (R115). -/
theorem exec_direct_refused {l : Leg} {r : WReg} {v : Word} {ofs : Nat} {s : State}
    (h : s.start.abut = true ∨ s.legDirect l.val = false) :
    exec (.directWrite l r v ofs) s = .next ((s.at ofs).accessViolation (0xC000 + 0x200 * l.val + WReg.offset r)) ∧
    exec (.directCommit l ofs) s = .next ((s.at ofs).accessViolation (0xC044 + 0x200 * l.val)) := by
  have hpre : ((s.at ofs).start.abut || !(s.at ofs).legDirect l.val) = true := by
    change (s.start.abut || !s.legDirect l.val) = true
    rcases h with h | h <;> simp [h]
  exact ⟨if_pos hpre, if_pos hpre⟩

/-- Settles O34 (R20, R114, R115). -/
theorem directMode : Obligations.DirectMode := by
  intro l r v ofs s hok u
  have hoku : u.partsOk = true := hok
  have hpre : s.start.abut = false → s.legDirect l.val = true → ¬ ((u.start.abut || !u.legDirect l.val) = true) := by
    intro habut hdirect
    change ¬ ((s.start.abut || !s.legDirect l.val) = true)
    simp [habut, hdirect]
  refine ⟨fun habut hdirect hearly => ⟨?_, ?_⟩, fun habut hdirect hlate => ⟨?_, ?_⟩, exec_direct_refused⟩
  · let a := u.assigned l.val false
    have hexec : exec (.directWrite l r v ofs) s = .next (a.updLeg l.val (fun g => { g with ws := g.ws.put r v.toNat, wsWritten := true })) := by
      change execDirectWrite l r v ofs s = _
      refine (if_neg (hpre habut hdirect)).trans ?_
      simp only [show (s.at ofs).pastCutover ofs = false from hearly, Bool.false_eq_true, if_false]
      rfl
    have hoka : a.partsOk = true := u.updLeg_sound l.val _ hoku
    have hleg : a.leg l.val = { s.leg l.val with
        wrTick := (s.tk.count + b2n false) % 65536, cut := false, cutover := (s.leg l.val).cutover || false } :=
      u.leg_updLeg_same l.val _ hoku
    refine ⟨_, hexec, ?_, ?_, ?_, ?_, fun k hk => ?_, rfl, rfl, rfl⟩
    · rw [a.leg_updLeg_same l.val _ hoka, hleg]
    · rw [a.leg_updLeg_same l.val _ hoka]
    · rw [a.leg_updLeg_same l.val _ hoka, hleg]
    · rw [a.leg_updLeg_same l.val _ hoka, hleg]
    · rw [a.leg_updLeg_ne l.val k _ hoka hk]
      exact u.leg_updLeg_ne l.val k _ hoku hk
  · let a := u.assigned l.val false
    have hexec : exec (.directCommit l ofs) s = .next { a with par := { a.par with
        directCommit := addSet (Span.ofLeg l.val) a.par.directCommit } } := by
      change execDirectCommit l ofs s = _
      refine (if_neg (hpre habut hdirect)).trans ?_
      simp only [show (s.at ofs).pastCutover ofs = false from hearly, Bool.false_eq_true, if_false]
      rfl
    have hleg : a.leg l.val = { s.leg l.val with
        wrTick := (s.tk.count + b2n false) % 65536, cut := false, cutover := (s.leg l.val).cutover || false } :=
      u.leg_updLeg_same l.val _ hoku
    refine ⟨_, hexec, mem_addSet _ _, rfl, ?_, fun k hk => ?_, rfl, rfl⟩
    · change (a.leg l.val).ws = _
      rw [hleg]
    · change a.leg k = _
      exact u.leg_updLeg_ne l.val k _ hoku hk
  · let a := u.assigned l.val true
    have hexec : exec (.directWrite l r v ofs) s = .next (a.updLeg l.val (fun g => { g with late := g.late ++ [(r, v.toNat)] })) := by
      change execDirectWrite l r v ofs s = _
      refine (if_neg (hpre habut hdirect)).trans ?_
      simp only [show (s.at ofs).pastCutover ofs = true from hlate, if_true]
      rfl
    have hoka : a.partsOk = true := u.updLeg_sound l.val _ hoku
    have hleg : a.leg l.val = { s.leg l.val with
        wrTick := (s.tk.count + b2n true) % 65536, cut := true, cutover := (s.leg l.val).cutover || true } :=
      u.leg_updLeg_same l.val _ hoku
    refine ⟨_, hexec, ?_, ?_, ?_, ?_⟩
    · rw [a.leg_updLeg_same l.val _ hoka, hleg]
    · rw [a.leg_updLeg_same l.val _ hoka, hleg]
    · rw [a.leg_updLeg_same l.val _ hoka, hleg]
      exact Bool.or_true _
    · rw [a.leg_updLeg_same l.val _ hoka, hleg]
      unfold LegS.shownSet
      rw [List.foldl_append]
      rfl
  · let a := u.assigned l.val true
    have hexec : exec (.directCommit l ofs) s = .next { a with par := { a.par with
        directLate := addSet (Span.ofLeg l.val) a.par.directLate } } := by
      change execDirectCommit l ofs s = _
      refine (if_neg (hpre habut hdirect)).trans ?_
      simp only [show (s.at ofs).pastCutover ofs = true from hlate, if_true]
      rfl
    exact ⟨_, hexec, mem_addSet _ _, rfl⟩

end Sys2Proof.Machine
end

section
/-! PROOFS. The trips of the legs: overcurrent, short circuit, desaturation and the soft turn-off (R119 to R121, R137 to R143). -/
namespace Sys2Proof.Machine

/-! ### Trip periods -/

/-- From u to t a trip period of leg l counts (R119, R120). -/
def TripPeriod (l : Leg) (u t : State) : Prop :=
  let g := u.leg l.val
  let ticks := u.tk.count :: g.tripTicks.filter (fun m => decide (u.tk.count < m + fld (u.reg (0xC004 + 0x200 * l.val)) 0 16))
  (t.leg l.val).tripCounted = true ∧
  (g.tripCounted = false → (t.leg l.val).tripTotal = satInc g.tripTotal max16 ∧ (t.leg l.val).tripTicks = ticks) ∧
  (g.tripCounted = true → (t.leg l.val).tripTotal = g.tripTotal ∧ (t.leg l.val).tripLatch = g.tripLatch) ∧
  (g.tripCounted = false → g.tripLatch = false → fld (u.reg (0xC000 + 0x200 * l.val)) 20 8 ≤ ticks.length →
    (t.leg l.val).tripLatch = true ∧ t.protects 5 (u.legAddr l.val)) ∧
  (∀ k : Nat, k ≠ l.val → (t.leg k).still = (u.leg k).still) ∧ t.bar = u.bar ∧ t.cur = u.cur ∧ t.stage = u.stage

/-- The trip data of a leg. -/
def LegS.trips (g : LegS) : Bool × Nat × List Tick × Bool := (g.tripCounted, g.tripTotal, g.tripTicks, g.tripLatch)

/-- The trip period reads of the state before only the leg's trip data, the other legs and what no trip moves. -/
theorem TripPeriod.of_same {l : Leg} {u v t : State} (h : TripPeriod l u t) (htrips : (u.leg l.val).trips = (v.leg l.val).trips)
    (hcount : u.tk.count = v.tk.count) (hother : ∀ k, k ≠ l.val → (u.leg k).still = (v.leg k).still) (hbar : u.bar = v.bar)
    (hcur : u.cur = v.cur) (hstage : u.stage = v.stage) : TripPeriod l v t := by
  simp only [LegS.trips, Prod.mk.injEq] at htrips
  obtain ⟨hcounted, htotal, hticks, hlatch⟩ := htrips
  have hreg : ∀ off, u.reg off = v.reg off := fun off => congrArg (fun m => Store.get barReset m off) hbar
  have haddr : u.legAddr l.val = v.legAddr l.val := by
    unfold State.legAddr State.roleBit
    rw [hreg]
  unfold TripPeriod at h ⊢
  dsimp only at h ⊢
  rw [hcounted, htotal, hticks, hlatch, hcount, haddr, hbar, hcur, hstage] at h
  simp only [hreg] at h
  obtain ⟨h1, h2, h3, h4, h5, hrest⟩ := h
  exact ⟨h1, h2, h3, h4, fun k hk => (h5 k hk).trans (hother k hk), hrest⟩

/-- Counting a trip period that has not counted yet (R120). -/
theorem State.countTrip_counts {s : State} (hok : s.partsOk = true) (l : Nat) (hnew : (s.leg l).tripCounted = false) :
    let t := s.countTrip l
    let ticks := s.tk.count :: (s.leg l).tripTicks.filter (fun m => decide (s.tk.count < m + fld (s.reg (0xC004 + 0x200 * l)) 0 16))
    (t.leg l).tripCounted = true ∧ (t.leg l).tripTotal = satInc (s.leg l).tripTotal max16 ∧ (t.leg l).tripTicks = ticks ∧
    ((s.leg l).tripLatch = false → fld (s.reg (0xC000 + 0x200 * l)) 20 8 ≤ ticks.length →
      (t.leg l).tripLatch = true ∧ t.protects 5 (s.legAddr l)) := by
  intro t ticks
  let u := s.updLeg l (fun g => { g with tripCounted := true, tripTotal := satInc g.tripTotal max16, tripTicks := ticks })
  have hoku : u.partsOk = true := s.updLeg_sound l _ hok
  have hleg : u.leg l = { s.leg l with tripCounted := true, tripTotal := satInc (s.leg l).tripTotal max16, tripTicks := ticks } :=
    s.leg_updLeg_same l _ hok
  have ht : t = if fld (s.reg (0xC000 + 0x200 * l)) 20 8 ≤ ticks.length ∧ ¬ (s.leg l).tripLatch then
      (u.updLeg l (fun g => { g with tripLatch := true })).raise 5 (s.legAddr l) 0 ticks.length 0 else u := by
    simp only [t, State.countTrip, hnew, Bool.false_eq_true, if_false]
    rfl
  by_cases htrip : fld (s.reg (0xC000 + 0x200 * l)) 20 8 ≤ ticks.length ∧ ¬ (s.leg l).tripLatch
  · rw [if_pos htrip] at ht
    have hlatched : t.leg l = { u.leg l with tripLatch := true } := by
      rw [ht, State.leg_raise, u.leg_updLeg_same l _ hoku]
    rw [hlatched, hleg]
    refine ⟨rfl, rfl, rfl, fun _ _ => ⟨rfl, ?_⟩⟩
    rw [ht]
    exact State.raise_protects _ _ _ _ _ _ (by decide)
  · rw [if_neg htrip] at ht
    rw [ht, hleg]
    exact ⟨rfl, rfl, rfl, fun hfree hmany => absurd ⟨hmany, by simp [hfree]⟩ htrip⟩

/-- A view of every leg but one: its still part. -/
def LegS.stillBut (l k : Nat) (g : LegS) : Option LegS := if k = l then none else some g.still

theorem LegS.stillBut_still (l k : Nat) (g : LegS) : LegS.stillBut l k g.still = LegS.stillBut l k g := by
  unfold LegS.stillBut
  split <;> rfl
theorem LegS.stillBut_self (l : Nat) (g g' : LegS) : LegS.stillBut l l g = LegS.stillBut l l g' := by
  simp [LegS.stillBut]

/-- What a view of every leg but one says of the others. -/
theorem Guarded.others {l : Nat} {s t : State} (h : Guarded (LegS.stillBut l) s t) (hok : s.partsOk = true) (k : Nat) (hk : k ≠ l) :
    (t.leg k).still = (s.leg k).still := by
  have hview := h.view hok k
  simp only [LegS.stillBut, if_neg hk] at hview
  exact Option.some.inj hview

/-- A trip of a leg counts its period and moves nothing else but its own gates (R119, R120). -/
theorem State.tripLeg_counts {s : State} (hok : s.partsOk = true) (l : Leg) :
    TripPeriod l s (s.tripLeg l.val false) ∧ ((s.tripLeg l.val false).leg l.val).ocLine = (s.leg l.val).ocLine := by
  let r := match s.tripSwitch l.val with
    | some x => s.updLeg l.val (fun g => g.block x)
    | none => s
  have hr : r.partsOk = true ∧ (r.leg l.val).trips = (s.leg l.val).trips ∧
      (r.leg l.val).ocLine = (s.leg l.val).ocLine ∧ (∀ k, k ≠ l.val → r.leg k = s.leg k) ∧ r.tk = s.tk ∧
      r.bar = s.bar ∧ r.cur = s.cur ∧ r.stage = s.stage := by
    simp only [r]
    split
    · rename_i x _
      refine ⟨s.updLeg_sound l.val _ hok, ?_, ?_, fun k hk => s.leg_updLeg_ne l.val k _ hok hk, rfl, rfl, rfl, rfl⟩
      · rw [s.leg_updLeg_same l.val _ hok]
        cases x <;> rfl
      · rw [s.leg_updLeg_same l.val _ hok]
        cases x <;> rfl
    · exact ⟨hok, rfl, rfl, fun _ _ => rfl, rfl, rfl, rfl, rfl⟩
  obtain ⟨hokr, htrips, hline, hother, htk, hbar, hcur, hstage⟩ := hr
  have ht : s.tripLeg l.val false = (r.countTrip l.val).drive l.val := rfl
  clear_value r
  rw [ht]
  have hdrive := (r.countTrip l.val).drive_driven l.val
  have hcount : Guarded (LegS.stillBut l.val) r (r.countTrip l.val) :=
    r.countTrip_guarded l.val fun _ _ _ _ _ => LegS.stillBut_self ..
  have hrun : Guarded (LegS.stillBut l.val) r ((r.countTrip l.val).drive l.val) := hcount.trans (.driven hdrive (LegS.stillBut_still _))
  have hoc : Guarded (fun _ g => g.ocLine) r ((r.countTrip l.val).drive l.val) :=
    (r.countTrip_guarded l.val fun _ _ _ _ _ => rfl).trans (.driven hdrive fun _ _ => rfl)
  have hfield : ∀ {α : Type} (f : LegS → α), (∀ g : LegS, f g.still = f g) →
      f (((r.countTrip l.val).drive l.val).leg l.val) = f ((r.countTrip l.val).leg l.val) :=
    fun f hf => hdrive.field (hcount.sound hokr) f hf l.val
  have hevents : ∀ c a, (r.countTrip l.val).protects c a → ((r.countTrip l.val).drive l.val).protects c a :=
    (Guarded.driven (v := fun _ g => g.still) hdrive fun _ _ => rfl).events
  refine ⟨TripPeriod.of_same ?_ htrips (by rw [htk]) (fun k hk => by rw [hother k hk]) hbar hcur hstage,
    (hoc.view hokr l.val).trans hline⟩
  have hquiet : (r.leg l.val).tripCounted = true → r.countTrip l.val = r := fun h => if_pos h
  refine ⟨?_, fun hnew => ?_, fun hold => ?_, fun hnew hfree hmany => ?_, hrun.others hokr, hrun.bar, hrun.cur, hrun.stage⟩
  · rw [hfield LegS.tripCounted fun _ => rfl]
    cases hold : (r.leg l.val).tripCounted with
    | true => rw [hquiet hold, hold]
    | false => exact (State.countTrip_counts hokr l.val hold).1
  · obtain ⟨-, htotal, hticks, -⟩ := State.countTrip_counts hokr l.val hnew
    exact ⟨(hfield LegS.tripTotal fun _ => rfl).trans htotal, (hfield LegS.tripTicks fun _ => rfl).trans hticks⟩
  · rw [hfield LegS.tripTotal fun _ => rfl, hfield LegS.tripLatch fun _ => rfl, hquiet hold]
    exact ⟨rfl, rfl⟩
  · obtain ⟨-, -, -, hlatch⟩ := State.countTrip_counts hokr l.val hnew
    obtain ⟨hlatched, hevent⟩ := hlatch hfree hmany
    exact ⟨(hfield LegS.tripLatch fun _ => rfl).trans hlatched, hevents _ _ hevent⟩

/-- The overcurrent line of a leg whose switches do not freewheel trips it. -/
theorem State.ocAct_trips {s : State} (l : Nat) (hhs : (s.leg l).fwHs = false) (hls : (s.leg l).fwLs = false) :
    s.ocAct l = s.tripLeg l false := by
  unfold State.ocAct LegS.freewheels
  rw [hhs, hls]
  rfl
theorem State.ocAct_freewheels {s : State} (l : Nat) (h : (s.leg l).fwHs = true ∨ (s.leg l).fwLs = true) : s.ocAct l = s := by
  unfold State.ocAct LegS.freewheels
  rcases h with h | h <;> simp [h]

/-- Setting an overcurrent unit's output changes the line alone. -/
theorem LegS.setOc_eq (g : LegS) (u : Fin 2) (on : Bool) : ∃ a b, g.setOc u on = { g with ocA := a, ocB := b } := by
  unfold LegS.setOc
  split
  · exact ⟨_, _, rfl⟩
  · exact ⟨_, _, rfl⟩
theorem LegS.setOc_line (g : LegS) (u : Fin 2) : (g.setOc u true).ocLine = true := by
  unfold LegS.setOc LegS.ocLine
  split <;> simp

/-- Settles O35 (R119 to R121, R137). -/
theorem overcurrentTrips : Obligations.OvercurrentTrips := by
  intro l unit ofs s hok trips u g
  let r := u.updLeg l.val (fun g => g.setOc unit true)
  have hoku : u.partsOk = true := hok
  have hokr : r.partsOk = true := u.updLeg_sound l.val _ hoku
  have hleg : r.leg l.val = g.setOc unit true := u.leg_updLeg_same l.val _ hoku
  obtain ⟨a, b, hset⟩ := g.setOc_eq unit true
  have hexec : exec (.ocLineAssert l ⟨unit, true, ofs⟩) s = .next (if !r.ocBlanked l.val then r.ocAct l.val else r) := rfl
  have hblanked : r.ocBlanked l.val = (g.blanking && decide (u.tk.now < g.blankEnd)) := by
    unfold State.ocBlanked
    rw [hleg, hset]
    rfl
  let w := (s.goto g.blankEnd).updLeg l.val (fun g => { g with blanking := false })
  have hokw : w.partsOk = true := State.updLeg_sound _ l.val _ hok
  have hlegw : w.leg l.val = { g with blanking := false } := State.leg_updLeg_same _ l.val _ hok
  have hend : g.blanking = true → u.passed g.blankEnd = true →
      exec (.blankWindowEnd l ofs) s = .next (if g.ocLine then w.ocAct l.val else w) := by
    intro hblank hpast
    change execBlankWindowEnd l ofs s = _
    unfold execBlankWindowEnd
    extract_lets
    rw [if_pos (by rw [Bool.and_eq_true]; exact ⟨hblank, hpast⟩)]
  refine ⟨fun hheld => ?_, rfl, fun hfree hhs hls => ?_, fun hblank hpast hline hhs hls => ?_, fun hblank hpast hheld => ?_, fun hnone => ?_⟩
  · rw [hexec, hblanked]
    by_cases hwin : g.blanking = true ∧ u.tk.now < g.blankEnd
    · simp [hwin.1, hwin.2]
      rfl
    · have hfw : (r.leg l.val).fwHs = true ∨ (r.leg l.val).fwLs = true := by
        rw [hleg, hset]
        exact hheld.resolve_left hwin
      rw [State.ocAct_freewheels l.val hfw]
      exact congrArg _ (ite_self r)
  · have hopen : (g.blanking && decide (u.tk.now < g.blankEnd)) = false := by
      rcases hfree with h | h
      · simp [h]
      · simp [Nat.not_lt.mpr h]
    rw [hexec, hblanked, hopen, State.ocAct_trips l.val (by rw [hleg, hset]; exact hhs) (by rw [hleg, hset]; exact hls)]
    obtain ⟨htrip, hline⟩ := State.tripLeg_counts hokr l
    refine ⟨_, rfl, hline.trans (by rw [hleg]; exact g.setOc_line unit), htrip.of_same ?_ rfl (fun k hk => ?_) rfl rfl rfl⟩
    · rw [hleg, hset]
      rfl
    · rw [u.leg_updLeg_ne l.val k _ hoku hk]
  · rw [hend hblank hpast, if_pos hline, State.ocAct_trips l.val (by rw [hlegw]; exact hhs) (by rw [hlegw]; exact hls)]
    refine ⟨_, rfl, (State.tripLeg_counts hokw l).1.of_same ?_ rfl (fun k hk => ?_) rfl rfl rfl⟩
    · rw [hlegw]
      rfl
    · have hleg' : w.leg k = s.leg k := State.leg_updLeg_ne _ l.val k _ hok hk
      rw [hleg']
  · rw [hend hblank hpast]
    have hstay : (if g.ocLine then w.ocAct l.val else w) = w := by
      cases hline : g.ocLine with
      | false => rfl
      | true =>
        have hfw : g.fwHs = true ∨ g.fwLs = true := by
          rcases hheld with h | h
          · rw [hline] at h
            exact absurd h (by decide)
          · exact h
        exact State.ocAct_freewheels l.val (by rw [hlegw]; exact hfw)
    rw [hstay]
    exact ⟨_, rfl, hlegw, fun k hk => State.leg_updLeg_ne _ l.val k _ hok hk, rfl, rfl⟩
  · change execBlankWindowEnd l ofs s = _
    unfold execBlankWindowEnd
    extract_lets
    rw [if_neg ?_]
    rw [Bool.and_eq_true]
    rintro ⟨h, h'⟩
    rcases hnone with hn | hn
    · exact absurd (hn.symm.trans h) (by decide)
    · exact absurd (hn.symm.trans h') (by decide)

/-! ### Short circuits -/

/-- The SC line of a leg acts (R141): its marks, and E001 where the period has raised none. -/
theorem State.scAct_spec {s : State} (hok : s.partsOk = true) (l : Nat) :
    let t := s.scAct l
    (t.leg l).scTrip = true ∧ (t.leg l).scRaised = true ∧ ((s.leg l).scRaised = false → t.protects 1 (s.legAddr l)) ∧
    t.bar = s.bar ∧ t.cur = s.cur ∧ t.stage = s.stage := by
  intro t
  let a := if (s.cHw.crowbar && decide (Span.ofLeg l = .c)) || (s.leg l).freewheels then s.countTrip l else s.tripLeg l true
  let b := a.updLeg l (fun g => { g with scTrip := true, scRaised := true })
  let c := if !(s.leg l).scRaised then b.raise 1 (s.legAddr l) 0 0 0 else b
  have ha : Guarded (fun _ _ => ()) s a := .ite (s.countTrip_guarded l fun _ _ _ _ _ => rfl)
    (s.tripLeg_guarded l true (fun _ _ _ _ _ => rfl) (fun _ _ _ _ => rfl) (fun _ _ _ _ _ => rfl) fun _ _ => rfl)
  have hb : Guarded (fun _ _ => ()) s b := ha.trans (.leg _ _ _ fun _ => rfl)
  have hc : Guarded (fun _ g => (g.scTrip, g.scRaised)) b c := .ite (.raise ..) (.refl b)
  have hshort : Guarded (fun _ g => (g.scTrip, g.scRaised)) c t :=
    c.reportShort_guarded l (fun _ _ _ _ => rfl) (fun _ _ _ _ _ => rfl) fun _ _ => rfl
  have hlast := hc.trans hshort
  have hoka := ha.sound hok
  have hmarks : ((t.leg l).scTrip, (t.leg l).scRaised) = (true, true) := by
    refine (hlast.view (hb.sound hok) l).trans ?_
    rw [a.leg_updLeg_same l _ hoka]
  simp only [Prod.mk.injEq] at hmarks
  refine ⟨hmarks.1, hmarks.2, fun hfirst => hshort.events _ _ ?_, hlast.bar.trans hb.bar, hlast.cur.trans hb.cur,
    hlast.stage.trans hb.stage⟩
  have hraise : c = b.raise 1 (s.legAddr l) 0 0 0 := if_pos (by simp [hfirst])
  rw [hraise]
  exact State.raise_protects _ _ _ _ _ _ (by decide)

/-! ### Desaturation -/

/-- The desaturation latch of a switch. -/
def LegS.desatLatch (g : LegS) (x : Switch) : Bool := match x with | .hs => g.desatHs | .ls => g.desatLs

/-- A desaturation that acts (R140, R142) latches its switch, counts, and raises E000. -/
theorem State.desat_spec {s : State} (hok : s.partsOk = true) (l : Nat) (x : Switch) (hhv : isHvLeg l = true)
    (hgate : ((s.leg l).pier x).gate = true) (hopen : ((s.leg l).pier x).desatBlank = false ∨ ((s.leg l).pier x).desatEnd ≤ s.tk.now)
    (hnew : (s.leg l).desatLatch x = false) :
    let t := s.desat l x
    (t.leg l).desatLatch x = true ∧ (t.leg l).desatCount = satInc (s.leg l).desatCount max16 ∧ t.protects 0 (s.switchAddr l x) ∧
    t.bar = s.bar ∧ t.cur = s.cur ∧ t.stage = s.stage := by
  intro t
  let a := s.softOff l x
  let b := a.updLeg l (fun g =>
    let g1 := { g with desatCount := satInc g.desatCount max16 }
    match x with | .hs => { g1 with desatHs := true } | .ls => { g1 with desatLs := true })
  let c := b.raise 0 (s.switchAddr l x) 0 0 0
  have ht : t = (c.drive l).reportShort l := by
    simp only [t, State.desat]
    rw [if_pos]
    · cases x <;> rfl
    · refine ⟨hhv, hgate, ?_, ?_⟩
      · rcases hopen with h | h
        · exact Or.inl (by simp [h])
        · exact Or.inr h
      · cases x
        · exact fun h => absurd (hnew.symm.trans h) (by decide)
        · exact fun h => absurd (hnew.symm.trans h) (by decide)
  have ha : Guarded (fun _ g => (g.desatHs, g.desatLs, g.desatCount)) s a := s.softOff_guarded l x fun _ _ _ _ => rfl
  have hoka := ha.sound hok
  have hb : Guarded (fun _ _ => ()) a b := .leg _ _ _ fun _ => rfl
  have hc : Guarded (fun _ g => (g.desatHs, g.desatLs, g.desatCount)) b c := .raise ..
  have hlast : Guarded (fun _ g => (g.desatHs, g.desatLs, g.desatCount)) c t := by
    rw [ht]
    exact (Guarded.driven (State.drive_driven ..) fun _ _ => rfl).trans
      (State.reportShort_guarded _ l (fun _ _ _ _ => rfl) (fun _ _ _ _ _ => rfl) fun _ _ => rfl)
  have hview := (hc.trans hlast).view (hb.sound hoka) l
  have hviewA := ha.view hok l
  have hleg := a.leg_updLeg_same l (fun g =>
    let g1 := { g with desatCount := satInc g.desatCount max16 }
    match x with | .hs => { g1 with desatHs := true } | .ls => { g1 with desatLs := true }) hoka
  have hb' : b.leg l = _ := hleg
  rw [hb'] at hview
  simp only [Prod.mk.injEq] at hview hviewA
  obtain ⟨-, -, hcountA⟩ := hviewA
  obtain ⟨hhs, hls, hcount⟩ := hview
  have hevent : t.protects 0 (s.switchAddr l x) := hlast.events _ _ (State.raise_protects _ _ _ _ _ _ (by decide))
  refine ⟨?_, ?_, hevent, (hlast.bar.trans hc.bar).trans (hb.bar.trans ha.bar), (hlast.cur.trans hc.cur).trans (hb.cur.trans ha.cur),
    (hlast.stage.trans hc.stage).trans (hb.stage.trans ha.stage)⟩
  · cases x
    · exact hhs
    · exact hls
  · rw [hcount, ← hcountA]
    cases x <;> rfl

/-- A desaturation that does not act. -/
theorem State.desat_none {s : State} {l : Nat} {x : Switch}
    (h : isHvLeg l = false ∨ ((s.leg l).pier x).gate = false ∨
      (((s.leg l).pier x).desatBlank = true ∧ s.tk.now < ((s.leg l).pier x).desatEnd) ∨ (s.leg l).desatLatch x = true) :
    s.desat l x = s := by
  unfold State.desat
  extract_lets p was
  refine if_neg ?_
  rintro ⟨hhv, hgate, hopen, hnew⟩
  rcases h with h | h | ⟨h, h'⟩ | h
  · exact absurd (h.symm.trans hhv) (by decide)
  · exact absurd (h.symm.trans hgate) (by decide)
  · rcases hopen with ho | ho
    · exact ho h
    · exact absurd ho (Nat.not_le.mpr h')
  · exact hnew h

/-! ### The end of a soft turn-off -/

/-- `t` differs from `s` in leg l alone, and not in what of its piers is under a soft turn-off. -/
structure SoftKept (l : Nat) (s t : State) : Prop where
  sound : s.partsOk = true → t.partsOk = true
  other : s.partsOk = true → ∀ k, k ≠ l → t.leg k = s.leg k
  soft : s.partsOk = true → ∀ y, ((t.leg l).pier y).soft = ((s.leg l).pier y).soft

theorem SoftKept.refl (l : Nat) (s : State) : SoftKept l s s := ⟨id, fun _ _ _ => rfl, fun _ _ => rfl⟩
theorem SoftKept.trans {l : Nat} {s t u : State} (h : SoftKept l s t) (k : SoftKept l t u) : SoftKept l s u :=
  ⟨k.sound ∘ h.sound, fun hok j hj => (k.other (h.sound hok) j hj).trans (h.other hok j hj),
    fun hok y => (k.soft (h.sound hok) y).trans (h.soft hok y)⟩
theorem SoftKept.ite {l : Nat} {c : Prop} [Decidable c] {s t u : State} (h : SoftKept l s t) (k : SoftKept l s u) :
    SoftKept l s (if c then t else u) := by
  split <;> assumption
theorem SoftKept.leg (l : Nat) (s : State) (f : LegS → LegS) (hf : ∀ g y, ((f g).pier y).soft = (g.pier y).soft) :
    SoftKept l s (s.updLeg l f) :=
  ⟨s.updLeg_sound l f, fun hok k hk => s.leg_updLeg_ne l k f hok hk, fun hok y => by rw [s.leg_updLeg_same l f hok, hf]⟩

/-- Changing a pier but for its soft turn-off. -/
theorem LegS.soft_updPier (g : LegS) (x : Switch) (f : PierS → PierS) (hf : ∀ p, (f p).soft = p.soft) (y : Switch) :
    ((g.updPier x f).pier y).soft = (g.pier y).soft := by
  cases x <;> cases y <;> simp [LegS.updPier, LegS.pier, hf]

/-- Starting the blanking window leaves the piers alone. -/
theorem State.blankFrom_soft (s : State) (l : Nat) (at0 : Instant) : SoftKept l s (s.blankFrom l at0) :=
  .leg l s _ fun _ y => by cases y <;> rfl

theorem State.arm_soft (s : State) (l : Nat) (x : Switch) : SoftKept l s (s.arm l x) := by
  have hpier : ∀ (f : PierS → PierS), (∀ p, (f p).soft = p.soft) → SoftKept l s (s.updLeg l (fun g => g.updPier x f)) :=
    fun f hf => .leg l s _ fun g y => g.soft_updPier x f hf y
  have hon : ∀ at0, SoftKept l s (s.gateOn l x at0) := fun at0 =>
    (hpier (fun p => { p with gate := true, onAt := none, desatBlank := isHvLeg l, desatEnd := at0 + s.desatBlanking l })
      fun _ => rfl).trans (State.blankFrom_soft ..)
  unfold State.arm
  exact .ite (.ite (hon _) (hpier _ fun _ => rfl)) (.refl l s)

/-- The gate of a switch falls, and no soft turn-off of it goes on. -/
theorem State.gateOff_soft {s : State} (hok : s.partsOk = true) (l : Nat) (x : Switch) (at0 : Instant) :
    (((s.gateOff l x at0).leg l).pier x).soft = false ∧ (∀ k, k ≠ l → (s.gateOff l x at0).leg k = s.leg k) ∧
    (s.gateOff l x at0).partsOk = true := by
  let u := s.updLeg l (fun g => g.updPier x (fun p =>
    { p with gate := false, onAt := none, desatBlank := false, soft := false, offDone := at0 }))
  have hoku : u.partsOk = true := s.updLeg_sound l _ hok
  have hblank : SoftKept l u (s.gateOff l x at0) := u.blankFrom_soft l at0
  refine ⟨?_, fun k hk => (hblank.other hoku k hk).trans (s.leg_updLeg_ne l k _ hok hk), hblank.sound hoku⟩
  rw [hblank.soft hoku x, s.leg_updLeg_same l _ hok, LegS.pier_updPier_same]

/-- Settles O36 (R138 to R143). -/
theorem shortCircuits : Obligations.ShortCircuits := by
  intro l x ofs s hok u g latched desats
  have hoku : u.partsOk = true := hok
  have hlatched : ∀ g : LegS, latched g = g.desatLatch x := fun g => by cases x <;> rfl
  refine ⟨fun unit => ⟨?_, rfl⟩, fun hhv hgate hopen hnew => ?_, fun hnone => ?_, fun hblank hpast => ⟨fun hhv hgate hnew => ?_, ?_⟩,
    fun hnone asserted => ?_, fun hsoft hpast => ?_, fun hnone => ?_⟩
  · let r := u.updLeg l.val (fun g => g.setSc unit true)
    have hleg : (r.leg l.val).scRaised = (s.leg l.val).scRaised := by
      rw [u.leg_updLeg_same l.val _ hoku]
      unfold LegS.setSc
      split
      · rfl
      · rfl
    obtain ⟨htrip, hraised, hevent, hbar, hcur, hstage⟩ := State.scAct_spec (u.updLeg_sound l.val (fun g => g.setSc unit true) hoku) l.val
    rw [hleg] at hevent
    exact ⟨_, rfl, htrip, hraised, hevent, hbar, hcur, hstage⟩
  · obtain ⟨h1, h2, hrest⟩ := State.desat_spec hoku l.val x hhv hgate hopen ((hlatched _).symm.trans hnew)
    exact ⟨_, rfl, (hlatched _).trans h1, h2, hrest⟩
  · refine congrArg Host.Outcome.next (State.desat_none ?_)
    rw [hlatched] at hnone
    exact hnone
  · let r := (s.goto (g.pier x).desatEnd).updLeg l.val (fun g => g.updPier x (fun p => { p with desatBlank := false }))
    have hokr : r.partsOk = true := State.updLeg_sound _ l.val _ hok
    have hleg : r.leg l.val = g.updPier x (fun p => { p with desatBlank := false }) := State.leg_updLeg_same _ l.val _ hok
    have hexec : exec (.desatBlankEnd l x true ofs) s = .next (r.desat l.val x) := by
      change execDesatBlankEnd l x true ofs s = _
      unfold execDesatBlankEnd
      extract_lets
      rw [if_pos (by rw [Bool.and_eq_true]; exact ⟨hblank, hpast⟩)]
      rfl
    have hpier : (r.leg l.val).pier x = { g.pier x with desatBlank := false } := by rw [hleg, LegS.pier_updPier_same]
    have hkeep : (r.leg l.val).desatLatch x = g.desatLatch x ∧ (r.leg l.val).desatCount = g.desatCount := by
      rw [hleg]
      cases x <;> exact ⟨rfl, rfl⟩
    obtain ⟨h1, h2, hrest⟩ := State.desat_spec hokr l.val x hhv (by rw [hpier]; exact hgate) (Or.inl (by rw [hpier]))
      (hkeep.1.trans ((hlatched _).symm.trans hnew))
    rw [hkeep.2] at h2
    exact ⟨_, hexec, (hlatched _).trans h1, h2, hrest⟩
  · have hexec : exec (.desatBlankEnd l x false ofs) s =
        .next ((s.goto (g.pier x).desatEnd).updLeg l.val (fun g => g.updPier x (fun p => { p with desatBlank := false }))) := by
      change execDesatBlankEnd l x false ofs s = _
      unfold execDesatBlankEnd
      extract_lets
      rw [if_pos (by rw [Bool.and_eq_true]; exact ⟨hblank, hpast⟩)]
      rfl
    refine ⟨_, hexec, ?_, fun k hk => State.leg_updLeg_ne _ l.val k _ hok hk, rfl, rfl⟩
    have hleg := State.leg_updLeg_same (s.goto (g.pier x).desatEnd) l.val
      (fun g => g.updPier x (fun p => { p with desatBlank := false })) hok
    rw [hleg, LegS.pier_updPier_same]
    rfl
  · change execDesatBlankEnd l x asserted ofs s = _
    unfold execDesatBlankEnd
    extract_lets
    refine if_neg ?_
    rw [Bool.and_eq_true]
    rintro ⟨h, h'⟩
    rcases hnone with hn | hn
    · exact absurd (hn.symm.trans h) (by decide)
    · exact absurd (hn.symm.trans h') (by decide)
  · let r := s.goto (g.pier x).softEnd
    let a := r.gateOff l.val x r.tk.now
    let t := (a.arm l.val .hs).arm l.val .ls
    have hexec : exec (.softOffPlateauEnd l x ofs) s = .next t := by
      change execSoftOffPlateauEnd l x ofs s = _
      unfold execSoftOffPlateauEnd
      extract_lets
      exact if_pos (by rw [Bool.and_eq_true]; exact ⟨hsoft, hpast⟩)
    obtain ⟨hoff, hother, hoka⟩ := State.gateOff_soft (s := r) hok l.val x r.tk.now
    have harm : SoftKept l.val a t := (a.arm_soft l.val .hs).trans (State.arm_soft _ l.val .ls)
    have hdrive : Driven r t := (r.gateOff_driven l.val x r.tk.now).trans ((a.arm_driven l.val .hs).trans (State.arm_driven _ l.val .ls))
    exact ⟨t, hexec, (harm.soft hoka x).trans hoff, hdrive.still hok l.val, fun k hk => (harm.other hoka k hk).trans (hother k hk),
      hdrive.other State.bar fun _ => rfl, hdrive.other State.cwy fun _ => rfl⟩
  · change execSoftOffPlateauEnd l x ofs s = _
    unfold execSoftOffPlateauEnd
    extract_lets
    refine if_neg ?_
    rw [Bool.and_eq_true]
    rintro ⟨h, h'⟩
    rcases hnone with hn | hn
    · exact absurd (hn.symm.trans h) (by decide)
    · exact absurd (hn.symm.trans h') (by decide)

end Sys2Proof.Machine
end

section
/-! PROOFS. Undervoltage, overvoltage and the hardware paths of span C (R133 to R136, R144, R190, R191, R193). -/
namespace Sys2Proof.Machine

/-! ### Undervoltage lock-out -/

theorem LegS.uv_setUv (g : LegS) (rail : Nat) : (g.setUv rail).uv rail = true := by
  match rail with
  | 0 => rfl
  | 1 => rfl
  | 2 => rfl
  | _ + 3 => rfl

/-- The still part of a leg shows its undervoltage bits. -/
theorem LegS.uv_still (g : LegS) (rail : Nat) : g.still.uv rail = g.uv rail := by
  match rail with
  | 0 => rfl
  | 1 => rfl
  | 2 => rfl
  | _ + 3 => rfl

/-- Settles O37 (R133, R134, R136). -/
theorem undervoltageLockout : Obligations.UndervoltageLockout := by
  intro l rail mv ofs s hok u g
  have hoku : u.partsOk = true := hok
  refine ⟨fun hrail hlow hnew => ?_, fun hnone => ?_, fun hlv hboot hnew hpast => ?_, fun hnone => ?_, fun v => ⟨fun hreg hback => ?_, fun hnone => ?_⟩⟩
  · let a := u.updLeg l.val (fun g => { g with bootAt := if !isHvLeg l.val && decide (rail.val = 0) then u.tk.now else g.bootAt })
    let b := a.updLeg l.val (fun g => g.setUv rail.val)
    let c := b.driveLeg l.val
    let t := if isHvLeg l.val || decide (rail.val = 2) then c.raise 7 (u.switchAddr l.val (railSwitch rail.val)) rail.val 0 0 else c
    have hpre : ¬ ((!(legRails l.val).contains rail.val || !u.uvLow l.val rail.val mv) = true) := by
      have hlow' : u.uvLow l.val rail.val mv = true := hlow
      simp [hrail, hlow']
    have hexec : exec (.uvloTrip l ⟨rail, mv⟩ ofs) s = .next t :=
      (if_neg hpre).trans (if_neg fun h => absurd (hnew.symm.trans h) (by decide))
    have hoka : a.partsOk = true := u.updLeg_sound l.val _ hoku
    have hokb : b.partsOk = true := a.updLeg_sound l.val _ hoka
    have hdrive : Driven b c := b.driveLeg_driven l.val
    have hquiet : Guarded (fun _ g => g.still) c t := .ite (.raise ..) (.refl c)
    have hrun : Guarded (fun _ g => g.still) b t := (Guarded.driven hdrive fun _ _ => rfl).trans hquiet
    have hstill : ∀ k, (t.leg k).still = (b.leg k).still := hrun.view hokb
    refine ⟨t, hexec, ?_, fun hraise => ?_, fun k hk => ?_, hrun.bar, hrun.cur, hrun.stage⟩
    · have hset : (b.leg l.val).uv rail.val = true := by rw [a.leg_updLeg_same l.val _ hoka, LegS.uv_setUv]
      rw [← LegS.uv_still, hstill, LegS.uv_still, hset]
    · have ht : t = c.raise 7 (u.switchAddr l.val (railSwitch rail.val)) rail.val 0 0 := if_pos (by
        rcases hraise with h | h <;> simp [h])
      rw [ht]
      exact State.raise_protects _ _ _ _ _ _ (by decide)
    · rw [hstill, a.leg_updLeg_ne l.val k _ hoka hk, u.leg_updLeg_ne l.val k _ hoku hk]
      rfl
  · refine if_pos ?_
    have hlow' : u.uvLow l.val rail.val mv = s.uvLow l.val rail.val mv := rfl
    rcases hnone with h | h
    · simp [h]
    · simp only [u] at hlow'
      simp [hlow', h]
  · let r := s.goto (g.bootAt + 1000000 * uNs)
    let a := r.updLeg l.val (fun g => { g with bootLong := true })
    let t := (a.driveLeg l.val).raise 7 (r.switchAddr l.val .hs) 0 0 0
    have hexec : exec (.bootstrapUvloTimeout l ofs) s = .next t := by
      refine if_pos ?_
      change (!isHvLeg l.val && g.uvHsPos && !g.bootLong && u.passed (g.bootAt + 1000000 * uNs)) = true
      rw [hlv, hboot, hnew, hpast]
      rfl
    have hoka : a.partsOk = true := State.updLeg_sound r l.val _ hok
    have hdrive := a.driveLeg_driven l.val
    have hrun : Guarded (fun _ g => g.bootLong) a t := (Guarded.driven hdrive fun _ _ => rfl).trans (.raise ..)
    refine ⟨t, hexec, (hrun.view hoka l.val).trans ?_, State.raise_protects _ _ _ _ _ _ (by decide), hrun.bar, hrun.cur, hrun.stage⟩
    rw [State.leg_updLeg_same r l.val _ hok]
  · refine if_neg ?_
    change ¬ (!isHvLeg l.val && g.uvHsPos && !g.bootLong && u.passed (g.bootAt + 1000000 * uNs)) = true
    rcases hnone with h | h | h | h <;> simp [h]
  · have hexec : exec (.uvloRecover ⟨l, v⟩) s = .next (s.updLeg l.val (fun g => { g with uvClear := true })) := by
      refine if_neg ?_
      rw [Bool.or_eq_true, not_or]
      refine ⟨?_, ?_⟩
      · rcases hreg with h | h <;> simp [h]
      · simpa using hback
    exact ⟨_, hexec, s.leg_updLeg_same l.val _ hok, fun k hk => s.leg_updLeg_ne l.val k _ hok hk, rfl, rfl, rfl⟩
  · refine if_pos ?_
    rw [Bool.or_eq_true]
    rcases hnone with ⟨h, h'⟩ | ⟨r, hr, hlow⟩
    · exact Or.inl (by simp [h, h'])
    · refine Or.inr ?_
      simp only [Bool.not_eq_true', List.all_eq_false]
      exact ⟨r, hr, ne_true_of_eq_false hlow⟩

/-! ### Overvoltage -/

/-- A drive that turns off softly moves legs alone. -/
theorem State.driveSoft_legless (s : State) (l : Nat) : (s.driveSoft l).legless = s.legless := by
  have hoff : ∀ (u : State) (x : Switch) (on : Bool), (u.softIfOff l x on).legless = u.legless := by
    intro u x on
    unfold State.softIfOff State.softOff
    extract_lets p
    split
    · rfl
    · split
      · rfl
      · rfl
  exact (State.driveLeg_driven ..).rest.trans ((hoff ..).trans (hoff ..))

/-- The same of a list of legs. -/
theorem State.driveSofts_legless (ls : List Nat) (s : State) : (ls.foldl State.driveSoft s).legless = s.legless := by
  induction ls generalizing s with
  | nil => rfl
  | cons l ls ih => exact (ih _).trans (s.driveSoft_legless l)

/-- Settles O38 (R144, R193). -/
theorem overvoltageTrips : Obligations.OvervoltageTrips := by
  intro unit ofs s hok
  let u := s.at ofs
  refine ⟨?_, ?_⟩
  · obtain ⟨ls, hls⟩ : ∃ ls, ls = Span.t0.legs ++ Span.t1.legs ++ Span.q.legs := ⟨_, rfl⟩
    rw [← hls]
    let a := u.updLegs ls (fun _ g => { g with parEnd := some (s.tk.count + 2) })
    let b : State := { a with par := { a.par with ovNow := addSet (if unit.val = 0 then 0 else 1) a.par.ovNow, linkOvLatch := true } }
    let c := b.raise 12 u.deckAddr unit.val 0 0
    let t := ls.foldl State.driveSoft c
    have hexec : exec (.linkOvTrip unit ofs) s = .next t := by
      simp only [t, c, b, a, hls]
      rfl
    have hoka : a.partsOk = true := State.updLegs_sound u ls _ hok
    have ha : a.legless = u.legless := by
      simp only [a]
      rw [State.updLegs_eq]
      rfl
    have hleg : ∀ k, a.leg k = if k ∈ ls then { u.leg k with parEnd := some (s.tk.count + 2) } else u.leg k :=
      State.leg_updLegs (s := u) hok (fun g => { g with parEnd := some (s.tk.count + 2) }) (fun _ => rfl) ls
    clear_value a
    have hrun : Guarded (fun _ g => g.parEnd) c t :=
      .foldl State.driveSoft (fun v k => v.driveSoft_guarded k (fun _ _ _ _ => rfl) fun _ _ => rfl) ls c
    have hless : t.legless = c.legless := State.driveSofts_legless ls c
    have hpar : t.par = b.par := (eq_of_view _ hless State.par fun _ => rfl).trans (State.par_raise ..)
    have hcHw : t.cHw = b.cHw := (eq_of_view _ hless State.cHw fun _ => rfl).trans (State.cHw_raise ..)
    refine ⟨t, hexec, congrArg ParS.linkOvLatch hpar, hrun.events _ _ (State.raise_protects _ _ _ _ _ _ (by decide)), fun k => ?_,
      (hrun.bar.trans (State.bar_raise ..)).trans (eq_of_view _ ha State.bar fun _ => rfl),
      hcHw.trans (eq_of_view _ ha State.cHw fun _ => rfl),
      (hrun.cur.trans (State.cur_raise ..)).trans (eq_of_view _ ha State.cur fun _ => rfl),
      (hrun.stage.trans (State.stage_raise ..)).trans (eq_of_view _ ha State.stage fun _ => rfl)⟩
    rw [hrun.view (b.raise_sound _ _ _ _ _ hoka) k, State.leg_raise]
    change (a.leg k).parEnd = _
    rw [hleg k]
    split <;> rfl
  · let b : State := { u with
      cHw := { u.cHw with crowbar := true, crowTick := if u.cHw.crowbar then u.cHw.crowTick else u.tk.count }
      par := { u.par with ovNow := addSet (if unit.val = 0 then 2 else 3) u.par.ovNow, cOvLatch := true } }
    let c := b.raise 13 (u.spanAddr .c) unit.val 0 0
    let t := Span.c.legs.foldl State.driveSoft c
    have hrun : Guarded (fun _ g => { g.still with softOff := false }) c t :=
      .foldl State.driveSoft (fun v k => v.driveSoft_guarded k (fun _ _ _ _ => rfl) fun _ _ => rfl) _ c
    have hless : t.legless = c.legless := State.driveSofts_legless _ c
    have hpar : t.par = b.par := (eq_of_view _ hless State.par fun _ => rfl).trans (State.par_raise ..)
    have hcHw : t.cHw = b.cHw := (eq_of_view _ hless State.cHw fun _ => rfl).trans (State.cHw_raise ..)
    refine ⟨t, rfl, ?_, ?_, fun hfirst => ?_, hrun.events _ _ (State.raise_protects _ _ _ _ _ _ (by decide)), fun k => ?_,
      hrun.bar.trans (State.bar_raise ..), hrun.cur.trans (State.cur_raise ..), hrun.stage.trans (State.stage_raise ..)⟩
    · rw [hcHw]
    · rw [hpar]
    · rw [hcHw]
      exact if_neg fun h => absurd (hfirst.symm.trans h) (by decide)
    · have hview := hrun.view (b.raise_sound _ _ _ _ _ hok) k
      rw [State.leg_raise] at hview
      exact congrArg (fun g : LegS => { g with softOff := (s.leg k).softOff }) hview

/-! ### Zero crossings and overshoot of span C -/

theorem LegS.isBlocked_blockOnly (g : LegS) (w : Switch) : (g.blockOnly w).isBlocked w = true := by
  cases w <;> rfl

/-- Settles O39 (R190, R191). -/
theorem converterHardwareActs : Obligations.ConverterHardwareActs := by
  refine ⟨fun k ofs s hok => ?_, fun ofs s hok => ?_⟩
  · intro x w
    let u := s.at ofs
    have hoku : u.partsOk = true := hok
    refine ⟨fun hde hact hcmd => ?_, fun hnone => ?_⟩
    · let a := u.updLeg (12 + k.val) (fun g => g.blockOnly w)
      let b := a.drive (12 + k.val)
      have hexec : exec (.zcdDetect k ofs) s = .next { b with cHw := { b.cHw with zcdNow := true } } := by
        refine if_pos ?_
        change (x.de && (x.phase k.val).active && ((s.leg (12 + k.val)).pier w).cmd) = true
        rw [hde, hact, hcmd]
        rfl
      have hoka : a.partsOk = true := u.updLeg_sound _ _ hoku
      have hdrive : Driven a b := a.drive_driven _
      have hcHw : b.cHw = s.cHw := hdrive.other State.cHw fun _ => rfl
      refine ⟨_, hexec, ?_, ?_, fun j hj => ?_, hdrive.other State.bar fun _ => rfl, hdrive.other State.cur fun _ => rfl,
        hdrive.other State.stage fun _ => rfl, hdrive.other State.cwy fun _ => rfl⟩
      · rw [hcHw]
      · have hblk := hdrive.field hoka (fun g => g.isBlocked w) (fun g => by cases w <;> rfl) (12 + k.val)
        refine hblk.trans ?_
        rw [u.leg_updLeg_same _ _ hoku]
        exact LegS.isBlocked_blockOnly ..
      · refine (hdrive.still hoka j).trans ?_
        rw [u.leg_updLeg_ne _ j _ hoku hj]
        rfl
    · refine if_neg ?_
      change ¬ (x.de && (x.phase k.val).active && ((s.leg (12 + k.val)).pier w).cmd) = true
      rcases hnone with h | h | h <;> simp [h]
  · intro x cut
    let u := s.at ofs
    refine ⟨fun hcfg hst => ?_, fun hnone => ?_⟩
    · let a := u.updLegs cut (fun _ g => g.blockOnly (cEnergising x.st))
      let b := a.driveAll cut
      let c := ({ b with cHw := { b.cHw with truncCount := satAdd b.cHw.truncCount cut.length max32, truncRaised := true } } :
        State).stick .cTrunc
      let t := if u.cHw.truncRaised then c else c.raise 59 (u.spanAddr .c) 0 cut.length 0
      have hexec : exec (.overshootTruncate ofs) s = .next t := by
        refine if_pos ?_
        change (decide (s.cCfg 2 1 = 1) && (decide (x.st = .link) || decide (x.st = .batt))) = true
        rcases hst with h | h <;> simp [hcfg, h]
      have ha : a.legless = u.legless := by
        simp only [a]
        rw [State.updLegs_eq (fun g => g.blockOnly (cEnergising x.st)) cut u]
        rfl
      have hb : b.legless = u.legless := (a.driveAll_driven cut).rest.trans ha
      have ht : t.cHw = c.cHw ∧ t.sticky = c.sticky ∧ t.bar = c.bar ∧ t.cur = c.cur ∧ t.stage = c.stage := by
        simp only [t]
        split
        · exact ⟨rfl, rfl, rfl, rfl, rfl⟩
        · exact ⟨State.cHw_raise .., State.sticky_raise .., State.bar_raise .., State.cur_raise .., State.stage_raise ..⟩
      obtain ⟨hcHw, hsticky, hbar, hcur, hstage⟩ := ht
      have hbHw : b.cHw = s.cHw := eq_of_view _ hb State.cHw fun _ => rfl
      refine ⟨t, hexec, ?_, ?_, ?_, hbar.trans (eq_of_view _ hb State.bar fun _ => rfl), hcur.trans (eq_of_view _ hb State.cur fun _ => rfl),
        hstage.trans (eq_of_view _ hb State.stage fun _ => rfl)⟩
      · rw [hcHw]
        rfl
      · rw [hsticky]
        exact mem_addSet _ _
      · rw [hcHw]
        change satAdd b.cHw.truncCount cut.length max32 = _
        rw [hbHw]
    · refine if_neg ?_
      change ¬ (decide (s.cCfg 2 1 = 1) && (decide (x.st = .link) || decide (x.st = .batt))) = true
      rcases hnone with h | ⟨h, h'⟩
      · simp [h]
      · simp [h, h']

end Sys2Proof.Machine
end

section
/-! PROOFS. Comparator tests, Hall states, clock loss, the lockstep and the pilot (R125, R145 to R151, R246, R254, R255). -/
namespace Sys2Proof.Machine

/-! ### Comparator tests -/

theorem mem_delSet {α : Type} [DecidableEq α] (x y : α) (l : List α) : x ∈ delSet y l ↔ x ∈ l ∧ x ≠ y := by
  simp [delSet]

theorem mem_addSet_iff {α : Type} [DecidableEq α] (x y : α) (l : List α) : x ∈ addSet y l ↔ x = y ∨ x ∈ l := by
  unfold addSet
  split
  case isTrue h => exact ⟨Or.inr, fun k => k.elim (fun e => e ▸ h) id⟩
  case isFalse => exact List.mem_cons

/-- What a test leaves in its own leg. -/
def LegS.noted (g : LegS) (k : Nat) (pass : Bool) (tick : Tick) : LegS :=
  { g with tested := addSet k g.tested, testTicks := Store.put (fun _ => 0) g.testTicks k tick,
           testFail := if pass then delSet k g.testFail else addSet k g.testFail }

theorem LegS.mem_testFail_noted (g : LegS) (k : Nat) (pass : Bool) (tick : Tick) :
    k ∈ (g.noted k pass tick).testFail ↔ pass = false := by
  cases pass with
  | true => simp [LegS.noted, mem_delSet]
  | false => simp [LegS.noted, mem_addSet]

/-- The marks of the tests of a leg. -/
def LegS.tests (g : LegS) : List Nat × List Nat := (g.tested, g.testFail)

/-- A comparator of a leg is tested (R145, R148): the test is noted, and a failed one marks the leg unprotected with E008. -/
theorem State.testResult_spec (s : State) (l k : Nat) (pass : Bool) (h : s.partsOk = true) :
    ((s.testResult l k pass).leg l).tests = ((s.leg l).noted k pass s.tk.count).tests ∧
    (pass = true → ((s.testResult l k pass).leg l).unprot = (s.leg l).unprot) ∧
    (pass = false → ((s.testResult l k pass).leg l).unprot = true ∧ (s.testResult l k pass).protects 8 (s.legAddr l)) ∧
    (s.testResult l k pass).bar = s.bar ∧ (s.testResult l k pass).cur = s.cur ∧ (s.testResult l k pass).stage = s.stage := by
  let a := s.updLeg l (fun g => g.noted k pass s.tk.count)
  have hrun : s.testResult l k pass = if pass then a else a.markUnprotected l k := rfl
  have ha : a.partsOk = true := s.updLeg_sound l _ h
  have hleg : a.leg l = (s.leg l).noted k pass s.tk.count := s.leg_updLeg_same l _ h
  rw [hrun]
  cases pass with
  | true => exact ⟨congrArg LegS.tests hleg, fun _ => (congrArg LegS.unprot hleg).trans rfl, nofun, rfl, rfl, rfl⟩
  | false =>
    have hmark : Guarded (fun _ g => g.tests) a (a.markUnprotected l k) :=
      a.markUnprotected_guarded l k (fun _ _ => rfl) fun _ _ => rfl
    exact ⟨(hmark.view ha l).trans (congrArg LegS.tests hleg), nofun, fun _ => a.markUnprotected_spec l k ha,
      hmark.bar, hmark.cur, hmark.stage⟩

/-- A test round ends for one leg (R145, R146). -/
def State.closeTests (t : State) (l : Nat) : State :=
  let t1 := if (legComparators l).all (fun k => (t.leg l).tested.contains k) then t
    else (t.updLeg l (fun g => { g with testOverdue := true })).raise 15 (t.legAddr l) 0 0 0
  if (t1.leg l).tested = [] then t1 else t1.updLeg l (fun g => { g with tested := [] })

theorem State.closeTests_guarded (t : State) (l : Nat) : Guarded (fun k g => if k = l then [] else g.tested) t (t.closeTests l) := by
  unfold State.closeTests
  extract_lets t1
  have hmark : Guarded (fun k g => if k = l then [] else g.tested) t (t.updLeg l (fun g => { g with testOverdue := true })) :=
    .leg t l _ fun _ => rfl
  have h1 : Guarded (fun k g => if k = l then [] else g.tested) t t1 := .ite (.refl t) (hmark.trans (.raise ..))
  exact h1.trans (.ite (.refl t1) (.leg t1 l _ fun g => (if_pos rfl).trans (if_pos rfl).symm))

theorem State.closeTests_tested (t : State) (l : Nat) (h : t.partsOk = true) : ((t.closeTests l).leg l).tested = [] := by
  unfold State.closeTests
  extract_lets t1
  have h1 : t1.partsOk = true := by
    simp only [t1]
    split
    · exact h
    · exact State.raise_sound _ _ _ _ _ _ (t.updLeg_sound l _ h)
  split
  · assumption
  · rw [t1.leg_updLeg_same l _ h1]

/-- No comparator of the legs whose round ends is tested afterwards. -/
theorem State.closeTests_foldl (ls : List Nat) (t : State) (h : t.partsOk = true) (k : Nat) (hk : k ∈ ls ∨ (t.leg k).tested = []) :
    ((ls.foldl State.closeTests t).leg k).tested = [] := by
  induction ls generalizing t with
  | nil => exact hk.resolve_left (by simp)
  | cons l ls ih =>
    have hrun := t.closeTests_guarded l
    refine ih (t.closeTests l) (hrun.sound h) ?_
    by_cases hkl : k = l
    · exact Or.inr (hkl ▸ t.closeTests_tested l h)
    · have hview := hrun.view h k
      rw [if_neg hkl, if_neg hkl] at hview
      rcases hk with hk | hk
      · exact Or.inl ((List.mem_cons.mp hk).resolve_left hkl)
      · exact Or.inr (hview.trans hk)

/-- Settles O40 (R145 to R149, R257). -/
theorem comparatorTests : Obligations.ComparatorTests := by
  refine ⟨fun l c pass ofs s hok hopen hhas hwin => ?_, fun k pass ofs s hopen => ?_, fun s hok => ⟨fun hready hdue => ?_, fun hearly => ?_⟩,
    fun l s hok => ?_⟩
  · let u := s.at ofs
    have hguard : ((legComparators l.val).contains c.val &&
        (match comparatorSwitch c.val with | some x => u.offWindow l.val x | none => true)) = true := by
      rw [hhas, Bool.true_and]
      split
      · exact hwin _ ‹_›
      · rfl
    have hexec : exec (.comparatorTest (.leg l c) pass ofs) s = .next (u.testResult l.val c.val pass) := by
      refine (if_neg ?_).trans (congrArg _ (if_pos hguard))
      change ¬ (!s.testOpen (.leg l c)) = true
      simp [hopen]
    obtain ⟨htests, hpass, hfail, hbar, hcur, hstage⟩ := u.testResult_spec l.val c.val pass hok
    obtain ⟨htested, hfails⟩ := Prod.ext_iff.mp htests
    refine ⟨_, hexec, ?_, ?_, hpass, hfail, hbar, hcur, hstage⟩
    · exact (congrArg (c.val ∈ ·) htested).mpr (mem_addSet _ _)
    · exact (Iff.of_eq (congrArg (c.val ∈ ·) hfails)).trans (LegS.mem_testFail_noted (u.leg l.val) c.val pass u.tk.count)
  · let u := s.at ofs
    let a : State := { u with par := { u.par with ovTested := addSet k u.par.ovTested } }
    let b : State := { a with par := { a.par with testFail := addSet k a.par.testFail } }
    have hopen' : ¬ (!u.testOpen (.deck k)) = true := by
      change ¬ (!s.testOpen (.deck k)) = true
      simp [hopen]
    cases pass with
    | true =>
      exact ⟨a, if_neg hopen', mem_addSet _ _, fun _ => rfl, nofun, rfl, rfl⟩
    | false =>
      refine ⟨b.raise 8 u.deckAddr (32 + k.val) 0 0, if_neg hopen', ?_, nofun,
        fun _ => ⟨?_, State.raise_protects _ _ _ _ _ _ (by decide)⟩, State.legs_raise .., State.bar_raise ..⟩
      · rw [State.par_raise]
        exact mem_addSet _ _
      · rw [State.par_raise]
        exact mem_addSet _ _
  · obtain ⟨a, ha⟩ : ∃ a, a = allLegs.foldl State.closeTests s := ⟨_, rfl⟩
    have hexec : exec .testRoundEnd s =
        .next { a with par := { a.par with roundStart := s.par.roundStart + 4096, ovTested := [] } } := by
      change execTestRoundEnd s = _
      unfold execTestRoundEnd
      rw [if_pos ⟨hready, hdue⟩]
      extract_lets b
      have hb : b = a := ha.symm
      clear_value b
      subst hb
      rfl
    have hrun : Guarded (fun _ _ => ()) s a := ha ▸ .foldl State.closeTests (fun t l => by
      obtain ⟨hbar, hadc, hcur, hstage, htk, hstart, hevents, hsound, -⟩ := t.closeTests_guarded l
      exact ⟨hbar, hadc, hcur, hstage, htk, hstart, hevents, hsound, fun _ _ => rfl⟩) allLegs s
    have htested : ∀ l : Leg, (a.leg l.val).tested = [] := fun l => by
      rw [ha]
      exact State.closeTests_foldl allLegs s hok l.val (Or.inl (by simp [allLegs]))
    exact ⟨_, hexec, rfl, rfl, htested, hrun.bar, hrun.tk⟩
  · exact if_neg fun h => absurd h.2 (Nat.not_le.mpr hearly)
  · intro old
    refine ⟨fun hready hage hnew hedge => ?_, fun hyoung => if_neg fun h => absurd h.2.1 (Nat.not_le.mpr hyoung)⟩
    let a := s.updLeg l.val (fun g => { g with ageBad := true })
    have hedge' : old.any (fun k => match comparatorSwitch k with
        | some x => s.switches l.val x
        | none => s.switches l.val .hs || s.switches l.val .ls) = true := by
      obtain ⟨k, hk, hsw⟩ := hedge
      refine List.any_eq_true.mpr ⟨k, hk, ?_⟩
      generalize comparatorSwitch k = x at hsw ⊢
      cases x with
      | some x => exact hsw
      | none => exact Bool.or_eq_true_iff.mpr hsw
    have hexec : exec (.testAgeOverdue l) s = .next (a.markUnprotected l.val 17) :=
      if_pos ⟨hready, hage, hedge', by simp [hnew]⟩
    have ha : a.partsOk = true := s.updLeg_sound l.val _ hok
    have hmark : Guarded (fun _ g => g.ageBad) a (a.markUnprotected l.val 17) :=
      a.markUnprotected_guarded l.val 17 (fun _ _ => rfl) fun _ _ => rfl
    obtain ⟨hunprot, hevent⟩ := a.markUnprotected_spec l.val 17 ha
    refine ⟨_, hexec, hunprot, (hmark.view ha l.val).trans ?_, hevent, hmark.bar, hmark.cur, hmark.stage⟩
    rw [s.leg_updLeg_same l.val _ hok]

/-! ### Hall states -/

/-- The count of a Hall transition moves the Hall counters alone (R231). -/
theorem State.hallCount_eq (s : State) (m v : Nat) : ∃ h, s.hallCount m v = { s with hall := h } := by
  unfold State.hallCount
  extract_lets h
  split
  · exact ⟨_, rfl⟩
  · exact ⟨_, rfl⟩

/-- Settles O41 (R150, R151). -/
theorem hallStates : Obligations.HallStates := by
  intro m v ofs s hok
  let u := s.at ofs
  let bad := decide (v.val = 0 ∨ v.val = 7)
  let a : State := { u with par := { u.par with
    hall := Store.put (fun _ => 0) u.par.hall m.val v.val,
    hallInvalid := if bad then addSet m u.par.hallInvalid else delSet m u.par.hallInvalid } }
  let b := if bad then a else a.hallCount m.val v.val
  let c := if bad && !u.par.hallInvalid.contains m then b.raise 52 (b.spanAddr (Span.ofAct m)) v.val 0 0 else b
  let t := c.drive (28 + 3 * m.val)
  have hbad : bad = true ↔ v = 0 ∨ v = 7 := by
    simp only [bad, decide_eq_true_eq, Fin.ext_iff]
    rfl
  have hb : ∃ h, b = { a with hall := h } := by
    simp only [b]
    split
    · exact ⟨a.hall, rfl⟩
    · exact a.hallCount_eq m.val v.val
  have hokb : b.partsOk = true := by
    simp only [b]
    split
    · exact hok
    · exact State.hallCount_parts a m.val v.val hok
  obtain ⟨h, hb⟩ := hb
  have hc : Halted b c := .ite (.raise ..) (.refl b)
  have hcur : c.cur = b.cur ∧ c.stage = b.stage ∧ c.par = b.par ∧ c.partsOk = true := by
    simp only [c]
    split
    · exact ⟨State.cur_raise .., State.stage_raise .., State.par_raise .., State.raise_sound _ _ _ _ _ _ hokb⟩
    · exact ⟨rfl, rfl, rfl, hokb⟩
  obtain ⟨hcur, hstage, hpar, hokc⟩ := hcur
  have hdrive : Driven c t := c.drive_driven _
  have hinv : t.par.hallInvalid = if bad then addSet m u.par.hallInvalid else delSet m u.par.hallInvalid := by
    rw [hdrive.other State.par fun _ => rfl, hpar, hb]
  refine ⟨t, rfl, ?_, fun k hk => ?_, fun hv hnew => ?_, fun k => ?_, ?_, ?_, ?_⟩
  · rw [hinv, ← hbad]
    split
    · simpa [*] using mem_addSet m _
    · simp [*, mem_delSet]
  · rw [hinv]
    split
    · rw [mem_addSet_iff]
      exact or_iff_right hk
    · rw [mem_delSet]
      exact and_iff_left hk
  · have hraise : c = b.raise 52 (b.spanAddr (Span.ofAct m)) v.val 0 0 := by
      refine if_pos ?_
      have hnew' : u.par.hallInvalid.contains m = false := by simpa [u] using hnew
      rw [hbad.mpr hv, hnew']
      rfl
    have hrep := b.raise_reports 52 (b.spanAddr (Span.ofAct m)) v.val 0 0 (by decide)
    rw [← hraise] at hrep
    unfold State.reports at hrep ⊢
    rw [hdrive.other State.cwy fun _ => rfl]
    rw [hb] at hrep
    exact hrep
  · refine (hdrive.still hokc k).trans ((hc.still hokb k).trans ?_)
    rw [hb]
    rfl
  · exact (hdrive.other State.bar fun _ => rfl).trans (hc.bar.trans (by rw [hb]; rfl))
  · exact (hdrive.other State.cur fun _ => rfl).trans (hcur.trans (by rw [hb]; rfl))
  · exact (hdrive.other State.stage fun _ => rfl).trans (hstage.trans (by rw [hb]; rfl))

/-! ### Clock loss -/

/-- A lost clock puts every leg under the clock-safe pattern (R125). -/
theorem State.loseClock_spec (s : State) (code : Nat) (h : s.partsOk = true) (hrun : s.par.clockLost = 0) :
    (s.loseClock code).par.clockLost = code ∧ (∀ l : Leg, ((s.loseClock code).leg l.val).clkSafe = true) ∧
    (s.loseClock code).bar = s.bar ∧ (s.loseClock code).cur = s.cur ∧ (s.loseClock code).stage = s.stage ∧
    (s.loseClock code).kst = s.kst := by
  let a : State := { s with par := { s.par with clockLost := code, clkHold := true } }
  have hlose : s.loseClock code = (a.updLegs allLegs (fun _ g => { g with clkSafe := true })).driveAll allLegs :=
    if_neg (not_not_intro hrun)
  have hmem : ∀ l : Leg, l.val ∈ allLegs := fun l => by simp [allLegs]
  rw [hlose]
  generalize allLegs = ls at hmem
  have hok := State.updLegs_sound a ls (fun _ g => { g with clkSafe := true }) h
  have hleg := State.leg_updLegs (s := a) h (fun g => { g with clkSafe := true }) (fun _ => rfl) ls
  have hless : (a.updLegs ls (fun _ g => { g with clkSafe := true })).legless = a.legless := by
    rw [State.updLegs_eq]
    rfl
  have hdrive := (a.updLegs ls (fun _ g => { g with clkSafe := true })).driveAll_driven ls
  have hrest := hdrive.rest.trans hless
  refine ⟨?_, fun l => ?_, eq_of_view _ hrest State.bar fun _ => rfl, eq_of_view _ hrest State.cur fun _ => rfl,
    eq_of_view _ hrest State.stage fun _ => rfl, eq_of_view _ hrest State.kst fun _ => rfl⟩
  · rw [eq_of_view _ hrest State.par fun _ => rfl]
  · rw [hdrive.field hok LegS.clkSafe fun _ => rfl, hleg, if_pos (hmem l)]

/-- Settles O42 (R125). -/
theorem clockLoss : Obligations.ClockLoss := by
  refine ⟨fun c code ofs s hok hc => ?_, fun ofs s => ⟨fun hlost => ?_, fun hrun => if_pos hrun⟩⟩
  · have hexec : exec c s = .next ((s.at ofs).loseClock code) ∧ code ≠ 0 := by
      rcases hc with ⟨rfl, rfl⟩ | ⟨rfl, rfl⟩ | ⟨rfl, rfl⟩ | ⟨rfl, rfl⟩
      all_goals exact ⟨rfl, by decide⟩
    obtain ⟨hexec, hcode⟩ := hexec
    refine ⟨fun hrun => ?_, fun hlost => ?_⟩
    · obtain ⟨hpar, hlegs, hbar, hcur, hstage, hkst⟩ := (s.at ofs).loseClock_spec code hok hrun
      exact ⟨_, hexec, hpar, decide_eq_false (by rw [hpar]; exact hcode), hlegs, hbar, hcur, hstage, hkst⟩
    · rw [hexec]
      exact congrArg _ (if_pos hlost)
  · let a : State := { s.at ofs with par := { s.par with clockLost := 0 } }
    have hexec : exec (.clocksValid ofs) s = .next (a.assertFault 6 s.par.clockLost) := if_neg hlost
    obtain ⟨hkst, hevent, hbar, -, hpar, -⟩ := a.assertFault_spec 6 s.par.clockLost (by decide)
    refine ⟨_, hexec, decide_eq_true ?_, ?_, hevent, hbar⟩
    · exact congrArg ParS.clockLost hpar
    · rw [hkst]
      exact KstS.faultLine_asserted ..

/-! ### Lockstep and debug -/

/-- The availability registers follow alone (Table 11-4). -/
theorem State.updateAvail_halted (s : State) : Halted s s.updateAvail := by
  unfold State.updateAvail
  exact .ite (.of rfl rfl rfl rfl rfl rfl) (.refl s)

theorem State.giveUpAll_sound (s : State) (cause : Nat) (h : s.partsOk = true) : (s.giveUpAll cause).partsOk = true := by
  unfold State.giveUpAll
  split
  · exact h
  · exact h

/-- Settles O45 (R246, R254, R255). -/
theorem lockstepAndDebug : Obligations.LockstepAndDebug := by
  intro addr ofs s hok
  let u := s.at ofs
  refine ⟨fun hls hfl => ?_, fun hnone => if_pos ?_, ?_, rfl⟩
  · let k : KstS := if s.kst.mmRecorded then { s.kst with mismatch := true }
      else { s.kst with mismatch := true, mmRecorded := true, mmAddr := addr.toNat, mmTick := s.tk.count }
    have hexec : exec (.lockstepMismatch addr ofs) s = .next ({ u with kst := k }.assertFault 18 0) := by
      refine if_neg ?_
      change ¬ (s.kst.lsBroken || s.kst.faultLine) = true
      simp [hls, hfl]
    obtain ⟨hkst, hevent, hbar, hadc, -, hstill⟩ := State.assertFault_spec { u with kst := k } 18 0 (by decide)
    have hk : k.faultLine = false := by
      simp only [k]
      split <;> exact hfl
    have hview : k.mismatch = true ∧ k.mmRecorded = true ∧ k.mmAddr = (if s.kst.mmRecorded then s.kst.mmAddr else addr.toNat) ∧
        k.mmTick = (if s.kst.mmRecorded then s.kst.mmTick else s.tk.count) := by
      simp only [k]
      by_cases hrec : s.kst.mmRecorded = true
      · simp [hrec]
      · simp [hrec]
    have hset : k.asserted { u with kst := k } = { k with
        faultLine := true, lockstepOk := false, faultTick := s.tk.count, firstOpen := s.cwy.firstUnwritten } :=
      if_neg (ne_true_of_eq_false hk)
    rw [hset] at hkst
    obtain ⟨hmis, hrec, haddr, htick⟩ := hview
    refine ⟨_, hexec, ?_⟩
    rw [hkst]
    exact ⟨rfl, hmis, hrec, haddr, htick, hevent, hbar, hadc, hstill hok⟩
  · change (s.kst.lsBroken || s.kst.faultLine) = true
    rcases hnone with h | h
    · simp [h]
    · simp [h]
  · let a : State := { u with kst := { u.kst with
      lsBroken := true, lockstepOk := false, attaches := satInc u.kst.attaches 255,
      faultTick := if u.kst.faultLine then u.kst.faultTick else u.tk.count } }
    let b := a.raise 20 a.deckAddr 0 0 0
    let c := b.giveUpAll 2
    let d := c.driveAll allLegs
    let e := d.sendRelinquish (if u.kst.faultLine then 1 else 2)
    have hexec : exec (.debugAttach ofs) s = .next e.updateAvail := rfl
    have hevent : b.protects 20 a.deckAddr := State.raise_protects _ _ _ _ _ _ (by decide)
    have hokb : b.partsOk = true := State.raise_sound _ _ _ _ _ _ hok
    have hok : b.partsOk = true → c.partsOk = true := b.giveUpAll_sound 2
    have hdrive : Driven c d := State.driveAll_driven ..
    have hd : Halted b d := (b.giveUpAll_halted 2).trans hok (.driven hdrive)
    have he : Halted b e := hd.trans (fun h => hdrive.sound (hok h)) (d.sendRelinquish_halted _)
    have hoke : b.partsOk = true → e.partsOk = true := fun h => State.sendRelinquish_parts _ _ (hdrive.sound (hok h))
    have hall : Halted b e.updateAvail := he.trans hoke e.updateAvail_halted
    have hcur : e.updateAvail.cur = b.cur := by
      have h1 : c.cur = b.cur := by
        simp only [c, State.giveUpAll]
        split <;> rfl
      have h2 : d.cur = c.cur := hdrive.other State.cur fun _ => rfl
      have h3 : e.cur = d.cur := by
        simp only [e, State.sendRelinquish]
        split <;> rfl
      have h4 : e.updateAvail.cur = e.cur := by
        simp only [State.updateAvail]
        split <;> rfl
      exact h4.trans (h3.trans (h2.trans h1))
    refine ⟨_, hexec, hall.kst.trans (State.kst_raise ..), hall.events _ _ hevent, hall.bar.trans (State.bar_raise ..),
      hall.adc.trans (State.adc_raise ..), hcur.trans (State.cur_raise ..), fun k => (hall.still hokb k).trans ?_⟩
    rw [State.leg_raise]
    rfl

/-! ### Pilot and contactor -/

/-- Settles O47 (R216 to R219). -/
theorem pilotAndContactor : Obligations.PilotAndContactor := by
  refine ⟨fun p s huse => ⟨fun hsame => ?_, fun hdiff => ?_⟩, fun ofs t s hsince hlong => ?_, fun s => ⟨fun hon => ?_, fun hoff => ?_⟩⟩
  · exact (if_pos huse).trans (congrArg _ (if_neg (not_not_intro hsame)))
  · let a : State := { s with pilot := s.pilot.cycle p }
    have hexec : exec (.pilotCycle p) s = .next (a.raise 61 (s.spanAddr .q) (s.pilot.cycle p).st.code 0 0) :=
      (if_pos huse).trans (congrArg _ (if_pos hdiff))
    exact ⟨_, hexec, State.pilot_raise .., a.raise_reports _ _ _ _ _ (by decide), State.bar_raise .., State.stage_raise ..,
      State.legs_raise ..⟩
  · change execKacFbTimeout ofs s = _
    unfold execKacFbTimeout
    have hsince' : (s.at ofs).pilot.diffSince = some t := hsince
    extract_lets u
    split
    case h_1 t' ht =>
      obtain rfl : t = t' := Option.some.inj (hsince'.symm.trans ht)
      exact if_pos hlong
    case h_2 hnone => exact absurd (hsince'.symm.trans hnone) (by simp)
  · exact congrArg _ (if_pos hon)
  · exact congrArg _ (if_neg (ne_true_of_eq_false hoff))

end Sys2Proof.Machine
end

section
/-! PROOFS. What time alone brings on the spans (R177, R178, R194, R220, R233, R239, R242). -/
namespace Sys2Proof.Machine

/-- Answering the waiting descriptor of a movement adds one completion to the stage (R364). -/
theorem State.aComplete_spec (s : State) (m : Nat) (x : ActS) (st : Status) (out : ShiftOut) (pos : Int) (c : Ctl) :
    (s.aComplete m x st out pos c).quiet = c.quiet ∧
    ∀ d, x.cmd = some d → ∃ a, (s.aComplete m x st out pos c).cmpl = c.cmpl ++ [a] ∧ a.seq = d.seq ∧ a.status = st := by
  unfold State.aComplete
  generalize 2 ^ 32 * (wdI pos).toNat = r
  cases x.cmd with
  | none => exact ⟨rfl, fun _ h => by cases h⟩
  | some d =>
    refine ⟨rfl, fun d' hd => ?_⟩
    obtain rfl := Option.some.inj hd
    exact ⟨_, rfl, rfl, rfl⟩

/-- A movement that times out (R239, R242): the actuator holds where it stands with the timeout outcome, and the waiting
descriptor is answered. -/
theorem State.aEnd_timeout (s : State) (m : Nat) (x : ActS) :
    (s.aEnd m x .timeout .timeout .hold (s.aPos m) s.stage).quiet = (s.stage.putAct m
      { x with st := .hold, out := .timeout, target := s.aPos m, cmd := none, abortNow := false, stallRun := 0 }).quiet ∧
    ∀ d, x.cmd = some d → ∃ c, (s.aEnd m x .timeout .timeout .hold (s.aPos m) s.stage).cmpl = s.stage.cmpl ++ [c] ∧
      c.seq = d.seq ∧ c.status = .timeout := by
  unfold State.aEnd
  extract_lets pos y
  have hy : y = { x with st := .hold, out := .timeout, target := s.aPos m, cmd := none, abortNow := false, stallRun := 0 } := by
    simp only [y]
    rw [if_neg fun h => absurd h.1 (by decide)]
  rw [← hy]
  exact s.aComplete_spec m x .timeout .timeout pos (s.stage.putAct m y)

/-- An allowance that is not used up, or whose end is marked already, is not marked. -/
theorem peak_left {reached marked : Bool} {count : Nat} (h : reached = false ∨ count = 0 ∨ marked = true) :
    ¬ (reached = true ∧ 0 < count ∧ ¬ marked = true) := by
  rintro ⟨hreach, hpos, hnew⟩
  rcases h with h | h | h
  · exact absurd (hreach.symm.trans h) (by decide)
  · exact absurd h hpos.ne'
  · exact hnew h

/-- Settles O46. -/
theorem spanTimers : Obligations.SpanTimers := by
  refine ⟨fun t s => ?_, fun s => ?_, fun m s => ?_, fun t e s hdip hdue => ?_, fun t s => ?_, fun s hfault hrun => ?_, fun m s => ?_⟩
  · intro x
    refine ⟨fun hreach hpos hnew => ?_, fun hnone => if_neg (peak_left hnone)⟩
    exact ⟨_, if_pos ⟨hreach, hpos, ne_true_of_eq_false hnew⟩, rfl, s.raise_reports _ _ _ _ _ (by decide),
      State.bar_raise .., State.cur_raise .., State.legs_raise .., State.tk_raise ..⟩
  · intro x
    refine ⟨fun hreach hpos hnew => ?_, fun hnone => if_neg (peak_left hnone)⟩
    exact ⟨_, if_pos ⟨hreach, hpos, ne_true_of_eq_false hnew⟩, rfl, s.raise_reports _ _ _ _ _ (by decide),
      State.bar_raise .., State.cur_raise .., State.legs_raise .., State.tk_raise ..⟩
  · intro x
    refine ⟨fun hreach hpos hnew => ?_, fun hnone => if_neg (peak_left hnone)⟩
    exact ⟨_, if_pos ⟨hreach, hpos, ne_true_of_eq_false hnew⟩, rfl, s.raise_reports _ _ _ _ _ (by decide),
      State.bar_raise .., State.cur_raise .., State.legs_raise .., State.tk_raise ..⟩
  · have hends : (s.stage.trac t).dipEnds (s.tk.count + 1) = { s.stage.trac t with dip := 0x1000000, dipEnd := none } := by
      unfold TracS.dipEnds
      rw [hdip]
      exact if_pos hdue
    change execDipEnd t s = _
    unfold execDipEnd
    rw [hends]
  · intro x hst hsrc hzone hrun
    exact ⟨_, if_pos ⟨hst, hsrc, hzone, hrun⟩, rfl, s.raise_reports _ _ _ _ _ (by decide), State.bar_raise .., State.cur_raise ..,
      State.legs_raise ..⟩
  · have hclear : s.stage.cs.clearSense =
        { s.stage.cs with senseFault := false, senseAi32 := false, senseAi33 := false, senseDis := false, clearRun := 0 } :=
      if_pos ⟨hfault, hrun⟩
    change execSenseFaultClear s = _
    unfold execSenseFaultClear
    rw [hclear]
  · intro x held hlate
    refine ⟨fun hst => ?_, fun hst => ?_⟩
    · obtain ⟨hquiet, hanswer⟩ := s.aEnd_timeout m.val x
      exact ⟨_, if_pos ⟨hst, hlate⟩, rfl, hquiet, hanswer⟩
    · obtain ⟨hquiet, hanswer⟩ := s.aEnd_timeout m.val { x with homed := false }
      exact ⟨_, if_pos ⟨hst, hlate⟩, rfl, hquiet, hanswer⟩

end Sys2Proof.Machine
end

section
/-! PROOFS. How two decks pair, and the frames of a pair at work (R266, R267, R280 to R284, R407). -/
namespace Sys2Proof.Machine

/-! ### Handshake and pairing -/

/-- What a handshake frame that passes the lanes notes before its check. -/
def State.shaken (s : State) (f : List Byte) : State :=
  { s with vdt := { s.vdt with
    shakeSeen := true, reShake := true, rxTick := fTick f, joins := decide (fw f 16 2 ≠ 0),
    startTick := if s.roleBit ≠ 0 ∧ fw f 56 8 ≠ 0 then fw f 56 8 else s.vdt.startTick } }

/-- A handshake frame while the decks shake hands, by what the lanes bring (R266). -/
theorem execHandshakeFrame_shaking (l0 l1 : Option (List Byte)) (ofs : Nat) (s : State) (h : s.shaking = true) :
    let u := s.at ofs
    let r := u.laneFrame 3 (fun _ => true) l0 l1
    let g := u.gotLanes r.2.1 r.2.2
    execHandshakeFrame l0 l1 ofs s = match r.1 with
      | none => .next g
      | some f =>
        let k := u.shakeCheck f (if ofs ≤ 3000 * uNs then s.tk.count else s.tk.count + 1)
        if k = 0 then .next { g.shaken f with vdt := { (g.shaken f).vdt with shakeOk := true } }
        else .next ({ g.shaken f with vdt := { (g.shaken f).vdt with pairFail := k, shakeRun := 0, shakeOk := false } }.e086 k) := by
  intro u r g
  refine (if_neg ?_).trans ?_
  · change ¬ (!s.shaking) = true
    simp [h]
  · change (match r.1 with | none => _ | some f => _) = _
    cases r.1 with
    | none => rfl
    | some f => rfl

/-- Settles O48 (R266, R267, R407). -/
theorem handshakeAndPairing : Obligations.HandshakeAndPairing := by
  refine ⟨fun l0 l1 ofs s => ?_, fun s => ⟨fun t hat hpair hrun hdue => ⟨fun halone hseen => ?_, fun hnot => ?_⟩, fun hnone => ?_⟩⟩
  · intro u r n
    refine ⟨fun hidle => if_pos ?_, fun hshake hlane => ?_, fun f hshake hlane => ?_⟩
    · change (!s.shaking) = true
      simp [hidle]
    · refine (execHandshakeFrame_shaking l0 l1 ofs s hshake).trans ?_
      change (match r.1 with | none => _ | some f => _) = _
      rw [hlane]
    · have hexec := execHandshakeFrame_shaking l0 l1 ofs s hshake
      change _ = (match r.1 with | none => _ | some f => _) at hexec
      rw [hlane] at hexec
      let g := (u.gotLanes r.2.1 r.2.2).shaken f
      let k := u.shakeCheck f n
      by_cases hk : k = 0
      · exact ⟨_, hexec.trans (if_pos hk), rfl, rfl, rfl, rfl, fun _ => ⟨rfl, rfl⟩, fun h => absurd hk h, rfl, rfl, rfl, rfl, rfl⟩
      · let a : State := { g with vdt := { g.vdt with pairFail := k, shakeRun := 0, shakeOk := false } }
        have hvdt : (a.e086 k).vdt = a.vdt := State.vdt_raise ..
        refine ⟨a.e086 k, hexec.trans (if_neg hk), ?_⟩
        rw [hvdt]
        exact ⟨rfl, rfl, rfl, rfl, fun h => absurd h hk, fun _ => ⟨rfl, rfl, rfl, a.raise_reports _ _ _ _ _ (by decide)⟩, rfl,
          State.bar_raise .., State.legs_raise .., State.cur_raise .., State.stage_raise ..⟩
  · have hexec : exec .pairingTimeout s = .next (s.goto (t + 1500000000 * uNs)).goAlone := by
      change execPairingTimeout s = _
      unfold execPairingTimeout
      rw [hat]
      exact (if_pos ⟨hpair, hrun, hdue⟩).trans (if_pos (Bool.and_eq_true_iff.mpr ⟨halone, by simp [State.goto, hseen]⟩))
    exact ⟨_, hexec, rfl, rfl, rfl, rfl, rfl, rfl, rfl, rfl, rfl, rfl, rfl⟩
  · let u := s.goto (t + 1500000000 * uNs)
    have hexec : exec .pairingTimeout s = .next (u.startFail 18) := by
      change execPairingTimeout s = _
      unfold execPairingTimeout
      rw [hat]
      refine (if_pos ⟨hpair, hrun, hdue⟩).trans (if_neg ?_)
      change ¬ (bitOf (s.reg 0x31000) 6 && !s.vdt.shakeSeen) = true
      rcases hnot with h | h
      · simp [h]
      · simp [h]
    obtain ⟨hstop, -, -, hcause, hcount⟩ := u.startFail_start 18
    exact ⟨_, hexec, hstop, hcause, hcount, (u.startFail_halted 18).bar⟩
  · change execPairingTimeout s = _
    unfold execPairingTimeout
    cases hat : s.vdt.shakeAt with
    | none => rfl
    | some t =>
      refine if_neg fun ⟨hpair, hrun, hdue⟩ => ?_
      rcases hnone with h | h | h | ⟨t', ht, h⟩
      · exact absurd (hat.symm.trans h) (by simp)
      · exact h hpair
      · exact absurd (hrun.symm.trans h) (by decide)
      · obtain rfl := Option.some.inj (ht.symm.trans hat)
        exact absurd (hdue.symm.trans h) (by decide)

/-! ### Mirror and relinquish frames -/

/-- A mirror frame, by what the lanes bring (R280, R284). -/
theorem execMirrorFrame_eq (l0 l1 : Option (List Byte)) (ofs : Nat) (s : State) :
    let u := s.at ofs
    let r := u.laneFrame 1 (u.inTime ofs) l0 l1
    let g := u.gotLanes r.2.1 r.2.2
    execMirrorFrame l0 l1 ofs s = match r.1 with
      | none => .next g
      | some f =>
        if s.vdt.pair = 2 ∧ fw f 24 8 + 4 ≤ fTick f ∧ ¬ s.vdt.staleAck then
          .next (State.staleAcknowledged { g with vdt := { g.vdt with frameNew := some f } })
        else .next { g with vdt := { g.vdt with frameNew := some f } } := by
  intro u r g
  change (match r.1 with | none => _ | some f => _) = _
  cases r.1 with
  | none => rfl
  | some f => rfl

/-- A deck whose frames stay unacknowledged holds every leg and moves nothing of them but their gates (R284). -/
theorem State.staleAcknowledged_spec (s : State) :
    s.staleAcknowledged.vdt.frameNew = s.vdt.frameNew ∧ s.staleAcknowledged.vdt.staleAck = true ∧
    s.staleAcknowledged.vdt.hold = Span.all ∧ s.staleAcknowledged.bar = s.bar ∧ s.staleAcknowledged.cur = s.cur ∧
    s.staleAcknowledged.stage = s.stage ∧ (s.partsOk = true → ∀ k, (s.staleAcknowledged.leg k).still = (s.leg k).still) := by
  let a : State := { s with vdt := { s.vdt with hold := Span.all, staleAck := true } }
  have hgive : ∃ l, a.giveUpAll 8 = { a with vdt := { a.vdt with giveUp := l } } := by
    unfold State.giveUpAll
    split
    · exact ⟨_, rfl⟩
    · exact ⟨a.vdt.giveUp, rfl⟩
  obtain ⟨l, hgive⟩ := hgive
  have hdrive : Driven (a.giveUpAll 8) s.staleAcknowledged := State.driveAll_driven ..
  rw [hgive] at hdrive
  have hvdt := hdrive.other State.vdt fun _ => rfl
  rw [hvdt]
  exact ⟨rfl, rfl, rfl, hdrive.other State.bar fun _ => rfl, hdrive.other State.cur fun _ => rfl, hdrive.other State.stage fun _ => rfl,
    fun h k => hdrive.still h k⟩

/-- A relinquish frame, by what the lanes bring (R284). -/
theorem execRelinquishFrame_eq (l0 l1 : Option (List Byte)) (ofs : Nat) (s : State) :
    let u := s.at ofs
    let r := u.laneFrame 2 (fun _ => true) l0 l1
    let g := u.gotLanes r.2.1 r.2.2
    execRelinquishFrame l0 l1 ofs s = match r.1 with
      | none => .next g
      | some f =>
        if s.vdt.pair = 2 then
          .next (g.scheduleTakeover (if s.tk.phi0Done && s.tk.phi1Done then s.tk.count + 2 else s.tk.count + 1)
            (fSpans f 18) (!s.vdt.cwyLead) 1)
        else .next g := by
  intro u r g
  change (match r.1 with | none => _ | some f => _) = _
  cases r.1 with
  | none => rfl
  | some f => rfl

/-- The spans that a takeover of the named ones would take. -/
def State.takeable (s : State) (xs : List Span) : List Span :=
  xs.filter (fun x => s.fitted x && !s.vdt.alone.contains x && !s.vdt.takeovers.any (fun t => t.2.1.contains x) &&
    (decide (x.code ≤ 4) || !s.leadsSpan x))

theorem State.mem_takeable (s : State) (xs : List Span) (x : Span) :
    x ∈ s.takeable xs ↔ x ∈ xs ∧ s.fitted x = true ∧ x ∉ s.vdt.alone ∧ (∀ k ∈ s.vdt.takeovers, x ∉ k.2.1) ∧
      (x.code ≤ 4 ∨ x ∉ s.vdt.leads) := by
  simp [State.takeable, State.leadsSpan, and_assoc]

/-- Settles O49 (R280, R283, R284). -/
theorem mirrorAndRelinquish : Obligations.MirrorAndRelinquish := by
  refine ⟨fun l0 l1 ofs s => ?_, fun l0 l1 ofs s => ?_⟩
  · intro u r g
    have hexec := execMirrorFrame_eq l0 l1 ofs s
    change execMirrorFrame l0 l1 ofs s = (match r.1 with | none => _ | some f => _) at hexec
    refine ⟨fun hlane => ?_, fun f hlane => ⟨fun hkept => ?_, fun hpair hstale hfirst => ?_⟩⟩
    · rw [hlane] at hexec
      exact hexec
    · rw [hlane] at hexec
      refine hexec.trans (if_neg fun ⟨hpair, hstale, hfirst⟩ => ?_)
      rcases hkept with h | h | h
      · exact h hpair
      · exact absurd hstale (Nat.not_le.mpr h)
      · exact hfirst h
    · rw [hlane] at hexec
      exact ⟨_, hexec.trans (if_pos ⟨hpair, hstale, ne_true_of_eq_false hfirst⟩),
        State.staleAcknowledged_spec { g with vdt := { g.vdt with frameNew := some f } }⟩
  · intro u r g
    have hexec := execRelinquishFrame_eq l0 l1 ofs s
    change execRelinquishFrame l0 l1 ofs s = (match r.1 with | none => _ | some f => _) at hexec
    refine ⟨fun hnone => ?_, fun f hlane hpair => ⟨g.takeable (fSpans f 18), g.mem_takeable _, fun hnew hlead => ?_, fun hany => ?_⟩⟩
    · cases hlane : r.1 with
      | none =>
        rw [hlane] at hexec
        exact hexec
      | some f =>
        rw [hlane] at hexec
        exact hexec.trans (if_neg (hnone.resolve_left (by simp [hlane])))
    · rw [hlane] at hexec
      refine (hexec.trans (if_pos hpair)).trans (congrArg _ (if_pos ⟨hnew, ?_, by decide⟩))
      simp [hlead]
    · rw [hlane] at hexec
      refine (hexec.trans (if_pos hpair)).trans (congrArg _ ((if_neg ?_).trans ?_))
      · rintro ⟨hnew, hlead, -⟩
        rcases hany with h | h
        · exact h hnew
        · exact hlead (by simp [h])
      · simp only [Bool.and_eq_true]
        rfl

end Sys2Proof.Machine
end

section
/-! PROOFS. The deck's own clock, the launch line, the census and the calendar (R297 to R303, R316 to R322). -/
namespace Sys2Proof.Machine

/-! ### Stepping the count -/

/-- A state but for what stepping the count moves: what runs on its own clock, the converters and the legs. -/
def State.stepless (s : State) : State :=
  { s with cal := State.reset.cal, tk := State.reset.tk, start := State.reset.start, trl := State.reset.trl,
           vdt := State.reset.vdt, fp := State.reset.fp, adc := State.reset.adc, legs := State.reset.legs,
           pyl := { s.pyl with markAt := 0, lastSync := 0 } }

/-- What every step of a fold leaves, the fold leaves. -/
theorem view_foldl {α β : Type} (view : State → α) (g : State → β → State) (h : ∀ t a, view (g t a) = view t) (l : List β)
    (s : State) : view (l.foldl g s) = view s := by
  induction l generalizing s with
  | nil => rfl
  | cons a l ih => exact (ih _).trans (h s a)

theorem State.stepless_adc (s : State) (a : AdcS) : { s with adc := a }.stepless = s.stepless := rfl

theorem State.stepless_sensingMoved (s : State) (mv : Instant → Instant) : (s.sensingMoved mv).stepless = s.stepless := by
  unfold State.sensingMoved
  generalize List.range 16 = cs
  generalize List.range 96 = is
  have hconv := view_foldl State.stepless (fun (t : State) c => t.updConv c (ConvS.moved mv)) (fun _ _ => rfl) cs s
  have hinp := view_foldl State.stepless (fun (t : State) i => t.updInp i (InputS.moved mv)) (fun _ _ => rfl) is
    (cs.foldl (fun (t : State) c => t.updConv c (ConvS.moved mv)) s)
  exact (State.stepless_adc _ _).trans (hinp.trans hconv)

/-- Stepping the count keeps the rest (R298). -/
theorem State.stepless_stepCount (s : State) (t : Instant) : (s.stepCount t).stepless = s.stepless := by
  unfold State.stepCount
  extract_lets d mv n _ _ _ _ _ _ _ s1
  have hs1 : s1.stepless = s.stepless := rfl
  clear_value s1
  unfold State.updLegs
  generalize allLegs = ls
  exact (view_foldl State.stepless (fun (u : State) l => u.updLeg l (fun g => g.moved mv)) (fun _ _ => rfl) ls
    (s1.sensingMoved mv)).trans ((s1.stepless_sensingMoved mv).trans hs1)

/-! ### Sync and the grandmaster -/

/-- What a Sync message sets of the clock before its state follows. -/
def PylS.heard (p : PylS) : Int × Nat × Int := (p.offset, p.gmId, p.freqAdj)

/-- `t` keeps the registers, the controlled state, the stage and the Keystone of `s`, and of its clock what a Sync message
has set. -/
structure Heard (s t : State) : Prop where
  bar : t.bar = s.bar
  cur : t.cur = s.cur
  stage : t.stage = s.stage
  kst : t.kst = s.kst
  pyl : t.pyl.heard = s.pyl.heard

theorem Heard.refl (s : State) : Heard s s := ⟨rfl, rfl, rfl, rfl, rfl⟩
theorem Heard.trans {s t u : State} (h : Heard s t) (k : Heard t u) : Heard s u :=
  ⟨k.bar.trans h.bar, k.cur.trans h.cur, k.stage.trans h.stage, k.kst.trans h.kst, k.pyl.trans h.pyl⟩
theorem Heard.ite {c : Prop} [Decidable c] {s t u : State} (h : Heard s t) (k : Heard s u) : Heard s (if c then t else u) := by
  split <;> assumption
theorem Heard.raise (s : State) (code addr cause val val2) : Heard s (s.raise code addr cause val val2) :=
  ⟨State.bar_raise .., State.cur_raise .., State.stage_raise .., State.kst_raise .., congrArg PylS.heard (State.pyl_raise ..)⟩
/-- A change of the clock's own data that keeps what is heard. -/
theorem Heard.pylOf (s : State) (p : PylS) (h : p.heard = s.pyl.heard) : Heard s { s with pyl := p } := ⟨rfl, rfl, rfl, rfl, h⟩
theorem Heard.stepBy (s : State) (o : Int) : Heard s (s.stepBy o) := by
  have hstep := s.stepless_stepCount (((s.tk.now : Int) - o * uNs).toNat)
  have hcount : Heard s (s.stepCount (((s.tk.now : Int) - o * uNs).toNat)) :=
    ⟨eq_of_view _ hstep State.bar fun _ => rfl, eq_of_view _ hstep State.cur fun _ => rfl, eq_of_view _ hstep State.stage fun _ => rfl,
      eq_of_view _ hstep State.kst fun _ => rfl, eq_of_view _ hstep (fun t => t.pyl.heard) fun _ => rfl⟩
  exact hcount.trans (.raise ..)
/-- A change of the clock's state but to the grandmaster's. -/
theorem Heard.pylTo (s : State) (st : PylSt) (cause : Nat) (h : st ≠ .grandmaster) : Heard s (s.pylTo st cause) := by
  unfold State.pylTo
  refine .trans (.pylOf s _ ?_) (.raise ..)
  simp only [PylS.heard, if_neg h]

/-- The state after a change of the clock's state. -/
theorem State.pylTo_st (s : State) (st : PylSt) (cause : Nat) : (s.pylTo st cause).pyl.st = st := by
  simp [State.pylTo]

theorem State.syncTracked_heard (s : State) (o : Int) : Heard s (s.syncTracked o) := by
  unfold State.syncTracked
  extract_lets far good p a
  have ha : Heard s a := .pylOf s _ rfl
  have hb : Heard a { a with pyl := { a.pyl with ofsFault := true, mayRejoin := false } } := .pylOf a _ rfl
  have hfault := (ha.trans (hb.trans (.raise _ 75 s.deckAddr 0 o 0))).trans (.pylTo _ .holdover 4 nofun)
  have hlock : Heard s (a.pylTo .locked 2) := ha.trans (.pylTo _ _ _ nofun)
  exact .ite hfault (.ite hlock ha)

/-- What a taken Sync message does to the clock's state (Table 13-2). -/
def State.syncTaken (s : State) (o : Int) : State :=
  match s.pyl.st with
  | .free => if s.start.ready then s else (s.stepBy o).pylTo .acquire 1
  | .holdover =>
    let near := if farOffset o then 0 else s.pyl.nearSyncs + 1
    let s := { s with pyl := { s.pyl with nearSyncs := min near 16 } }
    let s := if !s.start.ready && farOffset o then s.stepBy o else s
    if s.pyl.mayRejoin && !s.pyl.ofsFault && decide (16 ≤ near) then s.pylTo .acquire 5 else s
  | _ => (if !s.start.ready && farOffset o then s.stepBy o else s).syncTracked o

theorem State.syncTaken_heard (s : State) (o : Int) : Heard s (s.syncTaken o) := by
  have hstep : ∀ u : State, Heard u (if !u.start.ready && farOffset o then u.stepBy o else u) := fun u => .ite (.stepBy u o) (.refl u)
  have htrack : Heard s ((if !s.start.ready && farOffset o then s.stepBy o else s).syncTracked o) :=
    (hstep s).trans (State.syncTracked_heard ..)
  unfold State.syncTaken
  cases s.pyl.st with
  | free => exact .ite (.refl s) ((Heard.stepBy s o).trans (.pylTo _ _ _ nofun))
  | holdover =>
    dsimp only
    have hnear : Heard s { s with pyl := { s.pyl with nearSyncs := min (if farOffset o then 0 else s.pyl.nearSyncs + 1) 16 } } :=
      .pylOf s _ rfl
    have hrun := hnear.trans (hstep _)
    exact .ite (hrun.trans (.pylTo _ _ _ nofun)) hrun
  | acquire => exact htrack
  | locked => exact htrack
  | grandmaster => exact htrack

/-- The clock's state after a taken Sync message. -/
theorem State.syncTaken_st (s : State) (o : Int) :
    (s.pyl.st = .free → (s.syncTaken o).pyl.st = if s.start.ready then .free else .acquire) ∧
    (s.pyl.st = .acquire → absI o ≤ 100 → 15 ≤ s.pyl.goodSyncs → (s.syncTaken o).pyl.st = .locked) ∧
    (s.start.ready = true → s.pyl.st = .locked → farOffset o = true → s.pyl.farSyncs = 3 →
      (s.syncTaken o).pyl.st = .holdover ∧ (s.syncTaken o).pyl.ofsFault = true) := by
  refine ⟨fun hfree => ?_, fun hacq hsmall hgood => ?_, fun hready hlock hfar hthird => ?_⟩
  · have htaken : s.syncTaken o = if s.start.ready then s else (s.stepBy o).pylTo .acquire 1 := by
      unfold State.syncTaken
      rw [hfree]
    rw [htaken]
    split
    · exact hfree
    · exact State.pylTo_st ..
  · have hnear : farOffset o = false := decide_eq_false (by omega)
    have htaken : s.syncTaken o = s.syncTracked o := by
      unfold State.syncTaken
      rw [hacq]
      simp [hnear]
    rw [htaken]
    unfold State.syncTracked
    simp only [hnear, Bool.and_false, Bool.false_eq_true, if_false, if_pos hsmall]
    rw [if_neg (by decide : ¬ (0 = 4)), if_pos ⟨hacq, by omega⟩]
    exact State.pylTo_st ..
  · have htaken : s.syncTaken o = s.syncTracked o := by
      unfold State.syncTaken
      rw [hlock]
      simp [hready]
    rw [htaken]
    unfold State.syncTracked
    simp only [hready, hfar, Bool.and_true, if_true, hthird]
    refine ⟨State.pylTo_st .., ?_⟩
    simp [State.pylTo]

/-- A Sync message of the domain is taken (R297, R301). -/
theorem execSyncMessage_taken (m : SyncIn) (ofs : Nat) (s : State) (hdom : m.domain.toNat = fld (s.reg 0x1104) 0 7)
    (hst : s.pyl.st ≠ .grandmaster) (habut : s.start.abut = false) :
    let hold := decide (s.pyl.st = .holdover) || (s.pyl.lineValid && decide (s.pyl.st = .locked))
    let o := m.offset - s.pyl.pathDelay
    execSyncMessage m ofs s = .next (State.syncTaken { s.at ofs with pyl := { s.pyl with
      offset := sat32 o, gmId := m.gm.toNat, lastSync := (s.at ofs).tk.now,
      freqAdj := if hold then s.pyl.freqAdj else clampI m.adj (-50000) 50000 } } o) := by
  intro hold o
  refine (if_neg ?_).trans ?_
  · rintro (h | h | h)
    · exact h hdom
    · exact hst h
    · exact absurd (habut.symm.trans h) (by decide)
  · unfold State.syncTaken
    change (match s.pyl.st with | .free => _ | .holdover => _ | _ => _) = Host.Outcome.next (match s.pyl.st with | .free => _ | .holdover => _ | _ => _)
    cases s.pyl.st with
    | free => rfl
    | acquire => rfl
    | locked => rfl
    | holdover => rfl
    | grandmaster => rfl

/-- A change of the clock's state: what it sets, and what it reports (Table 13-2). -/
theorem State.pylTo_spec (s : State) (st : PylSt) (cause : Nat) :
    (s.pylTo st cause).pyl = { s.pyl with
      st := st, goodSyncs := 0, nearSyncs := 0, farSyncs := 0,
      gmId := if st = PylSt.grandmaster then Config.clockIdentity.toNat else s.pyl.gmId,
      holdCount := if st = PylSt.holdover then satInc s.pyl.holdCount max32 else s.pyl.holdCount } ∧
    s.reports (s.pylTo st cause) 73 s.deckAddr cause st.code s.pyl.offset ∧ (s.pylTo st cause).bar = s.bar ∧
    (s.pylTo st cause).cur = s.cur ∧ (s.pylTo st cause).stage = s.stage ∧ (s.pylTo st cause).legs = s.legs ∧
    (s.pylTo st cause).tk = s.tk := by
  unfold State.pylTo
  exact ⟨State.pyl_raise .., State.raise_reports _ _ _ _ _ _ (by decide), State.bar_raise .., State.cur_raise .., State.stage_raise ..,
    State.legs_raise .., State.tk_raise ..⟩

/-- Stepping the count of a deck that takes over the calendar's time keeps the rest (R298). -/
theorem State.stepless_setCount (s : State) : s.setCount.stepless = s.stepless := s.stepless_stepCount _

/-- Settles O50 (R297 to R301). -/
theorem syncAndGrandmaster : Obligations.SyncAndGrandmaster := by
  refine ⟨fun m ofs s => ?_, fun ofs s => ?_, fun m ofs s => ?_, fun t1 t2 t3 t4 s => rfl, fun ofs s => ?_⟩
  · intro mine o steered
    refine ⟨fun hnot => if_pos ?_, fun ⟨hdom, hst, habut⟩ => ?_⟩
    · by_contra hyes
      obtain ⟨hdom, hst, habut⟩ := not_or.mp hyes |>.imp_right not_or.mp
      exact hnot ⟨not_not.mp hdom, hst, Bool.eq_false_of_not_eq_true habut⟩
    · have hexec := execSyncMessage_taken m ofs s hdom hst habut
      let hold := decide (s.pyl.st = .holdover) || (s.pyl.lineValid && decide (s.pyl.st = .locked))
      let a : State := { s.at ofs with pyl := { s.pyl with
        offset := sat32 o, gmId := m.gm.toNat, lastSync := (s.at ofs).tk.now,
        freqAdj := if hold then s.pyl.freqAdj else clampI m.adj (-50000) 50000 } }
      have hhold : hold = true ↔ s.pyl.st = .holdover ∨ steered := by simp [hold, steered]
      obtain ⟨hbar, hcur, hstage, hkst, hheard⟩ := a.syncTaken_heard o
      obtain ⟨hfree, hacq, hlock⟩ := a.syncTaken_st o
      obtain ⟨hoffset, hgm, hadj⟩ := Prod.ext_iff.mp hheard |>.imp_right Prod.ext_iff.mp
      refine ⟨_, hexec, hgm, hoffset, fun hne hns => hadj.trans (if_neg ?_), fun hor => hadj.trans (if_pos (hhold.mpr hor)),
        hfree, hacq, hlock, hbar, hcur, hstage, hkst⟩
      exact fun h => (hhold.mp h).elim hne hns
  · intro due
    refine ⟨fun hst hdue => ?_, fun hnot => if_neg fun ⟨hst, hdue⟩ => ?_⟩
    · let a : State := { s.at ofs with pyl := { s.pyl with syncLost := true, mayRejoin := true } }
      obtain ⟨hpyl, hrep, hbar, hcur, -, hlegs, -⟩ := a.pylTo_spec .holdover 3
      refine ⟨a.pylTo .holdover 3, if_pos ⟨hst, hdue⟩, ?_, ?_, ?_, ?_, hrep, hbar, hlegs, hcur⟩
      all_goals rw [hpyl]
      all_goals rfl
    · rcases hnot with ⟨hlock, hacq⟩ | h
      · exact hst.elim hlock hacq
      · exact h hdue
  · intro mine yields toState
    let u := s.at ofs
    have hpass : mine → ¬ (m.domain.toNat ≠ fld (s.reg 0x1104) 0 7 ∨ ¬ bitOf (s.reg 0x1100) 7 = true ∨ s.start.abut = true) := by
      rintro ⟨hdom, hon, habut⟩ (h | h | h)
      · exact h hdom
      · exact h hon
      · exact absurd (habut.symm.trans h) (by decide)
    have hyield : (!bitOf (s.reg 0x1100) 8 || s.announceBetter m) = true ↔ yields := by simp [yields]
    refine ⟨fun hmine hy hst => ?_, fun hmine hy hst => ?_, fun hmine hn hst => ?_, fun hnot => ?_⟩
    · let a : State := { u with pyl := { u.pyl with gmId := m.id.toNat, mayRejoin := true } }
      have hexec : exec (.announceMessage m ofs) s = .next (a.pylTo .holdover 7) :=
        (if_neg (hpass hmine)).trans ((if_pos (hyield.mpr hy)).trans (congrArg _ (if_pos hst)))
      obtain ⟨hpyl, hrep, hbar, hcur, hstage, hlegs, htk⟩ := a.pylTo_spec .holdover 7
      refine ⟨_, hexec, ?_, ?_, hrep, hbar, hcur, hstage, fun _ => ⟨hlegs, htk⟩⟩
      · rw [hpyl]
      · rw [hpyl]
        rfl
    · exact (if_neg (hpass hmine)).trans ((if_pos (hyield.mpr hy)).trans (congrArg _ (if_neg hst)))
    · let a := if u.start.first && u.start.ticking && !u.start.ready then u.setCount else u
      have hexec : exec (.announceMessage m ofs) s = .next (a.pylTo .grandmaster 6) :=
        (if_neg (hpass hmine)).trans ((if_neg (mt hyield.mp hn)).trans (congrArg _ (if_pos hst)))
      have ha : a.stepless = u.stepless := by
        simp only [a]
        split
        · exact u.stepless_setCount
        · rfl
      obtain ⟨hpyl, hrep, hbar, hcur, hstage, hlegs, htk⟩ := a.pylTo_spec .grandmaster 6
      have hcwy : a.cwy = u.cwy := eq_of_view _ ha State.cwy fun _ => rfl
      have haddr : a.deckAddr = u.deckAddr := eq_of_view _ ha State.deckAddr fun _ => rfl
      have hoffset : a.pyl.offset = u.pyl.offset := eq_of_view _ ha (fun t => t.pyl.offset) fun _ => rfl
      refine ⟨_, hexec, ?_, ?_, ?_, hbar.trans (eq_of_view _ ha State.bar fun _ => rfl), hcur.trans (eq_of_view _ ha State.cur fun _ => rfl),
        hstage.trans (eq_of_view _ ha State.stage fun _ => rfl), fun hlate => ?_⟩
      · rw [hpyl]
      · rw [hpyl]
        rfl
      · rw [haddr, hoffset] at hrep
        unfold State.reports at hrep ⊢
        rw [hcwy] at hrep
        exact hrep
      · have hau : a = u := if_neg (by
          change ¬ (s.start.first && s.start.ticking && !s.start.ready) = true
          rcases hlate with h | h
          · simp [h]
          · simp [h])
        exact ⟨hlegs.trans ((congrArg State.legs hau).trans rfl), htk.trans (congrArg State.tk hau)⟩
    · by_cases hmine : mine
      · obtain ⟨hn, hst⟩ := hnot.resolve_left (not_not_intro hmine)
        exact (if_neg (hpass hmine)).trans ((if_neg (mt hyield.mp hn)).trans (congrArg _ (if_neg hst)))
      · refine if_pos ?_
        by_contra hyes
        obtain ⟨hdom, hon, habut⟩ := not_or.mp hyes |>.imp_right not_or.mp
        exact hmine ⟨not_not.mp hdom, not_not.mp hon, Bool.eq_false_of_not_eq_true habut⟩
  · intro now due ann
    refine ⟨fun hst => ?_, fun hst => if_neg hst⟩
    let duo := decide (s.pyl.syncSent = 0) || decide (s.pyl.syncAt + s.syncInterval ≤ now)
    let ano := decide (s.pyl.annSent = 0) || decide (s.pyl.annAt + 1000000000 * uNs ≤ now)
    have hdue : duo = true ↔ due := by simp [duo, due]
    have hann : ano = true ↔ ann := by simp [ano, ann]
    have hexec : exec (.grandmasterSyncSend ofs) s = .next { s.at ofs with pyl := { s.pyl with
        syncSent := if duo then s.pyl.syncSent + 1 else s.pyl.syncSent, syncAt := if duo then now else s.pyl.syncAt,
        annSent := if ano then s.pyl.annSent + 1 else s.pyl.annSent, annAt := if ano then now else s.pyl.annAt } } := if_pos hst
    exact ⟨_, hexec, fun h => ⟨if_pos (hdue.mpr h), if_pos (hdue.mpr h)⟩, fun h => ⟨if_neg (mt hdue.mp h), if_neg (mt hdue.mp h)⟩,
      fun h => ⟨if_pos (hann.mpr h), if_pos (hann.mpr h)⟩, fun h => ⟨if_neg (mt hann.mp h), if_neg (mt hann.mp h)⟩, rfl, rfl, rfl, rfl, rfl⟩

end Sys2Proof.Machine
end

section
/-! PROOFS. The launch line, the census banks and the calendar (R302, R303, R316 to R318, R320, R321). -/
namespace Sys2Proof.Machine

/-! ### The launch line -/

/-- A state but for the line's own marks, the events and the recorder. -/
def State.lineless (s : State) : State :=
  { s with cwy := State.reset.cwy, mrm := State.reset.mrm,
           pyl := { s.pyl with lineValid := false, lineOnce := false, lineLost := false, lineDisagree := false, goodMarks := 0,
                               disMarks := 0, badMarks := 0, freqAdj := 0 } }

theorem State.lineless_raise (s : State) (code addr cause val val2) : (s.raise code addr cause val val2).lineless = s.lineless := by
  obtain ⟨m, pq, pqMax, evs, h⟩ := s.raise_eq code addr cause val val2
  rw [h]
  rfl

/-- A line that becomes invalid (R303). -/
theorem State.lineInvalid_spec (s : State) (cause : Nat) :
    (s.lineInvalid cause).pyl = { s.pyl with
      lineValid := false, lineLost := true, lineDisagree := s.pyl.lineDisagree || decide (cause = 2), goodMarks := 0,
      disMarks := 0 } ∧
    (s.lineInvalid cause).lineless = s.lineless ∧ s.reports (s.lineInvalid cause) 74 s.deckAddr cause 0 0 := by
  unfold State.lineInvalid
  exact ⟨State.pyl_raise .., State.lineless_raise .., State.raise_reports _ _ _ _ _ _ (by decide)⟩

/-- A marker that fails to come or lies outside the window (R303). -/
theorem State.markBad_spec (s : State) (err : Option Int) :
    (s.markBad err).lineless = s.lineless ∧ (s.markBad err).pyl.badMarks = min (s.pyl.badMarks + 1) 3 ∧
    (s.markBad err).pyl.goodMarks = 0 ∧ (s.markBad err).pyl.freqAdj = s.pyl.freqAdj ∧
    (2 ≤ s.pyl.badMarks → (s.markBad err).pyl.lineValid = false ∧
      (s.pyl.lineValid = true → s.reports (s.markBad err) 74 s.deckAddr 1 0 0)) := by
  unfold State.markBad
  extract_lets bad dis p a
  have ha : a.pyl = { s.pyl with badMarks := bad, goodMarks := 0, disMarks := dis } := rfl
  have hless : a.lineless = s.lineless := rfl
  have hcwy : a.cwy = s.cwy := rfl
  have haddr : a.deckAddr = s.deckAddr := rfl
  clear_value a
  obtain ⟨hpyl, hline, hrep⟩ := a.lineInvalid_spec 1
  obtain ⟨hpyl2, hline2, -⟩ := a.lineInvalid_spec 2
  rw [ha] at hpyl hpyl2
  have hthird : 2 ≤ s.pyl.badMarks → bad = 3 := fun h => by
    simp only [bad]
    omega
  by_cases hvalid : a.pyl.lineValid = true
  · rw [if_pos hvalid]
    by_cases hbad : bad = 3
    · rw [if_pos hbad, hpyl]
      refine ⟨hline.trans hless, rfl, rfl, rfl, fun _ => ⟨rfl, fun _ => ?_⟩⟩
      rw [haddr] at hrep
      unfold State.reports at hrep ⊢
      rw [hcwy] at hrep
      exact hrep
    · rw [if_neg hbad]
      by_cases hdis : dis = 3
      · rw [if_pos hdis, hpyl2]
        exact ⟨hline2.trans hless, rfl, rfl, rfl, fun h => absurd (hthird h) hbad⟩
      · rw [if_neg hdis, ha]
        exact ⟨hless, rfl, rfl, rfl, fun h => absurd (hthird h) hbad⟩
  · rw [if_neg hvalid]
    rw [ha] at hvalid ⊢
    exact ⟨hless, rfl, rfl, rfl, fun _ => ⟨Bool.eq_false_of_not_eq_true hvalid, fun h => absurd h hvalid⟩⟩

/-- A marker within the window (R303). -/
theorem State.markGood_spec (s : State) (err : Int) :
    (s.markGood err).lineless = s.lineless ∧ (s.markGood err).pyl.badMarks = 0 ∧
    (s.pyl.lineValid = false ∨ s.pyl.st ≠ .locked → (s.markGood err).pyl.freqAdj = s.pyl.freqAdj) ∧
    (s.pyl.lineValid = false → 15 ≤ s.pyl.goodMarks → (s.markGood err).pyl.lineValid = true) := by
  unfold State.markGood
  extract_lets good dis adj p a q b
  have ha : a.pyl = { s.pyl with badMarks := 0, goodMarks := good, disMarks := dis, freqAdj := adj } := rfl
  have hb : b.pyl = { a.pyl with lineValid := true, lineOnce := true } := rfl
  have hless : a.lineless = s.lineless := rfl
  have hless2 : b.lineless = a.lineless := rfl
  clear_value b a
  obtain ⟨hpyl, hline, -⟩ := a.lineInvalid_spec 2
  rw [ha] at hpyl hb
  have hkept : s.pyl.lineValid = false ∨ s.pyl.st ≠ .locked → adj = s.pyl.freqAdj := fun h => if_neg fun ⟨hv, hl⟩ =>
    h.elim (fun h => absurd (hv.symm.trans h) (by decide)) fun h => h hl
  by_cases hvalid : a.pyl.lineValid = true
  · have hvalid' : s.pyl.lineValid ≠ false := by
      rw [ha] at hvalid
      exact ne_false_of_eq_true hvalid
    rw [if_pos hvalid]
    split
    · rw [hpyl]
      exact ⟨hline.trans hless, rfl, hkept, fun h => absurd h hvalid'⟩
    · rw [ha]
      exact ⟨hless, rfl, hkept, fun h => absurd h hvalid'⟩
  · rw [if_neg hvalid]
    by_cases hgood : good = 16
    · rw [if_pos hgood]
      have hvalidated : ∀ c : State, c.lineless = b.lineless → c.pyl = b.pyl → c.lineless = s.lineless ∧ c.pyl.badMarks = 0 ∧
          (s.pyl.lineValid = false ∨ s.pyl.st ≠ .locked → c.pyl.freqAdj = s.pyl.freqAdj) ∧
          (s.pyl.lineValid = false → 15 ≤ s.pyl.goodMarks → c.pyl.lineValid = true) := by
        intro c hc hcpyl
        rw [hcpyl, hb]
        exact ⟨hc.trans (hless2.trans hless), rfl, hkept, fun _ _ => rfl⟩
      split
      · exact hvalidated _ (State.lineless_raise ..) (State.pyl_raise ..)
      · exact hvalidated b rfl rfl
    · rw [if_neg hgood, ha]
      exact ⟨hless, rfl, hkept, fun _ h => absurd (by simp only [good]; omega) hgood⟩

/-- Settles O51 (R302, R303). -/
theorem launchLine : Obligations.LaunchLine := by
  refine ⟨fun s => ?_, fun steps ofs s => ?_⟩
  · intro at0
    refine ⟨fun hdrive hper hlands => (if_pos ⟨hdrive, hper⟩).trans (if_pos hlands), fun hnone => ?_⟩
    by_cases hdrive : s.lineDriving = true ∧ s.linePer ≠ 0
    · refine (if_pos hdrive).trans (if_neg ?_)
      rcases hnone with h | h | h
      · exact absurd (hdrive.1.symm.trans h) (by decide)
      · exact absurd h hdrive.2
      · exact Nat.not_lt.mpr h
    · exact if_neg hdrive
  · intro bad at0 off
    let u := s.at (steps * uStep)
    let a : State := { u with pyl := { u.pyl with lineErr := off / uStep } }
    have hmark : ∀ h : s.lineReceives = true ∧ (s.linePer : Int) ≠ 0, exec (.launchMarker steps) s =
        .next (if absI off ≤ 1000 * (uNs : Int) then a.markGood (off / uStep) else a.markBad (some (off / uStep))) := fun h => if_pos h
    have hbad : ∀ (c : Instr) (v w : State) (e : Option Int), exec c s = .next (w.markBad e) → w.cwy = v.cwy → w.deckAddr = s.deckAddr →
        w.pyl.badMarks = s.pyl.badMarks → w.pyl.freqAdj = s.pyl.freqAdj → w.pyl.lineValid = s.pyl.lineValid →
        w.bar = s.bar → w.legs = s.legs → w.cur = s.cur → bad c v := by
      intro c v w e hexec hcwy haddr hmarks hadj hvalid hbar hlegs hcur
      obtain ⟨hless, hcount, hgood, hfreq, hthird⟩ := w.markBad_spec e
      rw [hmarks] at hcount hthird
      refine ⟨_, hexec, hcount, hgood, hfreq.trans hadj, fun h => ?_, (eq_of_view _ hless State.bar fun _ => rfl).trans hbar,
        (eq_of_view _ hless State.legs fun _ => rfl).trans hlegs, (eq_of_view _ hless State.cur fun _ => rfl).trans hcur⟩
      obtain ⟨hinvalid, hrep⟩ := hthird h
      refine ⟨hinvalid, fun hwas => ?_⟩
      have hrep := hrep (hvalid.trans hwas)
      rw [haddr] at hrep
      unfold State.reports at hrep ⊢
      rw [hcwy] at hrep
      exact hrep
    refine ⟨fun hrec hper hnear => ?_, fun hrec hper hfar => ?_, fun hrec => ?_, fun hoff => ⟨?_, ?_⟩, fun hper => ?_⟩
    · obtain ⟨hless, hmarks, hadj, hvalid⟩ := a.markGood_spec (off / uStep)
      exact ⟨_, (hmark ⟨hrec, by exact_mod_cast hper⟩).trans (congrArg _ (if_pos hnear)), hmarks,
        eq_of_view _ hless (fun t => t.pyl.lineErr) fun _ => rfl, hadj, hvalid, eq_of_view _ hless State.bar fun _ => rfl,
        eq_of_view _ hless State.legs fun _ => rfl, eq_of_view _ hless State.cur fun _ => rfl⟩
    · exact hbad _ u a _ ((hmark ⟨hrec, by exact_mod_cast hper⟩).trans (congrArg _ (if_neg (not_le.mpr hfar)))) rfl rfl rfl rfl rfl rfl rfl rfl
    · exact hbad _ (s.at ofs) (s.at ofs) none (congrArg _ (if_pos hrec)) rfl rfl rfl rfl rfl rfl rfl rfl
    · exact if_neg fun h => absurd (h.1.symm.trans hoff) (by decide)
    · exact congrArg _ (if_neg (ne_true_of_eq_false hoff))
    · exact if_neg fun h => h.2 (by exact_mod_cast hper)

/-! ### Census and calendar -/

theorem PylS.bank_putBank_same (p : PylS) (k : Nat) (b : CensusBank) : (p.putBank k b).bank k = b := by
  unfold PylS.bank PylS.putBank
  by_cases h : k = 0
  · rw [if_pos h, if_pos h]
  · rw [if_neg h, if_neg h]

/-- A change of one bank leaves the other. -/
theorem PylS.bank_putBank_other (p : PylS) (k j : Nat) (b : CensusBank) (h : k = 0 ↔ j ≠ 0) : (p.putBank k b).bank j = p.bank j := by
  unfold PylS.bank PylS.putBank
  by_cases hk : k = 0
  · rw [if_pos hk, if_neg (h.mp hk), if_neg (h.mp hk)]
  · rw [if_neg hk]
    have hj : j = 0 := not_not.mp (mt h.mpr hk)
    rw [if_pos hj, if_pos hj]

/-- A bank that a release names and that is ready is released (R318). -/
def PylS.releaseBank (p : PylS) (k i : Nat) : PylS :=
  if k.testBit i ∧ (p.bank i).st = 2 then p.putBank i { p.bank i with st := 0 } else p

theorem PylS.releaseBank_spec (p : PylS) (k i : Nat) :
    (p.releaseBank k i).bank i = (if k.testBit i ∧ (p.bank i).st = 2 then { p.bank i with st := 0 } else p.bank i) ∧
    (∀ j, (i = 0 ↔ j ≠ 0) → (p.releaseBank k i).bank j = p.bank j) ∧ (p.releaseBank k i).bankNext = p.bankNext := by
  unfold PylS.releaseBank
  split
  · refine ⟨PylS.bank_putBank_same .., fun j h => PylS.bank_putBank_other _ _ _ _ h, ?_⟩
    unfold PylS.putBank
    split <;> rfl
  · exact ⟨rfl, fun _ _ => rfl, rfl⟩

/-- Settles O52 (R316 to R318, R320, R321). -/
theorem censusAndCalendar : Obligations.CensusAndCalendar := by
  refine ⟨fun ofs s => ?_, fun k s => ?_, fun ofs s => ?_, fun trim ofs s => ?_, fun ofs s => ?_⟩
  · intro k b
    refine ⟨fun hst => ?_, fun hst => if_neg hst⟩
    let u := s.at ofs
    let a : State := { u with pyl := { (s.pyl.putBank k { b with st := 2 }) with bankNext := 1 - k } }
    have hpyl : (a.raise 78 s.deckAddr 0 k ((b.id + 2 ^ 32 * b.inst : Nat) : Int)).pyl = a.pyl := State.pyl_raise ..
    have hexec : exec (.censusReady ofs) s = .next (a.raise 78 s.deckAddr 0 k ((b.id + 2 ^ 32 * b.inst : Nat) : Int)) := if_pos hst
    have hbank : ∀ j, a.pyl.bank j = (s.pyl.putBank k { b with st := 2 }).bank j := fun _ => rfl
    refine ⟨_, hexec, ?_, ?_, ?_, a.raise_reports _ _ _ _ _ (by decide), State.bar_raise .., State.legs_raise .., State.cur_raise ..⟩
    · rw [hpyl, hbank, PylS.bank_putBank_same]
    · rw [hpyl]
    · rw [hpyl, hbank]
      exact PylS.bank_putBank_other _ _ _ _ (by omega)
  · refine ⟨fun habut => ?_, fun habut => if_pos habut⟩
    have hexec : exec (.censusRelease k) s = .next { s with pyl := (s.pyl.releaseBank k.val 0).releaseBank k.val 1 } :=
      if_neg (ne_true_of_eq_false habut)
    obtain ⟨hself0, hother0, hnext0⟩ := s.pyl.releaseBank_spec k.val 0
    obtain ⟨hself1, hother1, hnext1⟩ := (s.pyl.releaseBank k.val 0).releaseBank_spec k.val 1
    refine ⟨_, hexec, fun i => ?_, hnext1.trans hnext0, rfl, rfl, rfl, rfl⟩
    have hone := hother0 1 (by decide)
    match i with
    | 0 => exact (hother1 0 (by decide)).trans hself0
    | 1 =>
      rw [hone] at hself1
      exact hself1
  · intro u
    have hrun : exec (.leapSecondInsert ofs) s = execLeapSecondInsert ofs s := rfl
    unfold execLeapSecondInsert at hrun
    refine ⟨fun k hleap hdue hnew => ?_, fun hnone => ?_⟩
    · let a : State := { u with cal := { u.cal with leapDone := true } }
      have hleap' : u.cal.leapSec = some k := hleap
      have hexec : exec (.leapSecondInsert ofs) s = .next (a.raise 79 s.deckAddr 2 0 0) := by
        rw [hrun]
        extract_lets v
        split
        case h_1 j hj =>
          obtain rfl := Option.some.inj (hleap'.symm.trans hj)
          exact if_pos ⟨hdue, ne_true_of_eq_false hnew⟩
        case h_2 hj => exact absurd (hleap'.symm.trans hj) (by simp)
      exact ⟨_, hexec, State.cal_raise .., a.raise_reports _ _ _ _ _ (by decide), State.bar_raise .., State.legs_raise ..,
        State.cur_raise .., State.pyl_raise ..⟩
    · rw [hrun]
      extract_lets v
      split
      case h_1 k hleap =>
        refine if_neg fun ⟨hdue, hnew⟩ => ?_
        have hleap' : s.cal.leapSec = some k := hleap
        rcases hnone with h | h | ⟨j, hj, hlt⟩
        · exact absurd (hleap'.symm.trans h) (by simp)
        · exact hnew h
        · obtain rfl := Option.some.inj (hj.symm.trans hleap')
          exact absurd hdue (Nat.not_le.mpr hlt)
      case h_2 => rfl
  · intro now
    refine ⟨fun hst hready hdue => if_pos ⟨hst, hready, hdue⟩, fun hnone => if_neg fun ⟨hst, hready, hdue⟩ => ?_⟩
    rcases hnone with h | h | h
    · exact h hst
    · exact absurd (hready.symm.trans h) (by decide)
    · exact absurd hdue (Nat.not_le.mpr h)
  · refine ⟨fun hnew => ?_, fun hlow => if_pos hlow⟩
    let a : State := { s.at ofs with cal := { s.cal with vbakLow := true } }
    exact ⟨a.raise 79 s.deckAddr 3 0 0, if_neg (ne_true_of_eq_false hnew), State.cal_raise .., a.raise_reports _ _ _ _ _ (by decide),
      State.bar_raise .., State.legs_raise .., State.cur_raise .., State.pyl_raise ..⟩

end Sys2Proof.Machine
end

section
/-! PROOFS. The Causeway's own events (R323 to R325, R337, R346). -/
namespace Sys2Proof.Machine

/-! ### Protection events -/

/-- A state but for the vectors and the reserve's mark. -/
def State.unsignalled (s : State) : State :=
  { s with cwy := { s.cwy with vectors := [], pba := [], evtRsv := false } }

theorem State.unsignalled_signal (s : State) (v : Nat) : (s.signal v).unsignalled = s.unsignalled := by
  obtain ⟨w, b, h⟩ := s.signal_eq v
  rw [h]
  rfl

theorem State.unsignalled_judgeRsv (s : State) : s.judgeRsv.unsignalled = s.unsignalled := by
  unfold State.judgeRsv
  extract_lets rsv _ t
  have ht : t.unsignalled = s.unsignalled := rfl
  split
  · exact (t.unsignalled_signal 6).trans ht
  · exact ht

/-- Writing the head of the protection queue (R337). -/
theorem execProtectionEventWrite_spec (s : State) (e : Event) (rest : List Event) (h : s.cwy.pq = e :: rest) :
    (1 ≤ s.evtFree → ∃ t, execProtectionEventWrite s = .next t ∧ t.unsignalled = State.unsignalled { s with cwy := { s.cwy with
      pq := rest, evtProd := idxNext s.cwy.evtProd,
      evtRing := Store.put (fun _ => none) s.cwy.evtRing (s.cwy.evtProd % s.evtEntries)
        (some { e with queued := decide (s.tickOf (e.pylon * uNs) ≠ s.tk.count) }) } }) ∧
    (s.evtFree = 0 → execProtectionEventWrite s = .next s.judgeRsv) := by
  unfold execProtectionEventWrite
  rw [h]
  refine ⟨fun hfree => ⟨_, if_pos hfree, ?_⟩, fun hfull => if_neg (by omega)⟩
  exact (State.unsignalled_judgeRsv _).trans (State.unsignalled_signal ..)

/-! ### The PCIe link -/

/-- The link's change reports E069 with its cause, and marks the fall-back path. -/
theorem State.linkTo_spec (s : State) (up : Bool) (speed width : Nat) :
    (s.linkTo up speed width).cwy.linkUp = up ∧ s.reports (s.linkTo up speed width) 69 s.deckAddr (b2n up) speed width ∧
    (s.linkTo up speed width).bar = s.bar ∧ (s.linkTo up speed width).legs = s.legs ∧ (s.linkTo up speed width).cur = s.cur ∧
    (s.linkTo up speed width).stage = s.stage ∧ (s.linkTo up speed width).kst = s.kst ∧ (s.linkTo up speed width).start = s.start := by
  let a : State := { s with cwy := { s.cwy with linkUp := up } }
  exact ⟨(a.raise_link 69 s.deckAddr (b2n up) speed width).1, a.raise_reports _ _ _ _ _ (by decide), State.bar_raise .., State.legs_raise ..,
    State.cur_raise .., State.stage_raise .., State.kst_raise .., State.start_raise ..⟩

/-- Registers set one after another to their reset values (R324). -/
def State.resetRegs (s : State) (offs : List Nat) : State := offs.foldl (fun t o => t.setReg o (barReset o)) s

theorem State.resetRegs_eq (offs : List Nat) (s : State) : ∃ b, s.resetRegs offs = { s with bar := b } := by
  induction offs generalizing s with
  | nil => exact ⟨s.bar, rfl⟩
  | cons o offs ih =>
    obtain ⟨b, h⟩ := ih (s.setReg o (barReset o))
    exact ⟨b, h⟩

/-- The registers named hold their reset values, and the others keep theirs. -/
theorem State.reg_resetRegs (offs : List Nat) (s : State) (h : Store.wf barReset s.bar = true) (o : Nat) :
    (s.resetRegs offs).reg o = if o ∈ offs then barReset o else s.reg o := by
  induction offs generalizing s with
  | nil => rfl
  | cons a offs ih =>
    refine (ih (s.setReg a (barReset a)) (Store.put_wf h)).trans ?_
    by_cases hmem : o ∈ offs
    · simp [hmem]
    · rw [if_neg hmem]
      by_cases hoa : o = a
      · rw [hoa, if_pos List.mem_cons_self]
        exact State.reg_setReg_same _ _ _ h
      · rw [if_neg (by simp [hoa, hmem])]
        exact State.reg_setReg_ne _ _ _ _ h hoa

/-- The vector table's offsets (R324). -/
def vectorTable : List Nat := (List.range 32).map (fun k => 0x3000 + 4 * k)

theorem mem_vectorTable (o : Nat) : o ∈ vectorTable ↔ ∃ k < 32, 0x3000 + 4 * k = o := by
  simp [vectorTable]

/-- A hot reset, by its parts (R324). -/
theorem execPciePerst_eq (ofs : Nat) (s : State) :
    let u := s.at ofs
    let a := if u.cwy.linkUp then u.linkTo false 0 0 else u
    execPciePerst ofs s = .next { a.resetRegs vectorTable with cwy := { (a.resetRegs vectorTable).cwy with pba := [] } } := by
  intro u a
  unfold State.resetRegs vectorTable
  rw [List.foldl_map]
  rfl

/-! ### The fall-back frames and EN -/

/-- A refused fall-back frame is answered, and nothing else of the deck moves but the ports (R346). -/
theorem State.fbRefuse_ported (s : State) (op status counter : Nat) : Ported (fun _ _ => ()) s (s.fbRefuse op status counter) := by
  unfold State.fbRefuse State.fbReply
  exact ((Ported.free s _).trans (State.fillObj_ported (fun _ _ _ _ _ => rfl) ..)).trans (.raise ..)

/-- A fall-back frame that passes its checks is staged (R346). -/
theorem execFallbackFrame_passes (s : State) (f : FbFrame) (rest : List FbFrame) (hin : s.fp.fbIn = f :: rest)
    (hdue : f.due ≤ s.tk.count) (hon : s.fbOn = true) (hline : s.kst.faultLine = false) (hready : s.start.ready = true)
    (hfd : f.fd = true) (hform : fbFormOk f.data = true) (hfresh : fbFresh s.cwy.fbCounter (fbNat f.data 2 2) = true) :
    ∃ p, execFallbackFrame s = .next { s with
      fp := { s.fp with fbIn := rest }
      cwy := { s.cwy with
        fbCounter := some (fbNat f.data 2 2), fbStaged := s.cwy.fbStaged ++ [(f.data.map BitVec.toNat, s.tk.count + 2)], profile := p } } := by
  have hon' : State.fbOn { s with fp := { s.fp with fbIn := rest } } = true := hon
  unfold execFallbackFrame
  rw [hin]
  dsimp only
  rw [if_neg (Nat.not_lt.mpr hdue), if_neg (by simp [hon', hline, hready]), if_neg (by simp [hfd, hform]), if_neg (by simp [hfresh])]
  exact ⟨_, rfl⟩

/-- A fall-back frame that fails a check is answered with its status (R346). -/
theorem execFallbackFrame_fails (s : State) (f : FbFrame) (rest : List FbFrame) (hin : s.fp.fbIn = f :: rest)
    (hdue : f.due ≤ s.tk.count)
    (hfail : ¬ (s.fbOn = true ∧ s.kst.faultLine = false ∧ s.start.ready = true ∧ f.fd = true ∧
      fbFormOk f.data = true ∧ fbFresh s.cwy.fbCounter (fbNat f.data 2 2) = true)) :
    ∃ status, execFallbackFrame s =
      .next (State.fbRefuse { s with fp := { s.fp with fbIn := rest } } (fbNat f.data 0 1) status (fbNat f.data 2 2)) := by
  have hon : State.fbOn { s with fp := { s.fp with fbIn := rest } } = s.fbOn := rfl
  unfold execFallbackFrame
  rw [hin]
  dsimp only
  rw [if_neg (Nat.not_lt.mpr hdue), hon]
  split
  · exact ⟨1, rfl⟩
  · split
    · exact ⟨2, rfl⟩
    · split
      · exact ⟨3, rfl⟩
      · rename_i h1 h2 h3
        simp only [Bool.or_eq_true, Bool.not_eq_true', not_or, Bool.not_eq_false, Bool.not_eq_true] at h1 h2 h3
        exact absurd ⟨h1.1.1, h1.1.2, h1.2, h2.1, h2.2, h3⟩ hfail

/-- EN is an LK register of the Causeway that answers in abutment mode (R325, R436). -/
theorem State.hostWrite_en (s : State) (v : Bool) :
    s.hostWrite 0x2000 (if v then 1#32 else 0#32) 0xF#4 0 =
      if (s.start.abut || !s.start.ready) = true then (s.at 0).setReg 0x2000 (if v then 1#32 else 0#32) else (s.at 0).accessViolation 0x2000 := by
  have hplace : regPlace 0x2000 = some (.cwy, 0, 0) := by decide
  have hrow : regRow 0x2000 = some ⟨0, 1, .lk, 1⟩ := by decide
  have hmask : (if v then 1#32 else 0#32) &&& wd 1 = if v then 1#32 else 0#32 := by cases v <;> decide
  unfold State.hostWrite
  rw [hplace, hrow]
  dsimp only
  rw [hmask]
  cases ha : s.start.abut with
  | true => simp [State.unlocked, State.encodingOk, cwyWordOk, Block.inAbutment, State.writeLk, ha]
  | false => simp [State.unlocked, State.encodingOk, cwyWordOk, Block.inAbutment, State.writeLk, ha]

/-- Settles O53 (R323 to R325, R337, R346). -/
theorem causewayEvents : Obligations.CausewayEvents := by
  refine ⟨fun s => ⟨fun hnone => ?_, fun e rest hpq => ?_⟩, fun up speed width ofs s => ?_, fun ofs s hok => ?_,
    fun s => ⟨fun hnone => ?_, fun f rest hin => ?_⟩, fun v s hok => ⟨fun hopen => ?_, fun habut hready => ?_⟩⟩
  · change execProtectionEventWrite s = _
    unfold execProtectionEventWrite
    rw [hnone]
  · obtain ⟨hwrite, hwait⟩ := execProtectionEventWrite_spec s e rest hpq
    refine ⟨fun hfree => ?_, fun hfull => ⟨_, hwait hfull, ?_⟩⟩
    · obtain ⟨t, hexec, ht⟩ := hwrite hfree
      exact ⟨t, hexec, eq_of_view _ ht (fun t => t.cwy.pq) fun _ => rfl, eq_of_view _ ht (fun t => t.cwy.evtProd) fun _ => rfl,
        eq_of_view _ ht (fun t => t.cwy.evtRing) fun _ => rfl, eq_of_view _ ht State.bar fun _ => rfl,
        eq_of_view _ ht State.legs fun _ => rfl, eq_of_view _ ht State.cur fun _ => rfl, eq_of_view _ ht State.stage fun _ => rfl⟩
    · have ht := s.unsignalled_judgeRsv
      exact ⟨eq_of_view _ ht (fun t => t.cwy.pq) fun _ => rfl, eq_of_view _ ht (fun t => t.cwy.evtProd) fun _ => rfl,
        eq_of_view _ ht (fun t => t.cwy.evtRing) fun _ => rfl, eq_of_view _ ht State.bar fun _ => rfl,
        eq_of_view _ ht State.legs fun _ => rfl⟩
  · intro c
    let u := s.at ofs
    refine ⟨fun hnew => ?_, fun hsame hup => ?_, fun hsame hdown => ?_⟩
    · obtain ⟨hlink, hrep, hbar, hlegs, hcur, hstage, -, -⟩ := u.linkTo_spec up speed.val width.val
      exact ⟨_, if_neg hnew, hlink, hrep, hbar, hlegs, hcur, hstage⟩
    · have hexec : exec c s = .next (u.raise 69 s.deckAddr 2 speed.val width.val) := (if_pos hsame).trans (if_pos hup)
      exact ⟨_, hexec, (u.raise_link ..).1.trans (hsame.symm.trans hup), u.raise_reports _ _ _ _ _ (by decide), State.bar_raise ..,
        State.legs_raise ..⟩
    · exact (if_pos hsame).trans (if_neg (ne_true_of_eq_false hdown))
  · have hexec := execPciePerst_eq ofs s
    let u := s.at ofs
    let a := if u.cwy.linkUp then u.linkTo false 0 0 else u
    have ha : a.cwy.linkUp = false ∧ (u.cwy.linkUp = true → u.reports a 69 s.deckAddr 0 0 0) ∧ a.bar = u.bar ∧ a.legs = u.legs ∧
        a.cur = u.cur ∧ a.stage = u.stage ∧ a.kst = u.kst ∧ a.start = u.start := by
      obtain ⟨hlink, hrep, hkept⟩ := u.linkTo_spec false 0 0
      simp only [a]
      split
      case isTrue h =>
        obtain ⟨hbar, hlegs, hcur, hstage, hkst, hstart⟩ := hkept
        exact ⟨hlink, fun _ => hrep, hbar, hlegs, hcur, hstage, hkst, hstart⟩
      case isFalse h => exact ⟨Bool.eq_false_of_not_eq_true h, fun h' => absurd h' h, rfl, rfl, rfl, rfl, rfl, rfl⟩
    obtain ⟨hlink, hrep, hbar, hlegs, hcur, hstage, hkst, hstart⟩ := ha
    have hwf : Store.wf barReset a.bar = true := by
      rw [hbar]
      exact wf_bar hok
    have hreg := fun o => a.reg_resetRegs vectorTable hwf o
    obtain ⟨b, hb⟩ := a.resetRegs_eq vectorTable
    rw [hb] at hreg
    change execPciePerst ofs s = .next { a.resetRegs vectorTable with cwy := _ } at hexec
    rw [hb] at hexec
    refine ⟨_, hexec, hlink, rfl, fun k => ?_, fun o ho => ?_, fun hup => hrep hup, hlegs, hcur, hstage, hkst, hstart⟩
    · exact (hreg _).trans (if_pos ((mem_vectorTable _).mpr ⟨k.val, k.isLt, rfl⟩))
    · refine (hreg o).trans ((if_neg fun hmem => ?_).trans ?_)
      · obtain ⟨k, hk, hko⟩ := (mem_vectorTable o).mp hmem
        omega
      · change Store.get barReset a.bar o = _
        rw [hbar]
        rfl
  · change execFallbackFrame s = _
    unfold execFallbackFrame
    rw [hnone]
  · intro k due pass
    refine ⟨fun hearly => ?_, fun hdue ⟨hon, hline, hready, hfd, hform, hfresh⟩ => ?_, fun hdue hfail => ?_⟩
    · change execFallbackFrame s = _
      unfold execFallbackFrame
      rw [hin]
      exact if_pos (Nat.not_le.mp hearly)
    · obtain ⟨p, hexec⟩ := execFallbackFrame_passes s f rest hin hdue hon hline hready hfd hform hfresh
      exact ⟨_, hexec, rfl, rfl, rfl, rfl, rfl, rfl, rfl⟩
    · obtain ⟨status, hexec⟩ := execFallbackFrame_fails s f rest hin hdue hfail
      have hrun := State.fbRefuse_ported { s with fp := { s.fp with fbIn := rest } } (fbNat f.data 0 1) status (fbNat f.data 2 2)
      obtain ⟨-, -, hfb⟩ := hrun.ms
      exact ⟨_, hexec, hfb, hrun.fb.1, hrun.fb.2, hrun.bar, hrun.legs, hrun.cur, hrun.stage⟩
  · have hexec : exec (.causewayEnable v) s = .next ((s.at 0).setReg 0x2000 (if v then 1#32 else 0#32)) := by
      refine congrArg _ ((s.hostWrite_en v).trans (if_pos ?_))
      rcases hopen with h | h
      · simp [h]
      · simp [h]
    exact ⟨_, hexec, State.reg_setReg_same _ _ _ (wf_bar hok), fun o ho => State.reg_setReg_ne _ _ _ _ (wf_bar hok) ho, rfl, rfl, rfl, rfl⟩
  · exact congrArg _ ((s.hostWrite_en v).trans (if_neg (by simp [habut, hready])))

end Sys2Proof.Machine
end

section
/-! PROOFS. The field ports (R366 to R368, R371, R373, R375, R377, R387 to R389). -/
namespace Sys2Proof.Machine

/-! ### What ports leave alone -/

/-- What every change of ports leaves of the deck. -/
theorem Ported.frame {α : Type} {v : Nat → PortS → α} {s t : State} (h : Ported v s t) :
    t.bar = s.bar ∧ t.legs = s.legs ∧ t.cur = s.cur ∧ t.stage = s.stage ∧ t.kst = s.kst ∧ t.tk = s.tk ∧ t.start = s.start :=
  ⟨h.bar, h.legs, h.cur, h.stage, h.kst, h.tk, h.start⟩

/-- A change of ports, whatever is seen of them. -/
theorem Ported.blind {α : Type} {v : Nat → PortS → α} {s t : State} (h : Ported v s t) : Ported (fun _ _ => ()) s t :=
  ⟨h.bar, h.legs, h.cur, h.stage, h.tk, h.kst, h.start, h.ms, h.fb, h.sound, fun _ _ => rfl⟩

/-- A change of one port. -/
theorem Ported.updPort (s : State) (p : Nat) (f : PortS → PortS) : Ported (fun _ _ => ()) s (s.updPort p f) := .port s p f fun _ => rfl

/-- The counters of a port, and its last delay. -/
def PortS.counters (x : PortS) : Nat × Nat × Nat × Nat × Nat × Nat := (x.txErr, x.rxErr, x.errCount, x.txCount, x.tdc, x.rxCount)

/-- The counters are seen. -/
abbrev countersSeen : Nat → PortS → Nat × Nat × Nat × Nat × Nat × Nat := fun _ x => x.counters

theorem countersSeen_calmer : Calmer countersSeen := ⟨fun _ _ _ _ _ => rfl, fun _ _ _ _ _ _ _ => rfl⟩
theorem blind_calm : Calm (fun (_ : Nat) (_ : PortS) => ()) := fun _ _ _ _ _ => rfl

theorem State.frameDone_ported {α : Type} {v : Nat → PortS → α} (h : Calm v) (s : State) (p : Nat) : Ported v s (s.frameDone p) := by
  unfold State.frameDone
  exact (State.mapObjs_ported h ..).trans (.foldl _ (fun t e => State.updObj_ported h ..) _ _)

theorem State.withdraw_ported {α : Type} {v : Nat → PortS → α} (h : Calm v) (s : State) (p o : Nat) : Ported v s (s.withdraw p o) := by
  unfold State.withdraw
  exact .ite ((State.unqueue_ported h ..).trans (State.updObj_ported h ..)) (.refl s)

/-! ### One port -/

/-- An offer begins an attempt of its own port at most (R373). -/
theorem State.offer_spec (s : State) (p : Nat) (h : Store.wf (fun _ => PortS.init) s.fp.port = true) :
    (∃ tx, (s.offer p).port p = { s.port p with tx := tx }) ∧ (∀ q, q ≠ p → (s.offer p).port q = s.port q) ∧
    (s.offer p).cwy = s.cwy := by
  unfold State.offer
  extract_lets x
  split
  · split
    · exact ⟨⟨_, State.port_updPort_same _ _ _ h⟩, fun q hq => State.port_updPort_ne _ _ _ _ h hq, rfl⟩
    · exact ⟨⟨x.tx, rfl⟩, fun _ _ => rfl, rfl⟩
  · exact ⟨⟨x.tx, rfl⟩, fun _ _ => rfl, rfl⟩

/-- A change of the objects of a port leaves the other ports. -/
theorem State.mapObjs_spec (s : State) (p : Nat) (f : ObjS → ObjS) (h : Store.wf (fun _ => PortS.init) s.fp.port = true) :
    (∀ q, q ≠ p → (s.mapObjs p f).port q = s.port q) ∧ (s.mapObjs p f).cwy = s.cwy := by
  unfold State.mapObjs
  generalize List.range 128 = os
  induction os generalizing s with
  | nil => exact ⟨fun _ _ => rfl, rfl⟩
  | cons o os ih =>
    rw [List.foldl_cons]
    split
    · exact ih s h
    · obtain ⟨hport, hcwy⟩ := ih (s.updObj p o f) (Store.put_wf h)
      exact ⟨fun q hq => (hport q hq).trans (State.port_updPort_ne _ _ _ _ h hq), hcwy.trans rfl⟩

/-- A change of a port that leaves its objects leaves every object. -/
theorem State.obj_updPort (s : State) (p q o : Nat) (f : PortS → PortS) (hf : ∀ x, (f x).obj = x.obj)
    (h : Store.wf (fun _ => PortS.init) s.fp.port = true) : (s.updPort p f).obj q o = s.obj q o := by
  unfold State.obj PortS.objS
  by_cases hq : q = p
  · rw [hq, State.port_updPort_same _ _ _ h, hf]
  · rw [State.port_updPort_ne _ _ _ _ h hq]

theorem State.measures_updPort (s : State) (p q : Nat) (t : TxNow) (f : PortS → PortS) (hf : ∀ x, (f x).obj = x.obj)
    (h : Store.wf (fun _ => PortS.init) s.fp.port = true) : (s.updPort p f).measures q t = s.measures q t := by
  unfold State.measures
  rw [State.obj_updPort s p t.port t.obj f hf h]
  rfl

/-! ### Attempts -/

/-- A collision counts in its port and marks its object (R389). -/
theorem State.collision_ported (s : State) (p : Nat) (t : TxNow) : Ported countersSeen s (s.collision p t) := by
  have hport : Ported countersSeen s (s.updPort p (fun x => { x with collCount := satInc x.collCount max32, collSeen := true })) :=
    .port s p _ fun _ => rfl
  unfold State.collision
  extract_lets w a k
  have ha : Ported countersSeen s a := hport.trans (State.objEvent_ported _ 91 0 t.port t.obj)
  clear_value k a
  exact .ite (ha.trans (State.updObj_ported countersSeen_calmer.1 a ..))
    ((ha.trans (.free a (a.freeCtr + 1))).trans (State.updObj_ported countersSeen_calmer.1 { a with freeCtr := a.freeCtr + 1 } ..))

/-- The counters of a failed attempt (R366, R388). -/
theorem State.failedFrame_spec (s : State) (p : Nat) (t : TxNow) (tec : Nat) (coll : Bool)
    (h : Store.wf (fun _ => PortS.init) s.fp.port = true) :
    Ported (fun _ _ => ()) s (s.failedFrame p t tec coll) ∧ ((s.failedFrame p t tec coll).port p).counters =
      ({ s.port p with txErr := min 256 ((s.port p).txErr + tec), errCount := satInc (s.port p).errCount max16 } : PortS).counters := by
  let s1 := s.updPort p (fun x => { x with txErr := min 256 (x.txErr + tec), errCount := satInc x.errCount max16 })
  have hrun : Ported countersSeen s1 (s.failedFrame p t tec coll) := by
    unfold State.failedFrame
    extract_lets b c
    have hc : Ported countersSeen s1 c := (State.updObj_ported countersSeen_calmer.1 ..).trans (State.confine_ported countersSeen_calmer ..)
    exact .ite hc (.ite (hc.trans (c.collision_ported p t)) hc)
  have hwf : Store.wf (fun _ => PortS.init) s1.fp.port = true := Store.put_wf h
  refine ⟨(Ported.updPort s p _).trans hrun.blind, (hrun.view hwf p).trans ?_⟩
  exact congrArg PortS.counters (State.port_updPort_same _ _ _ h)

/-- The counters of an attempt that ends in success (R366, R375). -/
theorem State.sentFrame_spec (s : State) (p : Nat) (t : TxNow) (hq : t.queued = false)
    (h : Store.wf (fun _ => PortS.init) s.fp.port = true) :
    Ported (fun _ _ => ()) s ((s.sentFrame p t).confine p) ∧ (((s.sentFrame p t).confine p).port p).counters =
      ({ s.port p with txErr := (s.port p).txErr - 1, txCount := satInc (s.port p).txCount max16 } : PortS).counters := by
  let s1 := s.updPort p (fun x => { x with
    txErr := x.txErr - 1, txCount := satInc x.txCount max16, sent := some ((s.obj t.port t.obj).id, t.data) })
  have hsent : s.sentFrame p t = (s1.frameDone p).updObj p t.obj (fun b => { b with pend := t.again, collRun := 0, count := satInc b.count max16 }) :=
    if_neg (ne_true_of_eq_false hq)
  have hrun : Ported countersSeen s1 ((s.sentFrame p t).confine p) := by
    rw [hsent]
    exact ((State.frameDone_ported countersSeen_calmer.1 ..).trans (State.updObj_ported countersSeen_calmer.1 ..)).trans
      (State.confine_ported countersSeen_calmer ..)
  have hwf : Store.wf (fun _ => PortS.init) s1.fp.port = true := Store.put_wf h
  exact ⟨(Ported.updPort s p _).trans hrun.blind,
    (hrun.view hwf p).trans ((congrArg PortS.counters (State.port_updPort_same _ _ _ h)).trans rfl)⟩

/-- The measured delay of an attempt (R371). -/
theorem State.measured_spec (s : State) (p : Nat) (t : TxNow) (d : Nat) (h : Store.wf (fun _ => PortS.init) s.fp.port = true) :
    Ported (fun _ _ => ()) s (s.measured p t d) ∧
    (s.measured p t d).port p = { s.port p with tdc := if s.measures p t then min 255 d else (s.port p).tdc } := by
  unfold State.measured
  split
  · exact ⟨.updPort .., State.port_updPort_same _ _ _ h⟩
  · exact ⟨.refl s, rfl⟩

/-! ### The commands of a port -/

/-- A port's attempt is ended before its outcome is judged. -/
def State.endAttempt (s : State) (p : Nat) : State := s.updPort p (fun x => { x with tx := none })

/-- An attempt's end, with what is judged of it (R371, R375, R388). -/
def State.judgeAttempt (s : State) (p : Nat) (t : TxNow) (passive : Bool) : AttemptEnd → State
  | .success (some d) =>
    if s.measures p t && decide (127 < d) then (s.measured p t d).failedFrame p t 8 true
    else ((s.measured p t d).sentFrame p t).confine p
  | .success none => (s.sentFrame p t).confine p
  | .lostArbitration => s.updObj t.port t.obj (fun b => { b with collRun := 0, pend := b.pend || t.again })
  | .bitError => s.failedFrame p t 8 true
  | .otherError => s.failedFrame p t 8 false
  | .noAck => s.failedFrame p t (if passive then 0 else 8) false
  | .delayError d => (s.measured p t d).failedFrame p t 8 true

theorem execFrameAttemptEnd_eq (p : Port) (e : AttemptEnd) (ofs : Nat) (s : State) (t : TxNow) (h : (s.port p.val).tx = some t) :
    execFrameAttemptEnd p e ofs s = .next ((((s.at ofs).endAttempt p.val).judgeAttempt p.val t
      (decide ((s.port p.val).st = PortSt.passive)) e).offer p.val) := by
  have h' : ((s.at ofs).port p.val).tx = some t := h
  unfold execFrameAttemptEnd
  simp only [h']
  cases e with
  | success m => cases m <;> rfl
  | noAck => simp only [State.judgeAttempt, decide_eq_true_eq]; rfl
  | lostArbitration => rfl
  | bitError => rfl
  | otherError => rfl
  | delayError d => rfl

/-- What an attempt's end leaves of the deck, and the counters of its port, are those of its judgement. -/
theorem execFrameAttemptEnd_counts (p : Port) (e : AttemptEnd) (ofs : Nat) (s : State) (t : TxNow) (c : PortS)
    (h : (s.port p.val).tx = some t) (hok : s.partsOk = true)
    (hjudge : ∀ u : State, Store.wf (fun _ => PortS.init) u.fp.port = true →
      u.port p.val = { s.port p.val with tx := none } → (∀ f, u.measures p.val f = s.measures p.val f) →
      Ported (fun _ _ => ()) u (u.judgeAttempt p.val t (decide ((s.port p.val).st = PortSt.passive)) e) ∧
      ((u.judgeAttempt p.val t (decide ((s.port p.val).st = PortSt.passive)) e).port p.val).counters = c.counters) :
    ∃ r, execFrameAttemptEnd p e ofs s = .next r ∧ Ported (fun _ _ => ()) (s.at ofs) r ∧ (r.port p.val).counters = c.counters := by
  have hwf : Store.wf (fun _ => PortS.init) (s.at ofs).fp.port = true := wf_port hok
  let a := (s.at ofs).endAttempt p.val
  have hawf : Store.wf (fun _ => PortS.init) a.fp.port = true := Store.put_wf hwf
  have hport : a.port p.val = { s.port p.val with tx := none } := State.port_updPort_same _ _ _ hwf
  have hmeasure : ∀ f, a.measures p.val f = s.measures p.val f := fun f =>
    State.measures_updPort (s.at ofs) p.val p.val f (fun x => { x with tx := none }) (fun _ => rfl) hwf
  obtain ⟨hrun, hcount⟩ := hjudge a hawf hport hmeasure
  let b := a.judgeAttempt p.val t (decide ((s.port p.val).st = PortSt.passive)) e
  have hoffer : Ported countersSeen b (b.offer p.val) := b.offer_ported countersSeen_calmer.1 p.val
  refine ⟨_, execFrameAttemptEnd_eq p e ofs s t h, ((Ported.updPort _ _ _).trans hrun).trans hoffer.blind, ?_⟩
  exact (hoffer.view (hrun.sound hawf) p.val).trans hcount

/-- Where an object is changed and offered, the object reads back the change. -/
theorem State.obj_updObj_offer (s : State) (p o : Nat) (f : ObjS → ObjS) (h : Store.wf (fun _ => PortS.init) s.fp.port = true)
    (hobj : Store.wf (fun _ => ObjS.init) (s.port p).obj = true) : (((s.updObj p o f).offer p).obj p o) = f (s.obj p o) := by
  obtain ⟨⟨tx, hport⟩, -, -⟩ := (s.updObj p o f).offer_spec p (Store.put_wf h)
  unfold State.obj PortS.objS
  rw [hport]
  change Store.get _ ((s.updPort p (fun x => { x with obj := Store.upd (fun _ => ObjS.init) x.obj o f })).port p).obj o = _
  rw [State.port_updPort_same _ _ _ h]
  exact Store.get_put_same hobj

end Sys2Proof.Machine
end

section
/-! PROOFS. The commands of the field ports (R366 to R368, R371, R373, R375, R377, R387 to R389). -/
namespace Sys2Proof.Machine

/-- A change of a port followed by its offer (R373). -/
theorem State.updPort_offer (s : State) (p : Nat) (f : PortS → PortS) (h : Store.wf (fun _ => PortS.init) s.fp.port = true) :
    Ported (fun _ _ => ()) s ((s.updPort p f).offer p) ∧ (∃ tx, ((s.updPort p f).offer p).port p = { f (s.port p) with tx := tx }) ∧
    ∀ q, q ≠ p → ((s.updPort p f).offer p).port q = s.port q := by
  obtain ⟨⟨tx, hself⟩, hother, -⟩ := (s.updPort p f).offer_spec p (Store.put_wf h)
  refine ⟨(Ported.updPort ..).trans (State.offer_ported blind_calm ..), ⟨tx, hself.trans ?_⟩, fun q hq => ?_⟩
  · rw [State.port_updPort_same _ _ _ h]
  · rw [hother q hq, State.port_updPort_ne _ _ _ _ h hq]

/-- A recovery that starts (R387). -/
theorem State.startRecovery_spec (s : State) (p : Nat) (h : Store.wf (fun _ => PortS.init) s.fp.port = true) :
    Ported (fun _ _ => ()) s (s.startRecovery p) ∧ (s.startRecovery p).port p = { s.port p with st := .recovering } ∧
    (∀ q, q ≠ p → (s.startRecovery p).port q = s.port q) ∧ s.reports (s.startRecovery p) 89 s.deckAddr 2 p 0 := by
  let a := s.updPort p (fun x => { x with st := .recovering })
  have hport : ∀ q, (s.startRecovery p).port q = a.port q := fun q => by
    unfold State.port
    exact congrArg (fun f : FpS => Store.get (fun _ => PortS.init) f.port q) (State.fp_raise ..)
  refine ⟨(Ported.updPort ..).trans (.raise ..), ?_, fun q hq => ?_, a.raise_reports _ _ _ _ _ (by decide)⟩
  · rw [hport]
    exact State.port_updPort_same _ _ _ h
  · rw [hport]
    exact State.port_updPort_ne _ _ _ _ h hq

/-- A port that comes back from bus-off (R386, R387). -/
theorem execBusOffRecovered_spec (p : Port) (ofs : Nat) (s : State) (hok : s.partsOk = true) (hst : (s.port p.val).st = .recovering) :
    ∃ t, execBusOffRecovered p ofs s = .next t ∧ Ported (fun _ _ => ()) (s.at ofs) t ∧ (t.port p.val).st = .active ∧
      (t.port p.val).txErr = 0 ∧ (t.port p.val).rxErr = 0 ∧ (∀ q, q ≠ p.val → t.port q = s.port q) ∧
      (s.at ofs).reports t 89 s.deckAddr 3 p.val 0 := by
  let u := s.at ofs
  let a := u.updPort p.val (fun x => { x with st := .active, txErr := 0, rxErr := 0 })
  let b := a.mapObjs p.val (fun b => if b.rerouted then b else { b with strand := false })
  let c := b.raise 89 u.deckAddr 3 p.val 0
  have hwf : Store.wf (fun _ => PortS.init) u.fp.port = true := wf_port hok
  have hawf : Store.wf (fun _ => PortS.init) a.fp.port = true := Store.put_wf hwf
  have hb : (∀ q, q ≠ p.val → b.port q = a.port q) ∧ b.cwy = a.cwy := a.mapObjs_spec p.val _ hawf
  obtain ⟨hbport, hbcwy⟩ := hb
  have hseen : Calm (fun _ (x : PortS) => (x.st, x.txErr, x.rxErr)) := fun _ _ _ _ _ => rfl
  have hrun : Ported (fun _ (x : PortS) => (x.st, x.txErr, x.rxErr)) a c := (State.mapObjs_ported hseen ..).trans (.raise ..)
  have hcport : ∀ q, c.port q = b.port q := fun q =>
    congrArg (fun f : FpS => Store.get (fun _ => PortS.init) f.port q) (State.fp_raise ..)
  have hcwf : Store.wf (fun _ => PortS.init) c.fp.port = true := hrun.sound hawf
  obtain ⟨⟨tx, hself⟩, hother, hcwy⟩ := c.offer_spec p.val hcwf
  have hcp := hrun.view hawf p.val
  have hap : a.port p.val = { u.port p.val with st := .active, txErr := 0, rxErr := 0 } := State.port_updPort_same _ _ _ hwf
  rw [hap] at hcp
  obtain ⟨hcst, hctx, hcrx⟩ := Prod.ext_iff.mp hcp |>.imp_right Prod.ext_iff.mp
  have hrep : a.reports c 89 u.deckAddr 3 p.val 0 := by
    have h := b.raise_reports 89 u.deckAddr 3 p.val 0 (by decide)
    unfold State.reports at h ⊢
    rw [hbcwy] at h
    exact h
  refine ⟨c.offer p.val, if_pos hst, ((Ported.updPort ..).trans hrun.blind).trans (State.offer_ported blind_calm ..), ?_, ?_, ?_,
    fun q hq => ?_, ?_⟩
  · rw [hself]
    exact hcst
  · rw [hself]
    exact hctx
  · rw [hself]
    exact hcrx
  · rw [hother q hq, hcport, hbport q hq, State.port_updPort_ne _ _ _ _ hwf hq]
    rfl
  · unfold State.reports at hrep ⊢
    rw [hcwy]
    exact hrep

/-! ### Received frames -/

theorem State.store_ported (s : State) (p o : Nat) (f : RxFrame) : Ported countersSeen s (s.store p o f) := by
  unfold State.store
  extract_lets b k n old xl slot _ s1 s2
  have h1 : Ported countersSeen s s1 := ⟨rfl, rfl, rfl, rfl, rfl, rfl, rfl, ⟨rfl, rfl, rfl⟩, ⟨rfl, rfl⟩, id, fun _ _ => rfl⟩
  have h2 : Ported countersSeen s s2 := h1.trans (State.updObj_ported countersSeen_calmer.1 ..)
  exact .ite (.refl s) (.ite (h2.trans (.raise ..)) h2)

theorem State.updPartner_ported (s : State) (n : Nat) (f : PtnS → PtnS) : Ported countersSeen s (s.updPartner n f) :=
  ⟨rfl, rfl, rfl, rfl, rfl, rfl, rfl, ⟨rfl, rfl, rfl⟩, ⟨rfl, rfl⟩, id, fun _ _ => rfl⟩

theorem State.heartbeats_ported (s : State) (p : Nat) (f : RxFrame) : Ported countersSeen s (s.heartbeats p f) := by
  unfold State.heartbeats
  refine .foldl _ (fun t e => ?_) _ s
  have h := t.updPartner_ported e.1 (fun r => { r with age := 0, hbCount := (r.hbCount + 1) % 65536, st := 2 })
  exact .ite (.ite (h.trans (.raise ..)) h) (.refl t)

/-- The last counter: the frames received. -/
theorem State.rxOk_rxCount (s : State) (p : Nat) : Ported (fun _ (x : PortS) => x.rxCount) s (s.rxOk p) := by
  unfold State.rxOk
  extract_lets r
  exact .ite (.refl s) (.ite (.port s p _ fun _ => rfl) ((Ported.free ..).trans (.port _ p _ fun _ => rfl)))

/-- The counters show the frames received. -/
theorem Ported.rxCount {s t : State} (h : Ported countersSeen s t) : Ported (fun _ (x : PortS) => x.rxCount) s t :=
  ⟨h.bar, h.legs, h.cur, h.stage, h.tk, h.kst, h.start, h.ms, h.fb, h.sound,
    fun w q => congrArg (fun c : Nat × Nat × Nat × Nat × Nat × Nat => c.2.2.2.2.2) (h.view w q)⟩

/-- What a received frame does after its port has counted it (R376 to R378, R381). -/
def State.takeFrame (s : State) (p : Nat) (f : RxFrame) : State :=
  let miss := fun (t : State) => t.updPort p (fun x => { x with noMatch := satInc x.noMatch max32 })
  if f.remote then miss s
  else
    (match (s.port p).matchRx f with
    | some o => if bitOf (s.reg 0x2C000) 0 then s.store p o f else s
    | none => miss s).heartbeats p f

theorem State.takeFrame_ported (s : State) (p : Nat) (f : RxFrame) : Ported countersSeen s (s.takeFrame p f) := by
  have hmiss : Ported countersSeen s (s.updPort p (fun x => { x with noMatch := satInc x.noMatch max32 })) := .port s p _ fun _ => rfl
  unfold State.takeFrame
  refine .ite hmiss (.trans ?_ (State.heartbeats_ported ..))
  cases (s.port p).matchRx f with
  | none => exact hmiss
  | some o => exact .ite (s.store_ported p o f) (.refl s)

/-- The fall-back frames that wait. -/
def State.withFrames (s : State) (g : List FbFrame) : State := { s with fp := { s.fp with fbIn := g } }

theorem State.withFrames_same (s : State) : s = s.withFrames s.fp.fbIn := rfl

/-- A received frame is counted by its port, and a fall-back frame waits (R346, R377). -/
theorem execCanFrameReceived_eq (p : Port) (f : RxFrame) (ofs : Nat) (s : State) (hon : (s.port p.val).onBus = true)
    (hfmt : s.rxFormat p.val f = true) :
    let a := (s.at ofs).updPort p.val (fun x => { x with rxCount := satInc x.rxCount max16, tx := none })
    let b := (((a.rxOk p.val).confine p.val).frameDone p.val).takeFrame p.val f
    ∃ g, execCanFrameReceived p f ofs s = .next ((b.withFrames g).offer p.val) := by
  intro a b
  unfold execCanFrameReceived
  extract_lets u a' c miss s1 s2 w due q d
  rw [if_pos ⟨hon, hfmt⟩]
  have hb : b = if f.remote then miss c else s2 := rfl
  clear_value b s2 due w miss c
  by_cases hremote : f.remote = true
  · have hd : d = b := (if_pos hremote).trans (hb.trans (if_pos hremote)).symm
    exact ⟨b.fp.fbIn, by rw [hd, ← State.withFrames_same]⟩
  · obtain rfl : b = s2 := hb.trans (if_neg hremote)
    by_cases hfb : p.val = 0 ∧ bitOf w 31 ∧ fld w 0 29 = f.id.toNat ∧ bitOf w 29 = f.ide
    · exact ⟨_, congrArg (fun t : State => Host.Outcome.next (t.offer p.val)) ((if_neg hremote).trans (if_pos hfb))⟩
    · have hd : d = b := (if_neg hremote).trans (if_neg hfb)
      exact ⟨b.fp.fbIn, by rw [hd, ← State.withFrames_same]⟩

end Sys2Proof.Machine
end

section
/-! PROOFS. What the commands of the field ports do (R366 to R368, R371, R373, R375, R377, R387 to R389). -/
namespace Sys2Proof.Machine

/-- A received frame leaves the deck as it is but for its ports, and is counted (R377). -/
theorem execCanFrameReceived_spec (p : Port) (f : RxFrame) (ofs : Nat) (s : State) (hok : s.partsOk = true)
    (hon : (s.port p.val).onBus = true) (hfmt : s.rxFormat p.val f = true) :
    ∃ t, execCanFrameReceived p f ofs s = .next t ∧ (t.bar = s.bar ∧ t.legs = s.legs ∧ t.cur = s.cur ∧ t.stage = s.stage ∧
      t.kst = s.kst ∧ t.tk = (s.at ofs).tk ∧ t.start = s.start) ∧ (t.port p.val).rxCount = satInc (s.port p.val).rxCount 0xFFFF := by
  obtain ⟨g, hexec⟩ := execCanFrameReceived_eq p f ofs s hon hfmt
  let u := s.at ofs
  let a := u.updPort p.val (fun x => { x with rxCount := satInc x.rxCount max16, tx := none })
  let b := (((a.rxOk p.val).confine p.val).frameDone p.val).takeFrame p.val f
  have hwf : Store.wf (fun _ => PortS.init) u.fp.port = true := wf_port hok
  have hawf : Store.wf (fun _ => PortS.init) a.fp.port = true := Store.put_wf hwf
  have hport : a.port p.val = { s.port p.val with rxCount := satInc (s.port p.val).rxCount max16, tx := none } :=
    State.port_updPort_same _ _ _ hwf
  have htail : Ported countersSeen (a.rxOk p.val) b :=
    ((State.confine_ported countersSeen_calmer ..).trans (State.frameDone_ported countersSeen_calmer.1 ..)).trans (State.takeFrame_ported ..)
  have hrun : Ported (fun _ (x : PortS) => x.rxCount) a b := (a.rxOk_rxCount p.val).trans htail.rxCount
  have hoffer : Ported (fun _ (x : PortS) => x.rxCount) (b.withFrames g) ((b.withFrames g).offer p.val) :=
    State.offer_ported (fun _ _ _ _ _ => rfl) ..
  have hcount : (b.port p.val).rxCount = satInc (s.port p.val).rxCount 0xFFFF := (hrun.view hawf p.val).trans (by rw [hport]; rfl)
  have hbwf : Store.wf (fun _ => PortS.init) (b.withFrames g).fp.port = true := hrun.sound hawf
  obtain ⟨hbar, hlegs, hcur, hstage, hkst, htk, hstart⟩ := hoffer.frame
  obtain ⟨hbar', hlegs', hcur', hstage', hkst', htk', hstart'⟩ := hrun.frame
  exact ⟨_, hexec, ⟨hbar.trans hbar', hlegs.trans hlegs', hcur.trans hcur', hstage.trans hstage', hkst.trans hkst', htk.trans htk',
    hstart.trans hstart'⟩, (hoffer.view hbwf p.val).trans hcount⟩

/-- TXREQ of a send object of the host (R375, R386). -/
theorem execTxreq_spec (p : Port) (ofs : Nat) (s : State) (hok : s.partsOk = true) (habut : s.start.abut = false)
    (hsend : (s.obj p.val (s.objSel p.val)).send = true) (hsrc : (s.obj p.val (s.objSel p.val)).src = 0) :
    ∃ t, execTxreq p ofs s = .next t ∧ Ported (fun _ _ => ()) (s.at ofs) t ∧
      (Store.wf (fun _ => ObjS.init) (s.port p.val).obj = true → (s.port p.val).tx = none →
        (s.obj p.val (s.objSel p.val)).rerouted = false → (s.port p.val).st ≠ .busOff → (t.obj p.val (s.objSel p.val)).pend = true) := by
  let u := s.at ofs
  let o := s.objSel p.val
  have hgate : ¬ (u.start.abut || !(u.obj p.val o).send || decide ((u.obj p.val o).src ≠ 0)) = true := by
    have hsend' : (u.obj p.val o).send = true := hsend
    have hsrc' : (u.obj p.val o).src = 0 := hsrc
    have habut' : u.start.abut = false := habut
    simp [hsend', hsrc', habut']
  have hrequest : Ported (fun _ _ => ()) u ((u.withdraw p.val o).request p.val o) :=
    (State.withdraw_ported blind_calm ..).trans (State.request_ported blind_calm ..)
  have hexec : execTxreq p ofs s = match (s.port p.val).tx with
      | some t => if t.obj = o ∧ ¬ t.queued then .next (u.updPort p.val (fun x => { x with tx := some { t with again := true } }))
          else .next ((u.withdraw p.val o).request p.val o)
      | none => .next ((u.withdraw p.val o).request p.val o) := by
    refine (if_neg hgate).trans ?_
    change (match (s.port p.val).tx with | some t => _ | none => _) = _
    cases (s.port p.val).tx <;> rfl
  rw [hexec]
  cases htx : (s.port p.val).tx with
  | some t =>
    dsimp only
    split
    · exact ⟨_, rfl, Ported.updPort .., fun _ h => by cases h⟩
    · exact ⟨_, rfl, hrequest, fun _ h => by cases h⟩
  | none =>
    refine ⟨_, rfl, hrequest, fun hobj _ hrr hst => ?_⟩
    have hwithdraw : u.withdraw p.val o = u := if_neg (ne_true_of_eq_false hrr)
    have hrun : u.request p.val o = (u.updObj p.val o (fun b => { b with pend := true })).offer p.val := if_neg fun h => hst h.1
    rw [hwithdraw, hrun]
    change (((u.updObj p.val o _).offer p.val).obj p.val o).pend = true
    rw [State.obj_updObj_offer u p.val o _ (wf_port hok) hobj]

/-- Taking an object's copies back leaves the objects of its port canonical (R386). -/
theorem State.unqueue_objects (s : State) (p o : Nat) (h : Store.wf (fun _ => PortS.init) s.fp.port = true)
    (hobj : Store.wf (fun _ => ObjS.init) (s.port p).obj = true) :
    Store.wf (fun _ => ObjS.init) ((s.unqueue p o).port p).obj = true := by
  unfold State.unqueue
  split
  · extract_lets hit a
    have hstep : ∀ (t : State) (k : Nat), Ported (fun _ (x : PortS) => x.obj) t
        (if (t.port k).queue.any hit then t.updPort k (fun y => { y with queue := y.queue.filter (fun e => !hit e) }) else t) :=
      fun t k => .ite (.port t k _ fun _ => rfl) (.refl t)
    have ha : Ported (fun _ (x : PortS) => x.obj) s a := .foldl _ hstep _ s
    clear_value a
    unfold State.updObj
    rw [State.port_updPort_same _ _ _ (ha.sound h)]
    exact Store.put_wf ((ha.view h p).symm ▸ hobj)
  · exact hobj

/-- OBJ_ABORT clears PEND and STRAND of the selected object (R375, R386). -/
theorem execObjAbort_spec (p : Port) (ofs : Nat) (s : State) (hok : s.partsOk = true) (habut : s.start.abut = false) :
    ∃ t, execObjAbort p ofs s = .next t ∧ Ported (fun _ _ => ()) (s.at ofs) t ∧
      (Store.wf (fun _ => ObjS.init) (s.port p.val).obj = true →
        (t.obj p.val (s.objSel p.val)).pend = false ∧ (t.obj p.val (s.objSel p.val)).strand = false) := by
  let u := s.at ofs
  let o := s.objSel p.val
  let a := u.unqueue p.val o
  let b := a.updObj p.val o (fun b => { b with pend := false, strand := false })
  let c := b.updPort p.val (fun x => match x.tx with
    | some t => if t.obj = o ∧ ¬ t.queued then { x with tx := some { t with again := false, aborted := true } } else x
    | none => x)
  have hexec : execObjAbort p ofs s = .next c := if_neg (ne_true_of_eq_false habut)
  have hwf : Store.wf (fun _ => PortS.init) u.fp.port = true := wf_port hok
  have ha : Ported (fun _ _ => ()) u a := State.unqueue_ported blind_calm ..
  have hb : Ported (fun _ _ => ()) a b := State.updObj_ported blind_calm ..
  refine ⟨c, hexec, (ha.trans hb).trans (Ported.updPort ..), fun hobj => ?_⟩
  have hcb : c.obj p.val o = b.obj p.val o := by
    refine State.obj_updPort _ _ _ _ _ (fun x => ?_) (hb.sound (ha.sound hwf))
    cases x.tx with
    | none => rfl
    | some t =>
      dsimp only
      split <;> rfl
  have hba : b.obj p.val o = { a.obj p.val o with pend := false, strand := false } := by
    change Store.get _ ((a.updPort p.val _).port p.val).obj o = _
    rw [State.port_updPort_same _ _ _ (ha.sound hwf)]
    exact Store.get_put_same (u.unqueue_objects p.val o hwf hobj)
  change (c.obj p.val o).pend = false ∧ (c.obj p.val o).strand = false
  rw [hcb, hba]
  exact ⟨rfl, rfl⟩

/-- RESUME lets the selected object take part again (R389). -/
theorem execResume_spec (p : Port) (ofs : Nat) (s : State) (hok : s.partsOk = true) (habut : s.start.abut = false) :
    ∃ t, execResume p ofs s = .next t ∧ Ported (fun _ _ => ()) (s.at ofs) t ∧
      (Store.wf (fun _ => ObjS.init) (s.port p.val).obj = true → (t.obj p.val (s.objSel p.val)).susp = false ∧
        ∀ q, q ≠ p.val → t.port q = s.port q) := by
  let u := s.at ofs
  let o := s.objSel p.val
  have hexec : execResume p ofs s = .next ((u.updObj p.val o (fun b => { b with susp := false })).offer p.val) :=
    if_neg (ne_true_of_eq_false habut)
  obtain ⟨hrun, -, hother⟩ := u.updPort_offer p.val (fun x => { x with obj := Store.upd (fun _ => ObjS.init) x.obj o (fun b => { b with susp := false }) })
    (wf_port hok)
  refine ⟨_, hexec, hrun, fun hobj => ⟨?_, hother⟩⟩
  change (((u.updObj p.val o _).offer p.val).obj p.val o).susp = false
  rw [State.obj_updObj_offer u p.val o _ (wf_port hok) hobj]

/-! ### The ends of attempts -/

/-- An attempt that ends in success within the delay that R371 allows. -/
theorem attempt_success (p : Port) (m : Option Nat) (ofs : Nat) (s : State) (f : TxNow) (hok : s.partsOk = true)
    (htx : (s.port p.val).tx = some f) (hq : f.queued = false) (hdelay : ∀ d, m = some d → s.measures p.val f = false ∨ d ≤ 127) :
    ∃ t, execFrameAttemptEnd p (.success m) ofs s = .next t ∧ Ported (fun _ _ => ()) (s.at ofs) t ∧
      (t.port p.val).counters = ({ s.port p.val with
        txErr := (s.port p.val).txErr - 1, txCount := satInc (s.port p.val).txCount max16,
        tdc := match m with | some d => if s.measures p.val f then d else (s.port p.val).tdc | none => (s.port p.val).tdc } : PortS).counters := by
  refine execFrameAttemptEnd_counts p _ ofs s f _ htx hok fun u hwf hport hmeasure => ?_
  cases m with
  | none =>
    obtain ⟨hrun, hcount⟩ := u.sentFrame_spec p.val f hq hwf
    exact ⟨hrun, hcount.trans (by rw [hport]; rfl)⟩
  | some d =>
    have hshort : ¬ (u.measures p.val f && decide (127 < d)) = true := by
      rw [hmeasure]
      rcases hdelay d rfl with h | h
      · simp [h]
      · simp [Nat.not_lt.mpr h]
    have hjudge : u.judgeAttempt p.val f (decide ((s.port p.val).st = PortSt.passive)) (.success (some d)) =
        ((u.measured p.val f d).sentFrame p.val f).confine p.val := if_neg hshort
    obtain ⟨hmrun, hmport⟩ := u.measured_spec p.val f d hwf
    obtain ⟨hrun, hcount⟩ := (u.measured p.val f d).sentFrame_spec p.val f hq (hmrun.sound hwf)
    rw [hjudge]
    refine ⟨hmrun.trans hrun, hcount.trans ?_⟩
    have htdc : (if s.measures p.val f then min 255 d else (s.port p.val).tdc) = if s.measures p.val f then d else (s.port p.val).tdc := by
      rcases hdelay d rfl with h | h
      · simp [h]
      · rw [Nat.min_eq_right (by omega : d ≤ 255)]
    rw [hmport, hport, hmeasure]
    simp only [PortS.counters, htdc]

/-- An attempt that fails with its count, where no delay is measured. -/
theorem attempt_fails (p : Port) (e : AttemptEnd) (tec : Nat) (coll : Bool) (ofs : Nat) (s : State) (f : TxNow) (hok : s.partsOk = true)
    (htx : (s.port p.val).tx = some f)
    (hjudge : ∀ u : State, u.judgeAttempt p.val f (decide ((s.port p.val).st = PortSt.passive)) e = u.failedFrame p.val f tec coll) :
    ∃ t, execFrameAttemptEnd p e ofs s = .next t ∧ Ported (fun _ _ => ()) (s.at ofs) t ∧
      (t.port p.val).counters = ({ s.port p.val with
        txErr := min 256 ((s.port p.val).txErr + tec), errCount := satInc (s.port p.val).errCount max16 } : PortS).counters := by
  refine execFrameAttemptEnd_counts p e ofs s f _ htx hok fun u hwf hport _ => ?_
  obtain ⟨hrun, hcount⟩ := u.failedFrame_spec p.val f tec coll hwf
  rw [hjudge]
  exact ⟨hrun, hcount.trans (by rw [hport]; rfl)⟩

/-- An attempt that fails once its delay is measured (R371). -/
theorem attempt_fails_measured (p : Port) (e : AttemptEnd) (d ofs : Nat) (s : State) (f : TxNow) (hok : s.partsOk = true)
    (htx : (s.port p.val).tx = some f)
    (hjudge : ∀ u : State, (∀ g, u.measures p.val g = s.measures p.val g) →
      u.judgeAttempt p.val f (decide ((s.port p.val).st = PortSt.passive)) e = (u.measured p.val f d).failedFrame p.val f 8 true) :
    ∃ t, execFrameAttemptEnd p e ofs s = .next t ∧ Ported (fun _ _ => ()) (s.at ofs) t ∧
      (t.port p.val).counters = ({ s.port p.val with
        txErr := min 256 ((s.port p.val).txErr + 8), errCount := satInc (s.port p.val).errCount max16,
        tdc := if s.measures p.val f then min 255 d else (s.port p.val).tdc } : PortS).counters := by
  refine execFrameAttemptEnd_counts p e ofs s f _ htx hok fun u hwf hport hmeasure => ?_
  obtain ⟨hmrun, hmport⟩ := u.measured_spec p.val f d hwf
  obtain ⟨hrun, hcount⟩ := (u.measured p.val f d).failedFrame_spec p.val f 8 true (hmrun.sound hwf)
  rw [hjudge u hmeasure]
  refine ⟨hmrun.trans hrun, hcount.trans ?_⟩
  rw [hmport, hport, hmeasure]
  rfl

/-- An attempt that loses arbitration is judged by its object alone (R373). -/
theorem attempt_lost (p : Port) (ofs : Nat) (s : State) (f : TxNow) (hok : s.partsOk = true) (htx : (s.port p.val).tx = some f) :
    ∃ t, execFrameAttemptEnd p .lostArbitration ofs s = .next t ∧ Ported (fun _ _ => ()) (s.at ofs) t ∧
      (t.port p.val).counters = (s.port p.val).counters := by
  refine execFrameAttemptEnd_counts p .lostArbitration ofs s f (s.port p.val) htx hok fun u hwf hport _ => ?_
  have hrun : Ported countersSeen u (u.judgeAttempt p.val f (decide ((s.port p.val).st = PortSt.passive)) .lostArbitration) :=
    State.updObj_ported countersSeen_calmer.1 ..
  exact ⟨hrun.blind, (hrun.view hwf p.val).trans (by rw [hport]; rfl)⟩

/-- The counters, one by one. -/
theorem PortS.counters_iff (x y : PortS) : x.counters = y.counters ↔ x.txErr = y.txErr ∧ x.rxErr = y.rxErr ∧ x.errCount = y.errCount ∧
    x.txCount = y.txCount ∧ x.tdc = y.tdc ∧ x.rxCount = y.rxCount := by
  simp [PortS.counters]

/-- Settles O54. -/
theorem fieldPorts : Obligations.FieldPorts := by
  intro p ofs s hok u x frame alone runs recovers refused
  have hwf : Store.wf (fun _ => PortS.init) u.fp.port = true := wf_port hok
  have hrecovers : ∀ c, exec c s = .next (u.startRecovery p.val) → recovers c := by
    intro c hexec
    obtain ⟨hrun, hself, hother, hrep⟩ := u.startRecovery_spec p.val hwf
    exact ⟨_, hexec, hrun.frame, hself, hother, hrep⟩
  refine ⟨fun hready hen hoff => ?_, fun hnone => ?_, fun hst hauto hpast => ?_, fun hnone => ?_, fun habut hst hauto => ?_,
    fun habut hnone => ?_, fun hst => ?_, fun hst => if_neg hst, fun eight hon => ?_, fun eight hoff => if_neg (ne_true_of_eq_false hoff),
    fun e htx => ?_, fun m f htx hq hdelay => ?_, fun d f htx hmeasure hlong => ?_, fun f htx => ?_, fun e f he htx => ?_,
    fun f htx => ?_, fun d f htx => ?_, fun f hon hfmt => ?_, fun f hnone => ?_, ?_⟩
  · obtain ⟨hrun, ⟨tx, hself⟩, hother⟩ := u.updPort_offer p.val (fun x => { x with st := .active }) hwf
    exact ⟨_, if_pos ⟨hready, hen, hoff⟩, hrun.frame, congrArg PortS.st hself, hother⟩
  · refine if_neg fun ⟨hready, hen, hoff⟩ => ?_
    rcases hnone with h | h | h
    · exact absurd (hready.symm.trans h) (by decide)
    · exact absurd (hen.symm.trans h) (by decide)
    · exact h hoff
  · exact hrecovers _ (congrArg _ (if_pos ⟨hst, hauto, hpast⟩))
  · refine congrArg _ (if_neg fun ⟨hst, hauto, hpast⟩ => ?_)
    rcases hnone with h | h | h
    · exact h hst
    · exact absurd (hauto.symm.trans h) (by decide)
    · exact absurd hpast (Nat.not_le.mpr h)
  · exact hrecovers _ ((if_neg (ne_true_of_eq_false habut)).trans (congrArg _ (if_pos ⟨hst, ne_true_of_eq_false hauto⟩)))
  · refine (if_neg (ne_true_of_eq_false habut)).trans (congrArg _ (if_neg fun ⟨hst, hauto⟩ => ?_))
    exact hnone.elim (fun h => h hst) hauto
  · obtain ⟨t, hexec, hrun, hactive, htec, hrec, hother, hrep⟩ := execBusOffRecovered_spec p ofs s hok hst
    exact ⟨t, hexec, hrun.frame, hactive, htec, hrec, hother, hrep⟩
  · let a := u.updPort p.val (fun x => { x with
      rxErr := min 255 (x.rxErr + (if eight then 8 else 1)), errCount := satInc x.errCount max16 })
    have hrun : Ported countersSeen a (a.confine p.val) := State.confine_ported countersSeen_calmer ..
    have hcount := (hrun.view (Store.put_wf hwf) p.val).trans (congrArg PortS.counters (State.port_updPort_same u p.val _ hwf))
    obtain ⟨-, hrx, herr, -⟩ := (PortS.counters_iff _ _).mp hcount
    exact ⟨_, if_pos hon, ((Ported.updPort ..).trans hrun.blind).frame, hrx, herr⟩
  · change execFrameAttemptEnd p e ofs s = _
    have htx' : (u.port p.val).tx = none := htx
    unfold execFrameAttemptEnd
    simp only [u] at htx'
    simp only [htx']
    rfl
  · obtain ⟨t, hexec, hrun, hcount⟩ := attempt_success p m ofs s f hok htx hq hdelay
    obtain ⟨htec, -, herr, hsent, htdc, -⟩ := (PortS.counters_iff _ _).mp hcount
    exact ⟨t, hexec, hrun.frame, htec, hsent, herr, htdc.trans (by cases m <;> rfl)⟩
  · obtain ⟨t, hexec, hrun, hcount⟩ := attempt_fails_measured p (.success (some d)) d ofs s f hok htx fun v hv =>
      if_pos (by rw [hv, hmeasure, decide_eq_true hlong]; rfl)
    obtain ⟨htec, -, -, hsent, htdc, -⟩ := (PortS.counters_iff _ _).mp hcount
    exact ⟨t, hexec, hrun.frame, htdc.trans (if_pos hmeasure), htec, hsent⟩
  · obtain ⟨t, hexec, hrun, hcount⟩ := attempt_lost p ofs s f hok htx
    obtain ⟨htec, -, herr, hsent, -, -⟩ := (PortS.counters_iff _ _).mp hcount
    exact ⟨t, hexec, hrun.frame, htec, hsent, herr⟩
  · have hfail : ∃ coll, ∀ v : State, v.judgeAttempt p.val f (decide (x.st = PortSt.passive)) e = v.failedFrame p.val f 8 coll := by
      rcases he with rfl | rfl
      · exact ⟨true, fun _ => rfl⟩
      · exact ⟨false, fun _ => rfl⟩
    obtain ⟨coll, hfail⟩ := hfail
    obtain ⟨t, hexec, hrun, hcount⟩ := attempt_fails p e 8 coll ofs s f hok htx hfail
    obtain ⟨htec, -, herr, hsent, -, -⟩ := (PortS.counters_iff _ _).mp hcount
    exact ⟨t, hexec, hrun.frame, htec, herr, hsent⟩
  · obtain ⟨t, hexec, hrun, hcount⟩ := attempt_fails p .noAck (if x.st = PortSt.passive then 0 else 8) false ofs s f hok htx fun v => by
      simp only [State.judgeAttempt, decide_eq_true_eq]
      rfl
    obtain ⟨htec, -, herr, -, -, -⟩ := (PortS.counters_iff _ _).mp hcount
    exact ⟨t, hexec, hrun.frame, htec, herr⟩
  · obtain ⟨t, hexec, hrun, hcount⟩ := attempt_fails_measured p (.delayError d) d ofs s f hok htx fun _ _ => rfl
    obtain ⟨htec, -, -, -, htdc, -⟩ := (PortS.counters_iff _ _).mp hcount
    exact ⟨t, hexec, hrun.frame, htdc, htec⟩
  · exact execCanFrameReceived_spec p f ofs s hok hon hfmt
  · refine if_neg fun ⟨hon, hfmt⟩ => ?_
    rcases hnone with h | h
    · exact absurd (hon.symm.trans h) (by decide)
    · exact absurd (hfmt.symm.trans h) (by decide)
  · intro o b
    refine ⟨fun hnone => if_pos ?_, fun habut hsend hsrc => ?_, fun habut => ⟨if_pos habut, if_pos habut, if_pos habut⟩, fun habut => ?_,
      fun habut => ?_⟩
    · change (s.start.abut || !b.send || decide (b.src ≠ 0)) = true
      rcases hnone with h | h | h
      · simp [h]
      · simp [h]
      · simp [h]
    · obtain ⟨t, hexec, hrun, hpend⟩ := execTxreq_spec p ofs s hok habut hsend hsrc
      exact ⟨t, hexec, hrun.frame, hpend⟩
    · obtain ⟨t, hexec, hrun, hclear⟩ := execObjAbort_spec p ofs s hok habut
      exact ⟨t, hexec, hrun.frame, hclear⟩
    · obtain ⟨t, hexec, hrun, hclear⟩ := execResume_spec p ofs s hok habut
      exact ⟨t, hexec, hrun.frame, hclear⟩

end Sys2Proof.Machine
end

section
/-! PROOFS. The ledger's read buffer, the re-route test and the partners' ages (R379, R382, R386). -/
namespace Sys2Proof.Machine

/-! ### The re-route test -/

/-- The re-route test of a millisecond moves the ports alone (R386). -/
theorem execRerouteTest_spec (ofs : Nat) (s : State) (h : s.fp.rrMs < (s.at ofs).tk.now / (1000000 * uNs)) :
    ∃ t, execRerouteTest ofs s = .next t ∧
      Ported (fun _ _ => ()) { s.at ofs with fp := { s.fp with rrMs := (s.at ofs).tk.now / (1000000 * uNs) } } t := by
  have hstep : ∀ (t : State) (p : Nat), Ported (fun _ _ => ()) t
      (if (t.port p).obj = [] then t else (List.range 128).foldl (fun t o => t.reroute p o) t) := fun t p =>
    .ite (.refl t) (.foldl (fun t o => t.reroute p o) (fun t o => State.reroute_ported blind_calm t p o) _ t)
  exact ⟨_, if_pos h, .foldl _ hstep _ _⟩

/-! ### The partners' ages -/

/-- A state but for its partners, the events and the recorder. -/
def State.partnerless (s : State) : State :=
  { s with fp := { s.fp with ptn := [] }, cwy := State.reset.cwy, mrm := State.reset.mrm }

theorem State.partnerless_raise (s : State) (code addr cause val val2) :
    (s.raise code addr cause val val2).partnerless = s.partnerless := by
  obtain ⟨m, pq, pqMax, evs, h⟩ := s.raise_eq code addr cause val val2
  rw [h]
  rfl

/-- One partner ages by one millisecond (R382). -/
def State.agePartner (addr : AddrWord) (t : State) (e : Nat × PtnS) : State :=
  if e.2.st = 0 then t
  else
    let age := satInc e.2.age max16
    let t1 := t.updPartner e.1 (fun r => { r with age := age })
    if e.2.tmo ≤ age ∧ e.2.st ≠ 3 ∧ ¬ (e.2.st = 2 ∧ e.2.age = 0) then
      (t1.updPartner e.1 (fun r => { r with st := 3, losses := satInc r.losses max16 })).raise 93 addr 1 e.2.addr e.1
    else t1

theorem State.partnerless_agePartner (addr : AddrWord) (t : State) (e : Nat × PtnS) : (t.agePartner addr e).partnerless = t.partnerless := by
  unfold State.agePartner
  extract_lets age t1
  have ht1 : t1.partnerless = t.partnerless := rfl
  split
  · rfl
  · split
    · exact (State.partnerless_raise ..).trans ht1
    · exact ht1

/-- A change of the only partner record reads back. -/
theorem Store.get_upd_single (n : Nat) (r : PtnS) (f : PtnS → PtnS) :
    Store.get (fun _ => PtnS.init) (Store.upd (fun _ => PtnS.init) [(n, r)] n f) n = f r := by
  have hget : Store.get (fun _ => PtnS.init) [(n, r)] n = r := by simp [Store.get]
  unfold Store.upd
  rw [hget]
  unfold Store.put
  rw [if_pos rfl]
  split
  · simp [Store.get, *]
  · simp [Store.get]

/-- The only partner record is the one changed, or none where it has become the record of an unused partner. -/
theorem Store.upd_single (n : Nat) (r : PtnS) (f : PtnS → PtnS) (h : f r ≠ PtnS.init) :
    Store.upd (fun _ => PtnS.init) [(n, r)] n f = [(n, f r)] := by
  have hget : Store.get (fun _ => PtnS.init) [(n, r)] n = r := by simp [Store.get]
  unfold Store.upd
  rw [hget]
  unfold Store.put
  rw [if_pos rfl, if_neg h]

theorem State.ptn_updPartner (s : State) (n : Nat) (f : PtnS → PtnS) :
    (s.updPartner n f).fp.ptn = Store.upd (fun _ => PtnS.init) s.fp.ptn n f := rfl

/-- The only partner of a deck ages by one millisecond (R382). -/
theorem State.agePartner_single (addr : AddrWord) (t : State) (n : Nat) (r : PtnS) (hptn : t.fp.ptn = [(n, r)]) (hst : r.st ≠ 0) :
    Store.get (fun _ => PtnS.init) (t.agePartner addr (n, r)).fp.ptn n =
      if r.tmo ≤ satInc r.age max16 ∧ r.st ≠ 3 ∧ ¬ (r.st = 2 ∧ r.age = 0) then
        { r with age := satInc r.age max16, st := 3, losses := satInc r.losses max16 }
      else { r with age := satInc r.age max16 } := by
  have haged : ({ r with age := satInc r.age max16 } : PtnS) ≠ PtnS.init := fun h => hst (congrArg PtnS.st h)
  unfold State.agePartner
  rw [if_neg hst]
  extract_lets age t1
  have ht1 : t1.fp.ptn = [(n, { r with age := age })] := by
    rw [State.ptn_updPartner, hptn]
    exact Store.upd_single n r _ haged
  split
  · rw [State.fp_raise, State.ptn_updPartner, ht1]
    exact Store.get_upd_single ..
  · rw [ht1]
    simp only [Store.get, if_true]
    rfl

/-- Settles O55 (R379, R382, R386). -/
theorem ledgerAndPartners : Obligations.LedgerAndPartners := by
  refine ⟨fun k ofs s hok => ⟨fun habut => if_pos habut, fun habut => ?_⟩, fun ofs s => ?_, fun ofs s => ?_⟩
  · let u := (s.at ofs).setReg 0x2C010 (wd k.val)
    have hself : u.reg 0x2C010 = wd k.val := State.reg_setReg_same _ _ _ (wf_bar hok)
    have hother : ∀ o, o ≠ 0x2C010 → u.reg o = s.reg o := fun o ho => State.reg_setReg_ne _ _ _ _ (wf_bar hok) ho
    have hexec : exec (.ldgSel k ofs) s = match s.fp.rangeOf k.val with
        | some (c, j) => .next { u with fp := { u.fp with
            rdHdr := { (u.fp.ldg k.val) with k := 1 }, rdData := (c.data.drop (64 * j)).take 64 } }
        | none => .next { u with fp := { u.fp with
            rdHdr := u.fp.ldg k.val, rdData := (u.fp.ldg k.val).data,
            slot := Store.put (fun _ => LdgSlot.empty) u.fp.slot k.val { u.fp.ldg k.val with unread := false, ovr := 0 } } } := by
      refine (if_neg (ne_true_of_eq_false habut)).trans ?_
      change (match s.fp.rangeOf k.val with | some (c, j) => _ | none => _) = _
      cases s.fp.rangeOf k.val <;> rfl
    rw [hexec]
    cases s.fp.rangeOf k.val with
    | none => exact ⟨_, rfl, hself, hother, rfl, rfl, rfl, fun _ => ⟨rfl, rfl⟩, fun c j h => by cases h⟩
    | some cj =>
      obtain ⟨c, j⟩ := cj
      refine ⟨_, rfl, hself, hother, rfl, rfl, rfl, ?_, fun c' j' h => ?_⟩
      · intro h
        cases h
      · obtain ⟨rfl, rfl⟩ := Prod.mk.inj (Option.some.inj h)
        exact ⟨rfl, rfl, rfl⟩
  · intro ms
    refine ⟨fun hnew => ?_, fun hold => if_neg (Nat.not_lt.mpr hold)⟩
    obtain ⟨t, hexec, hrun⟩ := execRerouteTest_spec ofs s hnew
    obtain ⟨hrr, hage, -⟩ := hrun.ms
    exact ⟨t, hexec, hrr, hage, hrun.bar, hrun.legs, hrun.cur, hrun.stage, hrun.kst⟩
  · intro ms
    refine ⟨fun hready hnew => ?_, fun hnone => if_neg fun ⟨hready, hnew⟩ => ?_⟩
    · let u := s.at ofs
      let a : State := { u with fp := { u.fp with ageMs := u.fp.ageMs + 1 } }
      have hexec : exec (.partnerAgeTick ofs) s = .next (s.fp.ptn.foldl (State.agePartner u.deckAddr) a) := if_pos ⟨hready, hnew⟩
      have hless := view_foldl State.partnerless (State.agePartner u.deckAddr) (State.partnerless_agePartner u.deckAddr) s.fp.ptn a
      refine ⟨_, hexec, eq_of_view _ hless (fun t => t.fp.ageMs) fun _ => rfl, eq_of_view _ hless (fun t => t.fp.rrMs) fun _ => rfl,
        eq_of_view _ hless (fun t => t.fp.port) fun _ => rfl, eq_of_view _ hless State.bar fun _ => rfl,
        eq_of_view _ hless State.legs fun _ => rfl, eq_of_view _ hless State.cur fun _ => rfl,
        eq_of_view _ hless State.stage fun _ => rfl, fun n r hptn hst => ?_⟩
      have hrec := a.agePartner_single u.deckAddr n r hptn hst
      have hfold : s.fp.ptn.foldl (State.agePartner u.deckAddr) a = a.agePartner u.deckAddr (n, r) := by
        rw [hptn]
        rfl
      rw [hfold, hrec]
      refine ⟨?_, fun hlate hother => ?_, fun hfresh => ?_, fun hearly => ?_⟩
      · split <;> rfl
      · split
        case isTrue => rfl
        case isFalse h =>
          by_contra hne
          exact h ⟨hlate, hne, hother⟩
      · rw [if_neg fun h => h.2.2 hfresh]
        exact hfresh.1
      · rw [if_neg fun h => absurd h.1 (Nat.not_le.mpr hearly)]
    · rcases hnone with h | h
      · exact absurd (hready.symm.trans h) (by decide)
      · exact absurd hnew (Nat.not_lt.mpr h)

end Sys2Proof.Machine
end

section
/-! PROOFS. The rounds of the Trestle (R393 to R399). -/
namespace Sys2Proof.Machine

/-! ### A failed start -/

/-- A state but for what a failed start moves. -/
def State.unstarted (s : State) : State :=
  { s with start := State.reset.start, par := State.reset.par, cwy := State.reset.cwy, vdt := State.reset.vdt, fp := State.reset.fp,
           mrm := State.reset.mrm, legs := State.reset.legs }

theorem State.unstarted_raise (s : State) (code addr cause val val2) : (s.raise code addr cause val val2).unstarted = s.unstarted := by
  obtain ⟨m, pq, pqMax, evs, h⟩ := s.raise_eq code addr cause val val2
  rw [h]
  rfl

theorem State.unstarted_abutment (s : State) (cause : Nat) : (s.abutment cause).unstarted = s.unstarted := by
  unfold State.abutment
  generalize List.range 48 = ports
  extract_lets -merge +onlyGivenNames _ _ _ s1 s2
  have h1 : s1.unstarted = s.unstarted := rfl
  have h2 : s2.unstarted = s1.unstarted :=
    view_foldl State.unstarted (fun t p => t.updPort p (fun x => { x with st := .off, tx := none })) (fun _ _ => rfl) ports s1
  have hdrive : Driven (s2.raise 98 s.deckAddr cause 0 0) ((s2.raise 98 s.deckAddr cause 0 0).driveAll allLegs) := State.driveAll_driven ..
  clear_value s2
  exact (eq_of_view _ hdrive.rest State.unstarted fun _ => rfl).trans ((s2.unstarted_raise ..).trans (h2.trans h1))

theorem State.unstarted_startRaise (s : State) (q : StartS) (code addr cause val val2) :
    (({ s with start := q }).raise code addr cause val val2).unstarted = s.unstarted := (State.unstarted_raise ..).trans rfl

/-- A failed start keeps the registers, the inputs, the controlled state, the Trestle and the tick (R400). -/
theorem State.unstarted_startFail (s : State) (cause : Nat) : (s.startFail cause).unstarted = s.unstarted := by
  have hreject : ∀ u : State, u.rejectPending.unstarted = u.unstarted := by
    intro u
    unfold State.rejectPending
    extract_lets _ v
    have hv : v.unstarted = u.unstarted := by
      simp only [v]
      split
      · exact State.unstarted_startRaise ..
      · rfl
    clear_value v
    split
    · exact (State.unstarted_startRaise ..).trans hv
    · exact hv
  unfold State.startFail
  extract_lets count step _ s1 s2
  have h1 : s1.unstarted = s.unstarted := rfl
  have h2 : s2.unstarted = s.unstarted := (hreject _).trans ((s1.unstarted_raise ..).trans h1)
  clear_value s2
  split
  · exact (s2.unstarted_abutment cause).trans h2
  · exact h2

/-! ### Channels of a round -/

/-- A state but for what a round moves: the events, the legs, the recorder, and of the Trestle all but the round and the
channels. -/
def State.roundless (s : State) : State :=
  { s with cwy := State.reset.cwy, mrm := State.reset.mrm, legs := State.reset.legs,
           trl := { State.reset.trl with round := s.trl.round, posted := s.trl.posted, chan := s.trl.chan } }

/-- A state but for what the channels of a round move. -/
def State.channelless (s : State) : State := State.roundless { s with trl := { s.trl with chan := [] } }

theorem State.roundless_raise (s : State) (code addr cause val val2) : (s.raise code addr cause val val2).roundless = s.roundless := by
  obtain ⟨m, pq, pqMax, evs, h⟩ := s.raise_eq code addr cause val val2
  rw [h]
  rfl

/-- The events of a channel's evaluation (R395 to R399). -/
def State.noteChannel (s : State) (c : Nat) (old x : ChanS) : State :=
  let s := if (x.brokenOpen && !old.brokenOpen) || (x.brokenShort && !old.brokenShort) then
    s.chanEvent 102 (if x.brokenOpen then 1 else 2) c x.value else s
  let s := if x.warn = old.warn then s else s.chanEvent 99 (if x.warn then 0 else 1) c x.value
  let s := if x.throt = old.throt then s else s.chanEvent 100 (if x.throt then 4 else 5) c x.value
  if x.shut && !old.shut then s.chanEvent 101 0 c x.value else s

theorem State.roundless_noteChannel (s : State) (c : Nat) (old x : ChanS) : (s.noteChannel c old x).roundless = s.roundless := by
  have hevent : ∀ (t : State) (b : Prop) [Decidable b] (code cause : Nat) (v : Int),
      (if b then t.chanEvent code cause c v else t).roundless = t.roundless := by
    intro t b _ code cause v
    split
    · exact State.roundless_raise ..
    · rfl
  have hchange : ∀ (t : State) (b : Prop) [Decidable b] (code cause : Nat) (v : Int),
      (if b then t else t.chanEvent code cause c v).roundless = t.roundless := by
    intro t b _ code cause v
    split
    · rfl
    · exact State.roundless_raise ..
  exact (hevent ..).trans ((hchange ..).trans ((hchange ..).trans (hevent ..)))

/-- The evaluation of an enabled channel at a value (R395 to R397). -/
structure ChanS.Evaluated (s : State) (c : Nat) (v : Int) (bo bs : Bool) (x : ChanS) : Prop where
  value : x.value = v
  warn : x.warn = if (s.trl.chanS c).warn then decide (s.chanLevel c 0 - s.chanHyst c 0 ≤ v) else decide (s.chanLevel c 0 ≤ v)
  shut : x.shut = if (s.trl.chanS c).shut then decide (s.chanLevel c 2 - s.chanHyst c 2 ≤ v) else decide (s.chanLevel c 2 ≤ v)
  opened : x.brokenOpen = bo
  shorted : x.brokenShort = bs

/-- The states of an enabled channel at a value (R395 to R397). -/
def State.evaluate (s : State) (c : Nat) (v : Int) (bo bs : Bool) : ChanS :=
  let old := s.trl.chanS c
  let (e, f) := throttleFactor v (old.ve.getD v) (s.chanLevel c 1) (s.chanLevel c 2) (s.chanHyst c 1)
  { value := v,
    warn := if old.warn then decide (s.chanLevel c 0 - s.chanHyst c 0 ≤ v) else decide (s.chanLevel c 0 ≤ v),
    throt := decide (s.chanLevel c 1 ≤ e),
    shut := if old.shut then decide (s.chanLevel c 2 - s.chanHyst c 2 ≤ v) else decide (s.chanLevel c 2 ≤ v),
    brokenOpen := bo, brokenShort := bs, ve := some e, f := f }

theorem State.evaluate_spec (s : State) (c : Nat) (v : Int) (bo bs : Bool) : ChanS.Evaluated s c v bo bs (s.evaluate c v bo bs) := by
  unfold State.evaluate
  obtain ⟨e, f⟩ := throttleFactor v ((s.trl.chanS c).ve.getD v) (s.chanLevel c 1) (s.chanLevel c 2) (s.chanHyst c 1)
  exact ⟨rfl, rfl, rfl, rfl, rfl⟩

/-- Posting an enabled channel (R395 to R399). -/
theorem State.postChannel_on (s : State) (c : Nat) (r : Reading) (v : Int) (bo bs : Bool) (hused : s.chanUnused c = false)
    (hon : s.chanOn c = true) (hr : readingOf (isTempChan c) (s.trl.chanS c).value r = (v, bo, bs)) :
    ∃ broken shut, s.postChannel c r = State.noteChannel { s with trl := { s.trl with
      chan := Store.put (fun _ => ChanS.init) s.trl.chan c (s.evaluate c v bo bs), brokenSeen := broken, shutSeen := shut } }
      c (s.trl.chanS c) (s.evaluate c v bo bs) := by
  unfold State.postChannel State.evaluate
  extract_lets old
  rw [if_neg (ne_true_of_eq_false hused)]
  simp only [old, hr]
  rw [if_neg (by simp [hon])]
  obtain ⟨e, f⟩ := throttleFactor v ((s.trl.chanS c).ve.getD v) (s.chanLevel c 1) (s.chanLevel c 2) (s.chanHyst c 1)
  exact ⟨_, _, rfl⟩

/-- Posting a channel (R395 to R397): its own value, and its states where it is enabled. -/
theorem State.postChannel_spec (s : State) (c : Nat) (r : Reading) (v : Int) (bo bs : Bool) (hused : s.chanUnused c = false)
    (hr : readingOf (isTempChan c) (s.trl.chanS c).value r = (v, bo, bs)) :
    ∃ x, (s.postChannel c r).roundless =
        State.roundless { s with trl := { s.trl with chan := Store.put (fun _ => ChanS.init) s.trl.chan c x } } ∧
      x.value = v ∧ (s.chanOn c = true → ChanS.Evaluated s c v bo bs x) := by
  by_cases hon : s.chanOn c = true
  · obtain ⟨broken, shut, hpost⟩ := s.postChannel_on c r v bo bs hused hon hr
    rw [hpost]
    exact ⟨_, (State.roundless_noteChannel ..).trans rfl, (s.evaluate_spec c v bo bs).value, fun _ => s.evaluate_spec c v bo bs⟩
  · have hpost : s.postChannel c r =
        { s with trl := { s.trl with chan := Store.put (fun _ => ChanS.init) s.trl.chan c { s.trl.chanS c with value := v } } } := by
      unfold State.postChannel
      extract_lets old
      rw [if_neg (ne_true_of_eq_false hused)]
      simp only [old, hr]
      exact if_pos (by simp [hon])
    rw [hpost]
    exact ⟨_, rfl, rfl, fun h => absurd h hon⟩

/-- Posting a channel leaves the rest of the deck, and the other channels. -/
theorem State.postChannel_frame (s : State) (c : Nat) (r : Reading) :
    (s.postChannel c r).channelless = s.channelless ∧
    (Store.wf (fun _ => ChanS.init) s.trl.chan = true → Store.wf (fun _ => ChanS.init) (s.postChannel c r).trl.chan = true ∧
      ∀ k, k ≠ c → (s.postChannel c r).trl.chanS k = s.trl.chanS k) := by
  by_cases hused : s.chanUnused c = true
  · have hpost : s.postChannel c r = s := if_pos hused
    rw [hpost]
    exact ⟨rfl, fun h => ⟨h, fun _ _ => rfl⟩⟩
  · obtain ⟨x, hpost, -, -⟩ := s.postChannel_spec c r _ _ _ (Bool.eq_false_of_not_eq_true hused) rfl
    refine ⟨(eq_of_view _ hpost State.channelless fun _ => rfl).trans rfl, fun h => ?_⟩
    have hchan : (s.postChannel c r).trl.chan = Store.put (fun _ => ChanS.init) s.trl.chan c x :=
      eq_of_view _ hpost (fun t => t.trl.chan) fun _ => rfl
    unfold TrlS.chanS
    rw [hchan]
    exact ⟨Store.put_wf h, fun k hk => Store.get_put_ne h hk⟩

/-- The reading of a channel in a round: the one the command names, or that of the round before (R393). -/
def State.postNamed (rs : List (Chan × Reading)) (t : State) (c : Nat) : State :=
  match rs.find? (fun p => decide (p.1.val = c)) with
  | some p => t.postChannel c p.2
  | none => if t.trl.posted && isTempChan c then t.postChannel c (match t.trl.chanS c with
      | x => if x.brokenOpen then .opened else if x.brokenShort then .shorted else .value x.value) else t

theorem State.postNamed_frame (rs : List (Chan × Reading)) (s : State) (c : Nat) :
    (s.postNamed rs c).channelless = s.channelless ∧
    (Store.wf (fun _ => ChanS.init) s.trl.chan = true → Store.wf (fun _ => ChanS.init) (s.postNamed rs c).trl.chan = true ∧
      ∀ k, k ≠ c → (s.postNamed rs c).trl.chanS k = s.trl.chanS k) := by
  unfold State.postNamed
  cases rs.find? (fun p => decide (p.1.val = c)) with
  | some p => exact s.postChannel_frame c p.2
  | none =>
    dsimp only
    split
    · exact s.postChannel_frame c _
    · exact ⟨rfl, fun h => ⟨h, fun _ _ => rfl⟩⟩

/-- The channels of a list leave the rest of the deck, and the channels beside them. -/
theorem State.postNamed_foldl (rs : List (Chan × Reading)) (cs : List Nat) (s : State) :
    (cs.foldl (State.postNamed rs) s).channelless = s.channelless ∧
    (Store.wf (fun _ => ChanS.init) s.trl.chan = true → Store.wf (fun _ => ChanS.init) (cs.foldl (State.postNamed rs) s).trl.chan = true ∧
      ∀ k, k ∉ cs → (cs.foldl (State.postNamed rs) s).trl.chanS k = s.trl.chanS k) := by
  induction cs generalizing s with
  | nil => exact ⟨rfl, fun h => ⟨h, fun _ _ => rfl⟩⟩
  | cons c cs ih =>
    obtain ⟨hless, hchan⟩ := s.postNamed_frame rs c
    obtain ⟨hless', hchan'⟩ := ih (s.postNamed rs c)
    refine ⟨hless'.trans hless, fun h => ?_⟩
    obtain ⟨hwf, hother⟩ := hchan h
    obtain ⟨hwf', hother'⟩ := hchan' hwf
    exact ⟨hwf', fun k hk => (hother' k fun h => hk (List.mem_cons_of_mem c h)).trans (hother k fun h => hk (h ▸ List.mem_cons_self))⟩

/-- The one channel that a round names is evaluated at its value (R395 to R397). -/
theorem State.postNamed_single (s : State) (c : Chan) (v : Int) (hwf : Store.wf (fun _ => ChanS.init) s.trl.chan = true)
    (hused : s.chanUnused c.val = false) :
    let x := ((List.range 64).foldl (State.postNamed [(c, .value v)]) s).trl.chanS c.val
    x.value = sat16 v ∧ (s.chanOn c.val = true → ChanS.Evaluated s c.val (sat16 v) false false x) := by
  intro x
  obtain ⟨before, after, hsplit⟩ := List.append_of_mem (List.mem_range.mpr c.isLt)
  have hnodup : (before ++ c.val :: after).Nodup := hsplit ▸ List.nodup_range
  have hbefore : c.val ∉ before := fun h => (List.disjoint_of_nodup_append hnodup) h List.mem_cons_self
  have hafter : c.val ∉ after := (List.nodup_cons.mp hnodup.of_append_right).1
  let a := before.foldl (State.postNamed [(c, .value v)]) s
  obtain ⟨haless, hachan⟩ := State.postNamed_foldl [(c, .value v)] before s
  obtain ⟨hawf, hasame⟩ := hachan hwf
  have hac : a.trl.chanS c.val = s.trl.chanS c.val := hasame _ hbefore
  have hnamed : a.postNamed [(c, .value v)] c.val = a.postChannel c.val (.value v) := by
    unfold State.postNamed
    simp
  have haused : a.chanUnused c.val = false := (eq_of_view _ haless (fun t => t.chanUnused c.val) fun _ => rfl).trans hused
  obtain ⟨y, hpost, hvalue, heval⟩ := a.postChannel_spec c.val (.value v) (sat16 v) false false haused rfl
  have hx : x = y := by
    have hb : (a.postChannel c.val (.value v)).trl.chan = Store.put (fun _ => ChanS.init) a.trl.chan c.val y :=
      eq_of_view _ hpost (fun t => t.trl.chan) fun _ => rfl
    have hbwf : Store.wf (fun _ => ChanS.init) (a.postChannel c.val (.value v)).trl.chan = true := by
      rw [hb]
      exact Store.put_wf hawf
    obtain ⟨-, hcchan⟩ := State.postNamed_foldl [(c, .value v)] after (a.postChannel c.val (.value v))
    have hfold : (List.range 64).foldl (State.postNamed [(c, .value v)]) s =
        after.foldl (State.postNamed [(c, .value v)]) (a.postChannel c.val (.value v)) := by
      rw [hsplit, List.foldl_append, List.foldl_cons, hnamed]
    simp only [x]
    rw [hfold, (hcchan hbwf).2 _ hafter]
    unfold TrlS.chanS
    rw [hb]
    exact Store.get_put_same hawf
  rw [hx]
  refine ⟨hvalue, fun hon => ?_⟩
  obtain ⟨h1, h2, h3, h4, h5⟩ := heval ((eq_of_view _ haless (fun t => t.chanOn c.val) fun _ => rfl).trans hon)
  have hlevel : ∀ k, a.chanLevel c.val k = s.chanLevel c.val k := fun k => eq_of_view _ haless (fun t => t.chanLevel c.val k) fun _ => rfl
  have hhyst : ∀ k, a.chanHyst c.val k = s.chanHyst c.val k := fun k => eq_of_view _ haless (fun t => t.chanHyst c.val k) fun _ => rfl
  rw [hac, hlevel, hhyst] at h2 h3
  exact ⟨h1, h2, h3, h4, h5⟩

/-! ### The Bearing supply and the factors -/

/-- A change of the Bearing supply's state keeps what a round keeps (R400). -/
theorem State.roundless_brgTo (s : State) (st : BrgSt) (cause : Nat) : (s.brgTo st cause).roundless = s.roundless := by
  have hlost : ∀ u : State, u.hvSupplyLost.roundless = u.roundless := by
    intro u
    unfold State.hvSupplyLost
    generalize List.range 28 = ls
    have hdrive := State.driveAll_driven (u.updLegs ls (fun _ g => { g with
      uvHsPos := true, uvHsNeg := true, uvLsPos := true, uvLsNeg := true, uvClear := false,
      brgLost := g.brgLost || !(g.uvHsPos || g.uvHsNeg || g.uvLsPos || g.uvLsNeg) })) ls
    refine (eq_of_view _ hdrive.rest State.roundless fun _ => rfl).trans ?_
    rw [State.updLegs_eq]
    rfl
  unfold State.brgTo
  extract_lets was fault _ s1 s2
  have h1 : s1.roundless = s.roundless := rfl
  have h2 : s2.roundless = s.roundless := (s1.roundless_raise ..).trans h1
  clear_value s2
  split
  · exact (hlost s2).trans h2
  · exact h2

theorem State.roundless_postBearing (s : State) : s.postBearing.roundless = s.roundless := by
  unfold State.postBearing
  extract_lets v out
  split
  · split
    · exact s.roundless_brgTo .fault 4
    · rfl
  · rfl

theorem State.roundless_postFactors (s : State) : s.postFactors.roundless = s.roundless := by
  have hderate : ∀ (u : State) (old new : Int) (xs : List Span), (u.derateEvent old new xs).roundless = u.roundless := by
    intro u old new xs
    refine view_foldl State.roundless _ (fun t x => ?_) xs u
    have hevent : ∀ (w : State) (b : Prop) [Decidable b] (cause : Nat),
        (if b then w.raise 100 (w.spanAddr x) cause new 0 else w).roundless = w.roundless := by
      intro w b _ cause
      split
      · exact State.roundless_raise ..
      · rfl
    exact (hevent ..).trans ((hevent ..).trans (hevent ..))
  unfold State.postFactors
  exact (hderate ..).trans ((hderate ..).trans ((hderate ..).trans rfl))

/-! ### A round -/

/-- A round that is due posts its channels, and fails a start where a die channel is shut down (R393, R408). -/
theorem execTrestleRoundPost_due (rs : List (Chan × Reading)) (s : State) :
    let r := max (if s.trl.posted then s.trl.round + 1 else 0) ((s.tk.now - 20000 * uNs) / (1000000 * uNs) - 1)
    let due := (r + 1) * (1000000 * uNs) + 20000 * uNs
    let a : State := { s.goto due with trl := { s.trl with round := r, posted := true } }
    s.reaches due = true → ∃ t, execTrestleRoundPost rs s = .next t ∧
      t.unstarted = ((List.range 64).foldl (State.postNamed rs) a).postBearing.postFactors.unstarted ∧
      (s.start.running = false → t = ((List.range 64).foldl (State.postNamed rs) a).postBearing.postFactors) := by
  intro r due a hdue
  let b := ((List.range 64).foldl (State.postNamed rs) a).postBearing.postFactors
  let die : Bool := (List.range 4).any (fun k => (b.trl.chanS (42 + k)).shut)
  have hexec : execTrestleRoundPost rs s = .next (if b.start.running = true ∧ die = true then b.startFail 19 else b) := by
    unfold execTrestleRoundPost
    extract_lets ms late r' t u v w x y die'
    rw [if_pos hdue]
    have hx : x = (List.range 64).foldl (State.postNamed rs) a := rfl
    have hy : y = b := congrArg (fun t : State => t.postBearing.postFactors) hx
    have hdie : die' = die := congrArg (fun t : State => (List.range 4).any (fun k => (t.trl.chanS (42 + k)).shut)) hy
    rw [hdie, hy]
  have hrun : b.start.running = s.start.running := by
    obtain ⟨hfold, -⟩ := State.postNamed_foldl rs (List.range 64) a
    have hb : b.roundless = ((List.range 64).foldl (State.postNamed rs) a).roundless :=
      (State.roundless_postFactors _).trans (State.roundless_postBearing _)
    exact (eq_of_view _ hb (fun t => t.start.running) fun _ => rfl).trans (eq_of_view _ hfold (fun t => t.start.running) fun _ => rfl)
  refine ⟨_, hexec, ?_, fun hidle => if_neg fun h => ?_⟩
  · split
    · exact b.unstarted_startFail 19
    · rfl
  · exact absurd (h.1.symm.trans (hrun.trans hidle)) (by decide)

/-- The first part of the Trestle's obligation: a round (R393 to R397). -/
theorem execTrestleRoundPost_spec (rs : List (Chan × Reading)) (s : State) :
    let r := max (if s.trl.posted then s.trl.round + 1 else 0) ((s.tk.now - 20000 * uNs) / (1000000 * uNs) - 1)
    let due := (r + 1) * (1000000 * uNs) + 20000 * uNs
    s.reaches due = true → ∃ t, execTrestleRoundPost rs s = .next t ∧ t.trl.round = r ∧ t.trl.posted = true ∧
      t.tk.now = max s.tk.now due ∧ t.bar = s.bar ∧ t.adc = s.adc ∧ t.cur = s.cur ∧ (s.start.running = false → t.par = s.par) ∧
      ∀ (c : Chan) (v : Int), rs = [(c, .value v)] → Store.wf (fun _ => ChanS.init) s.trl.chan = true → s.chanUnused c.val = false →
        (t.trl.chanS c.val).value = sat16 v ∧
        (s.chanOn c.val = true → ChanS.Evaluated s c.val (sat16 v) false false (t.trl.chanS c.val)) := by
  intro r due hdue
  obtain ⟨t, hexec, hstart, hidle⟩ := execTrestleRoundPost_due rs s hdue
  let a : State := { s.goto due with trl := { s.trl with round := r, posted := true } }
  let b := (List.range 64).foldl (State.postNamed rs) a
  have hb : b.postBearing.postFactors.roundless = b.roundless := (State.roundless_postFactors _).trans (State.roundless_postBearing _)
  have hfold : b.channelless = a.channelless := (State.postNamed_foldl rs (List.range 64) a).1
  have hround : b.postBearing.postFactors.channelless = a.channelless := (eq_of_view _ hb State.channelless fun _ => rfl).trans hfold
  have htrl : t.trl = b.postBearing.postFactors.trl := eq_of_view _ hstart State.trl fun _ => rfl
  have hchan : t.trl.chan = b.trl.chan := (congrArg TrlS.chan htrl).trans (eq_of_view _ hb (fun t => t.trl.chan) fun _ => rfl)
  refine ⟨t, hexec, ?_, ?_, ?_, ?_, ?_, ?_, fun h => ?_, fun c v hrs hwf hused => ?_⟩
  · exact (congrArg TrlS.round htrl).trans (eq_of_view _ hround (fun t => t.trl.round) fun _ => rfl)
  · exact (congrArg TrlS.posted htrl).trans (eq_of_view _ hround (fun t => t.trl.posted) fun _ => rfl)
  · exact (eq_of_view _ hstart (fun t => t.tk.now) fun _ => rfl).trans (eq_of_view _ hround (fun t => t.tk.now) fun _ => rfl)
  · exact (eq_of_view _ hstart State.bar fun _ => rfl).trans (eq_of_view _ hround State.bar fun _ => rfl)
  · exact (eq_of_view _ hstart State.adc fun _ => rfl).trans (eq_of_view _ hround State.adc fun _ => rfl)
  · exact (eq_of_view _ hstart State.cur fun _ => rfl).trans (eq_of_view _ hround State.cur fun _ => rfl)
  · rw [hidle h]
    exact eq_of_view _ hround State.par fun _ => rfl
  · have hx := a.postNamed_single c v hwf hused
    rw [← hrs] at hx
    unfold TrlS.chanS
    rw [hchan]
    obtain ⟨hvalue, heval⟩ := hx
    refine ⟨hvalue, fun hon => ?_⟩
    obtain ⟨h1, h2, h3, h4, h5⟩ := heval hon
    exact ⟨h1, h2, h3, h4, h5⟩

end Sys2Proof.Machine
end

section
/-! PROOFS. The Bearing supply and VSUP (R135, R400 to R404, R424). -/
namespace Sys2Proof.Machine

/-! ### The Bearing supply -/

/-- The undervoltage bits of a leg. -/
def LegS.uvAll (g : LegS) : Bool × Bool × Bool × Bool := (g.uvHsPos, g.uvHsNeg, g.uvLsPos, g.uvLsNeg)

/-- A lost high-voltage supply moves legs alone, and sets the undervoltage of each HV leg (R135). -/
theorem State.hvSupplyLost_spec (s : State) (h : s.partsOk = true) :
    s.hvSupplyLost.legless = s.legless ∧ ∀ l, l < 28 → (s.hvSupplyLost.leg l).uvAll = (true, true, true, true) := by
  let f := fun (g : LegS) => { g with
    uvHsPos := true, uvHsNeg := true, uvLsPos := true, uvLsNeg := true, uvClear := false,
    brgLost := g.brgLost || !(g.uvHsPos || g.uvHsNeg || g.uvLsPos || g.uvLsNeg) }
  have hmem : ∀ l, l < 28 → l ∈ List.range 28 := fun l => List.mem_range.mpr
  have hlost : s.hvSupplyLost = (s.updLegs (List.range 28) (fun _ => f)).driveAll (List.range 28) := rfl
  rw [hlost]
  generalize List.range 28 = ls at hmem
  have hok := State.updLegs_sound s ls (fun _ => f) h
  have hdrive := State.driveAll_driven (s.updLegs ls (fun _ => f)) ls
  have hidem : ∀ g, f (f g) = f g := fun g => by simp [f]
  refine ⟨hdrive.rest.trans ?_, fun l hl => ?_⟩
  · rw [State.updLegs_eq]
    rfl
  · rw [hdrive.field hok LegS.uvAll fun _ => rfl, State.leg_updLegs h f hidem, if_pos (hmem l hl)]
    rfl

/-- A change of the Bearing supply's state (R135, R400). -/
theorem State.brgTo_spec (s : State) (st : BrgSt) (cause : Nat) (h : s.partsOk = true) :
    (s.brgTo st cause).trl.brg = st ∧ (s.brgTo st cause).trl.brgAt = s.tk.now ∧
    s.reports (s.brgTo st cause) 103 s.deckAddr cause st.code 0 ∧
    (s.trl.brg ≠ .on → (s.brgTo st cause).legs = s.legs) ∧
    (s.trl.brg = .on → ∀ l, l < 28 → ((s.brgTo st cause).leg l).uvAll = (true, true, true, true)) ∧
    (st = .fault → (s.brgTo st cause).trl.brgFault = true ∧ (s.brgTo st cause).trl.brgCount = satInc s.trl.brgCount max16) := by
  unfold State.brgTo
  extract_lets was fault _ s1 s2
  have hwas : was = true ↔ s.trl.brg = .on := decide_eq_true_iff
  have htrl : s2.trl = s1.trl := State.trl_raise ..
  have hlegs : s2.legs = s.legs := State.legs_raise ..
  have hrep : s.reports s2 103 s.deckAddr cause st.code 0 := s1.raise_reports _ _ _ _ _ (by decide)
  have hok : s2.partsOk = true := s1.raise_sound _ _ _ _ _ h
  have hfault : st = .fault → s1.trl.brgFault = true ∧ s1.trl.brgCount = satInc s.trl.brgCount max16 := by
    intro hst
    have hf : fault = true := decide_eq_true hst
    simp [s1, hf]
  have hst : s1.trl.brg = st ∧ s1.trl.brgAt = s.tk.now := ⟨rfl, rfl⟩
  clear_value s2
  obtain ⟨hless, huv⟩ := s2.hvSupplyLost_spec hok
  have hltrl : s2.hvSupplyLost.trl = s1.trl := (eq_of_view _ hless State.trl fun _ => rfl).trans htrl
  have hlcwy : s2.hvSupplyLost.cwy = s2.cwy := eq_of_view _ hless State.cwy fun _ => rfl
  split
  case isTrue hon =>
    rw [hltrl]
    refine ⟨hst.1, hst.2, ?_, fun hne => absurd (hwas.mp hon) hne, fun _ => huv, hfault⟩
    unfold State.reports at hrep ⊢
    rw [hlcwy]
    exact hrep
  case isFalse hoff =>
    rw [htrl]
    exact ⟨hst.1, hst.2, hrep, fun _ => hlegs, fun hon => absurd (hwas.mpr hon) hoff, hfault⟩

/-! ### VSUP -/

/-- The end of the memory's block command by a fault keeps all but the Causeway and the recorder. -/
theorem State.ringless_jobFault (s : State) : s.jobFault.ringless = s.ringless ∧ s.jobFault.cwy.evs = s.cwy.evs := by
  unfold State.jobFault State.jobDone
  generalize s.mrm.writes.filter (fun w => !w.isChange) = ws
  dsimp only
  split
  · exact ⟨rfl, rfl⟩
  · exact ⟨rfl, rfl⟩

/-- An event noted outside a freeze drops nothing. -/
theorem State.dropped_raise (s : State) (code addr cause val val2) (h : s.trl.frozen = false) :
    (s.raise code addr cause val val2).mrm.dropped = s.mrm.dropped := by
  have hlog : ∀ e, (s.logEvent e).mrm.dropped = s.mrm.dropped := by
    intro e
    have hlogged : s.logEvent e = { s with mrm := { s.mrm with writes := s.mrm.writes ++ [.event e] } } := if_pos (by simp [h])
    rw [hlogged]
  have hnote : ∀ (t : State) e, (t.noteTrigger e).mrm.dropped = t.mrm.dropped := by
    intro t e
    unfold State.noteTrigger
    split
    · rfl
    · rfl
  unfold State.raise
  extract_lets e t pq
  have ht : t.mrm.dropped = s.mrm.dropped := (hnote _ _).trans (hlog e)
  split
  · exact ht
  · exact ht

/-- An event that waits goes on waiting as others are raised. -/
theorem State.raise_keeps_events (s : State) (code addr cause val val2) (e : Event) (h : e ∈ s.cwy.evs) :
    e ∈ (s.raise code addr cause val val2).cwy.evs := by
  unfold State.raise
  simp only [State.noteTrigger_cwy, State.logEvent_cwy]
  split
  · exact h
  · exact List.mem_append_left _ h

/-- An event that is reported waits. -/
theorem State.reports_mem {s t : State} {code : Nat} {addr : AddrWord} {cause : Nat} {val val2 : Int}
    (h : s.reports t code addr cause val val2) : ∃ e ∈ t.cwy.evs, e.code = code ∧ e.addr = addr ∧ e.cause = cause ∧ e.val = val := by
  obtain ⟨e, hevs, hcode, haddr, hcause, hval, -⟩ := h
  exact ⟨e, hevs ▸ List.mem_append_right _ (List.mem_singleton_self e), hcode, haddr, hcause, hval⟩

/-- What VSUP's states leave alone. -/
def State.Still (s t : State) : Prop :=
  t.bar = s.bar ∧ t.legs = s.legs ∧ t.cur = s.cur ∧ t.stage = s.stage ∧ t.kst = s.kst ∧ t.start = s.start

theorem State.still_raise (s : State) (code addr cause val val2) : s.Still (s.raise code addr cause val val2) :=
  ⟨State.bar_raise .., State.legs_raise .., State.cur_raise .., State.stage_raise .., State.kst_raise .., State.start_raise ..⟩

theorem State.Still.trans {s t u : State} (h : s.Still t) (k : t.Still u) : s.Still u := by
  obtain ⟨h1, h2, h3, h4, h5, h6⟩ := h
  obtain ⟨k1, k2, k3, k4, k5, k6⟩ := k
  exact ⟨k1.trans h1, k2.trans h2, k3.trans h3, k4.trans h4, k5.trans h5, k6.trans h6⟩

/-- VSUP falls below its threshold (R402). -/
theorem execVsupWarn_spec (cross ofs : Nat) (s : State) (hst : s.trl.vsup = .normal) (hlong : (s.at ofs).filtered cross = true) :
    ∃ t, execVsupWarn cross ofs s = .next t ∧
      t.trl = { s.trl with vsup := .warn, tw := min cross ((s.at ofs).tk.now / uNs) / 1000 * 1000, frozen := true } ∧
      (∃ e ∈ t.cwy.evs, e.code = 105 ∧ e.addr = s.deckAddr) ∧ (∃ e ∈ t.cwy.evs, e.code = 112 ∧ e.cause = 1) ∧ s.Still t := by
  let u := s.at ofs
  let a : State := { u with trl := { u.trl with vsup := .warn, tw := min cross (u.tk.now / uNs) / 1000 * 1000, frozen := true } }
  let b := a.raise 105 s.deckAddr 0 0 0
  let c := b.raise 112 s.deckAddr 1 0 0
  have hexec : execVsupWarn cross ofs s = .next (if c.mrm.writes.any MramWrite.isChange then c.jobFault else c) := if_pos ⟨hst, hlong⟩
  obtain ⟨e, he, hcode, haddr, -, -⟩ := State.reports_mem (a.raise_reports 105 s.deckAddr 0 0 0 (by decide))
  obtain ⟨f, hf, hfcode, -, hfcause, -⟩ := State.reports_mem (b.raise_reports 112 s.deckAddr 1 0 0 (by decide))
  have hec : e ∈ c.cwy.evs := b.raise_keeps_events _ _ _ _ _ e he
  have htrl : c.trl = a.trl := (State.trl_raise ..).trans (State.trl_raise ..)
  have hstill : s.Still c := State.Still.trans (t := a) ⟨rfl, rfl, rfl, rfl, rfl, rfl⟩ ((a.still_raise ..).trans (b.still_raise ..))
  obtain ⟨hjob, hjobevs⟩ := c.ringless_jobFault
  refine ⟨_, hexec, ?_⟩
  split
  · refine ⟨(eq_of_view _ hjob State.trl fun _ => rfl).trans htrl, ⟨e, hjobevs ▸ hec, hcode, haddr⟩, ⟨f, hjobevs ▸ hf, hfcode, hfcause⟩,
      hstill.trans ⟨eq_of_view _ hjob State.bar fun _ => rfl, eq_of_view _ hjob State.legs fun _ => rfl,
        eq_of_view _ hjob State.cur fun _ => rfl, eq_of_view _ hjob State.stage fun _ => rfl, eq_of_view _ hjob State.kst fun _ => rfl,
        eq_of_view _ hjob State.start fun _ => rfl⟩⟩
  · exact ⟨htrl, ⟨e, hec, hcode, haddr⟩, ⟨f, hf, hfcode, hfcause⟩, hstill⟩

/-- A dip ends (R403, R424). -/
theorem execVsupDipEnd_spec (cross ofs : Nat) (s : State) (hst : s.trl.vsup ≠ .normal) (hlong : (s.at ofs).filtered cross = true) :
    let d := min ((min cross ((s.at ofs).tk.now / uNs) / 1000 * 1000 - s.trl.tw) / 1000) 0xFFFFFFFF
    ∃ t, execVsupDipEnd cross ofs s = .next t ∧ t.trl = { s.trl with
        vsup := .normal, frozen := false, dipLast := d, dipMax := max s.trl.dipMax d,
        dipCount := satInc s.trl.dipCount 0xFFFFFFFF, dip := true } ∧
      (∃ e ∈ t.cwy.evs, e.code = 106 ∧ e.addr = s.deckAddr ∧ e.val = d) ∧ t.mrm.dropped = 0 ∧ s.Still t := by
  intro d
  let u := s.at ofs
  let a : State := { u with trl := { u.trl with vsup := .normal, frozen := false }, mrm := { u.mrm with heldOther := 0, dropped := 0 } }
  let b := a.raise 112 s.deckAddr 2 u.mrm.dropped 0
  let c := b.raise 106 s.deckAddr 0 d 0
  have hexec : execVsupDipEnd cross ofs s = .next { c with trl := { c.trl with
      dipLast := d, dipMax := max c.trl.dipMax d, dipCount := satInc c.trl.dipCount max32, dip := true } } := by
    refine (if_neg ?_).trans rfl
    rintro (h | h)
    · exact hst h
    · exact absurd (hlong.symm.trans h) (by decide)
  obtain ⟨e, he, hcode, haddr, -, hval⟩ := State.reports_mem (b.raise_reports 106 s.deckAddr 0 d 0 (by decide))
  have hbtrl : b.trl = a.trl := State.trl_raise ..
  have htrl : c.trl = a.trl := (State.trl_raise ..).trans hbtrl
  have hstill : s.Still c := State.Still.trans (t := a) ⟨rfl, rfl, rfl, rfl, rfl, rfl⟩ ((a.still_raise ..).trans (b.still_raise ..))
  have hdrop : c.mrm.dropped = 0 :=
    (b.dropped_raise _ _ _ _ _ (by rw [hbtrl])).trans ((a.dropped_raise _ _ _ _ _ rfl).trans rfl)
  refine ⟨_, hexec, ?_, ⟨e, he, hcode, haddr, hval⟩, hdrop, hstill⟩
  rw [htrl]
  rfl

/-- A dip that lasts (R404). -/
theorem execVsupLongDip_spec (s : State) (hst : s.trl.vsup = .warn) (hdue : s.reaches ((s.trl.tw + 50000000) * uNs) = true) :
    ∃ t, execVsupLongDip s = .next t ∧ t.trl = { s.trl with vsup := .long, longDip := true, inLong := true } ∧
      t.opened = s.opened.dipped ∧ t.snap = s.snap.dipped ∧ s.reports t 107 s.deckAddr 0 0 0 ∧ s.Still t := by
  let u := s.goto s.longAt
  let a : State := { u with
    trl := { u.trl with vsup := .long, longDip := true, inLong := true }
    opened := u.opened.dipped
    snap := u.snap.dipped }
  have hexec : execVsupLongDip s = .next (a.raise 107 s.deckAddr 0 0 0) := if_pos ⟨hst, hdue⟩
  exact ⟨_, hexec, State.trl_raise .., State.opened_raise .., State.snap_raise .., a.raise_reports _ _ _ _ _ (by decide),
    State.Still.trans (t := a) ⟨rfl, rfl, rfl, rfl, rfl, rfl⟩ (a.still_raise ..)⟩

/-- Settles O56 (R135, R393 to R404, R424). -/
theorem trestleAndSupplies : Obligations.TrestleAndSupplies := by
  refine ⟨fun rs s => ?_, fun ofs s hok => ?_, fun cross ofs s => ?_⟩
  · intro r due
    refine ⟨fun hearly => if_neg (ne_true_of_eq_false hearly), fun hdue => ?_⟩
    obtain ⟨t, hexec, hround, hposted, hnow, hbar, hadc, hcur, hpar, hchan⟩ := execTrestleRoundPost_spec rs s hdue
    refine ⟨t, hexec, hround, hposted, hnow, hbar, hadc, hcur, hpar, fun c v hrs hwf hused => ?_⟩
    obtain ⟨hvalue, heval⟩ := hchan c v hrs hwf hused
    refine ⟨hvalue, fun hon => ?_⟩
    obtain ⟨-, hwarn, hshut, hopen, hshort⟩ := heval hon
    refine ⟨hwarn.trans ?_, hshut.trans ?_, hopen, hshort⟩
    · split <;> rfl
    · split <;> rfl
  · intro moves t20 t100 seen
    have hmoves : ∀ (c : Instr) (u : State) (st : BrgSt) (cause : Nat), exec c s = .next (u.brgTo st cause) →
        (∃ now, u = { s with tk := { s.tk with now := now } }) → moves c u st cause := by
      rintro c u st cause hexec ⟨now, rfl⟩
      obtain ⟨hbrg, hat, hrep, hlegs, huv, hfault⟩ := State.brgTo_spec { s with tk := { s.tk with now := now } } st cause hok
      have hless := State.roundless_brgTo { s with tk := { s.tk with now := now } } st cause
      refine ⟨_, hexec, hbrg, hat, eq_of_view _ hless State.tk fun _ => rfl, eq_of_view _ hless State.bar fun _ => rfl,
        eq_of_view _ hless State.adc fun _ => rfl, eq_of_view _ hless State.cur fun _ => rfl, eq_of_view _ hless State.stage fun _ => rfl,
        eq_of_view _ hless State.par fun _ => rfl, eq_of_view _ hless State.kst fun _ => rfl, hrep, hlegs, fun hon l hl => ?_, hfault⟩
      obtain ⟨h1, h2, h3, h4⟩ := Prod.ext_iff.mp (huv hon l hl) |>.imp_right fun h => Prod.ext_iff.mp h |>.imp_right Prod.ext_iff.mp
      exact ⟨h1, h2, h3, h4⟩
    have hat : ∃ now, s.at ofs = { s with tk := { s.tk with now := now } } := ⟨_, rfl⟩
    have hgoto : ∀ t, ∃ now, s.goto t = { s with tk := { s.tk with now := now } } := fun t => ⟨_, rfl⟩
    refine ⟨fun hst hseen => ?_, fun hnone => ?_, fun hst => ?_, fun hst => ?_, fun hst hdue => ?_, fun hnone => ?_, fun hst => ?_,
      fun h1 h2 => ?_, fun hst hdue => ?_, fun hnone => ?_⟩
    · exact hmoves _ _ _ _ (congrArg _ (if_pos ⟨hst, hseen⟩)) hat
    · refine congrArg _ (if_neg fun ⟨hst, hseen⟩ => ?_)
      exact hnone.elim (fun h => h hst) fun h => absurd (hseen.symm.trans h) (by decide)
    · exact hmoves _ _ _ _ (congrArg _ (if_pos hst)) hat
    · exact congrArg _ (if_neg hst)
    · exact hmoves _ _ _ _ (congrArg _ (if_pos ⟨hst, hdue⟩)) (hgoto t20)
    · refine congrArg _ (if_neg fun ⟨hst, hdue⟩ => ?_)
      exact hnone.elim (fun h => h hst) fun h => absurd (hdue.symm.trans h) (by decide)
    · exact hmoves _ _ _ _ (congrArg _ (if_pos hst)) hat
    · exact congrArg _ (if_neg fun h => h.elim h1 h2)
    · refine hmoves _ _ _ _ ((if_pos ⟨hst, hdue⟩).trans (congrArg _ ?_)) (hgoto t100)
      split <;> rfl
    · refine if_neg fun ⟨hst, hdue⟩ => ?_
      exact hnone.elim (fun h => h hst) fun h => absurd (hdue.symm.trans h) (by decide)
  · intro u t50 at7 still long
    refine ⟨fun hst hlong => execVsupWarn_spec cross ofs s hst hlong, fun hnone => ?_, fun hst hlong => execVsupDipEnd_spec cross ofs s hst hlong,
      fun hnone => if_pos hnone, fun hst hdue => execVsupLongDip_spec s hst hdue, fun hnone => ?_⟩
    · refine if_neg fun ⟨hst, hlong⟩ => ?_
      exact hnone.elim (fun h => h hst) fun h => absurd (hlong.symm.trans h) (by decide)
    · refine if_neg fun ⟨hst, hdue⟩ => ?_
      exact hnone.elim (fun h => h hst) fun h => absurd (hdue.symm.trans h) (by decide)

end Sys2Proof.Machine
end

section
/-! PROOFS. Starting and the reset of the deck (R400 to R414). -/
namespace Sys2Proof.Machine

/-! ### What writing events leaves of the MRAM -/

/-- A state but for its Causeway and what logging an event moves of the MRAM. -/
def State.unlogged (s : State) : State :=
  { s with
    cwy := State.reset.cwy
    mrm := { s.mrm with writes := [], trigs := [], heldOther := 0, holdDrop := false, dropped := 0 } }

theorem State.unlogged_logEvent (s : State) (e : Event) : (s.logEvent e).unlogged = s.unlogged := by
  unfold State.logEvent
  dsimp only
  split_ifs <;> rfl

theorem State.unlogged_noteTrigger (s : State) (e : Event) : (s.noteTrigger e).unlogged = s.unlogged := by
  unfold State.noteTrigger
  split <;> rfl

theorem State.unlogged_signal (s : State) (v : Nat) : (s.signal v).unlogged = s.unlogged := by
  unfold State.signal
  split <;> rfl

/-- Raising an event moves the Causeway and the log's own queues alone. -/
theorem State.unlogged_raise (s : State) (code addr cause val val2) : (s.raise code addr cause val val2).unlogged = s.unlogged := by
  have h : ∀ e : Event, ((s.logEvent e).noteTrigger e).unlogged = s.unlogged := fun e =>
    (State.unlogged_noteTrigger ..).trans (State.unlogged_logEvent ..)
  unfold State.raise
  dsimp only
  split
  · exact h _
  · exact h _

theorem State.unlogged_putEvent (s : State) (e : Event) : (s.putEvent e).unlogged = s.unlogged := by
  unfold State.putEvent
  exact State.unlogged_signal ..

theorem State.unlogged_judgeRsv (s : State) : s.judgeRsv.unlogged = s.unlogged := by
  unfold State.judgeRsv
  dsimp only
  split
  · exact State.unlogged_signal ..
  · rfl

theorem State.unlogged_endStorm (s : State) : s.endStorm.unlogged = s.unlogged := by
  have h : ∀ (t : State) (e : Event), ((t.logEvent e).noteTrigger e).unlogged = t.unlogged := fun t e =>
    (State.unlogged_noteTrigger ..).trans (State.unlogged_logEvent ..)
  unfold State.endStorm
  extract_lets w e t u
  have hu : u.unlogged = s.unlogged := h t e
  clear_value u
  split
  · exact (u.unlogged_putEvent e).trans hu
  · exact hu

/-- Writing the events of the tick moves the Causeway and the log's own queues alone. -/
theorem State.unlogged_writeEvents (s : State) : s.writeEvents.unlogged = s.unlogged := by
  have hput := view_foldl State.unlogged State.putEvent State.unlogged_putEvent
  unfold State.writeEvents
  extract_lets evs _ s1 lim cond all out lost s2 w s3
  split
  · rfl
  · split
    · exact (State.unlogged_judgeRsv ..).trans (hput ..)
    · have h3 : s3.unlogged = s.unlogged := hput out s1
      refine (State.unlogged_judgeRsv _).trans ?_
      split
      · exact (State.unlogged_endStorm _).trans h3
      · exact h3

/-! ### GO and ABUT -/

/-- A host write of DKID_START_CTRL sets its bits. -/
theorem State.hostWrite_startCtrl (s : State) (v : Word) (hv : v = 1#32 ∨ v = 2#32) (ofs : Nat) :
    s.hostWrite 0x60 v 0xF#4 ofs = ((s.at ofs).onBit v 0 State.go).onBit v 1 State.askAbut := by
  have hplace : regPlace 0x60 = some (.dkid, 0, 0x60) := by decide
  have hrow : regRow 0x60 = some ⟨0x60, 1, .w1s, 3⟩ := by decide
  have hmask : v &&& wd 3 = v := by
    rcases hv with rfl | rfl
    · decide
    · decide
  unfold State.hostWrite
  rw [hplace, hrow]
  dsimp only
  rw [hmask]
  simp [Block.inAbutment, State.setBits]

theorem exec_go (ofs : Nat) (s : State) : exec (.go ofs) s = .next (s.at ofs).go :=
  congrArg Host.Outcome.next (s.hostWrite_startCtrl 1#32 (.inl rfl) ofs)

theorem exec_abut (ofs : Nat) (s : State) : exec (.abut ofs) s = .next (s.at ofs).askAbut :=
  congrArg Host.Outcome.next (s.hostWrite_startCtrl 2#32 (.inr rfl) ofs)

/-- GO is noted in the steps up to 7 of a start that ticks, and ABUT before deck ready or with every span in OFF (R408,
R414). -/
theorem goAndAbut (ofs : Nat) (s : State) :
    let u := s.at ofs
    (s.start.running = true ∧ s.start.ticking = true ∧ s.start.step ≤ 7 →
      exec (.go ofs) s = .next { u with start := { s.start with go := true } }) ∧
    (s.start.running = false ∨ s.start.ticking = false ∨ 7 < s.start.step → exec (.go ofs) s = .next u) ∧
    (s.start.ready = false ∨ (∀ x : Span, s.cur.inOff x = true) →
      exec (.abut ofs) s = .next { u with start := { s.start with abutDue := true } }) ∧
    (s.start.ready = true → (∃ x : Span, s.cur.inOff x = false) → exec (.abut ofs) s = .next (u.accessViolation 0x60)) := by
  intro u
  rw [exec_go, exec_abut]
  have hall : Span.all.all s.cur.inOff = true ↔ ∀ x : Span, s.cur.inOff x = true := by
    refine List.all_eq_true.trans ⟨fun h x => h x ?_, fun h x _ => h x⟩
    cases x <;> decide
  have hgo : (u.start.running && u.start.ticking && decide (u.start.step ≤ 7)) = true ↔
      s.start.running = true ∧ s.start.ticking = true ∧ s.start.step ≤ 7 := by
    rw [Bool.and_eq_true, Bool.and_eq_true, decide_eq_true_eq, and_assoc]
    rfl
  have habut : (!u.start.ready || Span.all.all u.cur.inOff) = true ↔ s.start.ready = false ∨ ∀ x : Span, s.cur.inOff x = true := by
    rw [Bool.or_eq_true, Bool.not_eq_true', ← hall]
    rfl
  refine ⟨fun h => congrArg _ (if_pos (hgo.mpr h)), fun h => congrArg _ (if_neg fun hc => ?_), fun h => congrArg _ (if_pos (habut.mpr h)),
    fun hready ⟨x, hx⟩ => congrArg _ (if_neg fun hc => ?_)⟩
  · obtain ⟨hrun, htick, hstep⟩ := hgo.mp hc
    rcases h with h | h | h
    · exact Bool.false_ne_true (h.symm.trans hrun)
    · exact Bool.false_ne_true (h.symm.trans htick)
    · exact absurd hstep (Nat.not_le.mpr h)
  · rcases habut.mp hc with h | h
    · exact Bool.false_ne_true (h.symm.trans hready)
    · exact Bool.false_ne_true (hx.symm.trans (h x))

/-! ### The start timeout and the automatic restart -/

/-- A failed start keeps the registers, the inputs, the Keystone, the Parapet's and the legs' still part, and counts its
failure (R400). -/
theorem startTimeout_spec (s : State) :
    let x := s.start
    let by2 := x.ts + 2000000000 * uNs
    (x.running = true → s.reaches by2 = true → ∃ t, exec .startTimeout s = .next t ∧ t.start.running = false ∧
      t.start.ticking = false ∧ t.start.ready = false ∧ t.start.failCount = min 3 (x.failCount + 1) ∧
      (x.clockOk = false → t.start.lastCause = 13) ∧ (x.clockOk = true → x.go = false → t.start.lastCause = 14) ∧
      (x.clockOk = true → x.go = true →
        t.start.lastCause = if s.inViaduct ∧ s.vdt.pair < 2 then 18 else 22) ∧
      t.bar = s.bar ∧ t.adc = s.adc ∧ t.kst = s.kst ∧ t.par.still = s.par.still ∧
      (s.partsOk = true → ∀ k : Nat, (t.leg k).still = (s.leg k).still)) ∧
    (x.running = false ∨ s.reaches by2 = false → exec .startTimeout s = .next s) := by
  intro x by2
  refine ⟨fun hrun hby => ?_, fun h => ?_⟩
  · let u := s.goto by2
    let cause := if !x.clockOk then 13 else if !x.go then 14 else if s.inViaduct && decide (s.vdt.pair < 2) then 18 else 22
    have hexec : exec .startTimeout s = .next (u.startFail cause) := if_pos (Bool.and_eq_true_iff.mpr ⟨hrun, hby⟩)
    obtain ⟨hrunning, hticking, hready, hcause, hcount⟩ := u.startFail_start cause
    have hhalt := u.startFail_halted cause
    refine ⟨_, hexec, hrunning, hticking, hready, hcount, fun hc => hcause.trans ?_, fun hc hg => hcause.trans ?_,
      fun hc hg => hcause.trans ?_, hhalt.bar, hhalt.adc, hhalt.kst, hhalt.par, hhalt.still⟩
    · simp [cause, hc]
    · simp [cause, hc, hg]
    · simp [cause, hc, hg]
  · change execStartTimeout s = _
    unfold execStartTimeout
    refine if_neg fun hc => ?_
    obtain ⟨hrun, hby⟩ := Bool.and_eq_true_iff.mp hc
    rcases h with h | h
    · exact Bool.false_ne_true (h.symm.trans hrun)
    · exact Bool.false_ne_true (h.symm.trans hby)

/-- A failed start restarts by itself 100 ms later while its count is below 3 (R410). -/
theorem autoRestart_spec (s : State) :
    (∀ at0, s.start.failedAt = some at0 → s.start.failCount < 3 → ∃ t, exec .autoRestart s = .next t ∧
      t.tk.now = max s.tk.now (at0 + 100000000 * uNs) ∧ t.start.released = true ∧ t.start.running = false ∧
      t.start.failedAt = none ∧ t.start.failCount = s.start.failCount ∧ t.start.lastCause = s.start.lastCause ∧
      t.cal = s.cal ∧ t.trl.vsup = s.trl.vsup ∧ t.trl.frozen = s.trl.frozen ∧ t.trl.rstCause = s.trl.rstCause ∧
      t.trl.brg = (if s.trl.brg = .latched then .off else s.trl.brg) ∧ t.mrm.mem = s.mrm.mem ∧ t.mrm.ledger = s.mrm.ledger ∧
      t.cur = State.reset.cur ∧ t.legs = State.reset.legs ∧ t.kst.faultLine = s.kst.faultLine) ∧
    (s.start.failedAt = none ∨ 3 ≤ s.start.failCount → exec .autoRestart s = .next s) := by
  refine ⟨fun at0 hat hcount => ?_, fun h => ?_⟩
  · have hexec : exec .autoRestart s = .next (s.writeEvents.goto (at0 + 100000000 * uNs)).restart := by
      change execAutoRestart s = _
      unfold execAutoRestart
      rw [hat]
      exact if_pos hcount
    have hview := s.unlogged_writeEvents
    have htk : s.writeEvents.tk = s.tk := eq_of_view _ hview State.tk fun _ => rfl
    have hstart : s.writeEvents.start = s.start := eq_of_view _ hview State.start fun _ => rfl
    have hcal : s.writeEvents.cal = s.cal := eq_of_view _ hview State.cal fun _ => rfl
    have htrl : s.writeEvents.trl = s.trl := eq_of_view _ hview State.trl fun _ => rfl
    have hkst : s.writeEvents.kst = s.kst := eq_of_view _ hview State.kst fun _ => rfl
    have hmem : s.writeEvents.mrm.mem = s.mrm.mem := eq_of_view _ hview (fun t => t.mrm.mem) fun _ => rfl
    have hledger : s.writeEvents.mrm.ledger = s.mrm.ledger := eq_of_view _ hview (fun t => t.mrm.ledger) fun _ => rfl
    refine ⟨_, hexec, ?_⟩
    generalize s.writeEvents = u at htk hstart hcal htrl hkst hmem hledger
    rw [← htk, ← hstart, ← hcal, ← htrl, ← hkst, ← hmem, ← hledger]
    exact ⟨rfl, rfl, rfl, rfl, rfl, rfl, rfl, rfl, rfl, rfl, rfl, rfl, rfl, rfl, rfl, rfl⟩
  · change execAutoRestart s = _
    unfold execAutoRestart
    cases hat : s.start.failedAt with
    | none => rfl
    | some at0 =>
      rcases h with h | h
      · exact absurd (hat.symm.trans h) nofun
      · exact if_neg (Nat.not_lt.mpr h)

/-! ### The reset of the deck -/

/-- Dropping entries by their key keeps the others and leaves the default at the rest. -/
theorem Store.get_filter {α : Type} [DecidableEq α] {d : Nat → α} (p : Nat → Bool) {m : Store α} {lo : Nat}
    (h : Store.wfFrom d lo m = true) (k : Nat) :
    Store.get d (m.filter (fun e => p e.1)) k = if p k then Store.get d m k else d k := by
  have hbelow : ∀ (n : Store α) (lo : Nat), Store.wfFrom d lo n = true → k < lo → Store.get d n k = d k := by
    intro n lo hn hk
    cases n with
    | nil => rfl
    | cons e n =>
      obtain ⟨a, v⟩ := e
      simp only [Store.wfFrom, Bool.and_eq_true, decide_eq_true_eq] at hn
      simp only [Store.get]
      rw [if_neg (by omega), if_pos (by omega)]
  induction m generalizing lo with
  | nil => exact (ite_self _).symm
  | cons e m ih =>
    obtain ⟨a, v⟩ := e
    have hrest := h
    simp only [Store.wfFrom, Bool.and_eq_true, decide_eq_true_eq] at hrest
    obtain ⟨-, hwf⟩ := hrest
    have htail := ih hwf
    rw [List.filter_cons]
    by_cases hak : a = k
    · subst hak
      cases hp : p a with
      | true => simp [Store.get]
      | false =>
        rw [hp] at htail
        simpa using htail
    · by_cases hka : k < a
      · have hm := hbelow m (a + 1) hwf (by omega)
        cases hp : p a with
        | true => simp [Store.get, hak, hka]
        | false =>
          rw [if_neg (by simp), htail, hm]
          simp [Store.get, hak, hka]
      · cases hp : p a with
        | true => simp [Store.get, hak, hka, htail]
        | false =>
          rw [if_neg (by simp), htail]
          simp [Store.get, hak, hka]

/-- What a reset of the deck keeps, loses and notes (R405). -/
theorem deckReset_spec (rail : Option (Fin 5)) (ofs : Nat) (s : State) (hok : s.partsOk = true) :
    ∃ t, exec (.deckReset rail ofs) s = .next t ∧ (rail = none → t.trl.rstCause = 1) ∧
      (∀ k, rail = some k → t.trl.rstCause = 2 ∧ t.trl.rstRail = k.val) ∧ t.start.resetDuring = s.start.running ∧
      t.start.running = false ∧ t.start.ready = false ∧ t.start.abut = false ∧ t.start.failCount = s.start.failCount ∧
      t.cal = s.cal ∧ t.tk.now = (s.at ofs).tk.now ∧ t.mrm.mem = s.mrm.mem ∧ t.mrm.ledger = s.mrm.ledger ∧
      t.mrm.log = s.mrm.log ∧ t.mrm.calSet = s.mrm.calSet ∧ t.cur = State.reset.cur ∧ t.stage = State.reset.stage ∧
      t.kst.faultLine = s.kst.faultLine ∧ t.par.clkHold = true ∧ (∀ k : Nat, (t.leg k).still = (s.leg k).still) ∧
      t.cwy.linkUp = s.cwy.linkUp ∧ ∀ off, t.reg off = if heldOver off then s.reg off else barReset off := by
  let u := s.at ofs
  let v : State := { u with par := { u.par with clkHold := true } }
  have hdrive : Driven v (v.driveAll allLegs) := State.driveAll_driven ..
  refine ⟨_, rfl, ?_, ?_, rfl, rfl, rfl, rfl, ?_⟩
  · rintro rfl
    rfl
  · rintro k rfl
    exact ⟨rfl, rfl⟩
  have hstart : (v.driveAll allLegs).start = s.start := hdrive.other State.start fun _ => rfl
  have hcal : (v.driveAll allLegs).cal = s.cal := hdrive.other State.cal fun _ => rfl
  have htk : (v.driveAll allLegs).tk = u.tk := hdrive.other State.tk fun _ => rfl
  have hmrm : (v.driveAll allLegs).mrm = s.mrm := hdrive.other State.mrm fun _ => rfl
  have hkst : (v.driveAll allLegs).kst = s.kst := hdrive.other State.kst fun _ => rfl
  have hbar : (v.driveAll allLegs).bar = s.bar := hdrive.other State.bar fun _ => rfl
  have hstill : ∀ k, ((v.driveAll allLegs).leg k).still = (s.leg k).still := hdrive.still hok
  dsimp only
  generalize v.driveAll allLegs = w at hstart hcal htk hmrm hkst hbar hstill
  have hreg : ∀ off, Store.get barReset (w.bar.filter (fun p => heldOver p.1)) off = if heldOver off then s.reg off else barReset off := by
    intro off
    rw [hbar]
    exact Store.get_filter heldOver (wf_bar hok) off
  have hnow : w.tk.now = u.tk.now := congrArg TickS.now htk
  rw [← hstart, ← hcal, ← hmrm, ← hkst]
  exact ⟨rfl, rfl, hnow, rfl, rfl, rfl, rfl, rfl, rfl, rfl, rfl, hstill, rfl, hreg⟩

end Sys2Proof.Machine
end

section
/-! PROOFS. The start of the deck, steps 1 to 5 (R407, R408). -/
namespace Sys2Proof.Machine

/-! ### What steps 1 to 5 leave -/

/-- The start's own data but for what its steps note, and the fault line. -/
def State.begun (s : State) : StartS × Bool :=
  ({ s.start with step := 0, digest := 0, fwUse := 0, imgUse := 0 }, s.kst.faultLine)

/-- Two states with one start and one Keystone have begun alike. -/
theorem State.begun_of {s t : State} (hstart : t.start = s.start) (hkst : t.kst = s.kst) : t.begun = s.begun := by
  unfold State.begun
  rw [hstart, hkst]

theorem State.begun_raise (s : State) (code addr cause val val2) : (s.raise code addr cause val val2).begun = s.begun :=
  State.begun_of (State.start_raise ..) (State.kst_raise ..)

theorem State.begun_setRegs (s : State) (ws : List (Nat × Word)) : (s.setRegs ws).begun = s.begun :=
  view_foldl State.begun (fun (t : State) (w : Nat × Word) => t.setReg w.1 w.2) (fun _ _ => rfl) ws s

theorem State.begun_updLegs (s : State) (f : Nat → LegS → LegS) (ls : List Nat) : (s.updLegs ls f).begun = s.begun :=
  view_foldl State.begun (fun (t : State) (l : Nat) => t.updLeg l (f l)) (fun _ _ => rfl) ls s

/-- Step 1 fails with cause 23 where the fuses cannot be read (Table 18-1). -/
theorem State.step1_spec (s : State) (inp : StartIn) :
    (s.step1 inp).1.begun = s.begun ∧ (inp.fusesOk = false → (s.step1 inp).2 = some 23) := by
  unfold State.step1
  extract_lets _ u v _ _
  have hu : u.begun = s.begun := rfl
  have hv : v.begun = s.begun := u.begun_setRegs _
  clear_value v
  cases hfuses : inp.fusesOk with
  | false => exact ⟨hu, fun _ => rfl⟩
  | true =>
    refine ⟨?_, fun h => by cases h⟩
    rw [if_neg (by decide)]
    cases v.mramRead inp 1 with
    | some c => exact hv
    | none =>
      cases selectCopy v.start.fwPend v.start.fwAct inp.fwA inp.fwB with
      | none => exact hv
      | some k =>
        dsimp only
        split
        · exact hv
        · exact hv

theorem State.begun_step2 (s : State) (inp : StartIn) : (s.step2 inp).1.begun = s.begun := by
  unfold State.step2
  extract_lets _ u pats _ v
  have hv : v.begun = s.begun := rfl
  clear_value v
  split
  · rfl
  · cases pats.find? (fun p => inp.missed.contains p) with
    | some p => exact (v.begun_raise ..).trans hv
    | none => exact hv

theorem State.begun_charterInForce (s : State) (vals : Store Word) : (s.charterInForce vals).begun = s.begun := by
  unfold State.charterInForce
  generalize chOffsets = offs
  generalize allLegs = ls
  extract_lets s1 s2
  have h1 : s1.begun = s.begun := view_foldl State.begun (fun (t : State) o => t.setReg o (copyGet vals o)) (fun _ _ => rfl) offs s
  have h2 : s2.begun = s1.begun := s1.begun_updLegs _ ls
  have h3 : ({ s2 with par := { s2.par with dtDigest := s2.dtDigestNow } } : State).begun = s2.begun := State.begun_of rfl rfl
  clear_value s2
  exact h3.trans (h2.trans h1)

theorem State.begun_step3 (s : State) (inp : StartIn) : (s.step3 inp).1.begun = s.begun := by
  unfold State.step3
  extract_lets _ u
  have hu : u.begun = s.begun := by
    simp only [u, State.adoptFactory]
    split
    · rfl
    · rfl
  clear_value u
  cases u.mramRead inp 3 with
  | some c => exact hu
  | none =>
    cases u.newestRecord with
    | none => exact hu
    | some r =>
      dsimp only
      split
      · exact hu
      · exact (u.begun_charterInForce _).trans hu

theorem State.begun_step4 (s : State) (inp : StartIn) : (s.step4 inp).1.begun = s.begun := by
  unfold State.step4
  extract_lets _ u
  have hu : u.begun = s.begun := rfl
  clear_value u
  cases u.mramRead inp 4 with
  | some c => exact hu
  | none =>
    dsimp only
    split
    · have hland : ∀ (v : State) (ws : List Word), (v.landTrims ws).begun = v.begun := by
        intro v ws
        unfold State.landTrims
        exact view_foldl State.begun (fun (t : State) i => t.setReg (0x5408 + 0x20 * i) (ws.getD i 0#32)) (fun _ _ => rfl) _ v
      refine (hland _ _).trans (Eq.trans ?_ hu)
      split
      · rfl
      · rfl
    · exact hu

theorem State.begun_loadImage (s : State) (i : ImageIn) : (s.loadImage i).begun = s.begun := by
  have hper : ∀ (t : State) (p : Nat × Word), (t.imagePer p.1 p.2).begun = t.begun := by
    intro t p
    unfold State.imagePer
    split
    · rfl
    · rfl
  unfold State.loadImage
  generalize i.regs.filter (fun p => imageSets p.1) = ws
  generalize i.regs = regs
  generalize i.objs = objs
  generalize i.ptns = ptns
  extract_lets s1 s2 s3 s4
  have h1 : s1.begun = s.begun := s.begun_setRegs ws
  have h2 : s2.begun = s1.begun := view_foldl State.begun (fun (t : State) p => t.imagePer p.1 p.2) hper regs s1
  have h3 : s3.begun = s2.begun := by
    refine view_foldl State.begun _ (fun _ _ => ?_) objs s2
    rfl
  have h4 : s4.begun = s3.begun := by
    refine view_foldl State.begun _ (fun _ _ => ?_) ptns s3
    rfl
  exact h4.trans (h3.trans (h2.trans h1))

theorem State.begun_copyMaps (s : State) (copy : Nat) (i : ImageIn) : (s.copyMaps copy i).1.begun = s.begun := by
  unfold State.copyMaps
  generalize [((0 : Trac), i.mapCrc0), (1, i.mapCrc1)] = maps
  extract_lets one
  have hone : ∀ (r : State × Bool) (q : Trac × Word), (one r q).1.begun = r.1.begun := by
    intro r q
    simp only [one]
    split
    · rfl
    · rfl
  clear_value one
  have hfold : ∀ r : State × Bool, (maps.foldl one r).1.begun = r.1.begun := by
    induction maps with
    | nil => exact fun r => rfl
    | cons q maps ih => exact fun r => (ih _).trans (hone r q)
  exact hfold (s, true)

theorem State.begun_step5 (s : State) (inp : StartIn) : (s.step5 inp).1.begun = s.begun := by
  unfold State.step5
  extract_lets _ u
  have hu : u.begun = s.begun := rfl
  clear_value u
  cases u.mramRead inp 5 with
  | some c => exact hu
  | none =>
    cases selectCopy u.start.imgPend u.start.imgAct inp.imgA inp.imgB with
    | none => exact hu
    | some k =>
      let v : State := { u with start := { u.start with imgUse := k } }
      have hv : v.begun = s.begun := hu
      dsimp only
      split
      · exact hv
      · split
        · exact hv
        · exact (State.begun_copyMaps ..).trans ((v.begun_loadImage inp.image).trans hv)

/-- Steps 1 to 5 keep what has begun, and end with cause 23 where the fuses cannot be read. -/
theorem State.steps_spec (s : State) (inp : StartIn) :
    (s.steps inp).1.begun = s.begun ∧ (inp.fusesOk = false → (s.steps inp).2 = some 23) := by
  obtain ⟨h1, hfuses⟩ := s.step1_spec inp
  unfold State.steps
  extract_lets next
  have hnext : ∀ (r : State × Option Nat) (f : State → State × Option Nat), r.1.begun = s.begun →
      (∀ t, (f t).1.begun = t.begun) → (next r f).1.begun = s.begun := by
    intro r f hr hf
    obtain ⟨t, c⟩ := r
    cases c with
    | none => exact (hf t).trans hr
    | some c => exact hr
  have hstop : ∀ (r : State × Option Nat) (f : State → State × Option Nat), r.2 = some 23 → (next r f).2 = some 23 := by
    intro r f hr
    obtain ⟨t, c⟩ := r
    subst hr
    rfl
  clear_value next
  exact ⟨hnext _ _ (hnext _ _ (hnext _ _ (hnext _ _ h1 fun t => t.begun_step2 inp) fun t => t.begun_step3 inp) fun t => t.begun_step4 inp)
    fun t => t.begun_step5 inp, fun h => hstop _ _ (hstop _ _ (hstop _ _ (hstop _ _ (hfuses h))))⟩

/-! ### What the release of reset finds -/

theorem State.rejectPending_spec (s : State) :
    s.rejectPending.start.released = s.start.released ∧ s.rejectPending.start.abut = s.start.abut ∧ s.rejectPending.kst = s.kst := by
  unfold State.rejectPending
  extract_lets _ u
  have hu : u.start.released = s.start.released ∧ u.start.abut = s.start.abut ∧ u.kst = s.kst := by
    simp only [u]
    split
    · exact ⟨by rw [State.start_raise], by rw [State.start_raise], State.kst_raise ..⟩
    · exact ⟨rfl, rfl, rfl⟩
  clear_value u
  obtain ⟨hreleased, habut, hkst⟩ := hu
  split
  · exact ⟨by rw [State.start_raise]; exact hreleased, by rw [State.start_raise]; exact habut, (State.kst_raise ..).trans hkst⟩
  · exact ⟨hreleased, habut, hkst⟩

theorem State.abutment_abut (s : State) (cause : Nat) :
    (s.abutment cause).start.abut = true ∧ (s.abutment cause).start.released = s.start.released := by
  unfold State.abutment
  generalize List.range 48 = ports
  generalize allLegs = ls
  extract_lets -merge +onlyGivenNames _ _ _ s1 s2
  have h2 : s2.start = s1.start :=
    view_foldl State.start (fun t p => t.updPort p (fun x => { x with st := .off, tx := none })) (fun _ _ => rfl) ports s1
  clear_value s2
  have hdrive := (State.driveAll_driven (s2.raise 98 s.deckAddr cause 0 0) ls).other State.start fun _ => rfl
  rw [hdrive, State.start_raise, h2]
  exact ⟨rfl, rfl⟩

/-- The release of reset leaves the Keystone and no reset pending; where no start was interrupted, nothing of the start moves. -/
theorem State.startFinds_spec (s : State) (inp : StartIn) (hreleased : s.start.released = false) :
    (s.startFinds inp).kst = s.kst ∧ (s.startFinds inp).start.released = false ∧
    (s.start.resetDuring = false → (s.startFinds inp).start = s.start) := by
  unfold State.startFinds
  extract_lets _ a _ b c n _ t0 t _ _
  have ha : a.start = s.start ∧ a.kst = s.kst := by
    simp only [a]
    split
    · exact ⟨State.start_raise .., State.kst_raise ..⟩
    · exact ⟨rfl, rfl⟩
  clear_value a
  have hb : b.start = a.start ∧ b.kst = a.kst := by
    simp only [b]
    split
    · exact ⟨rfl, rfl⟩
    · exact ⟨rfl, rfl⟩
  clear_value b
  have hc : c.start = s.start ∧ c.kst = s.kst := by
    obtain ⟨hastart, hakst⟩ := ha
    obtain ⟨hbstart, hbkst⟩ := hb
    simp only [c]
    split
    · exact ⟨(State.start_raise ..).trans (hbstart.trans hastart), (State.kst_raise ..).trans (hbkst.trans hakst)⟩
    · exact ⟨hbstart.trans hastart, hbkst.trans hakst⟩
  clear_value c
  obtain ⟨hstart, hkst⟩ := hc
  cases hduring : c.start.resetDuring with
  | false => exact ⟨hkst, (congrArg StartS.released hstart).trans hreleased, fun _ => hstart⟩
  | true =>
    have ht : t.start.released = false ∧ t.kst = s.kst := by
      obtain ⟨hrel, -, hk⟩ := t0.rejectPending_spec
      exact ⟨hrel.trans ((congrArg StartS.released (State.start_raise ..)).trans ((congrArg StartS.released hstart).trans hreleased)),
        hk.trans ((State.kst_raise ..).trans hkst)⟩
    clear_value t
    rw [if_pos rfl]
    refine ⟨?_, ?_, fun h => absurd (hduring.symm.trans (congrArg StartS.resetDuring hstart)) (by simp [h])⟩
    · split
      · exact ((t.abutment_halted 20).kst).trans ht.2
      · exact ht.2
    · split
      · rfl
      · exact ht.1

/-! ### The tick begins -/

theorem State.start_adc (s : State) (a : AdcS) : { s with adc := a }.start = s.start := rfl

theorem State.start_sensingMoved (s : State) (mv : Instant → Instant) : (s.sensingMoved mv).start = s.start := by
  unfold State.sensingMoved
  generalize List.range 16 = cs
  generalize List.range 96 = is
  have hconv := view_foldl State.start (fun (t : State) c => t.updConv c (ConvS.moved mv)) (fun _ _ => rfl) cs s
  have hinp := view_foldl State.start (fun (t : State) i => t.updInp i (InputS.moved mv)) (fun _ _ => rfl) is
    (cs.foldl (fun (t : State) c => t.updConv c (ConvS.moved mv)) s)
  exact (State.start_adc _ _).trans (hinp.trans hconv)

theorem State.start_movedLegs (s : State) (mv : Instant → Instant) (ls : List Nat) :
    (s.updLegs ls (fun _ g => g.moved mv)).start = s.start :=
  view_foldl State.start (fun (t : State) (l : Nat) => t.updLeg l (fun g => g.moved mv)) (fun _ _ => rfl) ls s

/-- Stepping the count moves only the instants of the start. -/
theorem State.start_stepCount (s : State) (t : Instant) :
    ∃ a b c, (s.stepCount t).start = { s.start with ts := a, step9 := b, failedAt := c } := by
  unfold State.stepCount
  extract_lets d mv n _ _ _ _ _ _ _ s1
  have h1 : s1.start = { s.start with ts := mv s.start.ts, step9 := mv s.start.step9, failedAt := s.start.failedAt.map mv } := rfl
  clear_value s1
  exact ⟨_, _, _, (State.start_movedLegs ..).trans ((State.start_sensingMoved ..).trans h1)⟩

theorem State.startClock_spec (s : State) :
    s.startClock.start.step = s.start.step ∧ s.startClock.start.ticking = s.start.ticking ∧
    s.startClock.start.running = s.start.running ∧ s.startClock.start.abut = s.start.abut ∧
    s.startClock.start.released = s.start.released ∧ s.startClock.start.failCount = s.start.failCount ∧
    s.startClock.kst = s.kst := by
  have hpyl : ∀ u : State, (u.pylTo .grandmaster 6).start = u.start ∧ (u.pylTo .grandmaster 6).kst = u.kst := by
    intro u
    unfold State.pylTo
    exact ⟨State.start_raise .., State.kst_raise ..⟩
  unfold State.startClock
  split
  · obtain ⟨hstart, hkst⟩ := hpyl (if s.start.first then s.setCount else s)
    rw [hstart, hkst]
    split
    · obtain ⟨a, b, c, h⟩ := s.start_stepCount (if s.cal.st = 0 then 0 else s.calVal s.tk.now * 1000000000 * uNs / 2 ^ 24)
      have hset : s.setCount.start = { s.start with ts := a, step9 := b, failedAt := c } := h
      rw [hset]
      exact ⟨rfl, rfl, rfl, rfl, rfl, rfl, eq_of_view _ s.stepless_setCount State.kst fun _ => rfl⟩
    · exact ⟨rfl, rfl, rfl, rfl, rfl, rfl, rfl⟩
  · exact ⟨rfl, rfl, rfl, rfl, rfl, rfl, rfl⟩

/-- The tick runs from step 6 on (R44). -/
theorem State.ticksRun_spec (s : State) :
    s.ticksRun.start.step = 6 ∧ s.ticksRun.start.ticking = true ∧ s.ticksRun.start.running = s.start.running ∧
    s.ticksRun.start.abut = s.start.abut ∧ s.ticksRun.start.released = s.start.released ∧
    s.ticksRun.start.failCount = s.start.failCount ∧ s.ticksRun.kst = s.kst := by
  unfold State.ticksRun
  extract_lets _ _ _ _ u v
  exact u.startClock_spec

/-! ### A start that fails -/

/-- A failed start is in abutment mode from the third failure on, and releases no reset. -/
theorem State.startFail_abut (s : State) (cause : Nat) (habut : s.start.abut = false) :
    (s.startFail cause).start.abut = decide (2 ≤ s.start.failCount) ∧
    (s.startFail cause).start.released = s.start.released := by
  unfold State.startFail
  extract_lets count step _ s1 s2
  obtain ⟨hreleased, hreject, -⟩ := (s1.raise 97 s.deckAddr cause step 0).rejectPending_spec
  rw [State.start_raise] at hreleased hreject
  have h2 : s2.start.released = s.start.released ∧ s2.start.abut = false := ⟨hreleased, hreject.trans habut⟩
  clear_value s2
  have hcount : 3 ≤ count ↔ 2 ≤ s.start.failCount := by
    simp only [count]
    omega
  split
  case isTrue h =>
    obtain ⟨hab, hrel⟩ := s2.abutment_abut cause
    exact ⟨hab.trans (decide_eq_true (hcount.mp h)).symm, hrel.trans h2.1⟩
  case isFalse h => exact ⟨h2.2.trans (decide_eq_false (mt hcount.mpr h)).symm, h2.1⟩

/-! ### START -/

theorem exec_start_off (inp : StartIn) (s : State)
    (h : s.start.released = false ∨ s.start.running = true ∨ s.start.ready = true ∨ s.start.abut = true) :
    exec (.start inp) s = .next s := by
  refine if_pos ?_
  rcases h with h | h | h | h
  all_goals simp [h]

/-- The deck at t_s, before what the release of reset finds. -/
def State.atStart (s0 : State) : State :=
  { s0.restart with
    kst := { s0.restart.kst with faultLine := false, lockstepOk := false }
    start := { s0.restart.start with released := false, running := true, ts := s0.restart.tk.now, failCount := s0.start.failCount } }

/-- The end of steps 1 to 5: the start fails with the cause of the step that failed, or the tick runs. -/
def State.endSteps (t : State) (c : Option Nat) : State :=
  match c with
  | some c => (if c = 12 then t.readEcc 2 else t).startFail c
  | none => { t.ticksRun with kst := { t.ticksRun.kst with lockstepOk := !t.kst.lsBroken } }

theorem exec_start_on (inp : StartIn) (s0 : State) (hreleased : s0.start.released = true) (hrun : s0.start.running = false)
    (hready : s0.start.ready = false) (habut : s0.start.abut = false) {s : State} (hs : s0.atStart.startFinds inp = s) :
    exec (.start inp) s0 = .next (if s.start.abut then s else
      ((s.steps inp).1.goto (s.start.ts + inp.dur)).endSteps (s.steps inp).2) := by
  subst hs
  refine (if_neg (by simp [hreleased, hrun, hready, habut])).trans ?_
  let s := s0.atStart.startFinds inp
  change (if s.start.abut then _ else _) = _
  cases s.start.abut with
  | true => rfl
  | false =>
    change (match (s.steps inp).2 with | some c => _ | none => _) = _
    cases (s.steps inp).2 with
    | some c => rfl
    | none => rfl

theorem State.readEcc_start (t : State) (cause : Nat) :
    (if cause = 12 then t.readEcc 2 else t).start = t.start ∧ (if cause = 12 then t.readEcc 2 else t).kst = t.kst := by
  split
  · exact ⟨rfl, rfl⟩
  · exact ⟨rfl, rfl⟩

/-- The end of steps 1 to 5 releases no reset and leaves the fault line. -/
theorem State.endSteps_line (t : State) (c : Option Nat) (habut : t.start.abut = false) :
    (t.endSteps c).start.released = t.start.released ∧ (t.endSteps c).kst.faultLine = t.kst.faultLine := by
  cases c with
  | none =>
    obtain ⟨-, -, -, -, hrel, -, hkst⟩ := t.ticksRun_spec
    have hline : t.ticksRun.kst.faultLine = t.kst.faultLine := congrArg KstS.faultLine hkst
    exact ⟨hrel, hline⟩
  | some cause =>
    obtain ⟨hstart, hkst⟩ := t.readEcc_start cause
    let v := if cause = 12 then t.readEcc 2 else t
    have hu : t.endSteps (some cause) = v.startFail cause := rfl
    have hrel := (v.startFail_abut cause ((congrArg StartS.abut hstart).trans habut)).2
    have hhalt := (v.startFail_halted cause).kst
    rw [hu]
    exact ⟨hrel.trans (congrArg StartS.released hstart), congrArg KstS.faultLine (hhalt.trans hkst)⟩

/-- What the end of steps 1 to 5 leaves, from a start that runs and has not failed yet. -/
theorem State.endSteps_spec (t : State) (c : Option Nat) (hrun : t.start.running = true)
    (habut : t.start.abut = false) :
    let u := t.endSteps c
    u.start.abut = decide (u.start.running = false ∧ 2 ≤ t.start.failCount) ∧
    (u.start.running = true → u.start.step = 6 ∧ u.start.ticking = true ∧ u.start.failCount = t.start.failCount) ∧
    (u.start.running = false → u.start.ticking = false ∧ u.start.ready = false ∧
      u.start.failCount = min 3 (t.start.failCount + 1)) ∧
    (∀ cause, c = some cause → u.start.running = false ∧ u.start.lastCause = cause) := by
  intro u
  cases c with
  | none =>
    obtain ⟨hstep, htick, hrunning, hab, -, hcount, -⟩ := t.ticksRun_spec
    have hon : u.start.running = true := hrunning.trans hrun
    refine ⟨?_, fun _ => ⟨hstep, htick, hcount⟩, fun h => absurd (hon.symm.trans h) Bool.true_eq_false.mp, fun _ h => by cases h⟩
    rw [hon]
    exact (hab.trans habut).trans (decide_eq_false (by simp)).symm
  | some cause =>
    let v := if cause = 12 then t.readEcc 2 else t
    have hvstart : v.start = t.start := (t.readEcc_start cause).1
    obtain ⟨hrunning, hticking, hready, hcause, hcount⟩ := v.startFail_start cause
    have hab := (v.startFail_abut cause ((congrArg StartS.abut hvstart).trans habut)).1
    have hu : u = v.startFail cause := rfl
    clear_value u v
    subst hu
    rw [hvstart] at hcount hab
    refine ⟨?_, fun h => absurd (h.symm.trans hrunning) Bool.true_eq_false.mp, fun _ => ⟨hticking, hready, hcount⟩, fun k hk => ⟨hrunning, ?_⟩⟩
    · rw [hab, hrunning]
      simp
    · exact hcause.trans (Option.some.inj hk)

/-- START (R407, R408). -/
theorem start_spec (inp : StartIn) (s : State) (hreleased : s.start.released = true) (hrun : s.start.running = false)
    (hready : s.start.ready = false) (habut : s.start.abut = false) :
    ∃ t, exec (.start inp) s = .next t ∧ t.start.released = false ∧ t.kst.faultLine = false ∧
      (s.start.resetDuring = false →
        t.start.abut = decide (t.start.running = false ∧ 2 ≤ s.start.failCount) ∧
        (t.start.running = true → t.start.step = 6 ∧ t.start.ticking = true ∧ t.start.failCount = s.start.failCount) ∧
        (t.start.running = false → t.start.ticking = false ∧ t.start.ready = false ∧
          t.start.failCount = min 3 (s.start.failCount + 1)) ∧
        (inp.fusesOk = false → t.start.running = false ∧ t.start.lastCause = 23)) := by
  have hexec := exec_start_on inp s hreleased hrun hready habut rfl
  obtain ⟨hkst, hrel, hkeeps⟩ := s.atStart.startFinds_spec inp rfl
  generalize s.atStart.startFinds inp = u at hexec hkst hrel hkeeps
  obtain ⟨hbegun, hfuses⟩ := u.steps_spec inp
  generalize (u.steps inp).2 = c at hexec hfuses
  have hgoto : ((u.steps inp).1.goto (u.start.ts + inp.dur)).begun = u.begun := hbegun
  generalize (u.steps inp).1.goto (u.start.ts + inp.dur) = v at hexec hgoto
  have hvreleased : v.start.released = u.start.released := congrArg (fun b => b.1.released) hgoto
  have hvrun : v.start.running = u.start.running := congrArg (fun b => b.1.running) hgoto
  have hvabut : v.start.abut = u.start.abut := congrArg (fun b => b.1.abut) hgoto
  have hvcount : v.start.failCount = u.start.failCount := congrArg (fun b => b.1.failCount) hgoto
  have hvline : v.kst.faultLine = u.kst.faultLine := congrArg Prod.snd hgoto
  have huline : u.kst.faultLine = false := congrArg KstS.faultLine hkst
  refine ⟨_, hexec, ?_⟩
  cases hab : u.start.abut with
  | true =>
    refine ⟨hrel, huline, fun hduring => ?_⟩
    exact absurd (hab.symm.trans (congrArg StartS.abut (hkeeps hduring))) Bool.true_eq_false.mp
  | false =>
    obtain ⟨hend, hendLine⟩ := v.endSteps_line c (hvabut.trans hab)
    refine ⟨hend.trans (hvreleased.trans hrel), hendLine.trans (hvline.trans huline), fun hduring => ?_⟩
    have hstart := hkeeps hduring
    have hucount : u.start.failCount = s.atStart.start.failCount := congrArg StartS.failCount hstart
    have hcount : v.start.failCount = s.start.failCount := hvcount.trans hucount
    obtain ⟨h1, h2, h3, h4⟩ := v.endSteps_spec c (hvrun.trans (congrArg StartS.running hstart)) (hvabut.trans hab)
    rw [hcount] at h1 h2 h3
    exact ⟨h1, h2, h3, fun hf => h4 23 (hfuses hf)⟩

/-- Settles O57 (R400 to R414). -/
theorem startAndReset : Obligations.StartAndReset :=
  ⟨fun inp s => ⟨exec_start_off inp s, start_spec inp s⟩, goAndAbut, deckReset_spec, startTimeout_spec, autoRestart_spec⟩

end Sys2Proof.Machine
end

section
/-! PROOFS. The memory: writes, changes that land, updates and the recorder (R402, R416 to R428). -/
namespace Sys2Proof.Machine

/-! ### The queue of writes -/

/-- The write taken is one of the queue, of the least rank (R423). -/
theorem takeWrite_some {ws : List MramWrite} {w : MramWrite} {rest : List MramWrite} (h : takeWrite ws = some (w, rest)) :
    (∀ v, v ∈ ws ↔ v = w ∨ v ∈ rest) ∧ ∀ v ∈ rest, w.rank ≤ v.rank := by
  induction ws generalizing w rest with
  | nil => cases h
  | cons x xs ih =>
    rw [takeWrite] at h
    cases hxs : takeWrite xs with
    | none =>
      have hnil : xs = [] := by
        cases xs with
        | nil => rfl
        | cons y ys =>
          rw [takeWrite] at hxs
          split at hxs
          · cases hxs
          · split at hxs
            · cases hxs
            · cases hxs
      rw [hxs] at h
      obtain ⟨rfl, rfl⟩ := Prod.mk.inj (Option.some.inj h)
      subst hnil
      exact ⟨fun v => List.mem_cons, nofun⟩
    | some q =>
      obtain ⟨v, r⟩ := q
      rw [hxs] at h
      obtain ⟨hmem, hleast⟩ := ih hxs
      dsimp only at h
      split at h
      case isTrue hlt =>
        obtain ⟨rfl, rfl⟩ := Prod.mk.inj (Option.some.inj h)
        refine ⟨fun u => ?_, fun u hu => ?_⟩
        · rw [List.mem_cons, List.mem_cons, hmem u]
          exact or_left_comm
        · rcases List.mem_cons.mp hu with rfl | hu
          · exact Nat.le_of_lt hlt
          · exact hleast u hu
      case isFalse hge =>
        obtain ⟨rfl, rfl⟩ := Prod.mk.inj (Option.some.inj h)
        refine ⟨fun u => List.mem_cons, fun u hu => ?_⟩
        rcases (hmem u).mp hu with rfl | hu
        · exact Nat.le_of_not_lt hge
        · exact (Nat.le_of_not_lt hge).trans (hleast u hu)

theorem takeWrite_isSome {ws : List MramWrite} (h : ws ≠ []) : ∃ w rest, takeWrite ws = some (w, rest) := by
  cases ws with
  | nil => exact absurd rfl h
  | cons x xs =>
    rw [takeWrite]
    split
    · exact ⟨_, _, rfl⟩
    · split
      · exact ⟨_, _, rfl⟩
      · exact ⟨_, _, rfl⟩

/-- A state but for its MRAM. -/
def State.memoryless (s : State) : State := { s with mrm := State.reset.mrm }

/-- A write that passed its readback moves the MRAM alone, and neither its queue nor the failure flag. -/
theorem State.written_spec (s : State) (w : MramWrite) :
    (s.written w).memoryless = s.memoryless ∧ (s.written w).mrm.writes = s.mrm.writes ∧ (s.written w).mrm.wrFail = s.mrm.wrFail := by
  cases w with
  | charter copy vals =>
    change (if copy = 0 then _ else _ : State).memoryless = _ ∧ (if copy = 0 then _ else _ : State).mrm.writes = _ ∧
      (if copy = 0 then _ else _ : State).mrm.wrFail = _
    split
    · exact ⟨rfl, rfl, rfl⟩
    · exact ⟨rfl, rfl, rfl⟩
  | event e => exact ⟨rfl, rfl, rfl⟩
  | header k => exact ⟨rfl, rfl, rfl⟩
  | row slot n ws => exact ⟨rfl, rfl, rfl⟩
  | record r => exact ⟨rfl, rfl, rfl⟩
  | calStage ws => exact ⟨rfl, rfl, rfl⟩
  | calSwitch => exact ⟨rfl, rfl, rfl⟩
  | calClear => exact ⟨rfl, rfl, rfl⟩
  | block target copy bytes proper => exact ⟨rfl, rfl, rfl⟩

/-! ### The end of the running command -/

/-- The end of the running command leaves a completion and nothing else. -/
theorem State.jobDone_spec (s : State) (st : Status) (result : Nat) (applied : Tick) :
    (s.jobDone st result applied).ringless = s.ringless ∧ (s.jobDone st result applied).mrm = s.mrm ∧
    (s.jobDone st result applied).cwy.evs = s.cwy.evs ∧ (s.jobDone st result applied).cwy.job = none := by
  unfold State.jobDone
  cases hjob : s.cwy.job with
  | none => exact ⟨rfl, rfl, rfl, hjob⟩
  | some j => exact ⟨rfl, rfl, rfl, rfl⟩

/-- What a failed write leaves: everything but the Causeway and the MRAM, the events, the log and the bytes. -/
structure Unwritten (s t : State) : Prop where
  rest : t.ringless = s.ringless
  evs : t.cwy.evs = s.cwy.evs
  wrFail : t.mrm.wrFail = s.mrm.wrFail
  log : t.mrm.log = s.mrm.log
  mem : t.mrm.mem = s.mrm.mem

theorem State.jobFault_unwritten (s : State) : Unwritten s s.jobFault := by
  let u : State := { s with mrm := { s.mrm with writes := s.mrm.writes.filter (fun w => !w.isChange), blockDone := false } }
  obtain ⟨hring, hmrm, hevs, -⟩ := u.jobDone_spec .memoryFault 0 s.tk.count
  change Unwritten s (u.jobDone .memoryFault 0 s.tk.count)
  exact ⟨hring, hevs, by rw [hmrm], by rw [hmrm], by rw [hmrm]⟩

/-- A failed write leaves the log and the bytes, and an entry of the log or a header is written again (R417 to R423). -/
theorem State.writeFailed_unwritten (s : State) (w : MramWrite) :
    Unwritten s (s.writeFailed w) ∧ (∀ e, w = .event e → w ∈ (s.writeFailed w).mrm.writes) ∧
    (∀ k, w = .header k → w ∈ (s.writeFailed w).mrm.writes) := by
  cases w with
  | event e => exact ⟨⟨rfl, rfl, rfl, rfl, rfl⟩, fun _ _ => List.mem_cons_self, fun _ _ => List.mem_cons_self⟩
  | header k => exact ⟨⟨rfl, rfl, rfl, rfl, rfl⟩, fun _ _ => List.mem_cons_self, fun _ _ => List.mem_cons_self⟩
  | row slot n ws => exact ⟨⟨rfl, rfl, rfl, rfl, rfl⟩, nofun, nofun⟩
  | charter copy vals => exact ⟨s.jobFault_unwritten, nofun, nofun⟩
  | record r =>
    obtain ⟨hrest, hevs, hfail, hlog, hmem⟩ :=
      ({ s with mrm := { s.mrm with ledger := s.mrm.ledger ++ [{ r with valid := false }] } } : State).jobFault_unwritten
    exact ⟨⟨hrest, hevs, hfail, hlog, hmem⟩, nofun, nofun⟩
  | calStage ws => exact ⟨s.jobFault_unwritten, nofun, nofun⟩
  | calSwitch => exact ⟨s.jobFault_unwritten, nofun, nofun⟩
  | calClear => exact ⟨⟨rfl, rfl, rfl, rfl, rfl⟩, nofun, nofun⟩
  | block target copy bytes proper => exact ⟨s.jobFault_unwritten, nofun, nofun⟩

/-- An event raised outside a freeze waits behind the writes that wait already (R402). -/
theorem State.raise_keeps_writes (s : State) (code addr cause val val2) (h : s.trl.frozen = false) (w : MramWrite)
    (hw : w ∈ s.mrm.writes) : w ∈ (s.raise code addr cause val val2).mrm.writes := by
  have hlog : ∀ e, w ∈ (s.logEvent e).mrm.writes := by
    intro e
    have hlogged : s.logEvent e = { s with mrm := { s.mrm with writes := s.mrm.writes ++ [.event e] } } := if_pos (by simp [h])
    rw [hlogged]
    exact List.mem_append_left _ hw
  have hnote : ∀ e, w ∈ ((s.logEvent e).noteTrigger e).mrm.writes := by
    intro e
    have hl := hlog e
    generalize s.logEvent e = u at hl
    unfold State.noteTrigger
    split
    · exact hl
    · exact hl
  unfold State.raise
  dsimp only
  split
  · exact hnote _
  · exact hnote _

/-! ### MRAM_WRITE_DONE -/

/-- No write is served in a freeze or from an empty queue (R402). -/
theorem exec_mramWriteDone_none (ok : Bool) (s : State) (h : s.trl.frozen = true ∨ s.mrm.writes = []) :
    exec (.mramWriteDone ok) s = .next s := by
  change execMramWriteDone ok s = _
  unfold execMramWriteDone
  cases hfrozen : s.trl.frozen with
  | true => rfl
  | false =>
    rcases h with h | h
    · exact absurd (hfrozen.symm.trans h) Bool.false_ne_true
    · rw [h]
      rfl

/-- The write served next, with its readback sound or not. -/
theorem exec_mramWriteDone_some (ok : Bool) (s : State) {w : MramWrite} {rest : List MramWrite} (hfrozen : s.trl.frozen = false)
    (hw : takeWrite s.mrm.writes = some (w, rest)) :
    exec (.mramWriteDone ok) s = .next (
      if ok then { s with mrm := { s.mrm with writes := rest } }.written w
      else ({ s with mrm := { s.mrm with writes := rest, wrFail := true } }.writeFailed w).raise 112 s.deckAddr 3 w.rank 0) := by
  change execMramWriteDone ok s = _
  unfold execMramWriteDone
  rw [hfrozen, hw]
  cases ok with
  | true => rfl
  | false => rfl

/-- What a served write leaves alone, and what it notes (R402, R423). -/
theorem mramWriteDone_spec (ok : Bool) (s : State) :
    let c := Instr.mramWriteDone ok
    (s.trl.frozen = true ∨ s.mrm.writes = [] → exec c s = .next s) ∧
    (s.trl.frozen = false → s.mrm.writes ≠ [] → ∃ w rest t, takeWrite s.mrm.writes = some (w, rest) ∧
      (∀ v, v ∈ s.mrm.writes ↔ v = w ∨ v ∈ rest) ∧ (∀ v ∈ rest, w.rank ≤ v.rank) ∧ exec c s = .next t ∧
      t.bar = s.bar ∧ t.legs = s.legs ∧ t.cur = s.cur ∧ t.stage = s.stage ∧ t.kst = s.kst ∧
      (ok = true → t.mrm.writes = rest ∧ t.cwy = s.cwy ∧ t.mrm.wrFail = s.mrm.wrFail ∧
        (∀ e, w = .event e → t.mrm.head = (s.mrm.head + 1) % 2 ^ 32 ∧
          t.mrm.log = Store.put (fun _ => none) s.mrm.log (s.mrm.head % 129024) (some e)) ∧
        (∀ k vals, w = .charter k vals → t.mrm.copy (if k = 0 then 0 else 1) = copyOf vals ∧ t.mrm.copy (if k = 0 then 1 else 0) =
          s.mrm.copy (if k = 0 then 1 else 0)) ∧
        (∀ r, w = .record r → t.mrm.ledger = s.mrm.ledger ++ [{ r with tick := s.tk.count + 1 }] ∧
          t.mrm.lands = some (s.tk.count + 1)) ∧
        (w = .calSwitch → t.mrm.calSet = s.mrm.calStaged ∧ t.mrm.calLands = some (s.tk.count + 1))) ∧
      (ok = false → t.mrm.wrFail = true ∧ s.reports t 112 s.deckAddr 3 w.rank 0 ∧ t.mrm.log = s.mrm.log ∧ t.mrm.mem = s.mrm.mem ∧
        (∀ e, w = .event e → w ∈ t.mrm.writes) ∧ (∀ k, w = .header k → w ∈ t.mrm.writes))) := by
  intro c
  refine ⟨exec_mramWriteDone_none ok s, fun hfrozen hne => ?_⟩
  obtain ⟨w, rest, hw⟩ := takeWrite_isSome hne
  obtain ⟨hmem, hleast⟩ := takeWrite_some hw
  have hexec := exec_mramWriteDone_some ok s hfrozen hw
  cases ok with
  | true =>
    refine ⟨w, rest, _, hw, hmem, hleast, hexec, ?_⟩
    let u : State := { s with mrm := { s.mrm with writes := rest } }
    obtain ⟨hrest, hwrites, hfail⟩ := u.written_spec w
    change (u.written w).bar = _ ∧ _
    refine ⟨eq_of_view _ hrest State.bar fun _ => rfl, eq_of_view _ hrest State.legs fun _ => rfl,
      eq_of_view _ hrest State.cur fun _ => rfl, eq_of_view _ hrest State.stage fun _ => rfl, eq_of_view _ hrest State.kst fun _ => rfl,
      fun _ => ⟨hwrites, eq_of_view _ hrest State.cwy fun _ => rfl, hfail, ?_, ?_, ?_, ?_⟩, nofun⟩
    · rintro e rfl
      exact ⟨rfl, rfl⟩
    · rintro k vals rfl
      change (if k = 0 then _ else _ : State).mrm.copy _ = _ ∧ (if k = 0 then _ else _ : State).mrm.copy _ = _
      split
      · exact ⟨rfl, rfl⟩
      · exact ⟨rfl, rfl⟩
    · rintro r rfl
      exact ⟨rfl, rfl⟩
    · rintro rfl
      exact ⟨rfl, rfl⟩
  | false =>
    let u : State := { s with mrm := { s.mrm with writes := rest, wrFail := true } }
    obtain ⟨⟨hrest, hevs, hfail, hlog, hbytes⟩, hevent, hheader⟩ := u.writeFailed_unwritten w
    have hexec' : exec c s = .next ((u.writeFailed w).raise 112 s.deckAddr 3 w.rank 0) := hexec
    generalize u.writeFailed w = v at hrest hevs hfail hlog hbytes hevent hheader hexec'
    refine ⟨w, rest, _, hw, hmem, hleast, hexec', ?_⟩
    have hview := v.unlogged_raise 112 s.deckAddr 3 w.rank 0
    have hv : v.trl.frozen = false := (eq_of_view _ hrest (fun t => t.trl.frozen) fun _ => rfl).trans hfrozen
    refine ⟨(State.bar_raise ..).trans (eq_of_view _ hrest State.bar fun _ => rfl), (State.legs_raise ..).trans (eq_of_view _ hrest State.legs fun _ => rfl),
      (State.cur_raise ..).trans (eq_of_view _ hrest State.cur fun _ => rfl), (State.stage_raise ..).trans (eq_of_view _ hrest State.stage fun _ => rfl),
      (State.kst_raise ..).trans (eq_of_view _ hrest State.kst fun _ => rfl), nofun, fun _ => ⟨?_, ?_, ?_, ?_, fun e he => ?_, fun k hk => ?_⟩⟩
    · exact (eq_of_view _ hview (fun t => t.mrm.wrFail) fun _ => rfl).trans hfail
    · obtain ⟨e, he, hfields⟩ := v.raise_reports 112 s.deckAddr 3 w.rank 0 (by decide)
      exact ⟨e, by rw [he, hevs], hfields⟩
    · exact (eq_of_view _ hview (fun t => t.mrm.log) fun _ => rfl).trans hlog
    · exact (eq_of_view _ hview (fun t => t.mrm.mem) fun _ => rfl).trans hbytes
    · exact v.raise_keeps_writes _ _ _ _ _ hv w (hevent e he)
    · exact v.raise_keeps_writes _ _ _ _ _ hv w (hheader k hk)

end Sys2Proof.Machine
end

section
/-! PROOFS. Changes that land, the commands with a block, and the recorder's slots (R416 to R428). -/
namespace Sys2Proof.Machine

/-! ### Charter and calibration set land -/

theorem chOffsets_nodup : chOffsets.Nodup := by decide

/-- Writing registers one after the other is writing their list. -/
theorem State.foldl_setReg_eq {β : Type} (g : β → Nat) (f : β → Word) (l : List β) (s : State) :
    l.foldl (fun t b => t.setReg (g b) (f b)) s = s.setRegs (l.map fun b => (g b, f b)) := by
  unfold State.setRegs
  rw [List.foldl_map]

/-- The charter in force moves registers, dead-time copies and their CRC alone. -/
def State.uncharted (s : State) : State := { s with bar := [], legs := [], par := State.reset.par }

theorem State.uncharted_bar (s : State) (b : Store Word) : { s with bar := b }.uncharted = s.uncharted := rfl

theorem State.uncharted_par (s : State) (p : ParS) : { s with par := p }.uncharted = s.uncharted := rfl

theorem State.reg_par (s : State) (p : ParS) (o : Nat) : ({ s with par := p } : State).reg o = s.reg o := rfl

theorem State.uncharted_updLegs (s : State) (f : Nat → LegS → LegS) (ls : List Nat) : (s.updLegs ls f).uncharted = s.uncharted :=
  view_foldl State.uncharted (fun (t : State) (l : Nat) => t.updLeg l (f l)) (fun _ _ => rfl) ls s

theorem State.bar_updLegs (s : State) (f : Nat → LegS → LegS) (ls : List Nat) : (s.updLegs ls f).bar = s.bar :=
  view_foldl State.bar (fun (t : State) (l : Nat) => t.updLeg l (f l)) (fun _ _ => rfl) ls s

/-- A charter comes into force in the CH registers and in no other (R131, R417). -/
theorem State.charterInForce_spec (s : State) (vals : Store Word) (h : Store.wf barReset s.bar = true) :
    (s.charterInForce vals).uncharted = s.uncharted ∧ (∀ o ∈ chOffsets, (s.charterInForce vals).reg o = copyGet vals o) ∧
    ∀ o, o ∉ chOffsets → (s.charterInForce vals).reg o = s.reg o := by
  have hnodup := chOffsets_nodup
  unfold State.charterInForce
  generalize chOffsets = offs at hnodup
  generalize allLegs = ls
  extract_lets s1 s2
  have h1 : s1 = s.setRegs (offs.map fun o => (o, copyGet vals o)) := State.foldl_setReg_eq _ _ offs s
  have hfst : (offs.map fun o => (o, copyGet vals o)).map Prod.fst = offs := by
    rw [List.map_map]
    exact List.map_id _
  have h2 : s2.uncharted = s1.uncharted := s1.uncharted_updLegs _ ls
  have hbar : s2.bar = s1.bar := s1.bar_updLegs _ ls
  clear_value s2
  have hview : s1.uncharted = s.uncharted := by
    rw [h1, State.setRegs_eq]
    exact s.uncharted_bar _
  have hreg : ∀ o, s2.reg o = s1.reg o := fun o => by
    unfold State.reg
    rw [hbar]
  refine ⟨(s2.uncharted_par _).trans (h2.trans hview), fun o ho => (s2.reg_par _ o).trans ((hreg o).trans ?_),
    fun o ho => (s2.reg_par _ o).trans ((hreg o).trans ?_)⟩
  · rw [h1]
    exact State.reg_setRegs_mem h (by rw [hfst]; exact hnodup) (List.mem_map_of_mem (f := fun o => (o, copyGet vals o)) ho)
  · rw [h1]
    exact State.reg_setRegs_ne h (by rw [hfst]; exact ho)

/-- A charter change lands at the boundary that it waits for (R417). -/
theorem charterChangeLands_spec (s : State) (hwf : Store.wf barReset s.bar = true) :
    (s.mrm.lands = none → exec .charterChangeLands s = .next s) ∧
    (∀ b, s.mrm.lands = some b → s.tk.count < b → exec .charterChangeLands s = .next s) ∧
    (∀ b, s.mrm.lands = some b → b ≤ s.tk.count → ∃ t, exec .charterChangeLands s = .next t ∧ t.mrm.lands = none ∧
      (∀ o ∈ chOffsets, t.reg o = copyGet (s.mrm.copy s.charterCopy) o) ∧ (∀ o, o ∉ chOffsets → t.reg o = s.reg o) ∧
      t.cwy.job = none ∧ (∃ e ∈ t.cwy.evs, e.code = 108 ∧ e.val = s.ledgerUsed) ∧ t.cur = s.cur ∧ t.stage = s.stage ∧
      t.kst = s.kst) := by
  refine ⟨fun hnone => ?_, fun b hb hlt => ?_, fun b hb hle => ?_⟩
  · change execCharterChangeLands s = _
    unfold execCharterChangeLands
    rw [hnone]
  · change execCharterChangeLands s = _
    unfold execCharterChangeLands
    rw [hb]
    exact if_pos hlt
  · let a := s.charterInForce (s.mrm.copy s.charterCopy)
    let c := a.raise 108 s.deckAddr 0 s.ledgerUsed 0
    let d := if s.ledgerUsed = 15 then c.raise 109 s.deckAddr 0 s.ledgerUsed 0 else c
    let e := { d with mrm := { d.mrm with lands := none } }
    have hexec : exec .charterChangeLands s = .next (e.jobDone .success s.ledgerUsed b) := by
      change execCharterChangeLands s = _
      unfold execCharterChangeLands
      rw [hb]
      exact if_neg (Nat.not_lt.mpr hle)
    obtain ⟨haview, hin, hout⟩ := s.charterInForce_spec (s.mrm.copy s.charterCopy) hwf
    obtain ⟨hdring, hdevs⟩ : d.ringless = a.ringless ∧ ∃ e ∈ d.cwy.evs, e.code = 108 ∧ e.val = s.ledgerUsed := by
      obtain ⟨e, he, hcode, -, -, hval⟩ := State.reports_mem (a.raise_reports 108 s.deckAddr 0 s.ledgerUsed 0 (by decide))
      have hc : c.ringless = a.ringless := State.ringless_raise ..
      simp only [d]
      split
      · exact ⟨(State.ringless_raise ..).trans hc, e, c.raise_keeps_events _ _ _ _ _ e he, hcode, hval⟩
      · exact ⟨hc, e, he, hcode, hval⟩
    obtain ⟨hring, hmrm, hevs, hjob⟩ := e.jobDone_spec .success s.ledgerUsed b
    have hview : (e.jobDone .success s.ledgerUsed b).ringless = a.ringless := hring.trans hdring
    have hee : e.cwy.evs = d.cwy.evs := rfl
    have hbar : (e.jobDone .success s.ledgerUsed b).bar = a.bar := eq_of_view _ hview State.bar fun _ => rfl
    have hreg : ∀ o, (e.jobDone .success s.ledgerUsed b).reg o = a.reg o := fun o => by
      unfold State.reg
      rw [hbar]
    refine ⟨_, hexec, by rw [hmrm], fun o ho => (hreg o).trans (hin o ho), fun o ho => (hreg o).trans (hout o ho), hjob, ?_,
      (eq_of_view _ hview State.cur fun _ => rfl).trans (eq_of_view _ haview State.cur fun _ => rfl),
      (eq_of_view _ hview State.stage fun _ => rfl).trans (eq_of_view _ haview State.stage fun _ => rfl),
      (eq_of_view _ hview State.kst fun _ => rfl).trans (eq_of_view _ haview State.kst fun _ => rfl)⟩
    rw [hevs, hee]
    exact hdevs

/-- The trims of a set land in the inputs' registers and in no other (Table 18-4). -/
theorem State.landTrims_spec (s : State) (ws : List Word) (h : Store.wf barReset s.bar = true) :
    (∃ b, s.landTrims ws = { s with bar := b }) ∧ (∀ i : Fin 96, (s.landTrims ws).reg (0x5408 + 0x20 * i.val) = ws.getD i.val 0#32) ∧
    ∀ o, (∀ i : Fin 96, o ≠ 0x5408 + 0x20 * i.val) → (s.landTrims ws).reg o = s.reg o := by
  obtain ⟨n, hn⟩ : ∃ n, n = 96 := ⟨_, rfl⟩
  have hland : s.landTrims ws = s.setRegs ((List.range n).map fun i => (0x5408 + 0x20 * i, ws.getD i 0#32)) := by
    rw [hn]
    exact State.foldl_setReg_eq (fun i => 0x5408 + 0x20 * i) (fun i => ws.getD i 0#32) _ s
  have hfst : ((List.range n).map fun i => (0x5408 + 0x20 * i, ws.getD i 0#32)).map Prod.fst =
      (List.range n).map fun i => 0x5408 + 0x20 * i := List.map_map
  have hnodup : ((List.range n).map fun i => 0x5408 + 0x20 * i).Nodup :=
    List.Nodup.map (fun a b hab => by simpa using hab) List.nodup_range
  rw [← hfst] at hnodup
  rw [hland]
  refine ⟨⟨_, s.setRegs_eq _⟩, fun i => ?_, fun o ho => State.reg_setRegs_ne h fun hmem => ?_⟩
  · exact State.reg_setRegs_mem h hnodup (p := (0x5408 + 0x20 * i.val, ws.getD i.val 0#32))
      (List.mem_map.mpr ⟨i.val, List.mem_range.mpr (hn ▸ i.isLt), rfl⟩)
  · rw [hfst] at hmem
    obtain ⟨i, hi, rfl⟩ := List.mem_map.mp hmem
    exact ho ⟨i, hn ▸ List.mem_range.mp hi⟩ rfl

/-- A calibration set lands at the first boundary after its switch (R419). -/
theorem calSetSwitch_spec (s : State) (hwf : Store.wf barReset s.bar = true) :
    (s.mrm.calLands = none → exec .calSetSwitch s = .next s) ∧
    (∀ b, s.mrm.calLands = some b → s.tk.count < b → exec .calSetSwitch s = .next s) ∧
    (∀ b, s.mrm.calLands = some b → b ≤ s.tk.count → ∃ t, exec .calSetSwitch s = .next t ∧ t.mrm.calLands = none ∧
      t.mrm.calUser = true ∧ t.mrm.calCount = satInc s.mrm.calCount 0xFFFF ∧
      (∀ i : Fin 96, t.reg (0x5408 + 0x20 * i.val) = s.mrm.calSet.getD i.val 0#32) ∧
      (∀ o, (∀ i : Fin 96, o ≠ 0x5408 + 0x20 * i.val) → t.reg o = s.reg o) ∧ t.cwy.job = none ∧
      s.reports t 110 s.deckAddr 0 (satInc s.mrm.calCount 0xFFFF : Nat) 0 ∧ t.legs = s.legs ∧ t.cur = s.cur ∧ t.kst = s.kst) := by
  refine ⟨fun hnone => ?_, fun b hb hlt => ?_, fun b hb hle => ?_⟩
  · change execCalSetSwitch s = _
    unfold execCalSetSwitch
    rw [hnone]
  · change execCalSetSwitch s = _
    unfold execCalSetSwitch
    rw [hb]
    exact if_pos hlt
  · let a := s.calOverwritten
    obtain ⟨⟨bar, hbar⟩, hin, hout⟩ := a.landTrims_spec s.mrm.calSet hwf
    have hexec : exec .calSetSwitch s = .next (((a.landTrims s.mrm.calSet).raise 110 s.deckAddr 0
        (a.landTrims s.mrm.calSet).mrm.calCount 0).jobDone .success (a.landTrims s.mrm.calSet).mrm.calCount b) := by
      change execCalSetSwitch s = _
      unfold execCalSetSwitch
      rw [hb]
      exact if_neg (Nat.not_lt.mpr hle)
    generalize a.landTrims s.mrm.calSet = c at hbar hin hout hexec
    have hcount : c.mrm.calCount = satInc s.mrm.calCount 0xFFFF := by
      rw [hbar]
      rfl
    rw [hcount] at hexec
    have hunlogged := c.unlogged_raise 110 s.deckAddr 0 (satInc s.mrm.calCount 0xFFFF : Nat) 0
    obtain ⟨e, he, hfields⟩ := c.raise_reports 110 s.deckAddr 0 (satInc s.mrm.calCount 0xFFFF : Nat) 0 (by decide)
    generalize c.raise 110 s.deckAddr 0 (satInc s.mrm.calCount 0xFFFF : Nat) 0 = d at hexec hunlogged he
    obtain ⟨hring, hmrm, hevs, hjob⟩ := d.jobDone_spec .success (satInc s.mrm.calCount 0xFFFF) b
    generalize d.jobDone .success (satInc s.mrm.calCount 0xFFFF) b = t at hexec hring hmrm hevs hjob
    have htbar : t.bar = c.bar := (eq_of_view _ hring State.bar fun _ => rfl).trans (eq_of_view _ hunlogged State.bar fun _ => rfl)
    have hreg : ∀ o, t.reg o = c.reg o := fun o => by
      unfold State.reg
      rw [htbar]
    have hlands : d.mrm.calLands = c.mrm.calLands := eq_of_view _ hunlogged (fun t => t.mrm.calLands) fun _ => rfl
    have huser : d.mrm.calUser = c.mrm.calUser := eq_of_view _ hunlogged (fun t => t.mrm.calUser) fun _ => rfl
    have hdcount : d.mrm.calCount = c.mrm.calCount := eq_of_view _ hunlogged (fun t => t.mrm.calCount) fun _ => rfl
    have hlegs : t.legs = c.legs := (eq_of_view _ hring State.legs fun _ => rfl).trans (eq_of_view _ hunlogged State.legs fun _ => rfl)
    have hcur : t.cur = c.cur := (eq_of_view _ hring State.cur fun _ => rfl).trans (eq_of_view _ hunlogged State.cur fun _ => rfl)
    have hkst : t.kst = c.kst := (eq_of_view _ hring State.kst fun _ => rfl).trans (eq_of_view _ hunlogged State.kst fun _ => rfl)
    refine ⟨t, hexec, ?_, ?_, ?_, fun i => (hreg _).trans (hin i), fun o ho => (hreg o).trans (hout o ho), hjob, ⟨e, ?_, hfields⟩, ?_, ?_, ?_⟩
    · rw [hmrm, hlands, hbar]
      rfl
    · rw [hmrm, huser, hbar]
      rfl
    · rw [hmrm, hdcount, hcount]
    · rw [hevs, he, hbar]
      rfl
    · rw [hlegs, hbar]
      rfl
    · rw [hcur, hbar]
      rfl
    · rw [hkst, hbar]
      rfl

end Sys2Proof.Machine
end

section
/-! PROOFS. The commands with a block, updates and the recorder's slots (R416 to R428). -/
namespace Sys2Proof.Machine

/-! ### CHARTER, CAL_WRITE and UPDATE -/

theorem State.jobOp_of {s : State} {j : Job} (hj : s.cwy.job = some j) : s.jobOp = dOp j.cmd := by
  unfold State.jobOp
  rw [hj]

/-- The commands with a block, and the opcode of each. -/
def blockCommands (block : List Byte) (fits : Bool) (proper : Nat) : List (Instr × Nat) :=
  [(.charter block fits, 0x60), (.calWrite block, 0x61), (.update block proper, 0x62)]

/-- With no command of its opcode to take up, a block changes nothing. -/
theorem exec_blockCommand_idle {block : List Byte} {fits : Bool} {proper : Nat} {s : State} {p : Instr × Nat}
    (hp : p ∈ blockCommands block fits proper) (h : s.cwy.job = none ∨ s.jobOp ≠ p.2 ∨ s.jobBegun = true) :
    exec p.1 s = .next s := by
  cases hj : s.cwy.job with
  | none =>
    simp only [blockCommands, List.mem_cons, List.not_mem_nil, or_false] at hp
    rcases hp with rfl | rfl | rfl
    · change execCharter block fits s = _
      unfold execCharter
      rw [hj]
    · change execCalWrite block s = _
      unfold execCalWrite
      rw [hj]
    · change execUpdate block proper s = _
      unfold execUpdate
      rw [hj]
  | some j =>
    have hop := State.jobOp_of hj
    have hcond : dOp j.cmd ≠ p.2 ∨ s.jobBegun = true := by
      rcases h with h | h | h
      · exact absurd (hj.symm.trans h) nofun
      · exact .inl (hop ▸ h)
      · exact .inr h
    simp only [blockCommands, List.mem_cons, List.not_mem_nil, or_false] at hp
    rcases hp with rfl | rfl | rfl
    · change execCharter block fits s = _
      unfold execCharter
      rw [hj]
      exact if_pos hcond
    · change execCalWrite block s = _
      unfold execCalWrite
      rw [hj]
      exact if_pos hcond
    · change execUpdate block proper s = _
      unfold execUpdate
      rw [hj]
      exact if_pos hcond

/-- A freeze ends the command that its block would take up (R402). -/
theorem exec_blockCommand_frozen {block : List Byte} {fits : Bool} {proper : Nat} {s : State} {p : Instr × Nat} {j : Job}
    (hp : p ∈ blockCommands block fits proper) (hj : s.cwy.job = some j) (hop : dOp j.cmd = p.2) (hbegun : s.jobBegun = false)
    (hfrozen : s.trl.frozen = true) : exec p.1 s = .next s.jobFault := by
  have hcond : ¬(dOp j.cmd ≠ p.2 ∨ s.jobBegun = true) := by simp [hop, hbegun]
  simp only [blockCommands, List.mem_cons, List.not_mem_nil, or_false] at hp
  rcases hp with rfl | rfl | rfl
  · change execCharter block fits s = _
    unfold execCharter
    rw [hj]
    exact (if_neg hcond).trans (if_pos hfrozen)
  · change execCalWrite block s = _
    unfold execCalWrite
    rw [hj]
    exact (if_neg hcond).trans (if_pos hfrozen)
  · change execUpdate block proper s = _
    unfold execUpdate
    rw [hj]
    exact (if_neg hcond).trans (if_pos hfrozen)

/-- A block of another length or CRC than its descriptor names ends the command (R358). -/
theorem exec_blockCommand_unsound {block : List Byte} {fits : Bool} {proper : Nat} {s : State} {p : Instr × Nat} {j : Job}
    (hp : p ∈ blockCommands block fits proper) (hj : s.cwy.job = some j) (hop : dOp j.cmd = p.2) (hbegun : s.jobBegun = false)
    (hfrozen : s.trl.frozen = false) (hblock : blockOk j.cmd block = false) :
    exec p.1 s = .next (s.jobDone .invalidParameter 0 s.tk.count) := by
  have hcond : ¬(dOp j.cmd ≠ p.2 ∨ s.jobBegun = true) := by simp [hop, hbegun]
  have hgo : ¬s.trl.frozen = true := by simp [hfrozen]
  simp only [blockCommands, List.mem_cons, List.not_mem_nil, or_false] at hp
  rcases hp with rfl | rfl | rfl
  · change execCharter block fits s = _
    unfold execCharter
    rw [hj]
    exact (if_neg hcond).trans ((if_neg hgo).trans (if_pos (by simp [hblock])))
  · change execCalWrite block s = _
    unfold execCalWrite
    rw [hj]
    exact (if_neg hcond).trans ((if_neg hgo).trans (if_pos (by simp [hblock])))
  · change execUpdate block proper s = _
    unfold execUpdate
    rw [hj]
    exact (if_neg hcond).trans ((if_neg hgo).trans (if_pos (by simp [hblock])))

/-- A valid charter is refused where no change remains, and else its two writes are queued (R416, R417). -/
theorem exec_charter_valid {block : List Byte} {fits : Bool} {s : State} {j : Job} {es : List (Nat × Word)}
    (hj : s.cwy.job = some j) (hop : dOp j.cmd = 0x60) (hbegun : s.jobBegun = false)
    (hfrozen : s.trl.frozen = false) (hblock : blockOk j.cmd block = true) (hes : charterEntries block = some es)
    (hvalid : charterValid (copyGet (copyOf es)) = true) (hfits : fits = true) :
    (s.charterFrozen = true → exec (.charter block fits) s = .next (s.jobDone .charterFrozen 0 s.tk.count)) ∧
    (s.charterFrozen = false → ∃ r : LedgerRec, r.newDigest = charterDigest (copyGet (copyOf es)) ∧
      r.oldDigest = charterDigest s.reg ∧ r.copy = 1 - s.charterCopy ∧ r.hostId = dP j.cmd 16 8 ∧ r.valid = true ∧
      exec (.charter block fits) s = .next { s with mrm := { s.mrm with
        writes := s.mrm.writes ++ [.charter (1 - s.charterCopy) es, .record r] } }) := by
  have hcond : ¬(dOp j.cmd ≠ 0x60 ∨ s.jobBegun = true) := by simp [hop, hbegun]
  have hgo : ¬s.trl.frozen = true := by simp [hfrozen]
  have hsound : ¬(!blockOk j.cmd block) = true := by simp [hblock]
  have hheld : ¬(!charterValid (copyGet (copyOf es)) || !fits) = true := by simp [hvalid, hfits]
  refine ⟨fun hfull => ?_, fun hroom => ⟨{
    kind := 1, fwId := s.kst.fwId, cal := s.calStamp s.tk.now, pylon := s.tk.now / uNs,
    oldDigest := charterDigest s.reg, newDigest := charterDigest (copyGet (copyOf es)), hostId := dP j.cmd 16 8,
    tick := s.tk.count + 1, copy := 1 - s.charterCopy, valid := true }, rfl, rfl, rfl, rfl, rfl, ?_⟩⟩
  · change execCharter block fits s = _
    unfold execCharter
    rw [hj]
    dsimp only
    rw [if_neg hcond, if_neg hgo, if_neg hsound, hes]
    exact (if_neg hheld).trans (if_pos hfull)
  · change execCharter block fits s = _
    unfold execCharter
    rw [hj]
    dsimp only
    rw [if_neg hcond, if_neg hgo, if_neg hsound, hes]
    exact (if_neg hheld).trans (if_neg (by simp [hroom]))

/-- A valid calibration set is staged, switched to and the staging area cleared (R419). -/
theorem exec_calWrite_valid {block : List Byte} {s : State} {j : Job} (hj : s.cwy.job = some j) (hop : dOp j.cmd = 0x61)
    (hbegun : s.jobBegun = false) (hfrozen : s.trl.frozen = false) (hblock : blockOk j.cmd block = true)
    (hlength : block.length = 4096) {ws : List Word}
    (hws : (List.range 1024).map (fun i => (BitVec.ofNat 32 (blkNat block (4 * i) 4) : Word)) = ws) (hset : calSetOk ws = true) :
    exec (.calWrite block) s = .next { s with mrm := { s.mrm with
      writes := s.mrm.writes ++ [.calStage ws, .calSwitch, .calClear] } } := by
  have hcond : ¬(dOp j.cmd ≠ 0x61 ∨ s.jobBegun = true) := by simp [hop, hbegun]
  have hgo : ¬s.trl.frozen = true := by simp [hfrozen]
  change execCalWrite block s = _
  unfold execCalWrite
  rw [hj]
  dsimp only
  rw [hws, if_neg hcond, if_neg hgo]
  exact if_neg (by simp [hblock, hlength, hset])

/-- UPDATE with a block that fits queues it, and the copy that it overwrites is pending no more (R420). -/
theorem exec_update_valid {block : List Byte} {proper : Nat} {s : State} {j : Job} (hj : s.cwy.job = some j) (hop : dOp j.cmd = 0x62)
    (hbegun : s.jobBegun = false) (hfrozen : s.trl.frozen = false) (hblock : blockOk j.cmd block = true)
    (hfw : dP j.cmd 24 1 = 0 → block.length ≤ 8388608)
    (himg : dP j.cmd 24 1 ≠ 0 → proper ≤ 2097152 ∧ proper ≤ block.length ∧ block.length - proper ≤ 8388608) :
    exec (.update block proper) s = .next { s with
      start := s.start.pend (dP j.cmd 24 1) false,
      mrm := { s.mrm with writes := s.mrm.writes ++ [.block (dP j.cmd 24 1) (s.updateCopy (dP j.cmd 24 1)) block proper] } } := by
  have hcond : ¬(dOp j.cmd ≠ 0x62 ∨ s.jobBegun = true) := by simp [hop, hbegun]
  have hgo : ¬s.trl.frozen = true := by simp [hfrozen]
  have hfits : (if dP j.cmd 24 1 = 0 then decide (block.length ≤ 8388608)
      else decide (proper ≤ 2097152) && decide (proper ≤ block.length) && decide (block.length - proper ≤ 8388608)) = true := by
    split
    case isTrue h => exact decide_eq_true (hfw h)
    case isFalse h =>
      obtain ⟨h1, h2, h3⟩ := himg h
      simp [h1, h2, h3]
  change execUpdate block proper s = _
  unfold execUpdate
  rw [hj]
  dsimp only
  rw [if_neg hcond, if_neg hgo]
  refine if_neg fun hc => ?_
  rw [hblock, hfits] at hc
  cases hc

theorem StartS.pend_target (x : StartS) (target : Nat) (p : Bool) :
    (if target = 0 then (x.pend target p).fwPend else (x.pend target p).imgPend) = p := by
  unfold StartS.pend
  split
  · rfl
  · rfl

/-! ### UPDATE_VERIFIED -/

/-- The signature of the written copy decides whether it is pending (R420). -/
theorem updateVerified_spec (ok : Bool) (s : State) :
    (s.cwy.job = none ∨ s.mrm.blockDone = false → exec (.updateVerified ok) s = .next s) ∧
    (∀ j, s.cwy.job = some j → s.mrm.blockDone = true →
      let target := dP j.cmd 24 1
      ∃ t, exec (.updateVerified ok) s = .next t ∧ t.cwy.job = none ∧ t.mrm.blockDone = false ∧
        (ok = true → (if target = 0 then t.start.fwPend else t.start.imgPend) = true ∧
          s.reports t 111 s.deckAddr 1 target (s.updateCopy target : Nat)) ∧
        (ok = false → t.start = s.start ∧ t.cwy.evs = s.cwy.evs) ∧ t.bar = s.bar ∧ t.legs = s.legs ∧ t.cur = s.cur) := by
  refine ⟨fun h => ?_, fun j hj hdone => ?_⟩
  · change execUpdateVerified ok s = _
    unfold execUpdateVerified
    cases hj : s.cwy.job with
    | none => rfl
    | some j =>
      rcases h with h | h
      · exact absurd (hj.symm.trans h) nofun
      · exact if_neg (by simp [h])
  · intro target
    let u : State := { s with mrm := { s.mrm with blockDone := false } }
    cases ok with
    | false =>
      have hexec : exec (.updateVerified false) s = .next (u.jobDone .signatureInvalid 0 u.tk.count) := by
        change execUpdateVerified false s = _
        unfold execUpdateVerified
        rw [hj]
        exact if_pos hdone
      obtain ⟨hring, hmrm, hevs, hjob⟩ := u.jobDone_spec .signatureInvalid 0 u.tk.count
      exact ⟨_, hexec, hjob, by rw [hmrm], nofun, fun _ => ⟨eq_of_view _ hring State.start fun _ => rfl, hevs⟩,
        eq_of_view _ hring State.bar fun _ => rfl, eq_of_view _ hring State.legs fun _ => rfl, eq_of_view _ hring State.cur fun _ => rfl⟩
    | true =>
      let v : State := { u with start := s.start.pend target true }
      let w := v.raise 111 s.deckAddr 1 target (s.updateCopy target : Nat)
      have hexec : exec (.updateVerified true) s = .next (w.jobDone .success (s.updateCopy target) s.tk.count) := by
        change execUpdateVerified true s = _
        unfold execUpdateVerified
        rw [hj]
        exact if_pos hdone
      obtain ⟨hring, hmrm, hevs, hjob⟩ := w.jobDone_spec .success (s.updateCopy target) s.tk.count
      have hview := v.unlogged_raise 111 s.deckAddr 1 target (s.updateCopy target : Nat)
      obtain ⟨e, he, hfields⟩ := v.raise_reports 111 s.deckAddr 1 target (s.updateCopy target : Nat) (by decide)
      have hwring : w.ringless = v.ringless := State.ringless_raise ..
      have hwevs : w.cwy.evs = s.cwy.evs ++ [e] := he
      have hwdone : w.mrm.blockDone = false := eq_of_view _ hview (fun t => t.mrm.blockDone) fun _ => rfl
      clear_value w
      have hrest := hring.trans hwring
      have hstart : (w.jobDone .success (s.updateCopy target) s.tk.count).start = s.start.pend target true :=
        eq_of_view _ hrest State.start fun _ => rfl
      refine ⟨_, hexec, hjob, by rw [hmrm, hwdone], fun _ => ⟨?_, e, hevs.trans hwevs, hfields⟩, nofun,
        eq_of_view _ hrest State.bar fun _ => rfl, eq_of_view _ hrest State.legs fun _ => rfl, eq_of_view _ hrest State.cur fun _ => rfl⟩
      rw [hstart]
      exact s.start.pend_target target true

/-! ### The recorder's slots -/

theorem State.slots_updSlot_wf (s : State) (h : Store.wf (fun _ => RecSlot.free) s.mrm.slots = true) (k : Nat)
    (f : RecSlot → RecSlot) : Store.wf (fun _ => RecSlot.free) (s.updSlot k f).mrm.slots = true := Store.upd_wf h

theorem State.recSlot_updSlot_same (s : State) (h : Store.wf (fun _ => RecSlot.free) s.mrm.slots = true) (k : Nat)
    (f : RecSlot → RecSlot) : (s.updSlot k f).recSlot k = f (s.recSlot k) := Store.get_put_same h

theorem State.recSlot_updSlot_ne (s : State) (h : Store.wf (fun _ => RecSlot.free) s.mrm.slots = true) {j k : Nat} (hkj : k ≠ j)
    (f : RecSlot → RecSlot) : (s.updSlot j f).recSlot k = s.recSlot k := Store.get_put_ne h hkj

/-- Arming opens the slot to arm, empties it, and moves nothing else (R428). -/
theorem State.armSlot_spec (s : State) :
    (∃ m, s.armSlot = { s with mrm := m } ∧ m.open_ = s.slotToArm ∧ m.writes = s.mrm.writes ∧ m.records = s.mrm.records ∧
      m.mem = s.mrm.mem) ∧
    ∀ k, Store.wf (fun _ => RecSlot.free) s.mrm.slots = true → s.slotToArm ≠ some k → s.armSlot.recSlot k = s.recSlot k := by
  unfold State.armSlot
  cases harm : s.slotToArm with
  | none => exact ⟨⟨_, rfl, rfl, rfl, rfl, rfl⟩, fun k _ _ => rfl⟩
  | some j =>
    refine ⟨⟨_, rfl, rfl, rfl, rfl, rfl⟩, fun k hwf hne => ?_⟩
    have hkj : k ≠ j := fun h => hne (congrArg some h.symm)
    exact s.recSlot_updSlot_ne hwf hkj (fun _ => { RecSlot.free with st := 1 })

/-- A record closes once its last row is due no more (R428). -/
theorem recordClose_spec (s : State) :
    let due := ∃ k, s.mrm.open_ = some k ∧ (s.recSlot k).st = 2 ∧ (s.recSlot k).left = 0
    (¬ due → exec .recordClose s = .next s) ∧
    (∀ k, s.mrm.open_ = some k → (s.recSlot k).st = 2 → (s.recSlot k).left = 0 →
      let s1 := s.updSlot k (fun r => { r with st := 3 })
      ∃ t, exec .recordClose s = .next t ∧ t.mrm.writes = s.mrm.writes ++ [.header k] ∧ t.mrm.open_ = s1.slotToArm ∧
        t.mrm.records = s.mrm.records ∧ t.mrm.mem = s.mrm.mem ∧ t.bar = s.bar ∧ t.legs = s.legs ∧ t.cur = s.cur ∧ t.cwy = s.cwy ∧
        (Store.wf (fun _ => RecSlot.free) s.mrm.slots = true → s1.slotToArm ≠ some k → t.recSlot k = { s.recSlot k with st := 3 })) := by
  intro due
  refine ⟨fun hdue => congrArg Host.Outcome.next (?_ : s.closeRecord = s), fun k hopen hst hleft => ?_⟩
  · unfold State.closeRecord
    cases hopen : s.mrm.open_ with
    | none => rfl
    | some k => exact if_neg fun ⟨hst, hleft⟩ => hdue ⟨k, hopen, hst, hleft⟩
  · intro s1
    let s2 : State := { s1 with mrm := { s1.mrm with writes := s1.mrm.writes ++ [MramWrite.header k] } }
    have hclose : s.closeRecord = s2.armSlot := by
      unfold State.closeRecord
      rw [hopen]
      exact if_pos ⟨hst, hleft⟩
    have harm : s2.slotToArm = s1.slotToArm := rfl
    obtain ⟨⟨m, heq, hopened, hwrites, hrecords, hmem⟩, hkeeps⟩ := s2.armSlot_spec
    refine ⟨_, congrArg Host.Outcome.next hclose, ?_⟩
    refine ⟨by rw [heq]; exact hwrites, by rw [heq]; exact hopened, by rw [heq]; exact hrecords, by rw [heq]; exact hmem,
      by rw [heq]; rfl, by rw [heq]; rfl, by rw [heq]; rfl, by rw [heq]; rfl, fun hwf hne => ?_⟩
    have hwf1 : Store.wf (fun _ => RecSlot.free) s1.mrm.slots = true := s.slots_updSlot_wf hwf k _
    have hkept : s2.recSlot k = { s.recSlot k with st := 3 } := s.recSlot_updSlot_same hwf k (fun r => { r with st := 3 })
    exact (hkeeps k hwf1 hne).trans hkept

/-- Slots that a mask names are named for release (R428). -/
theorem mem_foldl_addSet (p : Nat → Bool) (ks l : List Nat) (k : Nat) :
    k ∈ ks.foldl (fun l k => if p k then addSet k l else l) l ↔ k ∈ l ∨ k ∈ ks ∧ p k = true := by
  induction ks generalizing l with
  | nil => simp
  | cons j ks ih =>
    rw [List.foldl_cons, ih]
    by_cases hj : p j = true
    · rw [if_pos hj, mem_addSet_iff, List.mem_cons]
      constructor
      · rintro ((rfl | h) | ⟨h, hp⟩)
        · exact .inr ⟨.inl rfl, hj⟩
        · exact .inl h
        · exact .inr ⟨.inr h, hp⟩
      · rintro (h | ⟨rfl | h, hp⟩)
        · exact .inl (.inr h)
        · exact .inl (.inl rfl)
        · exact .inr ⟨h, hp⟩
    · rw [if_neg hj, List.mem_cons]
      refine or_congr_right ⟨fun ⟨h, hp⟩ => ⟨.inr h, hp⟩, ?_⟩
      rintro ⟨rfl | h, hp⟩
      · exact absurd hp hj
      · exact ⟨h, hp⟩

/-- Settles O58 (R402, R416 to R428). -/
theorem memoryWork : Obligations.MemoryWork := by
  refine ⟨mramWriteDone_spec, charterChangeLands_spec, calSetSwitch_spec, fun block fits proper s => ?_, updateVerified_spec,
    recordClose_spec, fun mask s => ⟨_, fun k => ?_, rfl⟩⟩
  · intro cmds
    refine ⟨fun p hp h => exec_blockCommand_idle hp h, fun p hp hjob hop hbegun hfrozen => ?_,
      fun p hp j hj hop hbegun hfrozen hblock => ⟨exec_blockCommand_unsound hp hj hop hbegun hfrozen hblock, ?_⟩,
      fun j es hj hop hbegun hfrozen hblock hes hvalid hfits => exec_charter_valid hj hop hbegun hfrozen hblock hes hvalid hfits,
      fun j hj hop hbegun hfrozen hblock hlength => exec_calWrite_valid hj hop hbegun hfrozen hblock hlength rfl,
      fun j hj hop hbegun hfrozen hblock hfw himg =>
        ⟨_, exec_update_valid hj hop hbegun hfrozen hblock hfw himg, rfl, s.start.pend_target (dP j.cmd 24 1) false, rfl, rfl, rfl, rfl⟩⟩
    · cases hj : s.cwy.job with
      | none => exact absurd hj hjob
      | some j =>
        refine ⟨exec_blockCommand_frozen hp hj ((State.jobOp_of hj).symm.trans hop) hbegun hfrozen, ?_⟩
        unfold State.jobFault
        exact (State.jobDone_spec ..).2.2.2
    · unfold State.jobDone
      rw [hj]
  · rw [mem_foldl_addSet (fun k => mask.toNat.testBit k), List.mem_range]

end Sys2Proof.Machine
end

section
/-! PROOFS. Host accesses (R20, R52, R63, R431 to R436). -/
namespace Sys2Proof.Machine

/-! ### Writes by access type -/

theorem exec_hostAccess {off : Nat} {v : Word} {be : BitVec 4} {ofs : Nat} {s : State} {c : Instr}
    (hc : c = .registerWrite off v be ofs ∨ c = .tlRegisterWrite off v be ofs) : exec c s = .next (s.hostWrite off v be ofs) := by
  rcases hc with rfl | rfl
  · rfl
  · rfl

/-- A block answers a write, and all byte enables are set (R20, R436). -/
def State.answers (s : State) (p : Block × Nat × Nat) (be : BitVec 4) : Bool :=
  (!s.start.abut || p.1.inAbutment) && decide (be = 0xF#4)

section
variable {off : Nat} {v : Word} {be : BitVec 4} {ofs : Nat} {s : State} {p : Block × Nat × Nat} {row : RegRow}

/-- A reserved offset ignores writes (R432). -/
theorem State.hostWrite_reserved (hrow : regRow off = none) : s.hostWrite off v be ofs = s.at ofs := by
  unfold State.hostWrite
  rw [hrow]
  cases regPlace off <;> rfl

/-- A reserved offset reads 0 (R432). -/
theorem State.readReg_reserved (hrow : regRow off = none) : s.readReg off = 0#32 := by
  unfold State.readReg
  rw [hrow]
  cases regPlace off <;> rfl

/-- A write that the block does not answer, or without all byte enables, is an access violation. -/
theorem State.hostWrite_dead (hplace : regPlace off = some p) (hrow : regRow off = some row) (hdead : s.answers p be = false) :
    s.hostWrite off v be ofs = (s.at ofs).accessViolation off := by
  have hcond : ((s.start.abut && !p.1.inAbutment) || decide (be ≠ 0xF#4)) = true := by
    unfold State.answers at hdead
    revert hdead
    cases s.start.abut <;> cases p.1.inAbutment <;> simp
  unfold State.hostWrite
  rw [hplace, hrow]
  exact if_pos hcond

/-- A write that is answered acts by the access type of its register. -/
theorem State.hostWrite_live (hplace : regPlace off = some p) (hrow : regRow off = some row) (hlive : s.answers p be = true) :
    s.hostWrite off v be ofs = (match row.acc with
      | .ro => (s.at ofs).accessViolation off
      | .rw => (s.at ofs).writeRw off p (v &&& wd row.mask) ofs
      | .lk => if (s.at ofs).unlocked p.1 && (s.at ofs).encodingOk p (v &&& wd row.mask) then
          (s.at ofs).writeLk off p row (v &&& wd row.mask) ofs else (s.at ofs).accessViolation off
      | .lkro => if (s.at ofs).unlocked p.1 && (s.at ofs).encodingOk p (v &&& wd row.mask) then
          (s.at ofs).writeLk off p row (v &&& wd row.mask) ofs else (s.at ofs).accessViolation off
      | .tl => (s.at ofs).holdWrite off (v &&& wd row.mask) ofs
      | .w1s => (s.at ofs).setBits p (v &&& wd row.mask) ofs
      | .w1c => (s.at ofs).clearBits p (v &&& wd row.mask)
      | .mix => (s.at ofs).clearBits p (v &&& wd row.mask)
      | .ws => goOn (s.at ofs) (execDirectWrite (legOf p.2.1) (wregOf p.2.2) (v &&& wd row.mask) ofs (s.at ofs))) := by
  have hcond : ¬((s.start.abut && !p.1.inAbutment) || decide (be ≠ 0xF#4)) = true := by
    unfold State.answers at hlive
    revert hlive
    cases s.start.abut <;> cases p.1.inAbutment <;> simp
  unfold State.hostWrite
  rw [hplace, hrow]
  exact if_neg hcond

/-- A write to an RO register is an access violation (R431). -/
theorem State.hostWrite_ro (hplace : regPlace off = some p) (hrow : regRow off = some row) (hacc : row.acc = .ro) :
    s.hostWrite off v be ofs = (s.at ofs).accessViolation off := by
  cases hlive : s.answers p be with
  | false => exact State.hostWrite_dead hplace hrow hlive
  | true =>
    rw [State.hostWrite_live hplace hrow hlive, hacc]

/-- A write to an LK register after deck ready is an access violation (R431). -/
theorem State.hostWrite_locked (hplace : regPlace off = some p) (hrow : regRow off = some row) (hacc : row.acc = .lk)
    (hready : s.start.ready = true) (habut : s.start.abut = false) : s.hostWrite off v be ofs = (s.at ofs).accessViolation off := by
  cases hlive : s.answers p be with
  | false => exact State.hostWrite_dead hplace hrow hlive
  | true =>
    have hlocked : (s.at ofs).unlocked p.1 = false := by
      unfold State.unlocked
      simp [hready, habut]
    rw [State.hostWrite_live hplace hrow hlive, hacc]
    exact if_neg (by simp [hlocked])

/-- A write to a TL register is held for its boundary (R52). -/
theorem State.holdWrite_spec (off : Nat) (w : Word) (ofs : Nat) (u : State) :
    (u.holdWrite off w ofs).tk.held.getLast? =
      some { off := off, value := w, lands := u.tk.count + (if ofs + 50 * uNs ≤ u.pu then 1 else 2) } ∧
    ∀ h ∈ u.tk.held, h.off ≠ off → h ∈ (u.holdWrite off w ofs).tk.held := by
  have hlands : u.landsAt ofs = u.tk.count + (if ofs + 50 * uNs ≤ u.pu then 1 else 2) := by
    unfold State.landsAt
    split <;> rfl
  rw [← hlands]
  refine ⟨List.getLast?_concat, fun h hh hoff => List.mem_append_left _ (List.mem_filter.mpr ⟨hh, ?_⟩)⟩
  simp [hoff]

/-- A plain RW register of the tick and the MRAM block takes its defined bits. -/
theorem State.writeRw_plain (u : State) (off : Nat) (hblock : p.1 = .tick ∨ p.1 = .mrm) (w : Word) (ofs : Nat) :
    u.writeRw off p w ofs = u.setReg off w := by
  unfold State.writeRw
  rcases hblock with h | h
  · rw [h]
  · rw [h]

/-- An unlocked LK register of a pier or of the Parapet takes its word. -/
theorem State.writeLk_plain (u : State) (off : Nat) (hblock : p.1 = .pier ∨ p.1 = .par) (hacc : row.acc = .lk) (w : Word) (ofs : Nat) :
    u.writeLk off p row w ofs = u.setReg off w := by
  unfold State.writeLk
  rcases hblock with h | h
  · rw [h]
    exact if_neg (by simp [hacc])
  · rw [h]
    exact if_neg (by simp [hacc])

/-- The validity of a word for a pier or for the Parapet does not depend on the instant. -/
theorem State.encodingOk_at (hblock : p.1 = .pier ∨ p.1 = .par) (w : Word) : (s.at ofs).encodingOk p w = s.encodingOk p w := by
  unfold State.encodingOk
  rcases hblock with h | h
  · rw [h]
  · rw [h]

/-- A write to an LK register of a pier or of the Parapet before deck ready. -/
theorem State.hostWrite_lk (hplace : regPlace off = some p) (hrow : regRow off = some row) (hlive : s.answers p be = true)
    (hacc : row.acc = .lk) (hblock : p.1 = .pier ∨ p.1 = .par) (hready : s.start.ready = false) (habut : s.start.abut = false) :
    s.hostWrite off v be ofs = if s.encodingOk p (v &&& wd row.mask) then (s.at ofs).setReg off (v &&& wd row.mask)
      else (s.at ofs).accessViolation off := by
  have hopen : (s.at ofs).unlocked p.1 = true := by
    unfold State.unlocked
    simp [hready, habut]
  rw [State.hostWrite_live hplace hrow hlive, hacc]
  dsimp only
  rw [hopen, Bool.true_and, State.encodingOk_at hblock, State.writeLk_plain _ _ hblock hacc]

end

/-- Writing one register of a state at an offset of its tick. -/
theorem State.setReg_at_spec (s : State) (ofs off : Nat) (w : Word) (hwf : Store.wf barReset s.bar = true) :
    ((s.at ofs).setReg off w).reg off = w ∧ ∀ o, o ≠ off → ((s.at ofs).setReg off w).reg o = s.reg o :=
  ⟨State.reg_setReg_same _ _ _ hwf, fun _ ho => State.reg_setReg_ne _ _ _ _ hwf ho⟩

/-! ### STAT_RESET -/

/-- STAT_RESET resets the slack minimum alone (R63). -/
theorem statReset_spec (s : State) :
    (s.start.abut = false → exec .statReset s = .next { s.at 0 with tk := { (s.at 0).tk with slackMin := 65535, statReset := true } }) ∧
    (s.start.abut = true → exec .statReset s = .next ((s.at 0).accessViolation 0x1040)) := by
  have hplace : regPlace 0x1040 = some (.tick, 0, 0x40) := by decide
  have hrow : regRow 0x1040 = some ⟨0x40, 1, .w1s, 1⟩ := by decide
  refine ⟨fun habut => congrArg Host.Outcome.next ?_, fun habut => congrArg Host.Outcome.next ?_⟩
  · refine (State.hostWrite_live hplace hrow (by simp [State.answers, habut])).trans ?_
    rfl
  · exact State.hostWrite_dead hplace hrow (by simp [State.answers, habut, Block.inAbutment])

/-! ### Latching reads -/

/-- Latch words at their offsets. -/
def State.latch (s : State) (qs : List (Nat × Nat)) : State :=
  qs.foldl (fun t q => { t with hiLatch := Store.put (fun _ => 0#32) t.hiLatch q.1 (wd q.2) }) s

/-- A state but for its latched words. -/
def State.unlatched (s : State) : State := { s with hiLatch := [] }

theorem State.unlatched_latch (s : State) (qs : List (Nat × Nat)) : (s.latch qs).unlatched = s.unlatched :=
  view_foldl State.unlatched (fun (t : State) (q : Nat × Nat) => { t with
    hiLatch := Store.put (fun _ => 0#32) t.hiLatch q.1 (wd q.2) }) (fun _ _ => rfl) qs s

/-- An offset that no word names keeps its latched word. -/
theorem State.latch_other {s : State} (hwf : Store.wf (fun _ => 0#32) s.hiLatch = true) {qs : List (Nat × Nat)} {o : Nat}
    (ho : o ∉ qs.map Prod.fst) : Store.get (fun _ => 0#32) (s.latch qs).hiLatch o = Store.get (fun _ => 0#32) s.hiLatch o := by
  induction qs generalizing s with
  | nil => rfl
  | cons q qs ih =>
    simp only [List.map_cons, List.mem_cons, not_or] at ho
    obtain ⟨hne, hrest⟩ := ho
    have h := ih (s := { s with hiLatch := Store.put (fun _ => 0#32) s.hiLatch q.1 (wd q.2) }) (Store.put_wf hwf) hrest
    exact h.trans (Store.get_put_ne hwf hne)

/-- Words at offsets of their own are all latched. -/
theorem State.latch_mem {s : State} (hwf : Store.wf (fun _ => 0#32) s.hiLatch = true) {qs : List (Nat × Nat)}
    (hnodup : (qs.map Prod.fst).Nodup) {q : Nat × Nat} (hq : q ∈ qs) :
    Store.get (fun _ => 0#32) (s.latch qs).hiLatch q.1 = wd q.2 := by
  induction qs generalizing s with
  | nil => cases hq
  | cons p qs ih =>
    simp only [List.map_cons, List.nodup_cons] at hnodup
    obtain ⟨hp, hrest⟩ := hnodup
    let u : State := { s with hiLatch := Store.put (fun _ => 0#32) s.hiLatch p.1 (wd p.2) }
    have hu : Store.wf (fun _ => 0#32) u.hiLatch = true := Store.put_wf hwf
    rcases List.mem_cons.mp hq with rfl | hq
    · exact (State.latch_other (s := u) hu hp).trans (Store.get_put_same hwf)
    · exact ih (s := u) hu hrest hq

/-- The words of one read stand at offsets of their own (Table 19-2). -/
theorem State.latchWords_nodup (s : State) (off : Nat) : ((s.latchWords off).map Prod.fst).Nodup := by
  unfold State.latchWords
  dsimp only
  split_ifs <;> simp

/-- The block of a register answers a read. -/
def State.readable (s : State) (off : Nat) : Bool :=
  match regPlace off with
  | some p => !(s.start.abut && !p.1.inAbutment)
  | none => false

theorem exec_highWordLatchRead (off ofs : Nat) (s : State) :
    exec (.highWordLatchRead off ofs) s = .next
      ((if (s.at ofs).readable off then (s.at ofs).latch ((s.at ofs).latchWords off) else s.at ofs).readsBack ((s.at ofs).readReg off)) := rfl

/-- The registers that latch words (Table 19-2). -/
def latchOffsets : List Nat := [0x1010, 0x1020, 0x1030, 0x1118, 0x3000C, 0x31128, 0x33000]

theorem State.mem_latchOffsets {s : State} {off : Nat} {q : Nat × Nat} (hq : q ∈ s.latchWords off) : off ∈ latchOffsets := by
  by_contra hoff
  simp only [latchOffsets, List.mem_cons, List.not_mem_nil, or_false, not_or] at hoff
  obtain ⟨h1, h2, h3, h4, h5, h6, h7⟩ := hoff
  unfold State.latchWords at hq
  rw [if_neg h1, if_neg h2, if_neg h3, if_neg h4, if_neg h5, if_neg h6, if_neg h7] at hq
  cases hq

/-- A register that latches words is readable outside abutment mode, and the Keystone's and the calendar's in it too. -/
theorem State.readable_latches {s : State} {off : Nat} {q : Nat × Nat} (hq : q ∈ s.latchWords off)
    (h : s.start.abut = false ∨ off = 0x3000C ∨ off = 0x33000) : s.readable off = true := by
  have hplaced : ∀ o ∈ latchOffsets, (regPlace o).isSome = true := by decide
  obtain ⟨p, hp⟩ := Option.isSome_iff_exists.mp (hplaced off (State.mem_latchOffsets hq))
  have hanswer : s.start.abut = false ∨ p.1.inAbutment = true := by
    refine h.imp id fun hoff => ?_
    rcases hoff with rfl | rfl
    · have hkst : regPlace 0x3000C = some (.kst, 0, 0xC) := by decide
      rw [← Option.some.inj (hkst.symm.trans hp)]
      rfl
    · have hcal : regPlace 0x33000 = some (.cal, 0, 0) := by decide
      rw [← Option.some.inj (hcal.symm.trans hp)]
      rfl
  unfold State.readable
  rw [hp]
  rcases hanswer with h | h
  · simp [h]
  · simp [h]

/-- A latching read answers its register and latches its words (R435). -/
theorem highWordLatchRead_spec (off ofs : Nat) (s : State) :
    let u := s.at ofs
    ∃ t, exec (.highWordLatchRead off ofs) s = .next t ∧ t.lastRead = u.readReg off ∧ t.tk = u.tk ∧ t.bar = s.bar ∧
      t.cwy = s.cwy ∧ t.legs = s.legs ∧ t.cur = s.cur ∧
      (Store.wf (fun _ => 0#32) s.hiLatch = true →
        (∀ q ∈ u.latchWords off, s.start.abut = false ∨ off = 0x3000C ∨ off = 0x33000 →
          Store.get (fun _ => 0#32) t.hiLatch q.1 = wd q.2) ∧
        (s.start.abut = false → off = 0x1010 → Store.get (fun _ => 0#32) t.hiLatch 0x1014 = wd (hi32 s.tk.count)) ∧
        (s.start.abut = false → off = 0x1118 → Store.get (fun _ => 0#32) t.hiLatch 0x111C = wd (hi32 (u.tk.now / uNs))) ∧
        (off = 0x3000C → Store.get (fun _ => 0#32) t.hiLatch 0x30010 = wd (hi32 s.kst.mmTick)) ∧
        (off = 0x33000 → Store.get (fun _ => 0#32) t.hiLatch 0x33008 = wd (u.calVal u.tk.now % 2 ^ 24))) ∧
      (u.latchWords off = [] → t.hiLatch = s.hiLatch) := by
  intro u
  let x := if u.readable off then u.latch (u.latchWords off) else u
  have hview : x.unlatched = u.unlatched := by
    simp only [x]
    split
    · exact u.unlatched_latch _
    · rfl
  have hwords : Store.wf (fun _ => 0#32) s.hiLatch = true → ∀ q ∈ u.latchWords off,
      s.start.abut = false ∨ off = 0x3000C ∨ off = 0x33000 → Store.get (fun _ => 0#32) x.hiLatch q.1 = wd q.2 := by
    intro hwf q hq hopen
    have hx : x = u.latch (u.latchWords off) := if_pos (State.readable_latches hq hopen)
    rw [hx]
    exact State.latch_mem (s := u) hwf (u.latchWords_nodup off) hq
  have hnone : u.latchWords off = [] → x.hiLatch = s.hiLatch := by
    intro hnil
    have hx : x = u := by
      simp only [x, hnil]
      exact ite_self u
    rw [hx]
    rfl
  have hexec : exec (.highWordLatchRead off ofs) s = .next (x.readsBack (u.readReg off)) := exec_highWordLatchRead off ofs s
  clear_value x
  refine ⟨_, hexec, rfl, eq_of_view _ hview State.tk fun _ => rfl, eq_of_view _ hview State.bar fun _ => rfl,
    eq_of_view _ hview State.cwy fun _ => rfl, eq_of_view _ hview State.legs fun _ => rfl, eq_of_view _ hview State.cur fun _ => rfl,
    fun hwf => ⟨hwords hwf, fun habut hoff => ?_, fun habut hoff => ?_, fun hoff => ?_, fun hoff => ?_⟩, hnone⟩
  · exact hwords hwf (0x1014, hi32 s.tk.count) (by subst hoff; exact List.mem_cons_self) (.inl habut)
  · exact hwords hwf (0x111C, hi32 (u.tk.now / uNs)) (by subst hoff; exact List.mem_cons_self) (.inl habut)
  · exact hwords hwf (0x30010, hi32 s.kst.mmTick) (by subst hoff; exact List.mem_cons_self) (.inr (.inl hoff))
  · exact hwords hwf (0x33008, u.calVal u.tk.now % 2 ^ 24) (by subst hoff; exact List.mem_cons_of_mem _ List.mem_cons_self) (.inr (.inr hoff))

/-! ### Data windows -/

/-- What a read of a data window answers and moves: the word read and its address register (R435). -/
def State.Reads (s : State) (c : Instr) (a mask : Nat) (x : Word) : Prop :=
  ∃ t, exec c s = .next t ∧ t.lastRead = x ∧ t.reg a = wd (((s.reg a).toNat + 4) &&& mask) ∧ (∀ o, o ≠ a → t.reg o = s.reg o) ∧
    t.legs = s.legs ∧ t.cur = s.cur ∧ t.cwy = s.cwy

/-- Advancing an address after a read moves that register alone. -/
theorem State.reads_of {s : State} (hwf : Store.wf barReset s.bar = true) {c : Instr} {u : State} {a mask : Nat} {x : Word}
    (hu : u.ringless = { s with lastRead := x }.ringless) (hcwy : u.cwy = s.cwy) (hexec : exec c s = .next (u.advance a mask)) :
    s.Reads c a mask x := by
  have hbar : u.bar = s.bar := eq_of_view _ hu State.bar fun _ => rfl
  have hreg : ∀ o, u.reg o = s.reg o := fun o => by
    unfold State.reg
    rw [hbar]
  have hwfu : Store.wf barReset u.bar = true := hbar ▸ hwf
  refine ⟨_, hexec, eq_of_view _ hu State.lastRead fun _ => rfl, ?_, fun o ho => ?_, eq_of_view _ hu State.legs fun _ => rfl,
    eq_of_view _ hu State.cur fun _ => rfl, hcwy⟩
  · unfold State.advance
    rw [State.reg_setReg_same _ _ _ hwfu, hreg]
  · unfold State.advance
    rw [State.reg_setReg_ne _ _ _ _ hwfu ho, hreg]

theorem exec_dataWindowRead (off : Nat) (ecc : Fin 3) (s : State) (hlive : s.readable off = true) :
    exec (.dataWindowAccess off none ecc) s =
      if off = 0x11B4 then .next ((s.readsBack (s.readReg off)).advance 0x11B0 0xFFFFC)
      else if off = 0x2C044 then .next ((s.readsBack (s.readReg off)).advance 0x2C040 0x7FC)
      else if off = 0x3320C then
        .next (((s.readEcc ecc).readsBack (if ecc.val = 2 then 0#32 else s.readReg off)).advance 0x33208 0x3FFFFFC)
      else if 0x20000 ≤ off ∧ off < 0x2C000 ∧ (off - 0x20000) % 0x400 = 0x9C then
        .next ((s.readsBack (s.readReg off)).stepDaddr ((off - 0x20000) / 0x400))
      else .next (s.readsBack (s.readReg off)) := by
  have hanswers : ¬(!s.readable off) = true := by simp [hlive]
  exact if_neg hanswers

/-- A register is readable outside abutment mode, and in it where its block answers. -/
theorem State.readable_of {s : State} {off : Nat} {p : Block × Nat × Nat} (hplace : regPlace off = some p)
    (h : s.start.abut = false ∨ p.1.inAbutment = true) : s.readable off = true := by
  unfold State.readable
  rw [hplace]
  rcases h with h | h
  · simp [h]
  · simp [h]

/-- An address of object data steps within its 12 bits. -/
theorem State.stepDaddr_eq (s : State) (p : Nat) : s.stepDaddr p = s.advance (0x20098 + 0x400 * p) 0xFFF := by
  have hmod : ∀ n : Nat, n % 4096 = n &&& 0xFFF := fun n => (Nat.and_two_pow_sub_one_eq_mod n 12).symm
  unfold State.stepDaddr State.advance
  dsimp only
  rw [hmod]

/-- The place of the object data of a port. -/
theorem regPlace_objData (p : Port) : regPlace (0x2009C + 0x400 * p.val) = some (.fp, p.val, 0x9C) := by
  revert p
  decide

theorem State.ringless_readEcc (s : State) (ecc : Fin 3) : (s.readEcc ecc).ringless = s.ringless ∧ (s.readEcc ecc).cwy = s.cwy := by
  unfold State.readEcc
  split
  · exact ⟨rfl, rfl⟩
  · split
    · exact ⟨rfl, rfl⟩
    · exact ⟨rfl, rfl⟩

/-- A read of a data window answers it and advances its address by 4 (R435). -/
theorem dataWindowRead_spec (off : Nat) (ecc : Fin 3) (s : State) (hwf : Store.wf barReset s.bar = true) :
    let c := Instr.dataWindowAccess off none ecc
    (off = 0x11B4 → s.start.abut = false → s.Reads c 0x11B0 0xFFFFC (s.readReg off)) ∧
    (off = 0x2C044 → s.start.abut = false → s.Reads c 0x2C040 0x7FC (s.readReg off)) ∧
    (off = 0x3320C → s.Reads c 0x33208 0x3FFFFFC (if ecc.val = 2 then 0#32 else s.readReg off)) ∧
    (∀ p : Port, off = 0x2009C + 0x400 * p.val → s.start.abut = false → s.Reads c (0x20098 + 0x400 * p.val) 0xFFF (s.readReg off)) := by
  intro c
  refine ⟨fun hoff habut => ?_, fun hoff habut => ?_, fun hoff => ?_, fun p hoff habut => ?_⟩
  · subst hoff
    have hplace : regPlace 0x11B4 = some (.tick, 0, 0x1B4) := by decide
    exact State.reads_of (u := s.readsBack (s.readReg 0x11B4)) hwf rfl rfl
      ((exec_dataWindowRead 0x11B4 ecc s (State.readable_of hplace (.inl habut))).trans (if_pos rfl))
  · subst hoff
    have hplace : regPlace 0x2C044 = some (.ldg, 0, 0x44) := by decide
    exact State.reads_of (u := s.readsBack (s.readReg 0x2C044)) hwf rfl rfl
      ((exec_dataWindowRead 0x2C044 ecc s (State.readable_of hplace (.inl habut))).trans ((if_neg (by decide)).trans (if_pos rfl)))
  · subst hoff
    have hplace : regPlace 0x3320C = some (.mrm, 0, 0x10C) := by decide
    obtain ⟨hring, hcwy⟩ := s.ringless_readEcc ecc
    have hu : ((s.readEcc ecc).readsBack (if ecc.val = 2 then 0#32 else s.readReg 0x3320C)).ringless =
        { s with lastRead := if ecc.val = 2 then 0#32 else s.readReg 0x3320C }.ringless :=
      congrArg (fun t : State => { t with lastRead := if ecc.val = 2 then 0#32 else s.readReg 0x3320C }) hring
    exact State.reads_of hwf hu hcwy ((exec_dataWindowRead 0x3320C ecc s (State.readable_of hplace (.inr rfl))).trans
      ((if_neg (by decide)).trans ((if_neg (by decide)).trans (if_pos rfl))))
  · have hp := p.isLt
    have hplace : regPlace off = some (.fp, p.val, 0x9C) := hoff ▸ regPlace_objData p
    have hwindow : 0x20000 ≤ off ∧ off < 0x2C000 ∧ (off - 0x20000) % 0x400 = 0x9C := by omega
    have hport : (off - 0x20000) / 0x400 = p.val := by omega
    refine State.reads_of (u := s.readsBack (s.readReg off)) hwf rfl rfl ?_
    rw [exec_dataWindowRead off ecc s (State.readable_of hplace (.inl habut)), if_neg (by omega), if_neg (by omega), if_neg (by omega),
      if_pos hwindow, hport, State.stepDaddr_eq]

/-- Settles O60 (R20, R52, R63, R431 to R436). -/
theorem registerAccess : Obligations.RegisterAccess := by
  refine ⟨fun off v be ofs s c hc => ?_, statReset_spec, highWordLatchRead_spec, fun off ecc s hwf => ?_⟩
  · rw [exec_hostAccess hc]
    refine ⟨fun hrow => ⟨congrArg _ (State.hostWrite_reserved hrow), State.readReg_reserved hrow⟩, fun p row hplace hrow => ?_⟩
    refine ⟨fun hdead => congrArg _ (State.hostWrite_dead hplace hrow hdead), fun hacc => congrArg _ (State.hostWrite_ro hplace hrow hacc),
      fun hacc hready habut => congrArg _ (State.hostWrite_locked hplace hrow hacc hready habut), fun hlive hacc => ?_,
      fun hlive hacc hblock hwf => ?_, fun hlive hacc hblock hready habut hwf => ?_⟩
    · have hwrite := State.hostWrite_live (v := v) (ofs := ofs) hplace hrow hlive
      rw [hacc] at hwrite
      obtain ⟨hlast, hkept⟩ := State.holdWrite_spec off (v &&& wd row.mask) ofs (s.at ofs)
      exact ⟨_, congrArg _ hwrite, hlast, hkept, rfl, rfl, rfl, rfl⟩
    · have hwrite := State.hostWrite_live (v := v) (ofs := ofs) hplace hrow hlive
      rw [hacc] at hwrite
      obtain ⟨hsame, hother⟩ := s.setReg_at_spec ofs off (v &&& wd row.mask) hwf
      exact ⟨_, congrArg _ (hwrite.trans (State.writeRw_plain _ off hblock _ ofs)), hsame, hother, rfl, rfl, rfl⟩
    · have hwrite := State.hostWrite_lk (v := v) (ofs := ofs) hplace hrow hlive hacc hblock hready habut
      obtain ⟨hsame, hother⟩ := s.setReg_at_spec ofs off (v &&& wd row.mask) hwf
      exact ⟨fun hok => ⟨_, congrArg _ (hwrite.trans (if_pos hok)), hsame, hother, rfl, rfl, rfl, rfl⟩,
        fun hbad => congrArg _ (hwrite.trans (if_neg (by simp [hbad])))⟩
  · obtain ⟨htrace, hledger, hmram, hobject⟩ := dataWindowRead_spec off ecc s hwf
    exact ⟨htrace, hledger, hmram, hobject, fun v => rfl⟩

end Sys2Proof.Machine
end
